-- ==== Sys2Proof/Word.lean ====
section
/-! DEFINITION. Bytes and register words, and the plainest reading of a bit field. -/

namespace Sys2Proof

/-- A byte is 8 bits (R3). -/
abbrev Byte := BitVec 8

/-- A register is 32 bits (R3, R7). -/
abbrev RegWord := BitVec 32

/-- Bits hi to lo of a number (R2: inclusive at both ends, bit 0 least significant). -/
def bits (v hi lo : Nat) : Nat := v / 2 ^ lo % 2 ^ (hi + 1 - lo)

/-- Bit i of a number. -/
def bit (v i : Nat) : Bool := v / 2 ^ i % 2 == 1

/-- A truth value as a bit. -/
def b2n (b : Bool) : Nat := if b then 1 else 0

/-- v with bits hi to lo replaced by x. -/
def putBits (v hi lo x : Nat) : Nat :=
  v - bits v hi lo * 2 ^ lo + x % 2 ^ (hi + 1 - lo) * 2 ^ lo

end Sys2Proof
end

