-- ==== Sys2Proof/Syntax.lean ====
section
/-! DEFINITION. The commands: one constructor per row of spec/opcode_table.json, with the operands that the row's rule gives
the operation or event. -/

namespace Sys2Proof

/-- Who issues a register access or a command (R53, R71): PF0, VF n, core c, or the DMA channel of core c. -/
inductive Src where
  | pf0
  | vf (n : Nat)
  | core (c : Nat)
  | dma (c : Nat)
  deriving DecidableEq, Repr

/-- The completion of an access: read data (R9), Completer Abort (R486), poisoned data (R477), or an access fault in the core
that made it (R471, R474, R477). -/
inductive Completion where
  | data (v : Nat)
  | abort
  | poisoned
  | fault
  deriving DecidableEq, Repr

/-- The four kinds of line-side lanes (R72). -/
inductive LaneKind where
  | pt | pb | ul | ml
  deriving DecidableEq, Repr

/-- The outcome of a burst (R81). -/
inductive BurstEnd where
  | ok | noSignal | noLock | noDelimiter | lostLock
  deriving DecidableEq, Repr

/-- An XGEM frame of a received burst (R123, R124, R354): its port, its key index, the intra-frame position of its payload, the payload as
it stands on the line (encrypted under an index of 1 or 2), whether it ends its packet (LF), and whether an uncorrectable FEC codeword
overlaps it. -/
structure XgemIn where
  port : Nat
  key : Nat
  pos : Nat
  bytes : List Byte
  last : Bool
  fecBad : Bool
  ecc : Nat
  deriving DecidableEq, Repr

/-- One allocation of a received burst (R123, R201, R202): its Alloc-ID, its DBRu (BufOcc and whether the CRC is good) where one
was sent, its non-idle words, its frames, and whether an uncorrectable header ended its delineation. -/
structure AllocIn where
  alloc : Nat
  dbru : Option (Nat × Bool)
  used : Nat
  frames : List XgemIn
  lost : Bool
  deriving DecidableEq, Repr

/-- What the receiver measures of one burst (R80, R81, R121, R123): the upstream frame and the StartTime of its grant; the
amplitude over the first 32 preamble bits in 0.1 mV; the transitions of the preamble in order, each with its preamble bit and the
magnitude of the CDR's phase error there in 1/64 UI; the differing delimiter bits at each position
that came near, as offsets from the expected one; whether lock held to the end; phase (1/64 UI), DC offset (0.1 mV) and taps;
the FS header check, ONU-ID and dying-gasp indication; BIP-32 and FEC counts; its allocations. -/
structure BurstIn where
  tree : Nat
  frame : Nat
  start : Nat
  amp : Nat
  edges : List (Nat × Nat)
  cands : List (Int × Nat)
  held : Bool
  phase : Nat
  dc : Int
  taps : List Int
  headerOk : Bool
  onu : Nat
  dying : Bool
  bip : Nat
  fecCorr : Nat
  fecBad : Nat
  allocs : List AllocIn
  deriving DecidableEq, Repr

/-- A point of an eye scan (R95, R96): the stretches of bits that the monitor slicer examined there, each with the slot of its
burst, whether it lies in the payload of a burst with outcome OK, its bits and the disagreements in it (on UL and ML lanes the slot
and the mark do not count); and the ms that the point took. -/
structure EyePoint where
  parts : List (Nat × Bool × Nat × Nat)
  ms : Nat
  deriving DecidableEq, Repr

/-- The two sweeps of one eye (R95): the points at rising distance from the centre, in 1/64 UI to the left and to the right, in mV
downwards and upwards. -/
structure EyeSweep where
  left : List EyePoint
  right : List EyePoint
  down : List EyePoint
  up : List EyePoint
  deriving DecidableEq, Repr

/-- A frame that an uplink port receives (R361 to R364, R385, R394): its bytes from DA without FCS as they stand on the wire,
whether its FCS is good, whether it holds an error control character or overlaps an uncorrectable FEC codeword, and C in ns at
the first bit after its SFD with the device's path corrections made. -/
structure FrameIn where
  port : Nat
  bytes : List Byte
  fcsOk : Bool
  codeErr : Bool
  at_ : Nat
  ecc : Nat
  deriving DecidableEq, Repr

/-- An allocation structure of a received MAP cell (R449): Alloc-ID, flags, StartTime, GrantSize, burst profile index. -/
structure MapStruct where
  alloc : Nat
  dbru : Bool
  ploamu : Bool
  start : Nat
  size : Nat
  prof : Nat
  deriving DecidableEq, Repr

/-- What a HELLO cell carries (R449): STRUCTURE_ID, ROLE, MODE, TREES, two state bits and a FIT bit per tree, C at the mate's
boundary in ps, the last C it received with its arrival time in ps, and the check value of the pair key, where it holds one. -/
structure HelloIn where
  structId : List Byte
  role : Nat
  mode : Nat
  trees : Nat
  states : Nat
  fit : Nat
  c : Nat
  echo : Option (Nat × Nat)
  check : Option Nat
  deriving DecidableEq, Repr

/-- What training finds on a DDR5 channel (R320, R347): its TRAIN_ERR (0 none, 1 no device, 3 step out of limits, 5 ECC check),
the capacity in GiB and the ranks. -/
structure DdrIn where
  err : Nat
  cap : Nat
  ranks : Nat
  deriving DecidableEq, Repr

/-- What a boot meets outside the device's own state (R42, R320): the read stage (1 header, 2 signature block, 3 whole image,
4 header again, 5 sections, 6 structure; 0 none) at which a read of the firmware or of the image faults, the HBM2E's TRAIN_ERR,
and the DDR5 channels. -/
structure BootIn where
  fwFault : Nat
  imgFault : Nat
  hbm : Nat
  ddr : List DdrIn
  deriving DecidableEq, Repr

/-- Where a word access goes: to the scratchpad; to the core's own local memory (R470, R471); to the scratchpad by the device engine of a
port from 5 to 13 (R473), which then stands for the access that the engine's own operation makes in that cycle. -/
inductive SpAt where
  | pad | loc
  | eng (port : Nat)
  deriving DecidableEq, Repr

/-- One access to a scratchpad word (R474, R475): its source, the offset in that source's space, whether it writes, whether a
core's write asks for the word as it was (AMOADD.D, AMOSWAP.D), the enabled bytes of the 64-bit word, the data in place, and where it
goes. -/
structure SpAcc where
  src : Src
  off : Nat
  write : Bool
  amo : Bool
  be : Nat
  data : Nat
  at_ : SpAt
  deriving DecidableEq, Repr

/-- What the configuration space of a PCI Express function says (R484): its identity, the SR-IOV numbers, the base addresses, payload and
read-request sizes, the power state, the MSI-X table size, and the link. -/
inductive CfgField where
  | vendorId | deviceId | classCode | totalVfs | firstVfOffset | vfStride | numVfs | vfEnable | bar0 | bar2 | vfBar0 | maxPayload
  | maxReadReq | power | vectors | linkSpeed | linkWidth
  deriving DecidableEq, Repr

/-- What fails of a record's write (R517, R522): the program operation, or the read-back compare. -/
inductive RecOp where
  | program | compare
  deriving DecidableEq, Repr

/-- PCIE_PERST_N, and for its rise the link that trains: speed in tenths of GT/s and lanes (R484, R549). -/
structure PerstIn where
  level : Bool
  speed : Nat
  width : Nat
  deriving DecidableEq, Repr

/-- A memory-request TLP or core access over consecutive registers (R7, R8): a read of n words, or a write of words with their
byte enables, in rising address order; or a configuration request to the function (R484). -/
inductive BusAcc where
  | read (be n : Nat)
  | write (ws : List (Nat × Nat))
  | cfgRead (f : CfgField)
  | cfgWrite (f : CfgField) (v : Nat)
  deriving DecidableEq, Repr

/-- The low words whose write is held (R570): of TF_PONID of a tree, of TB_INC, of TB_CMP_TGT of a compare, of
CE_MS_PN_THRESH. -/
inductive LowPair where
  | ponid (t : Nat)
  | inc
  | cmpTgt (n : Nat)
  | pnThresh
  deriving DecidableEq, Repr

/-- The reference clocks (R551). -/
inductive RefClk where
  | sys | eth | pon
  deriving DecidableEq, Repr

/-- A command in a command window (R53 to R56): its source, SEQ tag, _OBJ and _DATA words. -/
structure CmdArgs where
  src : Src
  seq : Nat
  obj : Nat
  data : List Nat
  deriving DecidableEq, Repr

/-- One access and the others of its cycle, each with its source and offset (R71). -/
structure CycleAcc where
  acc : BusAcc
  also : List (Src × Nat × BusAcc)
  deriving DecidableEq, Repr

/-- A JTAG instruction, with a data scan that may follow it: what the pins show, and the bits shifted in (R566 to R568). -/
structure JtagIn where
  code : Nat
  scan : Option (Nat × Nat)
  deriving DecidableEq, Repr

/-- A refill of a tree's lane, and whether the Benchmark store's read meets an uncorrectable error (R78, R79). -/
structure RefillIn where
  tree : Nat
  ue : Bool
  deriving DecidableEq, Repr

/-- Energy that a PB lane receives (R82): its bit position in the frame, its amplitude in 0.1 mV and its length in bits. -/
structure EnergyIn where
  pos : Nat
  amp : Nat
  len : Nat
  deriving DecidableEq, Repr

/-- A run of samples of 100 ns on a lane (R89): the lane, the level in mV or the deviation in ppm, and their number. -/
structure LaneRun where
  lane : Nat
  level : Nat
  n : Nat
  deriving DecidableEq, Repr

/-- What a port's frames do where a condition strikes it (R383): whether a frame is being sent, whether its timestamp is owed, and
whether a frame is being received. -/
structure LinkCut where
  sending : Bool
  stamped : Bool
  receiving : Bool
  deriving DecidableEq, Repr

/-- What a checker receives (R97, R98): the lane, the bits that follow the pattern without an error, then the levels, one for each
UI. -/
structure PrbsIn where
  lane : Nat
  same : Nat
  rx : List Nat
  deriving DecidableEq, Repr

/-- A port's condition by its code (R383), and where it is LOA the lanes with their delays as their markers show them (R87). -/
structure CondIn where
  code : Nat
  lanes : List (Nat × Nat)
  deriving DecidableEq, Repr

/-- What else enters an allocation round (R326): whether the prefetch engine has a request, and a BUF_ALLOC issued in the cycle. -/
structure RoundIn where
  fetch : Bool
  buf : Option CmdArgs
  deriving DecidableEq, Repr

/-- What a look-aside descriptor meets beside its data (R351, R371): a read fault at TAG_ADDR, and what the key store reports (1
corrected, 2 uncorrectable). -/
structure LaMeets where
  tagFault : Bool
  ecc : Nat
  deriving DecidableEq, Repr

/-- The mate lane that a marker arrives on, the LANE field of the marker and its delay in UI (R87, R447). -/
structure MarkerLane where
  lane : Nat
  named : Nat
  delay : Nat
  deriving DecidableEq, Repr

/-- A CONTROL or COPY cell as it arrives (R446 to R448): its lane, SEQ, the tick of its arrival counted from the first of its list, whether
its codeword and CRC are good, whether it is a COPY cell, and its data of LEN bytes. -/
structure CellRx where
  lane : Nat
  seq : Nat
  at_ : Nat
  ok : Bool
  copy : Bool
  data : List Byte
  deriving DecidableEq, Repr

/-- The commands, one constructor per row of the table, named after its mnemonic. Where a row is an event, `dt` timebase ticks pass
before it; `src` names who makes an access, `c` holds the words of a command. The rows without operands stand last. -/
inductive Instr where
  /-- REGISTER_WRITE (R11). -/
  | registerWrite (src : Src) (off : Nat) (a : CycleAcc)
  /-- OUT_OF_SLICE_ACCESS (R486). -/
  | outOfSliceAccess (v off : Nat) (a : BusAcc)
  /-- LOW_WORD_WRITE (R570). -/
  | lowWordWrite (src : Src) (p : LowPair) (v : Nat)
  /-- PONID_HI_WRITE (R118). -/
  | ponidHiWrite (src : Src) (t v : Nat)
  /-- INC_HI_WRITE (R404). -/
  | incHiWrite (src : Src) (v : Nat)
  /-- CMP_TGT_HI_WRITE (R409). -/
  | cmpTgtHiWrite (src : Src) (n v : Nat)
  /-- PN_THRESH_HI_WRITE (R376). -/
  | pnThreshHiWrite (src : Src) (v : Nat)
  /-- SFC_LO_READ (R144). -/
  | sfcLoRead (src : Src) (t : Nat)
  /-- UL_STAT_LO_READ (R401). -/
  | ulStatLoRead (src : Src) (u j : Nat)
  /-- MGMT_STAT_LO_READ (R490). -/
  | mgmtStatLoRead (src : Src) (j : Nat)
  /-- CNT_LO_READ (R529). -/
  | cntLoRead (src : Src) (prog : Bool) (n : Nat)
  /-- NOW_LO_READ (R430). -/
  | nowLoRead (src : Src)
  /-- TOD_NS_READ (R430). -/
  | todNsRead (src : Src)
  /-- CAP_LO_READ (R412). -/
  | capLoRead (src : Src) (n : Nat)
  /-- TODCAP_T_LO_READ (R432). -/
  | todcapTLoRead (src : Src) (n : Nat)
  /-- FREE_ERR_READ (R344). -/
  | freeErrRead (src : Src)
  /-- PORST_N (R545). -/
  | porstN (dt : Nat) (level : Bool) (straps : Nat) (testEn : Bool)
  /-- SRST_N (R546). -/
  | srstN (dt : Nat) (level : Bool)
  /-- PWRFAIL_N_FALL (R523). -/
  | pwrfailNFall (dt fits : Nat)
  /-- PCIE_PERST_N (R549). -/
  | pciePerstN (dt : Nat) (p : PerstIn)
  /-- REFCLK_LOSS (R552). -/
  | refclkLoss (dt : Nat) (c : RefClk)
  /-- REFCLK_RETURN (R552). -/
  | refclkReturn (dt : Nat) (c : RefClk)
  /-- JTAG_INSTRUCTION (R566 to R568). -/
  | jtagInstruction (dt : Nat) (j : JtagIn)
  /-- BOOT_LOAD (R42). -/
  | bootLoad (dt : Nat) (b : BootIn)
  /-- START (R47). -/
  | start (c : CmdArgs)
  /-- QUIESCE (R48). -/
  | quiesce (c : CmdArgs)
  /-- RESUME (R48). -/
  | resume (c : CmdArgs)
  /-- WARM_RESET (R47). -/
  | warmReset (c : CmdArgs)
  /-- LOAD_HOST (R60). -/
  | loadHost (c : CmdArgs)
  /-- LOAD_REACH (R50). -/
  | loadReach (c : CmdArgs)
  /-- REACH_LOAD_DONE (R52). -/
  | reachLoadDone (dt fault : Nat)
  /-- LIGHT_REACH (R50). -/
  | lightReach (c : CmdArgs)
  /-- DARKEN_REACH (R51). -/
  | darkenReach (c : CmdArgs)
  /-- FRAME_BOUNDARY (R116). -/
  | frameBoundary (dt : Nat)
  /-- PLL_UNLOCK (R76). -/
  | pllUnlock (dt : Nat) (k : LaneKind) (j : Nat)
  /-- SWAP_BIT (R77). -/
  | swapBit (dt t : Nat)
  /-- PROFILE_REFILL (R78). -/
  | profileRefill (dt : Nat) (x : RefillIn)
  /-- BURST_OUTCOME (R81). -/
  | burstOutcome (dt : Nat) (j : BurstIn)
  /-- UNGRANTED_ENERGY (R82). -/
  | ungrantedEnergy (dt t frame : Nat) (x : EnergyIn)
  /-- REASM_TIMEOUT (R124). -/
  | reasmTimeout (dt t port : Nat)
  /-- LANE_LOS_SET (R89). -/
  | laneLosSet (dt : Nat) (k : LaneKind) (x : LaneRun) (sending stamped receiving : Bool)
  /-- LANE_LOS_CLEAR (R89). -/
  | laneLosClear (dt : Nat) (k : LaneKind) (x : LaneRun) (sending stamped receiving : Bool)
  /-- LANE_LOL_SET (R89). -/
  | laneLolSet (dt : Nat) (k : LaneKind) (x : LaneRun × LinkCut)
  /-- LANE_LOL_CLEAR (R89). -/
  | laneLolClear (dt : Nat) (k : LaneKind) (x : LaneRun)
  /-- MATE_LANE_REJOIN (R93). -/
  | mateLaneRejoin (dt m : Nat)
  /-- EYE_SCAN_DONE (R95): the sweeps to the four sides, one of each for each eye. -/
  | eyeScanDone (dt : Nat) (k : LaneKind) (j : Nat) (left right down up : List (List EyePoint))
  /-- PRBS_LOCK_LOSS (R98). -/
  | prbsLockLoss (dt : Nat) (k : LaneKind) (j same : Nat) (rx : List Nat)
  /-- CHK_CLR (R110). -/
  | chkClr (src : Src) (k : LaneKind) (j : Nat) (errNow : Bool)
  /-- ERR_INJECT (R110). -/
  | errInject (src : Src) (k : LaneKind) (j : Nat)
  /-- TREE_OFF (R115). -/
  | treeOff (r : Nat) (c : CmdArgs)
  /-- TREE_STANDBY (R115). -/
  | treeStandby (r : Nat) (c : CmdArgs)
  /-- TREE_ACTIVE (R115). -/
  | treeActive (r : Nat) (c : CmdArgs)
  /-- SET_SFC (R116). -/
  | setSfc (r : Nat) (c : CmdArgs)
  /-- TERM_DEFECTS (R149). -/
  | termDefects (r : Nat) (c : CmdArgs)
  /-- PM_READ (R149). -/
  | pmRead (r : Nat) (c : CmdArgs)
  /-- PM_RESET_CURRENT (R137). -/
  | pmResetCurrent (r : Nat) (c : CmdArgs)
  /-- PM_HISTORY_WRITE (R135). -/
  | pmHistoryWrite (dt r : Nat)
  /-- XGEM_PORT_ADD (R125). -/
  | xgemPortAdd (r : Nat) (c : CmdArgs)
  /-- XGEM_PORT_DEL (R125). -/
  | xgemPortDel (r : Nat) (c : CmdArgs)
  /-- XGEM_PORT_READ (R149). -/
  | xgemPortRead (r : Nat) (c : CmdArgs)
  /-- DEFECT_POP (R147). -/
  | defectPop (src : Src) (t : Nat)
  /-- SERIAL_NUMBER_ONU (R160): the message up to its MIC, and the MIC. -/
  | serialNumberOnu (dt t : Nat) (diff : Int) (bytes mic : List Byte)
  /-- REGISTRATION (R165). -/
  | registration (dt g : Nat) (diff : Int) (bytes mic : List Byte)
  /-- ACKNOWLEDGE (R177): the four bytes that end with the sequence number, the content, and the MIC. -/
  | acknowledge (dt g : Nat) (head bytes mic : List Byte)
  /-- PLOAMU_HOST_MESSAGE (R180). -/
  | ploamuHostMessage (dt t slot : Nat) (bytes mic : List Byte)
  /-- ACTIVATION_FAIL (R165). -/
  | activationFail (dt g : Nat)
  /-- LOST_TIMEOUT (R156). -/
  | lostTimeout (dt g : Nat)
  /-- ADJ_WAIT_EXPIRY (R167). -/
  | adjWaitExpiry (dt g : Nat)
  /-- TERM_PROVISION (R156). -/
  | termProvision (r : Nat) (c : CmdArgs)
  /-- TERM_ASSIGN (R156). -/
  | termAssign (r : Nat) (c : CmdArgs)
  /-- TERM_DEACTIVATE (R156). -/
  | termDeactivate (r : Nat) (c : CmdArgs)
  /-- TERM_DISABLE (R156). -/
  | termDisable (r : Nat) (c : CmdArgs)
  /-- TERM_ENABLE (R156). -/
  | termEnable (r : Nat) (c : CmdArgs)
  /-- TERM_RELEASE (R156). -/
  | termRelease (r : Nat) (c : CmdArgs)
  /-- TERM_SET_IK (R178). -/
  | termSetIk (r : Nat) (c : CmdArgs)
  /-- TERM_READ (R192). -/
  | termRead (r : Nat) (c : CmdArgs)
  /-- PROFILE_READ (R192). -/
  | profileRead (r : Nat) (c : CmdArgs)
  /-- PROFILE_INVALIDATE (R173). -/
  | profileInvalidate (r : Nat) (c : CmdArgs)
  /-- PLOAM_TAIL (R192). -/
  | ploamTail (r : Nat) (c : CmdArgs)
  /-- PLOAM_SEND (R192). -/
  | ploamSend (r : Nat) (c : CmdArgs)
  /-- PLOAMU_POP (R180). -/
  | ploamuPop (src : Src) (t : Nat)
  /-- DISC_POP (R161). -/
  | discPop (src : Src) (r : Nat)
  /-- MAP_COMPUTATION_START (R193). -/
  | mapComputationStart (dt t waits : Nat)
  /-- MAP_DEADLINE (R195). -/
  | mapDeadline (dt t : Nat)
  /-- PREDICTOR_BIN_END (R204). -/
  | predictorBinEnd (dt t : Nat) (day : Bool)
  /-- DAY_PROFILE_LOAD (R205). -/
  | dayProfileLoad (dt t : Nat)
  /-- COOP_PI_WRITE (R216). -/
  | coopPiWrite (src : Src) (r v : Nat)
  /-- COOP_EN_WRITE (R229). -/
  | coopEnWrite (src : Src) (r : Nat) (en : Bool)
  /-- ALLOC_ADD (R230). -/
  | allocAdd (t : Nat) (c : CmdArgs)
  /-- ALLOC_MODIFY (R230). -/
  | allocModify (t : Nat) (c : CmdArgs)
  /-- ALLOC_DEL (R230). -/
  | allocDel (t : Nat) (c : CmdArgs)
  /-- ALLOC_READ (R230). -/
  | allocRead (t : Nat) (c : CmdArgs)
  /-- PRED_READ (R230). -/
  | predRead (t : Nat) (c : CmdArgs)
  /-- PRED_RESET (R230). -/
  | predReset (t : Nat) (c : CmdArgs)
  /-- MAP_READ (R230). -/
  | mapRead (t : Nat) (c : CmdArgs)
  /-- PACKET_INGRESS (R248). -/
  | packetIngress (dt pipe : Nat)
  /-- ENQUEUE_COMMIT (R31). -/
  | enqueueCommit (dt k : Nat)
  /-- RULE_WRITE (R260). -/
  | ruleWrite (c : CmdArgs)
  /-- RULE_READ (R260). -/
  | ruleRead (c : CmdArgs)
  /-- KEY_PROFILE_WRITE (R244). -/
  | keyProfileWrite (c : CmdArgs)
  /-- KEY_PROFILE_READ (R260). -/
  | keyProfileRead (c : CmdArgs)
  /-- MIRROR_WRITE (R260). -/
  | mirrorWrite (c : CmdArgs)
  /-- MIRROR_READ (R260). -/
  | mirrorRead (c : CmdArgs)
  /-- BANK_COPY (R260). -/
  | bankCopy (c : CmdArgs)
  /-- BANK_SWAP (R258). -/
  | bankSwap (c : CmdArgs)
  /-- BANK_CLEAR (R260). -/
  | bankClear (c : CmdArgs)
  /-- INSERT (R266). -/
  | insert (c : CmdArgs)
  /-- UPDATE (R268). -/
  | update (c : CmdArgs)
  /-- DELETE (R268). -/
  | delete (c : CmdArgs)
  /-- LOOKUP (R282). -/
  | lookup (c : CmdArgs)
  /-- SLOT_READ (R282). -/
  | slotRead (c : CmdArgs)
  /-- REBUILD (R270). -/
  | rebuild (c : CmdArgs)
  /-- FLOW_STORE_SCRUB (R265): the bucket read, and the errors that have arisen before it in entries and in tags, each with its slot
  and whether it is of one bit (1) or more (2). -/
  | flowStoreScrub (dt b : Nat) (ents tags : List (Nat × Nat))
  /-- POLICER_WRITE (R280). -/
  | policerWrite (c : CmdArgs)
  /-- POLICER_READ (R280). -/
  | policerRead (c : CmdArgs)
  /-- PROF_WRITE (R276). -/
  | profWrite (c : CmdArgs)
  /-- PROF_READ (R282). -/
  | profRead (c : CmdArgs)
  /-- POLICER_REFRESH (R279). -/
  | policerRefresh (dt n : Nat)
  /-- DEQUEUE_DECISION (R290). -/
  | dequeueDecision (dt p at_ ecc : Nat)
  /-- AGING_SCAN (R304). -/
  | agingScan (dt q : Nat)
  /-- SHAPER_REFRESH (R294). -/
  | shaperRefresh (dt : Nat) (node : Bool) (n k : Nat)
  /-- QUEUE_WRITE (R285). -/
  | queueWrite (c : CmdArgs)
  /-- QUEUE_READ (R314). -/
  | queueRead (c : CmdArgs)
  /-- QUEUE_FLUSH (R305). -/
  | queueFlush (c : CmdArgs)
  /-- QUEUE_HOLD (R306). -/
  | queueHold (c : CmdArgs)
  /-- NODE_WRITE (R283). -/
  | nodeWrite (c : CmdArgs)
  /-- NODE_READ (R314). -/
  | nodeRead (c : CmdArgs)
  /-- SHAPER_WRITE (R295). -/
  | shaperWrite (c : CmdArgs)
  /-- SHAPER_READ (R314). -/
  | shaperRead (c : CmdArgs)
  /-- ALLOCATION_ROUND (R326): the pipelines whose packets commit in the cycle, and what else asks. -/
  | allocationRound (dt : Nat) (pipes : List Nat) (x : RoundIn)
  /-- PREFETCH (R330): `ends` says that the copy, started now or before, ends. -/
  | prefetch (dt : Nat) (ends : Bool)
  /-- MEMORY_SCRUB (R336). -/
  | memoryScrub (dt n err : Nat) (link : Bool)
  /-- CATTRIP (R320). -/
  | cattrip (dt : Nat)
  /-- BUF_ALLOC (R348). -/
  | bufAlloc (c : CmdArgs)
  /-- BUF_FREE (R348). -/
  | bufFree (c : CmdArgs)
  /-- CELL_READ (R348). -/
  | cellRead (c : CmdArgs)
  /-- CELL_WRITE (R348). -/
  | cellWrite (c : CmdArgs)
  /-- CELL_RETIRE (R348). -/
  | cellRetire (c : CmdArgs)
  /-- RETIRE_READ (R348). -/
  | retireRead (c : CmdArgs)
  /-- RECLAIM (R339). -/
  | reclaim (c : CmdArgs)
  /-- ECC_INJECT (R348). -/
  | eccInject (c : CmdArgs)
  /-- ECC_POP (R345). -/
  | eccPop (src : Src)
  /-- PON_KEY_INSTALL (R378). -/
  | ponKeyInstall (c : CmdArgs)
  /-- PON_KEY_SWITCH (R357). -/
  | ponKeySwitch (c : CmdArgs)
  /-- PON_KEY_CLEAR (R378). -/
  | ponKeyClear (c : CmdArgs)
  /-- PON_KEY_READ (R378). -/
  | ponKeyRead (c : CmdArgs)
  /-- MS_SA_KEY (R378). -/
  | msSaKey (c : CmdArgs)
  /-- MS_SA_PARAM (R378). -/
  | msSaParam (c : CmdArgs)
  /-- MS_SA_PN (R378). -/
  | msSaPn (c : CmdArgs)
  /-- MS_SA_ENABLE (R362). -/
  | msSaEnable (c : CmdArgs)
  /-- MS_SA_DISABLE (R378). -/
  | msSaDisable (c : CmdArgs)
  /-- MS_SA_READ (R378). -/
  | msSaRead (c : CmdArgs)
  /-- LA_KEY_WRITE (R378). -/
  | laKeyWrite (c : CmdArgs)
  /-- LA_KEY_CLEAR (R378). -/
  | laKeyClear (c : CmdArgs)
  /-- LA_KEY_READ (R378). -/
  | laKeyRead (c : CmdArgs)
  /-- LA_PI_WRITE (R367). -/
  | laPiWrite (src : Src) (n v : Nat)
  /-- LA_DESCRIPTOR (R371). -/
  | laDescriptor (dt n : Nat) (fault : Option Nat) (x : LaMeets)
  /-- KEY_EVT_POP (R375). -/
  | keyEvtPop (src : Src)
  /-- UPLINK_FRAME_RECEIVE (R385). -/
  | uplinkFrameReceive (dt : Nat) (f : FrameIn)
  /-- PAUSE_FRAME (R389). -/
  | pauseFrame (dt u q : Nat)
  /-- PFC_FRAME (R389). -/
  | pfcFrame (dt u en : Nat) (qs : List Nat)
  /-- PAUSE_TIMER_EXPIRY (R389). -/
  | pauseTimerExpiry (dt u : Nat)
  /-- XOFF_REPEAT (R390). -/
  | xoffRepeat (dt u c : Nat)
  /-- PORT_CONDITION_CHANGE (R383). -/
  | portConditionChange (dt u : Nat) (x : CondIn) (on sending stamped receiving : Bool)
  /-- PORT_UP (R380). -/
  | portUp (dt u : Nat)
  /-- DEGRADED_WINDOW_END (R387). -/
  | degradedWindowEnd (dt u corr uncorr : Nat) (syms : List Nat)
  /-- CLR_STATS (R396). -/
  | clrStats (src : Src) (u : Nat) (incs : List Nat)
  /-- TIME_SET (R406). -/
  | timeSet (c : CmdArgs)
  /-- TIME_STEP (R406). -/
  | timeStep (c : CmdArgs)
  /-- TIME_SLEW (R407). -/
  | timeSlew (c : CmdArgs)
  /-- FRAME_ALIGN (R413). -/
  | frameAlign (c : CmdArgs)
  /-- ALIGNED_INSTANT (R413). -/
  | alignedInstant (dt : Nat)
  /-- COMPARE_FIRE (R409). -/
  | compareFire (dt n : Nat)
  /-- CAPTURE_EDGE (R412). -/
  | captureEdge (dt n : Nat) (falling : Bool)
  /-- TODCAP_ARM (R415). -/
  | todcapArm (src : Src) (n t : Nat)
  /-- TXTS_POP (R416). -/
  | txtsPop (src : Src) (u : Nat)
  /-- CLR_LOST (R433). -/
  | clrLost (src : Src) (u : Nat) (lossNow : Bool)
  /-- GCL_WRITE (R434). -/
  | gclWrite (c : CmdArgs)
  /-- GCL_COMMIT (R422). -/
  | gclCommit (c : CmdArgs)
  /-- GCL_START (R422). -/
  | gclStart (dt u : Nat)
  /-- GCL_CANCEL (R434). -/
  | gclCancel (c : CmdArgs)
  /-- GCL_STOP (R434). -/
  | gclStop (c : CmdArgs)
  /-- GCL_READ (R434). -/
  | gclRead (c : CmdArgs)
  /-- CHAIN_MODE_CHANGE (R426). -/
  | chainModeChange (dt : Nat)
  /-- HELLO_CELL (R449). -/
  | helloCell (dt : Nat) (h : HelloIn)
  /-- SWITCH_REQ_CELL (R441). -/
  | switchReqCell (dt t cause : Nat)
  /-- COMMIT_CELL (R441). -/
  | commitCell (dt t sfc cause : Nat)
  /-- RECORD_CELL (R524). -/
  | recordCell (dt : Nat) (bytes : List Byte)
  /-- MAP_CELL (R449). -/
  | mapCell (dt t sfc part parts : Nat) (replayed : Bool) (ss : List MapStruct)
  /-- NEED_CELL (R456). -/
  | needCell (dt t : Nat) (slots : List Nat)
  /-- MARKER_CELL (R447). -/
  | markerCell (dt : Nat) (m : MarkerLane) (mask seq : Nat)
  /-- COPY_FRAME (R453). -/
  | copyFrame (dt : Nat) (cells : List CellRx) (lost : Bool)
  /-- WTR_EXPIRY (R445). -/
  | wtrExpiry (dt t : Nat)
  /-- LINK_TAKEOVER (R457). -/
  | linkTakeover (dt t : Nat)
  /-- STARTUP_TAKEOVER (R438). -/
  | startupTakeover (dt t : Nat)
  /-- STANDDOWN (R459). -/
  | standdown (dt t : Nat)
  /-- SNAPSHOT_WRITE (R460). -/
  | snapshotWrite (dt : Nat) (fault : Bool)
  /-- COLD_TAKEOVER (R461). -/
  | coldTakeover (dt t : Nat) (fault : Bool)
  /-- SWITCH (R469). -/
  | switch (c : CmdArgs)
  /-- LOCKOUT (R469). -/
  | lockout (c : CmdArgs)
  /-- LOCKOUT_CLEAR (R469). -/
  | lockoutClear (c : CmdArgs)
  /-- JOIN (R469). -/
  | join (c : CmdArgs)
  /-- RESYNC (R455). -/
  | resync (c : CmdArgs)
  /-- PAIR_KEY (R469). -/
  | pairKey (c : CmdArgs)
  /-- PAIR_KEY_CLEAR (R469). -/
  | pairKeyClear (c : CmdArgs)
  /-- WATCHDOG_EXPIRY (R472). -/
  | watchdogExpiry (dt c : Nat)
  /-- KICK (R472). -/
  | kick (src : Src) (c : Nat)
  /-- CORE_RESET (R510). -/
  | coreReset (src : Src) (c : Nat) (held : Bool)
  /-- SCRATCHPAD_ACCESS (R475). -/
  | scratchpadAccess (dt : Nat) (accs : List SpAcc) (err : Nat)
  /-- DMA_GO (R478). -/
  | dmaGo (src : Src) (c : Nat)
  /-- DMA_COMPLETE (R478). -/
  | dmaComplete (dt c : Nat) (fault : Option Nat)
  /-- RING_PI_WRITE (R479). -/
  | ringPiWrite (src : Src) (n : Nat) (tx : Bool) (v : Nat)
  /-- INJECTION_DESCRIPTOR (R483). -/
  | injectionDescriptor (dt n : Nat) (fault : Bool)
  /-- MGMT_FRAME_RECEIVE (R489). -/
  | mgmtFrameReceive (dt : Nat) (bytes : List Byte) (fcsOk codeErr : Bool) (at_ : Nat)
  /-- MGMT_LINK_CHANGE (R488). -/
  | mgmtLinkChange (dt : Nat) (sync anDone pause : Bool)
  /-- VF_FLR (R487). -/
  | vfFlr (dt n : Nat)
  /-- INT_EOI (R494). -/
  | intEoi (src : Src) (v : Nat)
  /-- VF_EOI (R495). -/
  | vfEoi (src : Src) (n v : Nat)
  /-- THERMAL_SAMPLE (R498). -/
  | thermalSample (dt : Nat) (temps : List Int) (mv : List Nat)
  /-- REPLAN (R499). -/
  | replan (src : Src)
  /-- MARGIN_RUN (R499). -/
  | marginRun (dt : Nat) (ppm : List Nat)
  /-- UPD_BEGIN (R505). -/
  | updBegin (c : CmdArgs)
  /-- UPD_WRITE (R505). -/
  | updWrite (fails : Bool) (c : CmdArgs)
  /-- UPD_VERIFY (R505). -/
  | updVerify (c : CmdArgs)
  /-- UPD_COMMIT (R505). -/
  | updCommit (c : CmdArgs)
  /-- UPD_ABORT (R505). -/
  | updAbort (c : CmdArgs)
  /-- UPD_CONFIRM (R505). -/
  | updConfirm (c : CmdArgs)
  /-- RECORD_FLUSH (R522). -/
  | recordFlush (dt : Nat) (fails : List RecOp) (eraseFail ctlFail : Bool)
  /-- REC_READ (R525). -/
  | recRead (c : CmdArgs)
  /-- REC_CLEAR (R525). -/
  | recClear (c : CmdArgs)
  /-- REC_WRITE (R539). -/
  | recWrite (c : CmdArgs)
  /-- CNT_CLEAR (R527). -/
  | cntClear (c : CmdArgs)
  /-- STAT_BIND (R531). -/
  | statBind (c : CmdArgs)
  /-- STAT_READ (R539). -/
  | statRead (c : CmdArgs)
  /-- STAT_CLEAR (R539). -/
  | statClear (c : CmdArgs)
  /-- SAMPLE_READ (R533). -/
  | sampleRead (c : CmdArgs)
  /-- SAMPLE_RESTART (R539). -/
  | sampleRestart (c : CmdArgs)
  /-- PCNT_CFG_WRITE (R530). -/
  | pcntCfgWrite (src : Src) (k v occ : Nat)
  /-- PLL_RELOCK (R76). -/
  | pllRelock (dt : Nat) (k : LaneKind) (j : Nat)
  /-- MARKER_LOCK_LOSS (R446). -/
  | markerLockLoss (dt m : Nat)
  /-- PRBS_CHECKER_LOCK (R98). -/
  | prbsCheckerLock (dt : Nat) (k : LaneKind) (x : PrbsIn)
  /-- MEMORY_TEMPERATURE_HOT (R320). -/
  | memoryTemperatureHot (dt mem tempC tenths : Nat)
  /-- CHAIN_IN_PPS_EDGE (R426). -/
  | chainInPpsEdge (dt : Nat)
  /-- RAIL_LOSS (R543). -/
  | railLoss
  /-- PWRFAIL_N_RISE (R548). -/
  | pwrfailNRise
  /-- MIGRATION_STEP (R272). -/
  | migrationStep
  /-- QUEUE_FLUSH_DONE (R305). -/
  | queueFlushDone
  /-- RECLAIM_DONE (R339). -/
  | reclaimDone
  /-- SLEW_COMPLETE (R407). -/
  | slewComplete
  /-- CLOCK_FALLBACK (R408). -/
  | clockFallback
  /-- RESYNC_REQ_CELL (R455). -/
  | resyncReqCell
  /-- MATE_LINK_UP (R448). -/
  | mateLinkUp
  /-- MATE_LINK_DOWN (R448). -/
  | mateLinkDown
  /-- MGMT_TRANSMIT (R489). -/
  | mgmtTransmit
  /-- PF_FLR (R487). -/
  | pfFlr
  /-- OP_SECONDS_PERSIST (R526). -/
  | opSecondsPersist
  /-- CLEAR_ERASE_DONE (R525). -/
  | clearEraseDone
  /-- RAILS_GOOD (R545). -/
  | railsGood
  deriving DecidableEq, Repr

end Sys2Proof
end

