-- ==== Sys2Proof/Decode.lean ====
section
/-! DEFINITION. The table gives no row of this device any bits: a word spells no command. -/

namespace Sys2Proof

/-- The command that a word spells: none, since no row of spec/opcode_table.json gives bits. -/
def decodeTableWord (_nbits _w : Nat) : Option Instr := none

end Sys2Proof
end

