-- ==== Sys2Proof/Config.lean ====
section
/-! DEFINITION. What the spec leaves to a cited standard or leaves open, as constants without a body: no proof can see
their values. Each stands in a log entry (notes/assumptions). -/

namespace Sys2Proof.Config

/-- SHA-384 of bytes, as a number (FIPS 180; cited, not restated, by R40 and R41). -/
opaque sha384 : List Byte → Nat

/-- Whether an ECDSA P-384 signature (x, y, r, s) verifies over a SHA-384 digest (FIPS 186-5; R41). -/
opaque ecdsaVerifies : Nat → Nat → Nat → Nat → Nat → Bool

/-- AES-128 of a block under a key (FIPS 197; R350, R352). -/
opaque aes128 : Nat → Nat → Nat

/-- AES-256 of a block under a key (FIPS 197; R361, R368, R449). -/
opaque aes256 : Nat → Nat → Nat

/-- The inverse cipher of `aes256` (FIPS 197; R451: key unwrap). -/
opaque aes256Inv : Nat → Nat → Nat

/-- A free value by number: what the spec leaves open after an operation that runs on. -/
opaque freeValue : Nat → Nat

/-- What the spec leaves open of the instructions that the cores execute, by number: how many cycles retire nothing, what is retired, and
what a sample of it holds (R528, R532; log entry 81). -/
opaque coreValue : Nat → Nat

/-- The place of the sample within a run of 2^log2 (R532, R533: an internal pseudo-random sequence). -/
opaque samplePlace : Nat → Nat → Nat

/-- D of R418: a port's smallest latency in ns from decision to ball, which the device applies itself. -/
opaque launchLatency : Nat → Nat

/-! The payloads of the ISLANDS, PORTS, PIPELINES and REACH_r sections, whose layouts the spec does not give (R40; log entry
9): what Zelup's payload bytes say. -/

/-- The island frequencies in Hz that an ISLANDS payload gives, in the order of the table of R21 without its first row, which the
image does not set. -/
opaque imageIslands : List Byte → List Nat

/-- The ports of a PORTS payload: lowest lane and number of lanes (R379). -/
opaque imagePorts : List Byte → List (Nat × Nat)

/-- The pipelines of a PIPELINES payload: of reach r at r, of the port on lane u at 8 + u, of the injection port at 20, of the
recirculation port at 21 (R29). -/
opaque imagePipes : List Byte → List Nat

/-- Per tree of a REACH_r payload: whether it is an XG-PON tree, the code of its initial state, and the default taps of its PB lane
(R40, R72, R77, R115). -/
opaque imageTrees : List Byte → List (Bool × Nat × List Int)

/-! The parts of the transmission-convergence layer that R114, R117, R352 and R354 cite from ITU-T G.9807.1 without restating them (log
entry 95). -/

/-- PSync, the first eight bytes of every PSBd. -/
opaque psync : Nat

/-- The HEC bits of a header of a number of bits (PSBd structures, FS header, allocation structures, XGEM header). -/
opaque hec : Nat → Nat → Nat

/-- Byte i of the scrambler's sequence after its preload from a superframe counter. -/
opaque scramble : Nat → Nat → Byte

/-- Parity byte i of the RS(248,216) codeword over 216 bytes. -/
opaque rsByte : List Byte → Nat → Byte

/-- The counter block of AES-128-CTR from a superframe counter and an intra-frame position. -/
opaque counterBlock : Nat → Nat → Nat

/-- Byte i of the payload of an idle XGEM frame, which the recommendation leaves to the sender. -/
opaque idleByte : Nat → Byte

/-- The mid-scale amplitude of a PB lane's neutral set-up, in 0.1 mV (R77). -/
opaque midScale : Nat → Nat

/-- The Gray symbols of the SSPRQ pattern (IEEE 802.3 clause 120; R97), by UI. -/
opaque ssprq : Nat → Nat

/-- The state of a mate lane's scrambler before a codeword: the spec gives it no value when a lane starts, and what it is later follows from
that and from all that was sent (R446; log entry 137). -/
opaque mateScrambler : Nat → Nat → Nat

/-- The level that a lane (by its key) sent last before its generator started at a tick, where the lane had carried data: the spec gives
the precoder's state then no value that this model holds (R85; log entry 15). -/
opaque lineLevel : Nat → Nat → Nat

/-- The vendor identity that PCI-SIG assigned to Flenov Microsystems (R484). -/
opaque vendorId : Nat

/-- The JEP106 identity of Flenov Microsystems (R566). -/
opaque jep106 : Nat

/-- The bytes that a seam holds before it is full, by its event number (R24). -/
opaque seamDepth : Nat → Nat

/-- The bytes that leave a seam to a memory in one timebase tick, by its event number (R21, R24). -/
opaque seamDrain : Nat → Nat

/-- Registers that a REACH_r payload sets: burst-profile store, PM and grant-policy defaults (R40). -/
opaque imageReachRegs : List Byte → List (Nat × Nat)

end Sys2Proof.Config
end

