-- ==== Sys2Proof/Machine/Table.lean ====
section
/-! DEFINITION. Sparse tables of the state: lists of (key, value) pairs in rising key order, each key once. A table of
state elements with a resting value lists no element at rest (`put`), so that equal tables are equal lists. -/

namespace Sys2Proof.Machine

/-- A sparse table from numbers to values: keys strictly rising. -/
abbrev Table (α : Type) := List (Nat × α)

/-- The value listed at key k. -/
def Table.get? {α : Type} (t : Table α) (k : Nat) : Option α :=
  match t with
  | [] => none
  | (k', v) :: rest => if k' = k then some v else Table.get? rest k

/-- The value at key k, or the resting value. -/
def Table.getD {α : Type} (t : Table α) (k : Nat) (dflt : α) : α := (t.get? k).getD dflt

/-- The table without key k. -/
def Table.erase {α : Type} (t : Table α) (k : Nat) : Table α :=
  match t with
  | [] => []
  | (k', v) :: rest => if k' = k then Table.erase rest k else (k', v) :: Table.erase rest k

/-- The table with value v at key k. -/
def Table.set {α : Type} (t : Table α) (k : Nat) (v : α) : Table α :=
  match t with
  | [] => [(k, v)]
  | (k', v') :: rest =>
    if k < k' then (k, v) :: (k', v') :: rest
    else if k = k' then (k, v) :: rest
    else (k', v') :: Table.set rest k v

/-- The table with v at key k, where `dflt` is what an unlisted key holds: the resting value is not listed. -/
def Table.put {α : Type} [DecidableEq α] (t : Table α) (dflt : α) (k : Nat) (v : α) : Table α :=
  if v = dflt then t.erase k else t.set k v

/-- The table with the value at k changed by f, from the resting value where none is listed. -/
def Table.upd {α : Type} (t : Table α) (dflt : α) (k : Nat) (f : α → α) : Table α := t.set k (f (t.getD k dflt))

/-- The table with every listed value changed by f, keys kept. -/
def Table.mapVal {α : Type} (t : Table α) (f : Nat → α → α) : Table α := t.map fun kv => (kv.1, f kv.1 kv.2)

/-- The table with every listed value changed by f; a value that comes to rest is not listed. -/
def Table.mapPut {α : Type} [DecidableEq α] (t : Table α) (dflt : α) (f : Nat → α → α) : Table α :=
  t.foldr (fun kv u => u.put dflt kv.1 (f kv.1 kv.2)) []

/-- The entries that satisfy p. -/
def Table.keep {α : Type} (t : Table α) (p : Nat → α → Bool) : Table α := t.filter fun kv => p kv.1 kv.2

/-- Keys strictly rise from above `lo`. -/
def Table.sortedFrom {α : Type} (lo : Nat) : Table α → Bool
  | [] => true
  | (k, _) :: rest => decide (lo ≤ k) && Table.sortedFrom (k + 1) rest

/-- The canonical form: keys strictly rising. -/
def Table.wf {α : Type} (t : Table α) : Bool := t.sortedFrom 0

/-- The canonical form of a table with resting value `dflt`: keys rise and no entry rests. -/
def Table.wfPut {α : Type} [DecidableEq α] (t : Table α) (dflt : α) : Bool :=
  t.wf && t.all fun kv => decide (kv.2 ≠ dflt)

end Sys2Proof.Machine
end

