-- ==== Sys2Proof/Machine/Mem.lean ====
section
/-! DEFINITION. Byte memories outside the register file (scratchpad, boot flash, host memory, buffer cells, core local
memories): lists of (address, byte) in rising address order with no entry equal to 0, what an unlisted address reads as
(log entry 2). Multi-byte values of the device's own formats are little-endian (R5). -/

namespace Sys2Proof.Machine

/-- A byte memory in canonical form. -/
abbrev Mem := Table Byte

/-- One byte. -/
def Mem.read (m : Mem) (a : Nat) : Byte := Table.getD m a 0

/-- Write one byte; a byte equal to the resting value is not listed. -/
def Mem.write (m : Mem) (a : Nat) (b : Byte) : Mem := Table.put m 0 a b

/-- The canonical form. -/
def Mem.wf (m : Mem) : Bool := Table.wfPut m (0 : Byte)

/-- n bytes from address a. -/
def Mem.readN (m : Mem) (a n : Nat) : List Byte := (List.range n).map fun i => m.read (a + i)

/-- Bytes written from address a upward. -/
def Mem.writeL (m : Mem) (a : Nat) : List Byte → Mem
  | [] => m
  | b :: bs => Mem.writeL (m.write a b) (a + 1) bs

/-- The number that little-endian bytes spell (R5). -/
def leNat : List Byte → Nat
  | [] => 0
  | b :: bs => b.toNat + 256 * leNat bs

/-- The number that big-endian bytes spell. -/
def beNat (bs : List Byte) : Nat := leNat bs.reverse

/-- n little-endian bytes of v (R5). -/
def leBytes : Nat → Nat → List Byte
  | 0, _ => []
  | n + 1, v => BitVec.ofNat 8 v :: leBytes n (v / 256)

/-- n big-endian bytes of v. -/
def beBytes (n v : Nat) : List Byte := (leBytes n v).reverse

/-- A little-endian value of n bytes at address a. -/
def Mem.le (m : Mem) (a n : Nat) : Nat := leNat (m.readN a n)

/-- n bytes of a list from offset a; bytes beyond the end read 0. -/
def sub (bs : List Byte) (a n : Nat) : List Byte :=
  let x := (bs.drop a).take n
  x ++ List.replicate (n - x.length) 0

/-- A little-endian value of n bytes at offset a of a list. -/
def leAt (bs : List Byte) (a n : Nat) : Nat := leNat (sub bs a n)

/-- A big-endian value of n bytes at offset a of a list. -/
def beAt (bs : List Byte) (a n : Nat) : Nat := beNat (sub bs a n)

/-- One step of a reflected CRC over a bit shifted out. -/
def crcShift (poly : BitVec 32) (c : BitVec 32) : BitVec 32 :=
  if c &&& 1 = 0 then c >>> 1 else (c >>> 1) ^^^ poly

/-- Eight steps. -/
def crcShift8 (poly : BitVec 32) (c : BitVec 32) : BitVec 32 :=
  crcShift poly (crcShift poly (crcShift poly (crcShift poly
    (crcShift poly (crcShift poly (crcShift poly (crcShift poly c)))))))

/-- A reflected 32-bit CRC continued over bytes. -/
def crcRun (poly : BitVec 32) (c : BitVec 32) : List Byte → BitVec 32
  | [] => c
  | b :: bs => crcRun poly (crcShift8 poly (c ^^^ b.setWidth 32)) bs

/-- CRC-32C of bytes: the Castagnoli polynomial, reflected, initial and final inversion (log entry 3). -/
def crc32c (bs : List Byte) : Nat := (crcRun 0x82F63B78 0xFFFFFFFF bs ^^^ 0xFFFFFFFF).toNat

/-- The frame check sequence of an Ethernet frame, as it follows it (IEEE 802.3 clause 3; log entry 75). -/
def fcs (bs : List Byte) : List Byte := leBytes 4 (crcRun 0xEDB88320 0xFFFFFFFF bs ^^^ 0xFFFFFFFF).toNat

/-- Rounding n up to a multiple of 8. -/
def up8 (n : Nat) : Nat := (n + 7) / 8 * 8

/-- x modulo 2^w. -/
def wrap (w x : Nat) : Nat := x % 2 ^ w

/-- The signed value of w bits (R15: two's complement). -/
def signed (w x : Nat) : Int := if x % 2 ^ w < 2 ^ (w - 1) then (x % 2 ^ w : Nat) else (x % 2 ^ w : Nat) - (2 ^ w : Nat)

/-- The w bits of an integer in two's complement (R15). -/
def unsigned (w : Nat) (x : Int) : Nat := (x % (2 ^ w : Nat)).toNat

end Sys2Proof.Machine
end

