-- ==== Sys2Proof/Machine/Reg.lean ====
section
/-! DEFINITION. The registers of PF0 BAR0: their names, their addresses (R6, R36 and the chapters' address lists), their
values after PORST_N (R10) and their fields with their access codes (R11). Transcribed from the register tables of
spec/02 to spec/16. -/

namespace Sys2Proof.Machine

/-- The access codes of R11. -/
inductive Access where
  | ro | rw | wo | w1c | w1s | rc
  deriving DecidableEq, Repr

/-- One field of a register: its bit range and its access code (R11). Bits of no field are reserved (R13). -/
structure Fld where
  hi : Nat
  lo : Nat
  acc : Access
  deriving DecidableEq, Repr

/-- The name of every register of PF0 BAR0 but the command windows (R53). `RX_CFG`, `TX_CFG` name the word at +0x08 and
+0x28 of a packet ring (R512), `MC_DMA_CTL` the word at +0x14 of a DMA channel (R513), `TM_SIZE4` the word TM_SIZE + 4. -/
inductive RegName where
  | IM_DEV_STATUS | IM_REACH_STATUS | IM_FLAGS | IM_FLAGS_EN | IM_STRUCT_REJ_ADDR | IM_IMAGE_SERIAL_LO
  | IM_IMAGE_SERIAL_HI | IM_STRUCTURE_ID | IM_FUSE | IM_CARVE | LX_PT_CTL | LX_PB_CTL | LX_UL_CTL | LX_ML_CTL
  | LX_PT_STATUS | LX_PB_STATUS | LX_UL_STATUS | LX_ML_STATUS | LX_PT_FLAGS | LX_PB_FLAGS | LX_UL_FLAGS
  | LX_ML_FLAGS | LX_PT_FLAGS_EN | LX_PB_FLAGS_EN | LX_UL_FLAGS_EN | LX_ML_FLAGS_EN | LX_UL_LOS_CFG | LX_ML_LOS_CFG
  | LX_UL_LOL_CFG | LX_ML_LOL_CFG | LX_PT_TXEQ | LX_UL_TXEQ | LX_ML_TXEQ | LX_UL_SKEW | LX_ML_SKEW | LX_PB_EYE_CFG
  | LX_UL_EYE_CFG | LX_ML_EYE_CFG | LX_PB_EYE_RESULT | LX_UL_EYE_RESULT | LX_ML_EYE_RESULT | LX_PT_PRBS_CTL
  | LX_PB_PRBS_CTL | LX_UL_PRBS_CTL | LX_ML_PRBS_CTL | LX_PB_PRBS_ERR | LX_UL_PRBS_ERR | LX_ML_PRBS_ERR
  | LX_PB_PRBS_BLOCKS | LX_UL_PRBS_BLOCKS | LX_ML_PRBS_BLOCKS | LX_PB_BURST_CFG | LX_ML_LINK_CFG | TF_TREE_STATUS
  | TF_FLAGS | TF_FLAGS_EN | TF_DS_CFG | TF_US_CFG | TF_PONID_LO | TF_PONID_HI | TF_SFC_LO | TF_SFC_HI
  | TF_DEFECT_CFG | TF_DRIFT_CFG | TF_ACTION_CFG | TF_DEFECT_EVT | TF_DEFECT_POP | TF_PM_CFG | RG_TREE_CFG
  | RG_BOARD_DLY | RG_TRACK_CFG | RG_PROFILE_CFG | RG_ROGUE_CFG | RG_FLAGS | RG_FLAGS_EN | RG_ROGUE_STATUS
  | RG_PLOAMU_META | RG_PLOAMU_POP | RG_PLOAMD_STATUS | RG_PLOAMU_DATA | RG_EQ_CFG | RG_DISC_HEAD | RG_DISC_SN_LO
  | RG_DISC_SN_HI | RG_DISC_RTD | RG_DISC_POP | GS_TREE_CFG | GS_PROFILE_SEL | GS_FLAGS | GS_FLAGS_EN
  | GS_TREE_STATUS | GS_DEFAULT_CFG | GS_DEFAULT_FIXED | GS_DEFAULT_ASSURED | GS_DEFAULT_MAX | GS_BPROF
  | GS_MAP_CFG | GS_RFLAGS | GS_RFLAGS_EN | GS_COOP_BASE | GS_COOP_SIZE | GS_COOP_PI | GS_COOP_CI | GS_COOP_RD
  | PC_STATUS | PC_INFLIGHT | PC_CFG | PC_TUNNEL_PORTS | PC_TPID_CFG | PC_HASH_SEED | PC_FLAGS | PC_FLAGS_EN
  | PC_RECIRC_QUEUE | PC_CPU_QUEUE | FS_STATUS | FS_COUNT | FS_SEED | FS_NEW_SEED | FS_MIG_PTR | FS_CFG | FS_FLAGS
  | FS_FLAGS_EN | FS_UE_ADDR | TM_PORT_CFG | TM_PORT_STATUS | TM_FLAGS | TM_FLAGS_EN | TM_DROP_LAST | TM_SIZE
  | TM_SIZE4 | TM_POOL_TH | BP_TIER_CELLS | BP_TIER_FREE | BP_TIER_SHARED | BP_TIER_RETIRED | BP_FLAGS
  | BP_FLAGS_EN | BP_FREE_ERR | BP_FREE_ERR_CELL | BP_SCRUB_CFG | BP_ECC_LOG | BP_ECC_LOG_CELL | BP_ECC_POP
  | BP_HBM_STATUS | BP_DDR_STATUS | BP_POOL_NEAR_CAP | BP_POOL_FAR_CAP | BP_POOL_SPILL | BP_POOL_INFO
  | BP_POOL_USED | BP_POOL_MIN | CE_FLAGS | CE_FLAGS_EN | CE_PON_CFG | CE_KEY_EVT | CE_KEY_EVT_POP
  | CE_MS_PN_THRESH_LO | CE_MS_PN_THRESH_HI | CE_MS_PORT_CFG | CE_MS_REPLAY_WIN | CE_LA_BASE | CE_LA_SIZE
  | CE_LA_PI | CE_LA_CI | CE_LA_OWNER | UL_PORT_CFG | UL_PORT_STATUS | UL_FLAGS | UL_FLAGS_EN | UL_FC_CFG
  | UL_FC_TH | UL_TS_CORR_RX | UL_TS_CORR_TX | UL_SER_CFG | UL_STAT_LO | UL_STAT_HI | UL_LAG_CFG | UL_LAG_STATUS
  | UL_LAG_FLAGS | UL_LAG_FLAGS_EN | UL_LAG_MEMBER | TB_CTL | TB_STATUS | TB_FLAGS | TB_FLAGS_EN | TB_INC_LO
  | TB_INC_HI | TB_NOW_LO | TB_NOW_HI | TB_TOD_NS | TB_TOD_S_LO | TB_TOD_S_HI | TB_FRAME_CFG | TB_FRAME_PHASE
  | TB_SYNCE_CFG | TB_CHAIN_CFG | TB_CHAIN_STATUS | TB_CMP_CFG | TB_CMP_TGT_LO | TB_CMP_TGT_HI | TB_CMP_PERIOD
  | TB_CMP_PULSE | TB_CAP_CFG | TB_CAP_LO | TB_CAP_HI | TB_TODCAP_CTL | TB_TODCAP_SFC | TB_TODCAP_T_LO
  | TB_TODCAP_T_HI | TB_TXTS_META | TB_TXTS_NS | TB_TXTS_S_LO | TB_TXTS_S_HI | TB_TXTS_POP | TB_TXTS_LOST
  | PX_STATUS | PX_FLAGS | PX_FLAGS_EN | PX_CFG | PX_CFG2 | PX_MATE_PHASE | PX_COPY_STAT | PX_SNAP_OUT_LO
  | PX_SNAP_OUT_HI | PX_SNAP_OUT_LEN | PX_SNAP_OUT_SEQ | PX_SNAP_IN_LO | PX_SNAP_IN_HI | PX_SNAP_IN_LEN
  | PX_SNAP_IN_SEQ | PX_TREE_STATUS | MC_ID_DEVICE | MC_ID_LOT_LO | MC_ID_LOT_HI | MC_ID_DIE | MC_ID_AVS
  | MC_UPD_STATUS | MC_FLAGS | MC_FLAGS_EN | MC_SP_COLLIDE | MC_RING_FLAGS | MC_RING_FLAGS_EN | MC_VF_SP
  | MC_CORE_CTL | MC_INT_MAP | MC_INT_SRC | MC_INT_EOI | MC_CORE_INT_EN | MC_INT_LANE | MC_INT_TREE | MC_TEMP
  | MC_VOLT | MC_AGE | MC_THERM_CFG | MC_AVS_CFG | MC_AVS_STATUS | MC_MARGIN | MC_RING_RX_BASE_LO
  | MC_RING_RX_BASE_HI | MC_RING_RX_CFG | MC_RING_RX_PI | MC_RING_RX_CI | MC_RING_TX_BASE_LO | MC_RING_TX_BASE_HI
  | MC_RING_TX_CFG | MC_RING_TX_PI | MC_RING_TX_CI | MC_MGMT_RING_RX_BASE_LO | MC_MGMT_RING_RX_BASE_HI
  | MC_MGMT_RING_RX_CFG | MC_MGMT_RING_RX_PI | MC_MGMT_RING_RX_CI | MC_MGMT_RING_TX_BASE_LO
  | MC_MGMT_RING_TX_BASE_HI | MC_MGMT_RING_TX_CFG | MC_MGMT_RING_TX_PI | MC_MGMT_RING_TX_CI | MC_MGMT_CFG
  | MC_MGMT_STATUS | MC_MGMT_FLAGS | MC_MGMT_FLAGS_EN | MC_MGMT_STAT_LO | MC_MGMT_STAT_HI | MC_RX_NODE
  | MC_DMA_SRC_LO | MC_DMA_SRC_HI | MC_DMA_DST_LO | MC_DMA_DST_HI | MC_DMA_LEN | MC_DMA_CTL | VF_ID | VF_FLAGS
  | VF_FLAGS_EN | VF_EOI | VF_RING_RX_BASE_LO | VF_RING_RX_BASE_HI | VF_RING_RX_CFG | VF_RING_RX_PI | VF_RING_RX_CI
  | VF_RING_TX_BASE_LO | VF_RING_TX_BASE_HI | VF_RING_TX_CFG | VF_RING_TX_PI | VF_RING_TX_CI | OB_REC_STATUS
  | OB_REC_NEXT_SEQ | OB_REC_FIRST_SEQ | OB_REC_LOST | OB_OPSEC | OB_POWER_CYCLE | OB_FLAGS | OB_FLAGS_EN
  | OB_SAMP_CFG | OB_SAMP_PKT | OB_SAMP_INS | OB_PCNT_CFG | OB_PCNT_LO | OB_PCNT_HI | OB_CNT_OVF | OB_CNT_LO
  | OB_CNT_HI
  deriving DecidableEq, Repr

/-- A register: its name and its indices (R10; 0 where it has none). -/
structure Reg where
  name : RegName
  i : Nat
  j : Nat
  deriving DecidableEq, Repr

/-- The register of a name and its indices. -/
def R (n : RegName) (i : Nat := 0) (j : Nat := 0) : Reg := ⟨n, i, j⟩

/-- Where a register and its replicas lie. -/
inductive Place where
  /-- One register at an address. -/
  | one (a : Nat)
  /-- n registers from a base, a stride apart. -/
  | ix (base n stride : Nat)
  /-- n times m registers from a base. -/
  | ix2 (base n s1 m s2 : Nat)
  /-- One register per tree at an offset from tree 0's TF sub-window (00_scope, "Address spaces"). -/
  | tree (off : Nat)
  /-- m words per tree from an offset. -/
  | tree2 (off m : Nat)
  deriving DecidableEq, Repr

/-- The place of each register: the address lists of the chapters. -/
def RegName.place : RegName → Place
  | .IM_DEV_STATUS => .one 0x800000
  | .IM_REACH_STATUS => .ix 0x800020 8 4
  | .IM_FLAGS => .one 0x800040
  | .IM_FLAGS_EN => .one 0x800044
  | .IM_STRUCT_REJ_ADDR => .one 0x800048
  | .IM_IMAGE_SERIAL_LO => .one 0x800050
  | .IM_IMAGE_SERIAL_HI => .one 0x800054
  | .IM_STRUCTURE_ID => .ix 0x800060 4 4
  | .IM_FUSE => .one 0x800070
  | .IM_CARVE => .ix 0x800080 6 4
  | .LX_PT_CTL => .ix 0x400000 64 0x4000
  | .LX_PB_CTL => .ix 0x500000 64 0x4000
  | .LX_UL_CTL => .ix 0x600000 12 0x4000
  | .LX_ML_CTL => .ix 0x640000 4 0x4000
  | .LX_PT_STATUS => .ix 0x400004 64 0x4000
  | .LX_PB_STATUS => .ix 0x500004 64 0x4000
  | .LX_UL_STATUS => .ix 0x600004 12 0x4000
  | .LX_ML_STATUS => .ix 0x640004 4 0x4000
  | .LX_PT_FLAGS => .ix 0x400008 64 0x4000
  | .LX_PB_FLAGS => .ix 0x500008 64 0x4000
  | .LX_UL_FLAGS => .ix 0x600008 12 0x4000
  | .LX_ML_FLAGS => .ix 0x640008 4 0x4000
  | .LX_PT_FLAGS_EN => .ix 0x40000C 64 0x4000
  | .LX_PB_FLAGS_EN => .ix 0x50000C 64 0x4000
  | .LX_UL_FLAGS_EN => .ix 0x60000C 12 0x4000
  | .LX_ML_FLAGS_EN => .ix 0x64000C 4 0x4000
  | .LX_UL_LOS_CFG => .ix 0x600010 12 0x4000
  | .LX_ML_LOS_CFG => .ix 0x640010 4 0x4000
  | .LX_UL_LOL_CFG => .ix 0x600014 12 0x4000
  | .LX_ML_LOL_CFG => .ix 0x640014 4 0x4000
  | .LX_PT_TXEQ => .ix 0x400020 64 0x4000
  | .LX_UL_TXEQ => .ix 0x600020 12 0x4000
  | .LX_ML_TXEQ => .ix 0x640020 4 0x4000
  | .LX_UL_SKEW => .ix 0x600024 12 0x4000
  | .LX_ML_SKEW => .ix 0x640024 4 0x4000
  | .LX_PB_EYE_CFG => .ix 0x500040 64 0x4000
  | .LX_UL_EYE_CFG => .ix 0x600040 12 0x4000
  | .LX_ML_EYE_CFG => .ix 0x640040 4 0x4000
  | .LX_PB_EYE_RESULT => .ix 0x500044 64 0x4000
  | .LX_UL_EYE_RESULT => .ix 0x600044 12 0x4000
  | .LX_ML_EYE_RESULT => .ix 0x640044 4 0x4000
  | .LX_PT_PRBS_CTL => .ix 0x400060 64 0x4000
  | .LX_PB_PRBS_CTL => .ix 0x500060 64 0x4000
  | .LX_UL_PRBS_CTL => .ix 0x600060 12 0x4000
  | .LX_ML_PRBS_CTL => .ix 0x640060 4 0x4000
  | .LX_PB_PRBS_ERR => .ix 0x500064 64 0x4000
  | .LX_UL_PRBS_ERR => .ix 0x600064 12 0x4000
  | .LX_ML_PRBS_ERR => .ix 0x640064 4 0x4000
  | .LX_PB_PRBS_BLOCKS => .ix 0x500068 64 0x4000
  | .LX_UL_PRBS_BLOCKS => .ix 0x600068 12 0x4000
  | .LX_ML_PRBS_BLOCKS => .ix 0x640068 4 0x4000
  | .LX_PB_BURST_CFG => .ix 0x500100 64 0x4000
  | .LX_ML_LINK_CFG => .ix 0x640100 4 0x4000
  | .TF_TREE_STATUS => .tree 0
  | .TF_FLAGS => .tree 4
  | .TF_FLAGS_EN => .tree 8
  | .TF_DS_CFG => .tree 0x10
  | .TF_US_CFG => .tree 0x14
  | .TF_PONID_LO => .tree 0x18
  | .TF_PONID_HI => .tree 0x1C
  | .TF_SFC_LO => .tree 0x20
  | .TF_SFC_HI => .tree 0x24
  | .TF_DEFECT_CFG => .tree 0x30
  | .TF_DRIFT_CFG => .tree 0x34
  | .TF_ACTION_CFG => .tree 0x38
  | .TF_DEFECT_EVT => .tree 0x40
  | .TF_DEFECT_POP => .tree 0x44
  | .TF_PM_CFG => .ix 0x10C0140 8 0x100000
  | .RG_TREE_CFG => .tree 0x40000
  | .RG_BOARD_DLY => .tree 0x40004
  | .RG_TRACK_CFG => .tree 0x40008
  | .RG_PROFILE_CFG => .tree 0x4000C
  | .RG_ROGUE_CFG => .tree 0x40010
  | .RG_FLAGS => .tree 0x40014
  | .RG_FLAGS_EN => .tree 0x40018
  | .RG_ROGUE_STATUS => .tree 0x4001C
  | .RG_PLOAMU_META => .tree 0x40020
  | .RG_PLOAMU_POP => .tree 0x40024
  | .RG_PLOAMD_STATUS => .tree 0x40028
  | .RG_PLOAMU_DATA => .tree2 0x40040 12
  | .RG_EQ_CFG => .ix 0x10C0240 8 0x100000
  | .RG_DISC_HEAD => .ix 0x10C0250 8 0x100000
  | .RG_DISC_SN_LO => .ix 0x10C0254 8 0x100000
  | .RG_DISC_SN_HI => .ix 0x10C0258 8 0x100000
  | .RG_DISC_RTD => .ix 0x10C025C 8 0x100000
  | .RG_DISC_POP => .ix 0x10C0260 8 0x100000
  | .GS_TREE_CFG => .tree 0x80000
  | .GS_PROFILE_SEL => .tree 0x80004
  | .GS_FLAGS => .tree 0x80008
  | .GS_FLAGS_EN => .tree 0x8000C
  | .GS_TREE_STATUS => .tree 0x80010
  | .GS_DEFAULT_CFG => .tree 0x80014
  | .GS_DEFAULT_FIXED => .tree 0x80018
  | .GS_DEFAULT_ASSURED => .tree 0x8001C
  | .GS_DEFAULT_MAX => .tree 0x80020
  | .GS_BPROF => .tree2 0x80030 4
  | .GS_MAP_CFG => .ix 0x10C0300 8 0x100000
  | .GS_RFLAGS => .ix 0x10C0304 8 0x100000
  | .GS_RFLAGS_EN => .ix 0x10C0308 8 0x100000
  | .GS_COOP_BASE => .ix 0x10C0310 8 0x100000
  | .GS_COOP_SIZE => .ix 0x10C0314 8 0x100000
  | .GS_COOP_PI => .ix 0x10C0318 8 0x100000
  | .GS_COOP_CI => .ix 0x10C031C 8 0x100000
  | .GS_COOP_RD => .ix 0x10C0320 8 0x100000
  | .PC_STATUS => .one 0x1800000
  | .PC_INFLIGHT => .ix 0x1800004 2 4
  | .PC_CFG => .one 0x1800010
  | .PC_TUNNEL_PORTS => .one 0x1800014
  | .PC_TPID_CFG => .one 0x1800018
  | .PC_HASH_SEED => .one 0x180001C
  | .PC_FLAGS => .one 0x1800020
  | .PC_FLAGS_EN => .one 0x1800024
  | .PC_RECIRC_QUEUE => .ix 0x1800040 16 4
  | .PC_CPU_QUEUE => .ix 0x1800080 4 4
  | .FS_STATUS => .one 0x1C00000
  | .FS_COUNT => .one 0x1C00004
  | .FS_SEED => .one 0x1C00008
  | .FS_NEW_SEED => .one 0x1C0000C
  | .FS_MIG_PTR => .one 0x1C00010
  | .FS_CFG => .one 0x1C00014
  | .FS_FLAGS => .one 0x1C00020
  | .FS_FLAGS_EN => .one 0x1C00024
  | .FS_UE_ADDR => .one 0x1C00028
  | .TM_PORT_CFG => .ix 0x2000000 78 4
  | .TM_PORT_STATUS => .ix 0x2000200 78 4
  | .TM_FLAGS => .one 0x2000400
  | .TM_FLAGS_EN => .one 0x2000404
  | .TM_DROP_LAST => .one 0x2000408
  | .TM_SIZE => .one 0x2000410
  | .TM_SIZE4 => .one 0x2000414
  | .TM_POOL_TH => .ix2 0x2000800 64 0x10 3 4
  | .BP_TIER_CELLS => .ix 0x2800000 2 4
  | .BP_TIER_FREE => .ix 0x2800008 2 4
  | .BP_TIER_SHARED => .ix 0x2800010 2 4
  | .BP_TIER_RETIRED => .ix 0x2800018 2 4
  | .BP_FLAGS => .one 0x2800020
  | .BP_FLAGS_EN => .one 0x2800024
  | .BP_FREE_ERR => .one 0x2800028
  | .BP_FREE_ERR_CELL => .one 0x280002C
  | .BP_SCRUB_CFG => .one 0x2800030
  | .BP_ECC_LOG => .one 0x2800040
  | .BP_ECC_LOG_CELL => .one 0x2800044
  | .BP_ECC_POP => .one 0x2800048
  | .BP_HBM_STATUS => .one 0x2800060
  | .BP_DDR_STATUS => .ix 0x2800070 4 4
  | .BP_POOL_NEAR_CAP => .ix 0x2801000 64 0x10
  | .BP_POOL_FAR_CAP => .ix 0x2801004 64 0x10
  | .BP_POOL_SPILL => .ix 0x2801008 64 0x10
  | .BP_POOL_INFO => .ix 0x280100C 64 0x10
  | .BP_POOL_USED => .ix2 0x2802000 64 8 2 4
  | .BP_POOL_MIN => .ix2 0x2803000 64 8 2 4
  | .CE_FLAGS => .one 0x3000000
  | .CE_FLAGS_EN => .one 0x3000004
  | .CE_PON_CFG => .one 0x3000010
  | .CE_KEY_EVT => .one 0x3000020
  | .CE_KEY_EVT_POP => .one 0x3000024
  | .CE_MS_PN_THRESH_LO => .one 0x3000030
  | .CE_MS_PN_THRESH_HI => .one 0x3000034
  | .CE_MS_PORT_CFG => .ix 0x3000100 12 4
  | .CE_MS_REPLAY_WIN => .ix 0x3000140 12 4
  | .CE_LA_BASE => .ix 0x3000200 16 0x20
  | .CE_LA_SIZE => .ix 0x3000204 16 0x20
  | .CE_LA_PI => .ix 0x3000208 16 0x20
  | .CE_LA_CI => .ix 0x300020C 16 0x20
  | .CE_LA_OWNER => .ix 0x3000210 16 0x20
  | .UL_PORT_CFG => .ix 0x3400000 12 0x10000
  | .UL_PORT_STATUS => .ix 0x3400004 12 0x10000
  | .UL_FLAGS => .ix 0x3400008 12 0x10000
  | .UL_FLAGS_EN => .ix 0x340000C 12 0x10000
  | .UL_FC_CFG => .ix 0x3400010 12 0x10000
  | .UL_FC_TH => .ix2 0x3400020 12 0x10000 8 4
  | .UL_TS_CORR_RX => .ix 0x3400040 12 0x10000
  | .UL_TS_CORR_TX => .ix 0x3400044 12 0x10000
  | .UL_SER_CFG => .ix 0x3400048 12 0x10000
  | .UL_STAT_LO => .ix2 0x3400100 12 0x10000 32 8
  | .UL_STAT_HI => .ix2 0x3400104 12 0x10000 32 8
  | .UL_LAG_CFG => .ix 0x3500000 8 0x40
  | .UL_LAG_STATUS => .ix 0x3500004 8 0x40
  | .UL_LAG_FLAGS => .ix 0x3500008 8 0x40
  | .UL_LAG_FLAGS_EN => .ix 0x350000C 8 0x40
  | .UL_LAG_MEMBER => .ix2 0x3500010 8 0x40 8 4
  | .TB_CTL => .one 0x200000
  | .TB_STATUS => .one 0x200004
  | .TB_FLAGS => .one 0x200008
  | .TB_FLAGS_EN => .one 0x20000C
  | .TB_INC_LO => .one 0x200010
  | .TB_INC_HI => .one 0x200014
  | .TB_NOW_LO => .one 0x200020
  | .TB_NOW_HI => .one 0x200024
  | .TB_TOD_NS => .one 0x200030
  | .TB_TOD_S_LO => .one 0x200034
  | .TB_TOD_S_HI => .one 0x200038
  | .TB_FRAME_CFG => .one 0x200040
  | .TB_FRAME_PHASE => .one 0x200044
  | .TB_SYNCE_CFG => .one 0x200050
  | .TB_CHAIN_CFG => .one 0x200060
  | .TB_CHAIN_STATUS => .one 0x200064
  | .TB_CMP_CFG => .ix 0x200100 8 0x20
  | .TB_CMP_TGT_LO => .ix 0x200104 8 0x20
  | .TB_CMP_TGT_HI => .ix 0x200108 8 0x20
  | .TB_CMP_PERIOD => .ix 0x20010C 8 0x20
  | .TB_CMP_PULSE => .ix 0x200110 8 0x20
  | .TB_CAP_CFG => .ix 0x200200 5 0x10
  | .TB_CAP_LO => .ix 0x200204 5 0x10
  | .TB_CAP_HI => .ix 0x200208 5 0x10
  | .TB_TODCAP_CTL => .ix 0x200300 4 0x10
  | .TB_TODCAP_SFC => .ix 0x200304 4 0x10
  | .TB_TODCAP_T_LO => .ix 0x200308 4 0x10
  | .TB_TODCAP_T_HI => .ix 0x20030C 4 0x10
  | .TB_TXTS_META => .ix 0x200400 12 0x20
  | .TB_TXTS_NS => .ix 0x200404 12 0x20
  | .TB_TXTS_S_LO => .ix 0x200408 12 0x20
  | .TB_TXTS_S_HI => .ix 0x20040C 12 0x20
  | .TB_TXTS_POP => .ix 0x200410 12 0x20
  | .TB_TXTS_LOST => .ix 0x200414 12 0x20
  | .PX_STATUS => .one 0x300000
  | .PX_FLAGS => .one 0x300004
  | .PX_FLAGS_EN => .one 0x300008
  | .PX_CFG => .one 0x300010
  | .PX_CFG2 => .one 0x300014
  | .PX_MATE_PHASE => .one 0x300018
  | .PX_COPY_STAT => .one 0x30001C
  | .PX_SNAP_OUT_LO => .one 0x300020
  | .PX_SNAP_OUT_HI => .one 0x300024
  | .PX_SNAP_OUT_LEN => .one 0x300028
  | .PX_SNAP_OUT_SEQ => .one 0x30002C
  | .PX_SNAP_IN_LO => .one 0x300030
  | .PX_SNAP_IN_HI => .one 0x300034
  | .PX_SNAP_IN_LEN => .one 0x300038
  | .PX_SNAP_IN_SEQ => .one 0x30003C
  | .PX_TREE_STATUS => .ix 0x300100 64 4
  | .MC_ID_DEVICE => .one 0
  | .MC_ID_LOT_LO => .one 4
  | .MC_ID_LOT_HI => .one 8
  | .MC_ID_DIE => .one 0xC
  | .MC_ID_AVS => .one 0x10
  | .MC_UPD_STATUS => .one 0x180
  | .MC_FLAGS => .one 0x200
  | .MC_FLAGS_EN => .one 0x204
  | .MC_SP_COLLIDE => .one 0x208
  | .MC_RING_FLAGS => .one 0x20C
  | .MC_RING_FLAGS_EN => .one 0x210
  | .MC_VF_SP => .ix 0x220 16 4
  | .MC_CORE_CTL => .ix 0x300 4 4
  | .MC_INT_MAP => .ix 0x400 64 4
  | .MC_INT_SRC => .ix 0x500 2 4
  | .MC_INT_EOI => .one 0x508
  | .MC_CORE_INT_EN => .ix2 0x510 4 8 2 4
  | .MC_INT_LANE => .ix 0x540 5 4
  | .MC_INT_TREE => .ix2 0x560 3 8 2 4
  | .MC_TEMP => .ix 0x600 24 4
  | .MC_VOLT => .ix 0x660 16 4
  | .MC_AGE => .ix 0x6A0 32 4
  | .MC_THERM_CFG => .one 0x720
  | .MC_AVS_CFG => .one 0x724
  | .MC_AVS_STATUS => .one 0x728
  | .MC_MARGIN => .one 0x72C
  | .MC_RING_RX_BASE_LO => .ix 0x800 5 0x40
  | .MC_RING_RX_BASE_HI => .ix 0x804 5 0x40
  | .MC_RING_RX_CFG => .ix 0x808 5 0x40
  | .MC_RING_RX_PI => .ix 0x80C 5 0x40
  | .MC_RING_RX_CI => .ix 0x810 5 0x40
  | .MC_RING_TX_BASE_LO => .ix 0x820 5 0x40
  | .MC_RING_TX_BASE_HI => .ix 0x824 5 0x40
  | .MC_RING_TX_CFG => .ix 0x828 5 0x40
  | .MC_RING_TX_PI => .ix 0x82C 5 0x40
  | .MC_RING_TX_CI => .ix 0x830 5 0x40
  | .MC_MGMT_RING_RX_BASE_LO => .one 0x940
  | .MC_MGMT_RING_RX_BASE_HI => .one 0x944
  | .MC_MGMT_RING_RX_CFG => .one 0x948
  | .MC_MGMT_RING_RX_PI => .one 0x94C
  | .MC_MGMT_RING_RX_CI => .one 0x950
  | .MC_MGMT_RING_TX_BASE_LO => .one 0x960
  | .MC_MGMT_RING_TX_BASE_HI => .one 0x964
  | .MC_MGMT_RING_TX_CFG => .one 0x968
  | .MC_MGMT_RING_TX_PI => .one 0x96C
  | .MC_MGMT_RING_TX_CI => .one 0x970
  | .MC_MGMT_CFG => .one 0x980
  | .MC_MGMT_STATUS => .one 0x984
  | .MC_MGMT_FLAGS => .one 0x988
  | .MC_MGMT_FLAGS_EN => .one 0x98C
  | .MC_MGMT_STAT_LO => .ix 0x9A0 8 8
  | .MC_MGMT_STAT_HI => .ix 0x9A4 8 8
  | .MC_RX_NODE => .ix 0xE00 32 4
  | .MC_DMA_SRC_LO => .ix 0xF00 4 0x20
  | .MC_DMA_SRC_HI => .ix 0xF04 4 0x20
  | .MC_DMA_DST_LO => .ix 0xF08 4 0x20
  | .MC_DMA_DST_HI => .ix 0xF0C 4 0x20
  | .MC_DMA_LEN => .ix 0xF10 4 0x20
  | .MC_DMA_CTL => .ix 0xF14 4 0x20
  | .VF_ID => .ix 0x10000 16 0x4000
  | .VF_FLAGS => .ix 0x10004 16 0x4000
  | .VF_FLAGS_EN => .ix 0x10008 16 0x4000
  | .VF_EOI => .ix 0x1000C 16 0x4000
  | .VF_RING_RX_BASE_LO => .ix 0x10800 16 0x4000
  | .VF_RING_RX_BASE_HI => .ix 0x10804 16 0x4000
  | .VF_RING_RX_CFG => .ix 0x10808 16 0x4000
  | .VF_RING_RX_PI => .ix 0x1080C 16 0x4000
  | .VF_RING_RX_CI => .ix 0x10810 16 0x4000
  | .VF_RING_TX_BASE_LO => .ix 0x10820 16 0x4000
  | .VF_RING_TX_BASE_HI => .ix 0x10824 16 0x4000
  | .VF_RING_TX_CFG => .ix 0x10828 16 0x4000
  | .VF_RING_TX_PI => .ix 0x1082C 16 0x4000
  | .VF_RING_TX_CI => .ix 0x10830 16 0x4000
  | .OB_REC_STATUS => .one 0x100000
  | .OB_REC_NEXT_SEQ => .one 0x100004
  | .OB_REC_FIRST_SEQ => .one 0x100008
  | .OB_REC_LOST => .one 0x10000C
  | .OB_OPSEC => .one 0x100018
  | .OB_POWER_CYCLE => .one 0x10001C
  | .OB_FLAGS => .one 0x100010
  | .OB_FLAGS_EN => .one 0x100014
  | .OB_SAMP_CFG => .one 0x100020
  | .OB_SAMP_PKT => .one 0x100024
  | .OB_SAMP_INS => .ix 0x100028 4 4
  | .OB_PCNT_CFG => .ix 0x100200 64 4
  | .OB_PCNT_LO => .ix 0x100400 64 8
  | .OB_PCNT_HI => .ix 0x100404 64 8
  | .OB_CNT_OVF => .ix 0x101000 64 4
  | .OB_CNT_LO => .ix 0x108000 2048 8
  | .OB_CNT_HI => .ix 0x108004 2048 8

/-- The base of tree t's TF sub-window (00_scope, "Address spaces"): reach window plus 0x8000 times the local tree. -/
def treeBase (t : Nat) : Nat := 0x1000000 + 0x100000 * (t / 8) + 0x8000 * (t % 8)

/-- The BAR0 offset of a register (R6). -/
def Reg.addr (r : Reg) : Nat :=
  match r.name.place with
  | .one a => a
  | .ix base _ stride => base + stride * r.i
  | .ix2 base _ s1 _ s2 => base + s1 * r.i + s2 * r.j
  | .tree off => treeBase r.i + off
  | .tree2 off _ => treeBase r.i + off + 4 * r.j

/-- The index i below n with a = base + stride * i. -/
def regIx (base n stride a : Nat) : Option Nat :=
  if base ≤ a ∧ a < base + stride * n ∧ (a - base) % stride = 0 then some ((a - base) / stride) else none

/-- The indices i below n and j below m with a = base + s1 * i + s2 * j. -/
def regIx2 (base n s1 m s2 a : Nat) : Option (Nat × Nat) :=
  if base ≤ a ∧ a < base + s1 * n then
    match regIx 0 m s2 ((a - base) % s1) with
    | some j => some ((a - base) / s1, j)
    | none => none
  else none

/-- The tree t and the offset o with a = treeBase t + o, o below 0x8000 from a sub-block's start `sub`. -/
def regTree (sub a : Nat) : Option (Nat × Nat) :=
  let x := a - (0x1000000 + sub)
  if 0x1000000 + sub ≤ a ∧ x < 0x800000 ∧ x % 0x100000 < 0x40000 then
    some (8 * (x / 0x100000) + x % 0x100000 / 0x8000, x % 0x8000)
  else none

/-- The register of name n at address a. -/
def RegName.at? (n : RegName) (a : Nat) : Option Reg :=
  match n.place with
  | .one b => if a = b then some ⟨n, 0, 0⟩ else none
  | .ix base k stride =>
    match regIx base k stride a with
    | some i => some ⟨n, i, 0⟩
    | none => none
  | .ix2 base k s1 m s2 =>
    match regIx2 base k s1 m s2 a with
    | some (i, j) => some ⟨n, i, j⟩
    | none => none
  | .tree off =>
    match regTree (off - off % 0x40000) a with
    | some (t, o) => if o = off % 0x40000 then some ⟨n, t, 0⟩ else none
    | none => none
  | .tree2 off m =>
    match regTree (off - off % 0x40000) a with
    | some (t, o) =>
      match regIx (off % 0x40000) m 4 o with
      | some j => some ⟨n, t, j⟩
      | none => none
    | none => none

/-- The value of a register after PORST_N (R10, column Reset). -/
def Reg.reset (r : Reg) : Nat :=
  match r.name with
  | .IM_DEV_STATUS => 1
  | .IM_REACH_STATUS => 3
  | .LX_PT_CTL => 1
  | .LX_PB_CTL => 1
  | .LX_UL_CTL => 1
  | .LX_ML_CTL => 1
  | .LX_UL_LOS_CFG => 0xA100A0A
  | .LX_ML_LOS_CFG => 0xA100A0A
  | .LX_UL_LOL_CFG => 0x6050A
  | .LX_ML_LOL_CFG => 0x6050A
  | .LX_PT_TXEQ => 0x40000000
  | .LX_UL_TXEQ => 0x40000000
  | .LX_ML_TXEQ => 0x40000000
  | .LX_PB_EYE_CFG => 0xC000080C
  | .LX_UL_EYE_CFG => 0x8000080C
  | .LX_ML_EYE_CFG => 0x8000080C
  | .LX_PB_BURST_CFG => 0x80200808
  | .LX_ML_LINK_CFG => 0xA
  | .TF_DS_CFG => 0x43
  | .TF_US_CFG => 0x824
  | .TF_DEFECT_CFG => 0x4040404
  | .TF_DRIFT_CFG => 0x3042008
  | .TF_ACTION_CFG => 0x16024A4
  | .RG_TREE_CFG => 0xE0F0281E
  | .RG_TRACK_CFG => 0x3100208
  | .RG_PROFILE_CFG => 0x4040320
  | .RG_ROGUE_CFG => 0x40008
  | .RG_EQ_CFG => 0x302D9000
  | .GS_TREE_CFG => 0x1F404040
  | .GS_PROFILE_SEL => 0x10
  | .GS_DEFAULT_CFG => 0x80C0001
  | .GS_DEFAULT_ASSURED => 0x10
  | .GS_DEFAULT_MAX => 0x400
  | .GS_BPROF => if r.j = 1 then 0x80080800 else 0x80140800
  | .GS_MAP_CFG => 0x64
  | .GS_COOP_SIZE => 4
  | .PC_CFG => 0xF
  | .PC_TUNNEL_PORTS => 0x86812B5
  | .PC_TPID_CFG => 0x91000000
  | .PC_HASH_SEED => 0xFFFFFFFF
  | .FS_SEED => 0xFFFFFFFF
  | .FS_NEW_SEED => 0xFFFFFFFF
  | .FS_CFG => 0xC00001
  | .TM_PORT_CFG => if r.i < 64 then 0x08 else if r.i < 76 then 0x14 else 0
  | .TM_PORT_STATUS => 1
  | .TM_POOL_TH => 0xFFFFF
  | .BP_SCRUB_CFG => 0x80000401
  | .BP_POOL_NEAR_CAP => 0x7FFFFFF
  | .BP_POOL_FAR_CAP => 0x7FFFFFF
  | .BP_POOL_SPILL => 0x7FFFF040
  | .CE_PON_CFG => 1
  | .CE_MS_PN_THRESH_HI => 0xC0000000
  | .CE_MS_PORT_CFG => 0x64000000
  | .CE_LA_SIZE => 4
  | .CE_LA_OWNER => 0x10
  | .UL_PORT_CFG => 0x24000000
  | .UL_FC_CFG => 0xFFFF
  | .UL_FC_TH => 0xFFFFFF
  | .UL_SER_CFG => 0x34000400
  | .UL_LAG_CFG => 1
  | .TB_CTL => 0x20
  | .TB_INC_LO => 0xAE147AE1
  | .TB_INC_HI => 0x147
  | .TB_FRAME_CFG => 0x10000000
  | .TB_SYNCE_CFG => 0x40000000
  | .TB_CHAIN_STATUS => 0x80000000
  | .TB_CMP_CFG => 0x40000000
  | .TB_CMP_PULSE => 0x989680
  | .PX_CFG => 0x4B010210
  | .PX_CFG2 => 0x10401F40
  | .MC_ID_DEVICE => 0x64121100
  | .MC_CORE_CTL => 0x3E8
  | .MC_THERM_CFG => 0x73690000
  | .MC_AVS_CFG => 0x40000014
  | .MC_MARGIN => 0xFFFFFF
  | .MC_RING_RX_CFG => 4
  | .MC_RING_TX_CFG => 4
  | .MC_MGMT_RING_RX_CFG => 4
  | .MC_MGMT_RING_TX_CFG => 4
  | .MC_MGMT_CFG => 0x30000600
  | .VF_RING_RX_CFG => 4
  | .VF_RING_TX_CFG => 4
  | .OB_SAMP_CFG => 0x1400010
  | _ => 0

/-- A field of access RO (R11). -/
def fRO (hi lo : Nat) : Fld := ⟨hi, lo, .ro⟩
/-- A field of access RW (R11). -/
def fRW (hi lo : Nat) : Fld := ⟨hi, lo, .rw⟩
/-- A field of access WO (R11). -/
def fWO (hi lo : Nat) : Fld := ⟨hi, lo, .wo⟩
/-- A field of access W1C (R11). -/
def fW1C (hi lo : Nat) : Fld := ⟨hi, lo, .w1c⟩

/-- The fields of a register (R11); a bit of none of them is reserved (R13). -/
def RegName.fields : RegName → List Fld
  | .IM_DEV_STATUS => [fRO 31 16, fRO 15 8, fRO 6 5, fRO 4 4, fRO 2 0]  -- R61: ERR_SECTION LOAD_ERR SRC WAIT_HOST STATE
  | .IM_REACH_STATUS => [fRO 15 8, fRO 4 4, fRO 3 3, fRO 2 2, fRO 1 0]  -- R62: LOAD_ERR LIGHT_PENDING DARKEN_PENDING LOADED STATE
  | .IM_FLAGS => [fW1C 5 5, fW1C 4 4, fW1C 3 3, fW1C 2 2, fW1C 1 1, fW1C 0 0]  -- R63: STRUCT_WRITE_REJECT CMD_REJECT LOAD_FAIL LOAD_DONE REACH_CHANGE DEV_STATE_CHANGE
  | .IM_FLAGS_EN => [fRW 5 5, fRW 4 4, fRW 3 3, fRW 2 2, fRW 1 1, fRW 0 0]  -- R63: STRUCT_WRITE_REJECT CMD_REJECT LOAD_FAIL LOAD_DONE REACH_CHANGE DEV_STATE_CHANGE
  | .IM_STRUCT_REJ_ADDR => [fRO 25 0]  -- R64: ADDR
  | .IM_IMAGE_SERIAL_LO => [fRO 31 0]  -- R65: SERIAL_LO
  | .IM_IMAGE_SERIAL_HI => [fRO 31 0]  -- R65: SERIAL_HI
  | .IM_STRUCTURE_ID => [fRO 31 0]  -- R65: ID
  | .IM_FUSE => [fRO 19 16, fRO 3 0]  -- R66: SECURITY_VERSION KEY_REVOKED
  | .IM_CARVE => [fRO 25 16, fRO 9 0]  -- R67: UNITS BASE_UNIT
  | .LX_PT_CTL => [fRW 11 10, fRW 9 9, fRW 8 8, fRW 5 5, fRW 4 4, fRW 3 3, fRW 0 0]  -- R101: LPBK RX_INVERT TX_INVERT PRECODE_RX PRECODE_TX TX_FORCE_OFF POWER_DOWN
  | .LX_PB_CTL => [fRW 11 10, fRW 9 9, fRW 8 8, fRW 5 5, fRW 4 4, fRW 3 3, fRW 0 0]  -- R101: LPBK RX_INVERT TX_INVERT PRECODE_RX PRECODE_TX TX_FORCE_OFF POWER_DOWN
  | .LX_UL_CTL => [fRW 11 10, fRW 9 9, fRW 8 8, fRW 5 5, fRW 4 4, fRW 3 3, fRW 0 0]  -- R101: LPBK RX_INVERT TX_INVERT PRECODE_RX PRECODE_TX TX_FORCE_OFF POWER_DOWN
  | .LX_ML_CTL => [fRW 11 10, fRW 9 9, fRW 8 8, fRW 5 5, fRW 4 4, fRW 3 3, fRW 0 0]  -- R101: LPBK RX_INVERT TX_INVERT PRECODE_RX PRECODE_TX TX_FORCE_OFF POWER_DOWN
  | .LX_PT_STATUS => [fRO 31 28, fRO 27 26, fRO 8 8, fRO 7 7, fRO 6 6, fRO 5 5, fRO 4 4, fRO 1 1, fRO 0 0]  -- R102: ROLE GROUP_POS IN_SERVICE DROPPED MARKER_LOCK PRBS_LOCK PLL_LOCK LOL LOS
  | .LX_PB_STATUS => [fRO 31 28, fRO 27 26, fRO 8 8, fRO 7 7, fRO 6 6, fRO 5 5, fRO 4 4, fRO 1 1, fRO 0 0]  -- R102: ROLE GROUP_POS IN_SERVICE DROPPED MARKER_LOCK PRBS_LOCK PLL_LOCK LOL LOS
  | .LX_UL_STATUS => [fRO 31 28, fRO 27 26, fRO 8 8, fRO 7 7, fRO 6 6, fRO 5 5, fRO 4 4, fRO 1 1, fRO 0 0]  -- R102: ROLE GROUP_POS IN_SERVICE DROPPED MARKER_LOCK PRBS_LOCK PLL_LOCK LOL LOS
  | .LX_ML_STATUS => [fRO 31 28, fRO 27 26, fRO 8 8, fRO 7 7, fRO 6 6, fRO 5 5, fRO 4 4, fRO 1 1, fRO 0 0]  -- R102: ROLE GROUP_POS IN_SERVICE DROPPED MARKER_LOCK PRBS_LOCK PLL_LOCK LOL LOS
  | .LX_PT_FLAGS => [fW1C 12 12, fW1C 11 11, fW1C 10 10, fW1C 9 9, fW1C 8 8, fW1C 7 7, fW1C 6 6, fW1C 5 5, fW1C 4 4, fW1C 3 3, fW1C 2 2, fW1C 1 1, fW1C 0 0]  -- R103: CFG_REFUSED PRELOAD_LATE EYE_LOW EYE_DONE PRBS_LOCK_LOSS LANE_REJOIN LANE_DROP SKEW_EXCEEDED PLL_UNLOCK LOL_CLEAR LOL_SET LOS_CLEAR LOS_SET
  | .LX_PB_FLAGS => [fW1C 12 12, fW1C 11 11, fW1C 10 10, fW1C 9 9, fW1C 8 8, fW1C 7 7, fW1C 6 6, fW1C 5 5, fW1C 4 4, fW1C 3 3, fW1C 2 2, fW1C 1 1, fW1C 0 0]  -- R103: CFG_REFUSED PRELOAD_LATE EYE_LOW EYE_DONE PRBS_LOCK_LOSS LANE_REJOIN LANE_DROP SKEW_EXCEEDED PLL_UNLOCK LOL_CLEAR LOL_SET LOS_CLEAR LOS_SET
  | .LX_UL_FLAGS => [fW1C 12 12, fW1C 11 11, fW1C 10 10, fW1C 9 9, fW1C 8 8, fW1C 7 7, fW1C 6 6, fW1C 5 5, fW1C 4 4, fW1C 3 3, fW1C 2 2, fW1C 1 1, fW1C 0 0]  -- R103: CFG_REFUSED PRELOAD_LATE EYE_LOW EYE_DONE PRBS_LOCK_LOSS LANE_REJOIN LANE_DROP SKEW_EXCEEDED PLL_UNLOCK LOL_CLEAR LOL_SET LOS_CLEAR LOS_SET
  | .LX_ML_FLAGS => [fW1C 12 12, fW1C 11 11, fW1C 10 10, fW1C 9 9, fW1C 8 8, fW1C 7 7, fW1C 6 6, fW1C 5 5, fW1C 4 4, fW1C 3 3, fW1C 2 2, fW1C 1 1, fW1C 0 0]  -- R103: CFG_REFUSED PRELOAD_LATE EYE_LOW EYE_DONE PRBS_LOCK_LOSS LANE_REJOIN LANE_DROP SKEW_EXCEEDED PLL_UNLOCK LOL_CLEAR LOL_SET LOS_CLEAR LOS_SET
  | .LX_PT_FLAGS_EN => [fRW 12 12, fRW 11 11, fRW 10 10, fRW 9 9, fRW 8 8, fRW 7 7, fRW 6 6, fRW 5 5, fRW 4 4, fRW 3 3, fRW 2 2, fRW 1 1, fRW 0 0]  -- R103: CFG_REFUSED PRELOAD_LATE EYE_LOW EYE_DONE PRBS_LOCK_LOSS LANE_REJOIN LANE_DROP SKEW_EXCEEDED PLL_UNLOCK LOL_CLEAR LOL_SET LOS_CLEAR LOS_SET
  | .LX_PB_FLAGS_EN => [fRW 12 12, fRW 11 11, fRW 10 10, fRW 9 9, fRW 8 8, fRW 7 7, fRW 6 6, fRW 5 5, fRW 4 4, fRW 3 3, fRW 2 2, fRW 1 1, fRW 0 0]  -- R103: CFG_REFUSED PRELOAD_LATE EYE_LOW EYE_DONE PRBS_LOCK_LOSS LANE_REJOIN LANE_DROP SKEW_EXCEEDED PLL_UNLOCK LOL_CLEAR LOL_SET LOS_CLEAR LOS_SET
  | .LX_UL_FLAGS_EN => [fRW 12 12, fRW 11 11, fRW 10 10, fRW 9 9, fRW 8 8, fRW 7 7, fRW 6 6, fRW 5 5, fRW 4 4, fRW 3 3, fRW 2 2, fRW 1 1, fRW 0 0]  -- R103: CFG_REFUSED PRELOAD_LATE EYE_LOW EYE_DONE PRBS_LOCK_LOSS LANE_REJOIN LANE_DROP SKEW_EXCEEDED PLL_UNLOCK LOL_CLEAR LOL_SET LOS_CLEAR LOS_SET
  | .LX_ML_FLAGS_EN => [fRW 12 12, fRW 11 11, fRW 10 10, fRW 9 9, fRW 8 8, fRW 7 7, fRW 6 6, fRW 5 5, fRW 4 4, fRW 3 3, fRW 2 2, fRW 1 1, fRW 0 0]  -- R103: CFG_REFUSED PRELOAD_LATE EYE_LOW EYE_DONE PRBS_LOCK_LOSS LANE_REJOIN LANE_DROP SKEW_EXCEEDED PLL_UNLOCK LOL_CLEAR LOL_SET LOS_CLEAR LOS_SET
  | .LX_UL_LOS_CFG => [fRW 31 24, fRW 23 16, fRW 15 8, fRW 7 0]  -- R104: ASSERT_MV DEASSERT_MV ASSERT_T CLEAR_T
  | .LX_ML_LOS_CFG => [fRW 31 24, fRW 23 16, fRW 15 8, fRW 7 0]  -- R104: ASSERT_MV DEASSERT_MV ASSERT_T CLEAR_T
  | .LX_UL_LOL_CFG => [fRW 23 16, fRW 15 8, fRW 7 0]  -- R105: PPM_LIMIT ASSERT_T CLEAR_T
  | .LX_ML_LOL_CFG => [fRW 23 16, fRW 15 8, fRW 7 0]  -- R105: PPM_LIMIT ASSERT_T CLEAR_T
  | .LX_PT_TXEQ => [fRW 30 24, fRW 23 18, fRW 17 12, fRW 11 6, fRW 5 0]  -- R106: MAIN POST1 PRE1 PRE2 PRE3
  | .LX_UL_TXEQ => [fRW 30 24, fRW 23 18, fRW 17 12, fRW 11 6, fRW 5 0]  -- R106: MAIN POST1 PRE1 PRE2 PRE3
  | .LX_ML_TXEQ => [fRW 30 24, fRW 23 18, fRW 17 12, fRW 11 6, fRW 5 0]  -- R106: MAIN POST1 PRE1 PRE2 PRE3
  | .LX_UL_SKEW => [fRO 15 15, fRO 13 0]  -- R107: VALID SKEW_UI
  | .LX_ML_SKEW => [fRO 15 15, fRO 13 0]  -- R107: VALID SKEW_UI
  | .LX_PB_EYE_CFG => [fRW 31 31, fRW 30 30, fRW 29 21, fRW 15 8, fRW 7 0]  -- R108: SCAN_EN PB_ALL PB_SLOT LOW_H LOW_V
  | .LX_UL_EYE_CFG => [fRW 31 31, fRW 15 8, fRW 7 0]  -- R108: SCAN_EN LOW_H LOW_V
  | .LX_ML_EYE_CFG => [fRW 31 31, fRW 15 8, fRW 7 0]  -- R108: SCAN_EN LOW_H LOW_V
  | .LX_PB_EYE_RESULT => [fRO 31 24, fRO 23 22, fRO 21 21, fRO 19 14, fRO 7 0]  -- R109: SEQ WORST_EYE VALID H_MARGIN V_MARGIN
  | .LX_UL_EYE_RESULT => [fRO 31 24, fRO 23 22, fRO 21 21, fRO 19 14, fRO 7 0]  -- R109: SEQ WORST_EYE VALID H_MARGIN V_MARGIN
  | .LX_ML_EYE_RESULT => [fRO 31 24, fRO 23 22, fRO 21 21, fRO 19 14, fRO 7 0]  -- R109: SEQ WORST_EYE VALID H_MARGIN V_MARGIN
  | .LX_PT_PRBS_CTL => [fRW 27 24, fWO 16 16, fWO 8 8, fRW 5 5, fRW 4 4]  -- R110: PATTERN CHK_CLR ERR_INJECT CHK_EN GEN_EN
  | .LX_PB_PRBS_CTL => [fRW 27 24, fWO 16 16, fWO 8 8, fRW 5 5, fRW 4 4]  -- R110: PATTERN CHK_CLR ERR_INJECT CHK_EN GEN_EN
  | .LX_UL_PRBS_CTL => [fRW 27 24, fWO 16 16, fWO 8 8, fRW 5 5, fRW 4 4]  -- R110: PATTERN CHK_CLR ERR_INJECT CHK_EN GEN_EN
  | .LX_ML_PRBS_CTL => [fRW 27 24, fWO 16 16, fWO 8 8, fRW 5 5, fRW 4 4]  -- R110: PATTERN CHK_CLR ERR_INJECT CHK_EN GEN_EN
  | .LX_PB_PRBS_ERR => [fRO 31 0]  -- R111: ERRORS
  | .LX_UL_PRBS_ERR => [fRO 31 0]  -- R111: ERRORS
  | .LX_ML_PRBS_ERR => [fRO 31 0]  -- R111: ERRORS
  | .LX_PB_PRBS_BLOCKS => [fRO 31 0]  -- R111: BLOCKS
  | .LX_UL_PRBS_BLOCKS => [fRO 31 0]  -- R111: BLOCKS
  | .LX_ML_PRBS_BLOCKS => [fRO 31 0]  -- R111: BLOCKS
  | .LX_PB_BURST_CFG => [fRW 31 31, fRW 30 30, fRW 23 20, fRW 15 8, fRW 7 0]  -- R112: PRELOAD_EN RST_EN RST_WIDTH RST_LEAD SIG_THRESH
  | .LX_ML_LINK_CFG => [fRW 7 0]  -- R113: REJOIN_MS
  | .TF_TREE_STATUS => [fRO 17 8, fRO 6 6, fRO 5 5, fRO 4 4, fRO 3 3, fRO 2 2, fRO 1 0]  -- R139: RANGED XGPON TX_FAULT TREE_LOS FEC_DS PROT_CTRL STATE
  | .TF_FLAGS => [fW1C 9 9, fW1C 8 8, fW1C 7 7, fW1C 6 6, fW1C 5 5, fW1C 4 4, fW1C 3 3, fW1C 2 2, fW1C 1 1, fW1C 0 0]  -- R140: STATE_CHANGE PORT_UNKNOWN CFG_REFUSED PM_TIME_DISC PM_CLOSED EVT_OVF TERM_DEFECT TX_FAULT TREE_LOS_CLEAR TREE_LOS_SET
  | .TF_FLAGS_EN => [fRW 9 9, fRW 8 8, fRW 7 7, fRW 6 6, fRW 5 5, fRW 4 4, fRW 3 3, fRW 2 2, fRW 1 1, fRW 0 0]  -- R140: STATE_CHANGE PORT_UNKNOWN CFG_REFUSED PM_TIME_DISC PM_CLOSED EVT_OVF TERM_DEFECT TX_FAULT TREE_LOS_CLEAR TREE_LOS_SET
  | .TF_DS_CFG => [fRW 7 4, fRW 1 1, fRW 0 0]  -- R141: PLOAM_MAX FRAG_EN FEC_EN
  | .TF_US_CFG => [fRW 15 8, fRW 7 4, fRW 3 0]  -- R142: REASM_FRAMES DELIM_ERR DELIM_WIN
  | .TF_PONID_LO => [fRW 31 0]  -- R143: PONID_LO
  | .TF_PONID_HI => [fRW 18 0]  -- R143: PONID_HI
  | .TF_SFC_LO => [fRO 31 0]  -- R144: SFC_LO
  | .TF_SFC_HI => [fRO 18 0]  -- R144: SFC_HI
  | .TF_DEFECT_CFG => [fRW 31 24, fRW 23 16, fRW 15 8, fRW 7 0]  -- R145: N_LOFI N_LOBI N_LOSI LOS_FRAMES
  | .TF_DRIFT_CFG => [fRW 31 24, fRW 23 16, fRW 15 8, fRW 7 0]  -- R145: N_SUFI N_LCDGI TIW_THRESH DOW_THRESH
  | .TF_ACTION_CFG => [fRW 26 24, fRW 23 21, fRW 20 18, fRW 17 15, fRW 14 12, fRW 11 9, fRW 8 6, fRW 5 3, fRW 2 0]  -- R146: SUFI TIWI DOWI LCDGI LOFI LOBI LOSI TX_FAULT TREE_LOS
  | .TF_DEFECT_EVT => [fRO 31 31, fRO 30 30, fRO 29 26, fRO 25 17, fRO 15 0]  -- R147: VALID SET CODE SLOT SFC
  | .TF_DEFECT_POP => [fWO 0 0]  -- R147: POP
  | .TF_PM_CFG => [fRW 6 0]  -- R148: DAY_OFFSET_Q
  | .RG_TREE_CFG => [fRW 31 31, fRW 30 30, fRW 29 29, fRW 28 28, fRW 25 16, fRW 15 10, fRW 9 0]  -- R182: AUTO_ASSIGN AUTO_ADJ INVAL_ON_FAIL DISC_EN MAX_RTD_US LOST_S MIN_RTD_US
  | .RG_BOARD_DLY => [fRW 31 16, fRW 15 0]  -- R183: US_10PS DS_10PS
  | .RG_TRACK_CFG => [fRW 27 24, fRW 23 16, fRW 11 8, fRW 7 0]  -- R184: RANGE_TRIES ADJ_WAIT ADJ_CONFIRM ADJ_THRESH
  | .RG_PROFILE_CFG => [fRW 27 24, fRW 19 16, fRW 15 0]  -- R185: PHASE_TOL LEARN_BURSTS STALE_FRAMES
  | .RG_ROGUE_CFG => [fRW 23 8, fRW 4 0]  -- R186: ROGUE_ADJ ROGUE_N
  | .RG_FLAGS => [fW1C 9 9, fW1C 8 8, fW1C 7 7, fW1C 6 6, fW1C 5 5, fW1C 4 4, fW1C 3 3, fW1C 2 2, fW1C 1 1, fW1C 0 0]  -- R187: CFG_REFUSED PLOAMU_OVF PLOAMU_NEW ROGUE_CLEAR ROGUE_SET ADJ_FAIL ACT_FAIL TERM_STATE DISC_OVF DISC_NEW
  | .RG_FLAGS_EN => [fRW 9 9, fRW 8 8, fRW 7 7, fRW 6 6, fRW 5 5, fRW 4 4, fRW 3 3, fRW 2 2, fRW 1 1, fRW 0 0]  -- R187: CFG_REFUSED PLOAMU_OVF PLOAMU_NEW ROGUE_CLEAR ROGUE_SET ADJ_FAIL ACT_FAIL TERM_STATE DISC_OVF DISC_NEW
  | .RG_ROGUE_STATUS => [fRO 31 31, fRO 30 30, fRO 29 21, fRO 20 0]  -- R188: ROGUE SUSPECT_VALID SUSPECT_SLOT LAST_POS
  | .RG_PLOAMU_META => [fRO 31 31, fRO 30 30, fRO 24 16, fRO 6 0]  -- R189: VALID MIC_OK SLOT COUNT
  | .RG_PLOAMU_POP => [fWO 0 0]  -- R189: POP
  | .RG_PLOAMD_STATUS => [fRO 14 8, fRO 6 0]  -- R190: HW_PENDING HOST_PENDING
  | .RG_PLOAMU_DATA => [fRO 31 0]  -- R189: BYTES
  | .RG_EQ_CFG => [fRW 31 24, fRW 23 0]  -- R191: SN_RAND_US TEQ
  | .RG_DISC_HEAD => [fRO 31 31, fRO 23 16, fRO 12 8, fRO 5 0]  -- R191: VALID SIGHTINGS COUNT TREE
  | .RG_DISC_SN_LO => [fRO 31 0]  -- R191: SN_LO
  | .RG_DISC_SN_HI => [fRO 31 0]  -- R191: SN_HI
  | .RG_DISC_RTD => [fRO 23 0]  -- R191: RTD_SN
  | .RG_DISC_POP => [fWO 0 0]  -- R191: POP
  | .GS_TREE_CFG => [fRW 31 16, fRW 15 8, fRW 7 0]  -- R223: DISC_PERIOD PLOAMU_PERIOD DISC_DEFER_MAX
  | .GS_PROFILE_SEL => [fRW 5 4, fRW 1 0]  -- R224: SHORT_IDX LONG_IDX
  | .GS_FLAGS => [fW1C 8 8, fW1C 7 7, fW1C 6 6, fW1C 5 5, fW1C 4 4, fW1C 3 3, fW1C 2 2, fW1C 1 1, fW1C 0 0]  -- R225: CFG_REFUSED REPORT_BAD RANGE_WAIT DISC_FORCED DISC_DEFER LAYOUT_TRIM LIMIT COOP_MISSED MAP_LATE
  | .GS_FLAGS_EN => [fRW 8 8, fRW 7 7, fRW 6 6, fRW 5 5, fRW 4 4, fRW 3 3, fRW 2 2, fRW 1 1, fRW 0 0]  -- R225: CFG_REFUSED REPORT_BAD RANGE_WAIT DISC_FORCED DISC_DEFER LAYOUT_TRIM LIMIT COOP_MISSED MAP_LATE
  | .GS_TREE_STATUS => [fRO 31 20, fRO 19 10, fRO 9 1, fRO 0 0]  -- R226: ACTIVE STRUCTS BURSTS REPLAYED
  | .GS_DEFAULT_CFG => [fRW 31 24, fRW 23 21, fRW 20 19, fRW 18 18, fRW 15 0]  -- R227: POLL_FRAMES PRIO ELIG DBRU_EN WEIGHT
  | .GS_DEFAULT_FIXED => [fRW 23 0]  -- R227: FIXED
  | .GS_DEFAULT_ASSURED => [fRW 23 0]  -- R227: ASSURED
  | .GS_DEFAULT_MAX => [fRW 23 0]  -- R227: MAX
  | .GS_BPROF => [fRW 31 31, fRW 28 28, fRW 27 16, fRW 15 8]  -- R224: FEC_EN DELIM8 PRE_B GUARD_B
  | .GS_MAP_CFG => [fRW 31 31, fRW 7 0]  -- R228: COOP_EN START_US
  | .GS_RFLAGS => [fW1C 4 4, fW1C 3 3, fW1C 2 2, fW1C 1 1, fW1C 0 0]  -- R228: CFG_REFUSED COOP_TABLE_FULL COOP_PI_BAD COOP_REJECT COOP_DONE
  | .GS_RFLAGS_EN => [fRW 4 0]  -- R228: EN
  | .GS_COOP_BASE => [fRW 21 5]  -- R228: BASE
  | .GS_COOP_SIZE => [fRW 3 0]  -- R228: LOG2
  | .GS_COOP_PI => [fRW 10 0]  -- R228: PI
  | .GS_COOP_CI => [fRO 10 0]  -- R228: CI
  | .GS_COOP_RD => [fRO 10 0]  -- R228: RD
  | .PC_STATUS => [fRO 31 16, fRO 0 0]  -- R259: EPOCH ACTIVE
  | .PC_INFLIGHT => [fRO 26 0]  -- R259: COUNT
  | .PC_CFG => [fRW 9 9, fRW 8 8, fRW 3 0]  -- R259: HASH_INNER LENCONFLICT_ACT CORE_MASK
  | .PC_TUNNEL_PORTS => [fRW 31 16, fRW 15 0]  -- R259: GTPU_PORT VXLAN_PORT
  | .PC_TPID_CFG => [fRW 31 16, fRW 1 1, fRW 0 0]  -- R259: EXTRA_TPID EXTRA_EN PUSH_TPID
  | .PC_HASH_SEED => [fRW 31 0]  -- R259: SEED
  | .PC_FLAGS => [fW1C 5 5, fW1C 4 4, fW1C 3 3, fW1C 2 2, fW1C 1 1, fW1C 0 0]  -- R259: CFG_REFUSED RECIRC_TWICE NO_RULE LENCONFLICT OLD_BANK_IDLE BANK_SWAPPED
  | .PC_FLAGS_EN => [fRW 5 5, fRW 4 4, fRW 3 3, fRW 2 2, fRW 1 1, fRW 0 0]  -- R259: CFG_REFUSED RECIRC_TWICE NO_RULE LENCONFLICT OLD_BANK_IDLE BANK_SWAPPED
  | .PC_RECIRC_QUEUE => [fRW 31 31, fRW 18 0]  -- R259: VALID QUEUE
  | .PC_CPU_QUEUE => [fRW 18 0]  -- R259: QUEUE
  | .FS_STATUS => [fRO 31 31, fRO 30 30, fRO 28 24, fRO 20 16, fRO 8 0]  -- R281: REBUILDING STALLED LOG2_ENTRIES NEW_LOG2 STASH
  | .FS_COUNT => [fRO 21 0]  -- R281: ENTRIES
  | .FS_SEED => [fRO 31 0]  -- R281: SEED
  | .FS_NEW_SEED => [fRO 31 0]  -- R281: SEED
  | .FS_MIG_PTR => [fRO 18 0]  -- R281: P
  | .FS_CFG => [fRW 24 16, fRW 2 0]  -- R281: STASH_WARN MIG_SHARE
  | .FS_FLAGS => [fW1C 5 5, fW1C 4 4, fW1C 3 3, fW1C 2 2, fW1C 1 1, fW1C 0 0]  -- R281: ECC_UNCORR ECC_CORR TABLE_FULL STASH_HIGH REBUILD_STALL REBUILD_DONE
  | .FS_FLAGS_EN => [fRW 5 5, fRW 4 4, fRW 3 3, fRW 2 2, fRW 1 1, fRW 0 0]  -- R281: ECC_UNCORR ECC_CORR TABLE_FULL STASH_HIGH REBUILD_STALL REBUILD_DONE
  | .FS_UE_ADDR => [fRO 31 31, fRO 22 22, fRO 21 0]  -- R281: VALID STASH INDEX
  | .TM_PORT_CFG => [fRW 6 0]  -- R309: OVERHEAD
  | .TM_PORT_STATUS => [fRO 2 2, fRO 1 1, fRO 0 0]  -- R310: BLOCKED CREDIT_WAIT STOPPED
  | .TM_FLAGS => [fW1C 6 6, fW1C 5 5, fW1C 4 4, fW1C 3 3, fW1C 2 2, fW1C 1 1, fW1C 0 0]  -- R311: CFG_REFUSED FLUSH_DONE AGED NO_BUFFER UNATTACHED HOLD_END HOLD_START
  | .TM_FLAGS_EN => [fRW 6 6, fRW 5 5, fRW 4 4, fRW 3 3, fRW 2 2, fRW 1 1, fRW 0 0]  -- R311: CFG_REFUSED FLUSH_DONE AGED NO_BUFFER UNATTACHED HOLD_END HOLD_START
  | .TM_DROP_LAST => [fRO 31 31, fRO 30 28, fRO 27 24, fRO 18 0]  -- R312: VALID COLOUR REASON QUEUE
  | .TM_SIZE => [fRO 31 17, fRO 16 0]  -- R312: NODES_HI NODES
  | .TM_SIZE4 => [fRO 19 0]  -- R312: QUEUES
  | .TM_POOL_TH => [fRW 19 0]  -- R313: TH_MIB
  | .BP_TIER_CELLS => [fRO 26 0]  -- R342: CELLS
  | .BP_TIER_FREE => [fRO 26 0]  -- R342: FREE
  | .BP_TIER_SHARED => [fRO 27 0]  -- R342: SHARED_FREE
  | .BP_TIER_RETIRED => [fRO 26 14, fRO 13 0]  -- R342: LISTED RETIRED
  | .BP_FLAGS => [fW1C 13 13, fW1C 12 12, fW1C 11 11, fW1C 10 10, fW1C 9 9, fW1C 8 8, fW1C 7 7, fW1C 6 6, fW1C 5 5, fW1C 4 4, fW1C 3 3, fW1C 2 2, fW1C 1 1, fW1C 0 0]  -- R343: CFG_REFUSED RECLAIM_DONE ECC_LOG_OVF FAR_DIRECT POOL_EXHAUSTED QUEUE_BROKEN RETIRE_FULL RETIRED NON_OWNER DOUBLE_FREE UE_FAR UE_NEAR CE_FAR CE_NEAR
  | .BP_FLAGS_EN => [fRW 13 13, fRW 12 12, fRW 11 11, fRW 10 10, fRW 9 9, fRW 8 8, fRW 7 7, fRW 6 6, fRW 5 5, fRW 4 4, fRW 3 3, fRW 2 2, fRW 1 1, fRW 0 0]  -- R343: CFG_REFUSED RECLAIM_DONE ECC_LOG_OVF FAR_DIRECT POOL_EXHAUSTED QUEUE_BROKEN RETIRE_FULL RETIRED NON_OWNER DOUBLE_FREE UE_FAR UE_NEAR CE_FAR CE_NEAR
  | .BP_FREE_ERR => [fRO 31 31, fRO 30 30, fRO 29 29, fRO 28 25, fRO 24 19, fRO 18 13]  -- R344: VALID KIND TIER REQUESTER POOL OWNER
  | .BP_FREE_ERR_CELL => [fRO 26 0]  -- R344: CELL
  | .BP_SCRUB_CFG => [fRW 31 31, fRW 15 8, fRW 7 0]  -- R345: EN FAR_H NEAR_H
  | .BP_ECC_LOG => [fRO 31 31, fRO 30 30, fRO 29 29, fRO 28 28, fRO 27 27, fRO 23 20, fRO 19 16, fRO 6 0]  -- R345: VALID UE TIER RESERVED_REGION LINK CHANNEL SOURCE COUNT
  | .BP_ECC_LOG_CELL => [fRO 26 0]  -- R345: CELL
  | .BP_ECC_POP => [fWO 0 0]  -- R345: POP
  | .BP_HBM_STATUS => [fRO 31 31, fRO 30 30, fRO 29 29, fRO 23 16, fRO 3 0]  -- R347: TRAINED CATTRIP HOT TEMP_C TRAIN_ERR
  | .BP_DDR_STATUS => [fRO 31 31, fRO 30 30, fRO 29 28, fRO 21 16, fRO 3 0]  -- R347: TRAINED HOT RANKS CAP_GIB TRAIN_ERR
  | .BP_POOL_NEAR_CAP => [fRW 26 0]  -- R346: CAP
  | .BP_POOL_FAR_CAP => [fRW 26 0]  -- R346: CAP
  | .BP_POOL_SPILL => [fRW 31 31, fRW 30 12, fRW 11 0]  -- R346: SPILL_ON_FULL NEAR_KIB PREFETCH_KIB
  | .BP_POOL_INFO => [fRO 31 31, fRO 7 0]  -- R346: EXISTS SLICE
  | .BP_POOL_USED => [fRO 26 0]  -- R346: USED
  | .BP_POOL_MIN => [fRO 26 0]  -- R346: MIN
  | .CE_FLAGS => [fW1C 16 16, fW1C 15 15, fW1C 14 14, fW1C 13 13, fW1C 12 12, fW1C 11 11, fW1C 10 10, fW1C 9 9, fW1C 8 8, fW1C 7 7, fW1C 6 6, fW1C 5 5, fW1C 4 4, fW1C 3 3, fW1C 2 2, fW1C 1 1, fW1C 0 0]  -- R373: CFG_REFUSED LA_PI_BAD LA_DONE MS_CLEAR_REFUSED MS_PN_EXHAUSTED MS_REKEY MS_NO_SA MS_REPLAY MS_TAG_FAIL DS_VOID_IDLE DS_PORT_MISMATCH US_KEY_DISCARD KEY_EVT_OVF KEY_SWITCHED KEY_VOID KEY_SPENT KEY_WARN
  | .CE_FLAGS_EN => [fRW 16 16, fRW 15 15, fRW 14 14, fRW 13 13, fRW 12 12, fRW 11 11, fRW 10 10, fRW 9 9, fRW 8 8, fRW 7 7, fRW 6 6, fRW 5 5, fRW 4 4, fRW 3 3, fRW 2 2, fRW 1 1, fRW 0 0]  -- R373: CFG_REFUSED LA_PI_BAD LA_DONE MS_CLEAR_REFUSED MS_PN_EXHAUSTED MS_REKEY MS_NO_SA MS_REPLAY MS_TAG_FAIL DS_VOID_IDLE DS_PORT_MISMATCH US_KEY_DISCARD KEY_EVT_OVF KEY_SWITCHED KEY_VOID KEY_SPENT KEY_WARN
  | .CE_PON_CFG => [fRW 0 0]  -- R374: AUTO_EARLY
  | .CE_KEY_EVT => [fRO 31 31, fRO 30 28, fRO 27 27, fRO 26 16, fRO 15 0]  -- R375: VALID KIND BCAST SFC SLOT
  | .CE_KEY_EVT_POP => [fWO 0 0]  -- R375: POP
  | .CE_MS_PN_THRESH_LO => [fRW 31 0]  -- R376: PN_LO
  | .CE_MS_PN_THRESH_HI => [fRW 31 0]  -- R376: PN_HI
  | .CE_MS_PORT_CFG => [fRW 31 31, fRW 30 30, fRW 29 29, fRW 28 27, fRW 26 26]  -- R376: EN INCLUDE_SCI REPLAY_PROTECT CONF_OFFSET EAPOL_CLEAR
  | .CE_MS_REPLAY_WIN => [fRW 31 0]  -- R376: WINDOW
  | .CE_LA_BASE => [fRW 21 6]  -- R377: BASE
  | .CE_LA_SIZE => [fRW 31 31, fRW 3 0]  -- R377: EN LOG2
  | .CE_LA_PI => [fRW 12 0]  -- R377: PI
  | .CE_LA_CI => [fRO 12 0]  -- R377: CI
  | .CE_LA_OWNER => [fRW 4 0]  -- R377: OWNER
  | .UL_PORT_CFG => [fRW 31 31, fWO 30 30, fRW 29 16, fRW 15 8]  -- R396: PORT_EN CLR_STATS MAX_FRAME UP_HOLD_MS
  | .UL_PORT_STATUS => [fRO 31 30, fRO 29 28, fRO 27 20, fRO 19 12, fRO 11 11, fRO 6 6, fRO 5 5, fRO 4 4, fRO 3 3, fRO 2 2, fRO 1 1]  -- R397: STATE WIDTH PFC_RX_PAUSED FC_XOFF PAUSED DEGRADED RF LF HI_BER LOA LOS
  | .UL_FLAGS => [fW1C 9 9, fW1C 8 8, fW1C 7 7, fW1C 6 6, fW1C 5 5, fW1C 4 4, fW1C 3 3, fW1C 2 2, fW1C 1 1, fW1C 0 0]  -- R398: CFG_REFUSED TX_ABORT DEGRADED RF LF HI_BER LOA LOS LINK_DOWN LINK_UP
  | .UL_FLAGS_EN => [fRW 9 9, fRW 8 8, fRW 7 7, fRW 6 6, fRW 5 5, fRW 4 4, fRW 3 3, fRW 2 2, fRW 1 1, fRW 0 0]  -- R398: CFG_REFUSED TX_ABORT DEGRADED RF LF HI_BER LOA LOS LINK_DOWN LINK_UP
  | .UL_FC_CFG => [fRW 25 24, fRW 23 16, fRW 15 0]  -- R399: MODE FORCE QUANTA
  | .UL_FC_TH => [fRW 31 31, fRW 29 24, fRW 23 12, fRW 11 0]  -- R399: EN POOL XOFF_MIB XON_MIB
  | .UL_TS_CORR_RX => [fRW 31 0]  -- R400: CORR_PS
  | .UL_TS_CORR_TX => [fRW 31 0]  -- R400: CORR_PS
  | .UL_SER_CFG => [fRW 31 28, fRW 27 14, fRW 13 0]  -- R400: WIN_LOG2 DEG_SET DEG_CLEAR
  | .UL_STAT_LO => [fRO 31 0]  -- R401: COUNT_LO
  | .UL_STAT_HI => [fRO 31 0]  -- R401: COUNT_HI
  | .UL_LAG_CFG => [fRW 31 31, fRW 30 30, fRW 11 0]  -- R402: EN FLUSH_ON_REMOVE SPAN
  | .UL_LAG_STATUS => [fRO 7 0]  -- R402: DIST
  | .UL_LAG_FLAGS => [fW1C 2 2, fW1C 1 1, fW1C 0 0]  -- R402: CFG_REFUSED LAG_SLICE NO_MEMBER
  | .UL_LAG_FLAGS_EN => [fRW 2 0]  -- R402: EN
  | .UL_LAG_MEMBER => [fRW 31 31, fRW 30 30, fRW 29 29, fRW 22 19, fRW 18 0]  -- R402: VALID COLLECTING DISTRIBUTING PORT BASE
  | .TB_CTL => [fRW 8 4, fRW 0 0]  -- R428: LATE_TOL CLK_SRC
  | .TB_STATUS => [fRO 31 30, fRO 29 29, fRO 28 28]  -- R428: STEP_SEQ SLEWING FALLBACK
  | .TB_FLAGS => [fW1C 23 23, fW1C 22 22, fW1C 21 21, fW1C 20 20, fW1C 19 19, fW1C 18 18, fW1C 17 17, fW1C 16 16, fW1C 15 11, fW1C 10 3, fW1C 2 2, fW1C 1 1, fW1C 0 0]  -- R429: CFG_REFUSED GCL_OVERRUN GCL_STARTED FRAME_DRIFT TODCAP_DONE LAUNCH_LATE TXTS_OVF CAP_OVR CAP_EDGE CMP_FIRED CLK_FALLBACK SLEW_DONE STEPPED
  | .TB_FLAGS_EN => [fRW 23 23, fRW 22 22, fRW 21 21, fRW 20 20, fRW 19 19, fRW 18 18, fRW 17 17, fRW 16 16, fRW 15 11, fRW 10 3, fRW 2 2, fRW 1 1, fRW 0 0]  -- R429: CFG_REFUSED GCL_OVERRUN GCL_STARTED FRAME_DRIFT TODCAP_DONE LAUNCH_LATE TXTS_OVF CAP_OVR CAP_EDGE CMP_FIRED CLK_FALLBACK SLEW_DONE STEPPED
  | .TB_INC_LO => [fRW 31 0]  -- R430: FRAC_LO
  | .TB_INC_HI => [fRW 15 8, fRW 7 0]  -- R430: INT FRAC_HI
  | .TB_NOW_LO => [fRO 31 0]  -- R430: C_LO
  | .TB_NOW_HI => [fRO 31 0]  -- R430: C_HI
  | .TB_TOD_NS => [fRO 29 0]  -- R430: NS
  | .TB_TOD_S_LO => [fRO 31 0]  -- R430: S_LO
  | .TB_TOD_S_HI => [fRO 15 0]  -- R430: S_HI
  | .TB_FRAME_CFG => [fRW 31 24, fRW 16 0]  -- R431: FRAME_TOL OFFSET_NS
  | .TB_FRAME_PHASE => [fRO 31 0]  -- R431: PHASE
  | .TB_SYNCE_CFG => [fRW 31 31, fRW 30 30, fRW 15 15, fRW 14 14, fRW 11 8, fRW 7 7, fRW 6 6, fRW 3 0]  -- R431: TX_LOOP SQUELCH REC1_EN REC1_DIV REC1_LANE REC0_EN REC0_DIV REC0_LANE
  | .TB_CHAIN_CFG => [fRW 0 0]  -- R431: MODE
  | .TB_CHAIN_STATUS => [fRO 31 31, fRO 30 30]  -- R431: PPS_SWITCH_CLOSED IN_PPS_SEEN
  | .TB_CMP_CFG => [fRW 31 31, fRW 30 30, fRW 29 27, fRO 0 0]  -- R432: EN REBASE OUT ARMED
  | .TB_CMP_TGT_LO => [fRW 31 0]  -- R432: T_LO
  | .TB_CMP_TGT_HI => [fRW 31 0]  -- R432: T_HI
  | .TB_CMP_PERIOD => [fRW 31 0]  -- R432: PERIOD
  | .TB_CMP_PULSE => [fRW 29 0]  -- R432: PULSE
  | .TB_CAP_CFG => [fRW 31 31, fRW 30 30, fRW 29 29, fRO 28 28]  -- R432: EN EDGE SRC VALID
  | .TB_CAP_LO => [fRO 31 0]  -- R432: C_LO
  | .TB_CAP_HI => [fRO 31 0]  -- R432: C_HI
  | .TB_TODCAP_CTL => [fWO 31 31, fRO 30 29, fRW 5 0]  -- R432: ARM STATE TREE
  | .TB_TODCAP_SFC => [fRW 31 0]  -- R432: SFC
  | .TB_TODCAP_T_LO => [fRO 31 0]  -- R432: C_LO
  | .TB_TODCAP_T_HI => [fRO 31 0]  -- R432: C_HI
  | .TB_TXTS_META => [fRO 31 31, fRO 30 30, fRO 29 28, fRO 22 16, fRO 15 0]  -- R433: VALID LATE STEP_SEQ COUNT ID
  | .TB_TXTS_NS => [fRO 31 0]  -- R433: NS
  | .TB_TXTS_S_LO => [fRO 31 0]  -- R433: S_LO
  | .TB_TXTS_S_HI => [fRO 15 0]  -- R433: S_HI
  | .TB_TXTS_POP => [fWO 1 1, fWO 0 0]  -- R433: CLR_LOST POP
  | .TB_TXTS_LOST => [fRO 31 0]  -- R433: LOST
  | .PX_STATUS => [fRO 31 30, fRO 29 28, fRO 27 26, fRO 25 22, fRO 21 21, fRO 20 20, fRO 19 18, fRO 17 17, fRO 15 8]  -- R464: ROLE MODE LINK LANES_GOOD CADENCE2 SOURCE COPY PAIR_KEY COPY_AGE
  | .PX_FLAGS => [fW1C 15 15, fW1C 14 14, fW1C 13 13, fW1C 12 12, fW1C 11 11, fW1C 10 10, fW1C 9 9, fW1C 8 8, fW1C 7 7, fW1C 6 6, fW1C 5 5, fW1C 4 4, fW1C 3 3, fW1C 2 2, fW1C 1 1, fW1C 0 0]  -- R465: CFG_REFUSED RESTORE_FAIL RESTORE_DONE SNAP_FAIL SNAP_DONE EVENT_OVF COPY_STALE RESYNC_DONE COPY_BAD STANDDOWN PSW_DENIED SWITCHED PHASE_BAD MISMATCH LINK_DOWN LINK_UP
  | .PX_FLAGS_EN => [fRW 15 15, fRW 14 14, fRW 13 13, fRW 12 12, fRW 11 11, fRW 10 10, fRW 9 9, fRW 8 8, fRW 7 7, fRW 6 6, fRW 5 5, fRW 4 4, fRW 3 3, fRW 2 2, fRW 1 1, fRW 0 0]  -- R465: CFG_REFUSED RESTORE_FAIL RESTORE_DONE SNAP_FAIL SNAP_DONE EVENT_OVF COPY_STALE RESYNC_DONE COPY_BAD STANDDOWN PSW_DENIED SWITCHED PHASE_BAD MISMATCH LINK_DOWN LINK_UP
  | .PX_CFG => [fRW 31 22, fRW 21 14, fRW 13 6, fRW 5 2]  -- R466: WTR_S HOLDOFF_FRAMES COPY_AGE_MAX FOREIGN_N
  | .PX_CFG2 => [fRW 31 24, fRW 23 16, fRW 15 0]  -- R466: STARTUP_P STARTUP_S SFC_JUMP
  | .PX_MATE_PHASE => [fRO 31 0]  -- R467: PHASE_PS
  | .PX_COPY_STAT => [fRO 31 16, fRO 15 0]  -- R467: BACKLOG_KIB CELLS
  | .PX_SNAP_OUT_LO => [fRW 31 0]  -- R467: ADDR_LO
  | .PX_SNAP_OUT_HI => [fRW 31 0]  -- R467: ADDR_HI
  | .PX_SNAP_OUT_LEN => [fRW 31 0]  -- R467: LEN
  | .PX_SNAP_OUT_SEQ => [fRO 31 0]  -- R467: SEQ
  | .PX_SNAP_IN_LO => [fRW 31 0]  -- R467: ADDR_LO
  | .PX_SNAP_IN_HI => [fRW 31 0]  -- R467: ADDR_HI
  | .PX_SNAP_IN_LEN => [fRW 31 0]  -- R467: LEN
  | .PX_SNAP_IN_SEQ => [fRW 31 0]  -- R467: SEQ
  | .PX_TREE_STATUS => [fRO 31 31, fRO 30 29, fRO 28 28, fRO 27 27, fRO 26 26, fRO 25 16, fRO 15 14, fRO 13 11]  -- R468: PROTECTED STATE FIT LOCKOUT WTR_RUN WTR_LEFT MATE_STATE CAUSE
  | .MC_ID_DEVICE => [fRO 31 16, fRO 15 8]  -- R507: DEVICE STEPPING
  | .MC_ID_LOT_LO => [fRO 31 0]  -- R507: LOT
  | .MC_ID_LOT_HI => [fRO 31 0]  -- R507: LOT
  | .MC_ID_DIE => [fRO 20 16, fRO 15 8, fRO 7 0]  -- R507: WAFER DIE_X DIE_Y
  | .MC_ID_AVS => [fRO 31 22, fRO 21 12, fRO 7 0]  -- R507: AVS_INIT_MV V_MIN_MV K_MV_PER_KPPM
  | .MC_UPD_STATUS => [fRO 31 30, fRO 29 29, fRO 28 28, fRO 27 27, fRO 26 26, fRO 25 25, fRO 23 16]  -- R507: SESSION RUN_SLOT TRIAL A_CONFIRMED B_CONFIRMED ROLLED_BACK FAIL_COUNT
  | .MC_FLAGS => [fW1C 20 20, fW1C 19 19, fW1C 18 15, fW1C 14 11, fW1C 10 10, fW1C 9 9, fW1C 8 8, fW1C 7 7, fW1C 6 6, fW1C 5 5, fW1C 4 4, fW1C 3 3, fW1C 2 2]  -- R508: CFG_REFUSED ROLLED_BACK DMA_DONE WDT_EXPIRED MARGIN_EXHAUSTED REPLAN_DONE THERM_CRIT THERM_WARN BAR2_DISCARD VF_ABORT SP_COLLIDE SP_UE SP_CE
  | .MC_FLAGS_EN => [fRW 20 20, fRW 19 19, fRW 18 15, fRW 14 11, fRW 10 10, fRW 9 9, fRW 8 8, fRW 7 7, fRW 6 6, fRW 5 5, fRW 4 4, fRW 3 3, fRW 2 2]  -- R508: CFG_REFUSED ROLLED_BACK DMA_DONE WDT_EXPIRED MARGIN_EXHAUSTED REPLAN_DONE THERM_CRIT THERM_WARN BAR2_DISCARD VF_ABORT SP_COLLIDE SP_UE SP_CE
  | .MC_SP_COLLIDE => [fW1C 14 0]  -- R508: PORT
  | .MC_RING_FLAGS => [fW1C 20 16, fW1C 12 8, fW1C 4 0]  -- R508: PI_BAD TX_DONE RX_DONE
  | .MC_RING_FLAGS_EN => [fRW 20 16, fRW 12 8, fRW 4 0]  -- R508: PI_BAD TX_DONE RX_DONE
  | .MC_VF_SP => [fRW 31 31, fRW 21 16]  -- R510: EN BASE
  | .MC_CORE_CTL => [fRW 31 31, fRW 30 30, fRW 29 29, fWO 28 28, fRW 15 0]  -- R510: RESET WDT_EN WDT_ACT KICK WDT_MS
  | .MC_INT_MAP => [fRW 31 31, fRW 5 0]  -- R510: EN VECTOR
  | .MC_INT_SRC => [fRO 31 0]  -- R510: SRC
  | .MC_INT_EOI => [fWO 5 0]  -- R510: VECTOR
  | .MC_CORE_INT_EN => [fRW 31 0]  -- R510: EN
  | .MC_INT_LANE => [fRO 31 0]  -- R510: INST
  | .MC_INT_TREE => [fRO 31 0]  -- R510: INST
  | .MC_TEMP => [fRO 31 31, fRO 9 0]  -- R511: VALID TEMP
  | .MC_VOLT => [fRO 31 31, fRO 11 0]  -- R511: VALID MV
  | .MC_AGE => [fRO 31 31, fRO 15 0]  -- R511: VALID DEGR_PPM
  | .MC_THERM_CFG => [fRW 31 24, fRW 23 16]  -- R511: CRIT_C WARN_C
  | .MC_AVS_CFG => [fWO 31 31, fRW 30 30, fRW 7 0]  -- R511: REPLAN AUTO GUARD_MV
  | .MC_AVS_STATUS => [fRO 31 31, fRO 25 16, fRO 9 0]  -- R511: BUSY TARGET_MV REQ_MV
  | .MC_MARGIN => [fRO 31 24, fRO 23 0]  -- R511: MARGIN_MV HOURS
  | .MC_RING_RX_BASE_LO => [fRW 31 6]  -- R512: RX_BASE_LO
  | .MC_RING_RX_BASE_HI => [fRW 31 0]  -- R512: RX_BASE_HI
  | .MC_RING_RX_CFG => [fRW 31 31, fRW 3 0]  -- R512: EN LOG2
  | .MC_RING_RX_PI => [fRW 15 0]  -- R512: RX_PI
  | .MC_RING_RX_CI => [fRO 15 0]  -- R512: RX_CI
  | .MC_RING_TX_BASE_LO => [fRW 31 6]  -- R512: RX_BASE_LO
  | .MC_RING_TX_BASE_HI => [fRW 31 0]  -- R512: RX_BASE_HI
  | .MC_RING_TX_CFG => [fRW 31 31, fRW 3 0]  -- R512: EN LOG2
  | .MC_RING_TX_PI => [fRW 15 0]  -- R512: RX_PI
  | .MC_RING_TX_CI => [fRO 15 0]  -- R512: RX_CI
  | .MC_MGMT_RING_RX_BASE_LO => [fRW 31 6]  -- R512: RX_BASE_LO
  | .MC_MGMT_RING_RX_BASE_HI => [fRW 31 0]  -- R512: RX_BASE_HI
  | .MC_MGMT_RING_RX_CFG => [fRW 31 31, fRW 3 0]  -- R512: EN LOG2
  | .MC_MGMT_RING_RX_PI => [fRW 15 0]  -- R512: RX_PI
  | .MC_MGMT_RING_RX_CI => [fRO 15 0]  -- R512: RX_CI
  | .MC_MGMT_RING_TX_BASE_LO => [fRW 31 6]  -- R512: RX_BASE_LO
  | .MC_MGMT_RING_TX_BASE_HI => [fRW 31 0]  -- R512: RX_BASE_HI
  | .MC_MGMT_RING_TX_CFG => [fRW 31 31, fRW 3 0]  -- R512: EN LOG2
  | .MC_MGMT_RING_TX_PI => [fRW 15 0]  -- R512: RX_PI
  | .MC_MGMT_RING_TX_CI => [fRO 15 0]  -- R512: RX_CI
  | .MC_MGMT_CFG => [fRW 31 31, fRW 30 30, fRW 29 29, fRW 28 28, fRW 27 27, fRW 26 26, fRW 13 0]  -- R490: EN RATE AN_EN PAUSE_RX TX_INVERT RX_INVERT MAX_FRAME
  | .MC_MGMT_STATUS => [fRO 31 31, fRO 30 30, fRO 29 29, fRO 28 28, fRO 27 27]  -- R490: LINK_UP AN_DONE SYNC PAUSED PARTNER_PAUSE
  | .MC_MGMT_FLAGS => [fW1C 6 6, fW1C 5 5, fW1C 4 4, fW1C 3 3, fW1C 2 2, fW1C 1 1, fW1C 0 0]  -- R490: CFG_REFUSED RX_DROP PI_BAD TX_DONE RX_DONE LINK_DOWN LINK_UP
  | .MC_MGMT_FLAGS_EN => [fRW 6 6, fRW 5 5, fRW 4 4, fRW 3 3, fRW 2 2, fRW 1 1, fRW 0 0]  -- R490: CFG_REFUSED RX_DROP PI_BAD TX_DONE RX_DONE LINK_DOWN LINK_UP
  | .MC_MGMT_STAT_LO => [fRO 31 0]  -- R490: COUNT_LO
  | .MC_MGMT_STAT_HI => [fRO 31 0]  -- R490: COUNT_HI
  | .MC_RX_NODE => [fRW 31 31, fRW 20 16, fRW 15 0]  -- R510: EN RING NODE
  | .MC_DMA_SRC_LO => [fRW 31 0]  -- R513: SRC_LO
  | .MC_DMA_SRC_HI => [fRW 31 0]  -- R513: SRC_LO
  | .MC_DMA_DST_LO => [fRW 31 0]  -- R513: DST_LO
  | .MC_DMA_DST_HI => [fRW 31 0]  -- R513: DST_LO
  | .MC_DMA_LEN => [fRW 23 0]  -- R513: LEN
  | .MC_DMA_CTL => [fWO 31 31, fRO 30 30, fRW 29 29, fRW 28 28, fRW 12 8, fRO 3 0]  -- R513: GO BUSY SRC_SP DST_SP FUNC STATUS
  | .VF_ID => [fRO 31 31, fRO 3 0]  -- R509: VALID SLICE
  | .VF_FLAGS => [fW1C 3 3, fW1C 2 2, fW1C 1 1, fW1C 0 0]  -- R509: ABORT PI_BAD TX_DONE RX_DONE
  | .VF_FLAGS_EN => [fRW 3 3, fRW 2 2, fRW 1 1, fRW 0 0]  -- R509: ABORT PI_BAD TX_DONE RX_DONE
  | .VF_EOI => [fWO 1 0]  -- R509: VECTOR
  | .VF_RING_RX_BASE_LO => [fRW 31 6]  -- R512: RX_BASE_LO
  | .VF_RING_RX_BASE_HI => [fRW 31 0]  -- R512: RX_BASE_HI
  | .VF_RING_RX_CFG => [fRW 31 31, fRW 3 0]  -- R512: EN LOG2
  | .VF_RING_RX_PI => [fRW 15 0]  -- R512: RX_PI
  | .VF_RING_RX_CI => [fRO 15 0]  -- R512: RX_CI
  | .VF_RING_TX_BASE_LO => [fRW 31 6]  -- R512: RX_BASE_LO
  | .VF_RING_TX_BASE_HI => [fRW 31 0]  -- R512: RX_BASE_HI
  | .VF_RING_TX_CFG => [fRW 31 31, fRW 3 0]  -- R512: EN LOG2
  | .VF_RING_TX_PI => [fRW 15 0]  -- R512: RX_PI
  | .VF_RING_TX_CI => [fRO 15 0]  -- R512: RX_CI
  | .OB_REC_STATUS => [fRO 31 30, fRO 29 29, fRO 28 28, fRO 24 16, fRO 13 0]  -- R535: MEM_KIND FAILED CLEAR_BUSY STAGED CAIRN_COUNT
  | .OB_REC_NEXT_SEQ => [fRO 31 0]  -- R535: SEQ
  | .OB_REC_FIRST_SEQ => [fRO 31 0]  -- R535: SEQ
  | .OB_REC_LOST => [fRO 31 0]  -- R535: LOST
  | .OB_OPSEC => [fRO 31 0]  -- R535: OP_SECONDS
  | .OB_POWER_CYCLE => [fRO 15 0]  -- R535: POWER_CYCLE
  | .OB_FLAGS => [fW1C 11 11, fW1C 10 10, fW1C 9 6, fW1C 5 5, fW1C 4 4, fW1C 3 3, fW1C 2 2, fW1C 1 1, fW1C 0 0]  -- R536: CFG_REFUSED PKT_FULL INS_FULL PCNT_OVF CNT_OVF PF_FOUND REC_CLEARED REC_LOSS REC_FAILED
  | .OB_FLAGS_EN => [fRW 11 11, fRW 10 10, fRW 9 6, fRW 5 5, fRW 4 4, fRW 3 3, fRW 2 2, fRW 1 1, fRW 0 0]  -- R536: CFG_REFUSED PKT_FULL INS_FULL PCNT_OVF CNT_OVF PF_FOUND REC_CLEARED REC_LOSS REC_FAILED
  | .OB_SAMP_CFG => [fRW 31 31, fRW 30 30, fRW 29 26, fRW 25 21, fRW 11 8, fRW 4 0]  -- R537: PKT_EN PKT_FILTER PKT_SLICE PKT_LOG2 INS_EN INS_LOG2
  | .OB_SAMP_PKT => [fRO 12 0]  -- R537: COUNT
  | .OB_SAMP_INS => [fRO 8 0]  -- R537: COUNT
  | .OB_PCNT_CFG => [fRW 31 31, fRW 30 30, fW1C 29 29, fW1C 28 28, fRW 11 0]  -- R538: EN MODE OVF OVF_AT_RESELECT EVENT
  | .OB_PCNT_LO => [fRO 31 0]  -- R538: COUNT_LO
  | .OB_PCNT_HI => [fRO 31 31, fRO 30 30, fRO 15 0]  -- R538: OVF OVF_AT_RESELECT COUNT_HI
  | .OB_CNT_OVF => [fW1C 31 0]  -- R538: OVF
  | .OB_CNT_LO => [fRO 31 0]  -- R538: COUNT_LO
  | .OB_CNT_HI => [fRO 31 31, fRO 15 0]  -- R538: OVF COUNT_HI

/-- The registers of the MC range (R36): management complex. -/
def regsMC : List RegName :=
  RegName.MC_ID_DEVICE :: RegName.MC_ID_LOT_LO :: RegName.MC_ID_LOT_HI :: RegName.MC_ID_DIE :: RegName.MC_ID_AVS :: RegName.MC_UPD_STATUS ::
  RegName.MC_FLAGS :: RegName.MC_FLAGS_EN :: RegName.MC_SP_COLLIDE :: RegName.MC_RING_FLAGS :: RegName.MC_RING_FLAGS_EN :: RegName.MC_VF_SP ::
  RegName.MC_CORE_CTL :: RegName.MC_INT_MAP :: RegName.MC_INT_SRC :: RegName.MC_INT_EOI :: RegName.MC_CORE_INT_EN :: RegName.MC_INT_LANE ::
  RegName.MC_INT_TREE :: RegName.MC_TEMP :: RegName.MC_VOLT :: RegName.MC_AGE :: RegName.MC_THERM_CFG :: RegName.MC_AVS_CFG ::
  RegName.MC_AVS_STATUS :: RegName.MC_MARGIN :: RegName.MC_RING_RX_BASE_LO :: RegName.MC_RING_RX_BASE_HI :: RegName.MC_RING_RX_CFG :: RegName.MC_RING_RX_PI ::
  RegName.MC_RING_RX_CI :: RegName.MC_RING_TX_BASE_LO :: RegName.MC_RING_TX_BASE_HI :: RegName.MC_RING_TX_CFG :: RegName.MC_RING_TX_PI :: RegName.MC_RING_TX_CI ::
  RegName.MC_MGMT_RING_RX_BASE_LO :: RegName.MC_MGMT_RING_RX_BASE_HI :: RegName.MC_MGMT_RING_RX_CFG :: RegName.MC_MGMT_RING_RX_PI :: RegName.MC_MGMT_RING_RX_CI :: RegName.MC_MGMT_RING_TX_BASE_LO ::
  RegName.MC_MGMT_RING_TX_BASE_HI :: RegName.MC_MGMT_RING_TX_CFG :: RegName.MC_MGMT_RING_TX_PI :: RegName.MC_MGMT_RING_TX_CI :: RegName.MC_MGMT_CFG :: RegName.MC_MGMT_STATUS ::
  RegName.MC_MGMT_FLAGS :: RegName.MC_MGMT_FLAGS_EN :: RegName.MC_MGMT_STAT_LO :: RegName.MC_MGMT_STAT_HI :: RegName.MC_RX_NODE :: RegName.MC_DMA_SRC_LO ::
  RegName.MC_DMA_SRC_HI :: RegName.MC_DMA_DST_LO :: RegName.MC_DMA_DST_HI :: RegName.MC_DMA_LEN :: RegName.MC_DMA_CTL :: RegName.VF_ID ::
  RegName.VF_FLAGS :: RegName.VF_FLAGS_EN :: RegName.VF_EOI :: RegName.VF_RING_RX_BASE_LO :: RegName.VF_RING_RX_BASE_HI :: RegName.VF_RING_RX_CFG ::
  RegName.VF_RING_RX_PI :: RegName.VF_RING_RX_CI :: RegName.VF_RING_TX_BASE_LO :: RegName.VF_RING_TX_BASE_HI :: RegName.VF_RING_TX_CFG :: RegName.VF_RING_TX_PI ::
  RegName.VF_RING_TX_CI ::
  []

/-- The registers of the OB range (R36): observability. -/
def regsOB : List RegName :=
  RegName.OB_REC_STATUS :: RegName.OB_REC_NEXT_SEQ :: RegName.OB_REC_FIRST_SEQ :: RegName.OB_REC_LOST :: RegName.OB_OPSEC :: RegName.OB_POWER_CYCLE ::
  RegName.OB_FLAGS :: RegName.OB_FLAGS_EN :: RegName.OB_SAMP_CFG :: RegName.OB_SAMP_PKT :: RegName.OB_SAMP_INS :: RegName.OB_PCNT_CFG ::
  RegName.OB_PCNT_LO :: RegName.OB_PCNT_HI :: RegName.OB_CNT_OVF :: RegName.OB_CNT_LO :: RegName.OB_CNT_HI ::
  []

/-- The registers of the TB range (R36): timebase. -/
def regsTB : List RegName :=
  RegName.TB_CTL :: RegName.TB_STATUS :: RegName.TB_FLAGS :: RegName.TB_FLAGS_EN :: RegName.TB_INC_LO :: RegName.TB_INC_HI ::
  RegName.TB_NOW_LO :: RegName.TB_NOW_HI :: RegName.TB_TOD_NS :: RegName.TB_TOD_S_LO :: RegName.TB_TOD_S_HI :: RegName.TB_FRAME_CFG ::
  RegName.TB_FRAME_PHASE :: RegName.TB_SYNCE_CFG :: RegName.TB_CHAIN_CFG :: RegName.TB_CHAIN_STATUS :: RegName.TB_CMP_CFG :: RegName.TB_CMP_TGT_LO ::
  RegName.TB_CMP_TGT_HI :: RegName.TB_CMP_PERIOD :: RegName.TB_CMP_PULSE :: RegName.TB_CAP_CFG :: RegName.TB_CAP_LO :: RegName.TB_CAP_HI ::
  RegName.TB_TODCAP_CTL :: RegName.TB_TODCAP_SFC :: RegName.TB_TODCAP_T_LO :: RegName.TB_TODCAP_T_HI :: RegName.TB_TXTS_META :: RegName.TB_TXTS_NS ::
  RegName.TB_TXTS_S_LO :: RegName.TB_TXTS_S_HI :: RegName.TB_TXTS_POP :: RegName.TB_TXTS_LOST ::
  []

/-- The registers of the PX range (R36): protection. -/
def regsPX : List RegName :=
  RegName.PX_STATUS :: RegName.PX_FLAGS :: RegName.PX_FLAGS_EN :: RegName.PX_CFG :: RegName.PX_CFG2 :: RegName.PX_MATE_PHASE ::
  RegName.PX_COPY_STAT :: RegName.PX_SNAP_OUT_LO :: RegName.PX_SNAP_OUT_HI :: RegName.PX_SNAP_OUT_LEN :: RegName.PX_SNAP_OUT_SEQ :: RegName.PX_SNAP_IN_LO ::
  RegName.PX_SNAP_IN_HI :: RegName.PX_SNAP_IN_LEN :: RegName.PX_SNAP_IN_SEQ :: RegName.PX_TREE_STATUS ::
  []

/-- The registers of the LX range (R36): lanes. -/
def regsLX : List RegName :=
  RegName.LX_PT_CTL :: RegName.LX_PB_CTL :: RegName.LX_UL_CTL :: RegName.LX_ML_CTL :: RegName.LX_PT_STATUS :: RegName.LX_PB_STATUS ::
  RegName.LX_UL_STATUS :: RegName.LX_ML_STATUS :: RegName.LX_PT_FLAGS :: RegName.LX_PB_FLAGS :: RegName.LX_UL_FLAGS :: RegName.LX_ML_FLAGS ::
  RegName.LX_PT_FLAGS_EN :: RegName.LX_PB_FLAGS_EN :: RegName.LX_UL_FLAGS_EN :: RegName.LX_ML_FLAGS_EN :: RegName.LX_UL_LOS_CFG :: RegName.LX_ML_LOS_CFG ::
  RegName.LX_UL_LOL_CFG :: RegName.LX_ML_LOL_CFG :: RegName.LX_PT_TXEQ :: RegName.LX_UL_TXEQ :: RegName.LX_ML_TXEQ :: RegName.LX_UL_SKEW ::
  RegName.LX_ML_SKEW :: RegName.LX_PB_EYE_CFG :: RegName.LX_UL_EYE_CFG :: RegName.LX_ML_EYE_CFG :: RegName.LX_PB_EYE_RESULT :: RegName.LX_UL_EYE_RESULT ::
  RegName.LX_ML_EYE_RESULT :: RegName.LX_PT_PRBS_CTL :: RegName.LX_PB_PRBS_CTL :: RegName.LX_UL_PRBS_CTL :: RegName.LX_ML_PRBS_CTL :: RegName.LX_PB_PRBS_ERR ::
  RegName.LX_UL_PRBS_ERR :: RegName.LX_ML_PRBS_ERR :: RegName.LX_PB_PRBS_BLOCKS :: RegName.LX_UL_PRBS_BLOCKS :: RegName.LX_ML_PRBS_BLOCKS :: RegName.LX_PB_BURST_CFG ::
  RegName.LX_ML_LINK_CFG ::
  []

/-- The registers of the IM range (R36): image and control. -/
def regsIM : List RegName :=
  RegName.IM_DEV_STATUS :: RegName.IM_REACH_STATUS :: RegName.IM_FLAGS :: RegName.IM_FLAGS_EN :: RegName.IM_STRUCT_REJ_ADDR :: RegName.IM_IMAGE_SERIAL_LO ::
  RegName.IM_IMAGE_SERIAL_HI :: RegName.IM_STRUCTURE_ID :: RegName.IM_FUSE :: RegName.IM_CARVE ::
  []

/-- The registers of the RX range (R36): the reaches: framers, ranging, grant scheduling and reach common. -/
def regsRX : List RegName :=
  RegName.TF_TREE_STATUS :: RegName.TF_FLAGS :: RegName.TF_FLAGS_EN :: RegName.TF_DS_CFG :: RegName.TF_US_CFG :: RegName.TF_PONID_LO ::
  RegName.TF_PONID_HI :: RegName.TF_SFC_LO :: RegName.TF_SFC_HI :: RegName.TF_DEFECT_CFG :: RegName.TF_DRIFT_CFG :: RegName.TF_ACTION_CFG ::
  RegName.TF_DEFECT_EVT :: RegName.TF_DEFECT_POP :: RegName.TF_PM_CFG :: RegName.RG_TREE_CFG :: RegName.RG_BOARD_DLY :: RegName.RG_TRACK_CFG ::
  RegName.RG_PROFILE_CFG :: RegName.RG_ROGUE_CFG :: RegName.RG_FLAGS :: RegName.RG_FLAGS_EN :: RegName.RG_ROGUE_STATUS :: RegName.RG_PLOAMU_META ::
  RegName.RG_PLOAMU_POP :: RegName.RG_PLOAMD_STATUS :: RegName.RG_PLOAMU_DATA :: RegName.RG_EQ_CFG :: RegName.RG_DISC_HEAD :: RegName.RG_DISC_SN_LO ::
  RegName.RG_DISC_SN_HI :: RegName.RG_DISC_RTD :: RegName.RG_DISC_POP :: RegName.GS_TREE_CFG :: RegName.GS_PROFILE_SEL :: RegName.GS_FLAGS ::
  RegName.GS_FLAGS_EN :: RegName.GS_TREE_STATUS :: RegName.GS_DEFAULT_CFG :: RegName.GS_DEFAULT_FIXED :: RegName.GS_DEFAULT_ASSURED :: RegName.GS_DEFAULT_MAX ::
  RegName.GS_BPROF :: RegName.GS_MAP_CFG :: RegName.GS_RFLAGS :: RegName.GS_RFLAGS_EN :: RegName.GS_COOP_BASE :: RegName.GS_COOP_SIZE ::
  RegName.GS_COOP_PI :: RegName.GS_COOP_CI :: RegName.GS_COOP_RD ::
  []

/-- The registers of the PC range (R36): parser and classifier. -/
def regsPC : List RegName :=
  RegName.PC_STATUS :: RegName.PC_INFLIGHT :: RegName.PC_CFG :: RegName.PC_TUNNEL_PORTS :: RegName.PC_TPID_CFG :: RegName.PC_HASH_SEED ::
  RegName.PC_FLAGS :: RegName.PC_FLAGS_EN :: RegName.PC_RECIRC_QUEUE :: RegName.PC_CPU_QUEUE ::
  []

/-- The registers of the FS range (R36): flow store. -/
def regsFS : List RegName :=
  RegName.FS_STATUS :: RegName.FS_COUNT :: RegName.FS_SEED :: RegName.FS_NEW_SEED :: RegName.FS_MIG_PTR :: RegName.FS_CFG ::
  RegName.FS_FLAGS :: RegName.FS_FLAGS_EN :: RegName.FS_UE_ADDR ::
  []

/-- The registers of the TM range (R36): traffic manager. -/
def regsTM : List RegName :=
  RegName.TM_PORT_CFG :: RegName.TM_PORT_STATUS :: RegName.TM_FLAGS :: RegName.TM_FLAGS_EN :: RegName.TM_DROP_LAST :: RegName.TM_SIZE ::
  RegName.TM_SIZE4 :: RegName.TM_POOL_TH ::
  []

/-- The registers of the BP range (R36): buffer pools. -/
def regsBP : List RegName :=
  RegName.BP_TIER_CELLS :: RegName.BP_TIER_FREE :: RegName.BP_TIER_SHARED :: RegName.BP_TIER_RETIRED :: RegName.BP_FLAGS :: RegName.BP_FLAGS_EN ::
  RegName.BP_FREE_ERR :: RegName.BP_FREE_ERR_CELL :: RegName.BP_SCRUB_CFG :: RegName.BP_ECC_LOG :: RegName.BP_ECC_LOG_CELL :: RegName.BP_ECC_POP ::
  RegName.BP_HBM_STATUS :: RegName.BP_DDR_STATUS :: RegName.BP_POOL_NEAR_CAP :: RegName.BP_POOL_FAR_CAP :: RegName.BP_POOL_SPILL :: RegName.BP_POOL_INFO ::
  RegName.BP_POOL_USED :: RegName.BP_POOL_MIN ::
  []

/-- The registers of the CE range (R36): cipher engine. -/
def regsCE : List RegName :=
  RegName.CE_FLAGS :: RegName.CE_FLAGS_EN :: RegName.CE_PON_CFG :: RegName.CE_KEY_EVT :: RegName.CE_KEY_EVT_POP :: RegName.CE_MS_PN_THRESH_LO ::
  RegName.CE_MS_PN_THRESH_HI :: RegName.CE_MS_PORT_CFG :: RegName.CE_MS_REPLAY_WIN :: RegName.CE_LA_BASE :: RegName.CE_LA_SIZE :: RegName.CE_LA_PI ::
  RegName.CE_LA_CI :: RegName.CE_LA_OWNER ::
  []

/-- The registers of the UL range (R36): uplink ports. -/
def regsUL : List RegName :=
  RegName.UL_PORT_CFG :: RegName.UL_PORT_STATUS :: RegName.UL_FLAGS :: RegName.UL_FLAGS_EN :: RegName.UL_FC_CFG :: RegName.UL_FC_TH ::
  RegName.UL_TS_CORR_RX :: RegName.UL_TS_CORR_TX :: RegName.UL_SER_CFG :: RegName.UL_STAT_LO :: RegName.UL_STAT_HI :: RegName.UL_LAG_CFG ::
  RegName.UL_LAG_STATUS :: RegName.UL_LAG_FLAGS :: RegName.UL_LAG_FLAGS_EN :: RegName.UL_LAG_MEMBER ::
  []

/-- The registers that may lie at an address, by the map of R36. -/
def regsNear (a : Nat) : List RegName :=
  if a < 0x100000 then regsMC
  else if a < 0x200000 then regsOB
  else if a < 0x300000 then regsTB
  else if a < 0x400000 then regsPX
  else if a < 0x800000 then regsLX
  else if a < 0x1000000 then regsIM
  else if a < 0x1800000 then regsRX
  else if a < 0x1C00000 then regsPC
  else if a < 0x2000000 then regsFS
  else if a < 0x2800000 then regsTM
  else if a < 0x3000000 then regsBP
  else if a < 0x3400000 then regsCE
  else if a < 0x3800000 then regsUL
  else []

/-- The register at a BAR0 address; none where no register lies (R7, R9, R36). -/
def Reg.ofAddr (a : Nat) : Option Reg :=
  if a % 4 ≠ 0 then none else (regsNear a).findSome? fun n => n.at? a

end Sys2Proof.Machine
end

