-- ==== Sys2Proof/Machine/CoreState.lean ====
section
/-! DEFINITION. State of the image and control block, the pins, the timebase, the management complex and the observability
block (spec/02, 13, 15, 16, 17), and of the command windows (R53 to R56). Registers proper lie in the register file. -/

namespace Sys2Proof.Machine

/-! ### Image and control (spec/02) -/

/-- The states of R46. -/
inductive DevState where
  | held | booting | structured | running | quiesced | failed
  deriving DecidableEq, Repr

/-- The code of IM_DEV_STATUS.STATE (R46); HELD has none, since no register answers in it. -/
def DevState.code : DevState → Nat
  | .held => 0
  | .booting => 1
  | .structured => 2
  | .running => 3
  | .quiesced => 4
  | .failed => 5

/-- The states of a reach (R50, R62). -/
inductive ReachState where
  | dark | loading | lit | absent
  deriving DecidableEq, Repr

/-- IM_REACH_STATUS.STATE (R62). -/
def ReachState.code : ReachState → Nat
  | .dark => 0
  | .loading => 1
  | .lit => 2
  | .absent => 3

/-- One reach (R50, R51, R62). `darkenIn` counts the boundaries passed since DARKEN_REACH was accepted. -/
structure Reach where
  state : ReachState
  loaded : Bool
  lightPending : Bool
  darkenIn : Option Nat
  loadErr : Nat
  deriving DecidableEq, Repr

/-- A reach that no image names (R62, reset). -/
def Reach.rest : Reach := ⟨.absent, false, false, none, 0⟩

/-- What a REACH_r section gives one tree (R40, R77, R115, R116): PON mode, initial state, and the default taps of its PB lane. -/
structure TreeDef where
  xgpon : Bool
  initial : Nat
  taps : List Int
  deriving DecidableEq, Repr

/-- One uplink port of the PORTS section (R379): its lowest lane and its lanes. -/
structure PortDef where
  lane : Nat
  lanes : Nat
  deriving DecidableEq, Repr

/-- One pool of the POOLS section (R319). -/
structure PoolDef where
  slice : Nat
  nearMin : Nat
  farMin : Nat
  deriving DecidableEq, Repr

/-- One entry of the SLICES section (R491). -/
structure SliceDef where
  trees : Nat
  ports : Nat
  valid : Bool
  nodeFirst : Nat
  nodeCount : Nat
  queueFirst : Nat
  queueCount : Nat
  polFirst : Nat
  polCount : Nat
  deriving DecidableEq, Repr

/-- The structure that the running image defines (R37). `carve` holds the units of tables 0 to 5 (R43); `role`, `mode` and
`protTrees` come from the PROTECTION section (R435). -/
structure Structure where
  reachMask : Nat
  trees : Table TreeDef
  ports : List PortDef
  pipeReach : List Nat
  pipePort : List Nat
  pipeInject : Nat
  pipeRecirc : Nat
  carve : List Nat
  ddrGiB : Nat
  ddrRanks : Nat
  pools : List PoolDef
  slices : List SliceDef
  role : Nat
  mode : Nat
  protTrees : Nat
  mateLanes : Bool
  deriving DecidableEq, Repr

/-- No image applied. -/
def Structure.none : Structure := ⟨0, [], [], [], [], 0, 0, [], 0, 0, [], [], 0, 0, 0, false⟩

/-- A reach image load in progress (R50, R60): the reach and the host buffer. -/
structure ReachLoad where
  reach : Nat
  addr : Nat
  len : Nat
  deriving DecidableEq, Repr

/-- Image and control state. `bootsrc` are the straps sampled at S (R44); `bootHalted` says SRST_N is low in BOOTING (R546). -/
structure ImState where
  state : DevState
  bootsrc : Nat
  bootHalted : Bool
  str : Structure
  reaches : Table Reach
  load : Option ReachLoad
  deriving DecidableEq, Repr

/-! ### Pins (spec/17) -/

/-- The pins and supplies that commands move (R540 to R553, R566 to R569): `jtag` is the instruction register, `bsr` what the
boundary-scan register drives (bit n is cell n, R567), `tdo` the bits of the last scan, the first out in bit 0. -/
structure PinState where
  porstN : Bool
  srstN : Bool
  railsGood : Bool
  pwrfailN : Bool
  perstN : Bool
  refSys : Bool
  refEth : Bool
  refPon : Bool
  testEn : Bool
  straps : Nat
  jtag : Nat
  bsr : Nat
  tdo : Nat
  avsAck : Bool
  deriving DecidableEq, Repr

/-! ### Command windows (spec/02, R53 to R59) -/

/-- One source's bank of a command window (R53 to R55). -/
structure Bank where
  data : List Nat
  obj : Nat
  seq : Nat
  opcode : Nat
  busy : Bool
  done : Bool
  rejValid : Bool
  rejSeq : Nat
  echoSeq : Nat
  status : Nat
  deriving DecidableEq, Repr

/-- A bank at reset (R54, R55). -/
def Bank.rest : Bank := ⟨[0, 0, 0, 0, 0, 0, 0, 0], 0, 0, 0, false, false, false, 0, 0, 0⟩

/-- An accepted command: its source, opcode, and _OBJ and _DATA as latched (R56). `drop` says that its results are
discarded (R487). -/
structure Accepted where
  src : Src
  opcode : Nat
  seq : Nat
  obj : Nat
  data : List Nat
  drop : Bool
  deriving DecidableEq, Repr

/-- A command window: its banks by source number and its accepted commands in order of acceptance, the front one running
(R56). `waiting` says that the front one has started and waits for its event. -/
structure Window where
  banks : Table Bank
  queue : List Accepted
  waiting : Bool
  deriving DecidableEq, Repr

/-- A window at reset. -/
def Window.rest : Window := ⟨[], [], false⟩

/-! ### Timebase (spec/13) -/

/-- An entry of a transmit timestamp queue (R416). -/
structure TxStamp where
  id : Nat
  s : Nat
  ns : Nat
  late : Bool
  stepSeq : Nat
  deriving DecidableEq, Repr

/-- One gate list entry (R420): gate states and interval in ns. -/
structure GateEntry where
  gates : Nat
  ns : Nat
  deriving DecidableEq, Repr

/-- A committed gate list (R422, R423): start S, cycle and entries. -/
structure GateList where
  start : Nat
  cycle : Nat
  entries : List GateEntry
  deriving DecidableEq, Repr

/-- The gate lists of one uplink port (R420 to R423). -/
structure Gates where
  admin : Table GateEntry
  pending : Option GateList
  oper : Option GateList
  deriving DecidableEq, Repr

/-- No lists. -/
def Gates.rest : Gates := ⟨[], none, none⟩

/-- What an armed time-of-day capture slot waits for (R415). -/
structure TodTarget where
  tree : Nat
  sfc : Nat
  deriving DecidableEq, Repr

/-- Timebase state. `c` is C in units of 2^-40 ns (R403); `ticks` counts timebase ticks since PORST_N and carries the 16 ns tick counter
of R275 (no step moves it); `rho` is the slew remainder in units of 2^-40 ns (R407); `align` is the tick of an FRAME_ALIGN that waits for
its instant and `startAt` that of a START, each with the OFFSET_NS that it took (R413, R431), and `stepAt` the tick of the last step of C;
`offset` is the OFFSET_NS in force; `pinPulse` the pulses (start and width) of each pin (R411); `lastChainEdge` the tick of the last
CHAIN_IN_PPS edge; `lastSecond` one more than the second of the last phase measurement, 0 before any (R414). -/
structure TbState where
  c : Nat
  ticks : Nat
  rho : Int
  rate : Nat
  incPending : Option Nat
  heldLow : Option Nat
  cmpHeld : Table Nat
  capture : Table Nat
  todTarget : Table TodTarget
  todResult : Table Nat
  txts : Table (List TxStamp)
  gates : Table Gates
  align : Option Nat
  startAt : Option Nat
  alignOff : Nat
  startOff : Nat
  stepAt : Option Nat
  offset : Nat
  pinPulse : Table (List (Nat × Nat))
  chainMode : Nat
  lastChainEdge : Option Nat
  lastSecond : Nat
  deriving DecidableEq, Repr

/-! ### Management complex (spec/15) -/

/-- A boot-flash control block (R502). -/
structure CtlBlock where
  seq : Nat
  active : Nat
  trial : Bool
  aConfirmed : Bool
  bConfirmed : Bool
  failCount : Nat
  deriving DecidableEq, Repr

/-- The boot flash (R501): its bytes by flash offset. -/
structure Flash where
  cells : Mem
  deriving DecidableEq, Repr

/-- The configuration space of the PCI Express endpoint, as far as it changes (R484): SR-IOV, base addresses, sizes, the functions in D3hot
(PF0 at 0, VF s at 1 + s), and the link in tenths of GT/s and lanes. -/
structure Pcie where
  numVfs : Nat
  vfEnable : Bool
  bar0 : Nat
  bar2 : Nat
  vfBar0 : Nat
  maxPayload : Nat
  maxReadReq : Nat
  d3hot : List Nat
  linkUp : Bool
  linkSpeed : Nat
  linkWidth : Nat
  deriving DecidableEq, Repr

/-- The configuration space at reset (PRESUMED from the PCI Express Base Specification; log entry 110). -/
def Pcie.rest : Pcie := ⟨0, false, 0, 0, 0, 128, 512, [], true, 160, 8⟩

/-- A DMA copy as GO took it (R478, R513). -/
structure DmaJob where
  src : Nat
  dst : Nat
  len : Nat
  srcSp : Bool
  dstSp : Bool
  func : Nat
  deriving DecidableEq, Repr

/-- A margin run in progress (R499): its d, v_req and goal, the steps made and those left, and whether one of these has been sent and waits
for the regulator's acknowledgement. -/
structure MarginRun where
  deg : Nat
  req : Nat
  goal : Nat
  steps : Nat
  left : Nat
  sent : Bool
  deriving DecidableEq, Repr

/-- The identity and security fuses (R41, R66, R500, R507). `keyHash` are the four fused SHA-384 digests. -/
structure Fuses where
  stepping : Nat
  keyHash : List Nat
  revoked : Nat
  security : Nat
  lotLo : Nat
  lotHi : Nat
  die : Nat
  avs : Nat
  deriving DecidableEq, Repr

/-- A management core (R470): whether its firmware section exists, whether it runs, and its local memory. -/
structure MgmtCore where
  hasFw : Bool
  running : Bool
  localMem : Mem
  deriving DecidableEq, Repr

/-- A core before any load: core 0 runs the boot ROM, which is no firmware section. -/
def MgmtCore.rest : MgmtCore := ⟨false, false, []⟩

/-- The MSI-X state of one function's vector (R494): armed, and the pending bit. -/
structure Vec where
  armed : Bool
  pending : Bool
  deriving DecidableEq, Repr

/-- A vector after reset: armed, nothing pending. -/
def Vec.rest : Vec := ⟨true, false⟩

/-- Management complex state. `coresUp` says that STRUCTURED has let the cores go (R470); `spWait` the scratchpad accesses that wait for
their bank, `spTurn` the port at which each bank's rotating order goes on, `spLostBy` the collisions of each port, and `spMiss` the bytes
(port, word, enables) of an engine's write that a collision discards (R473 to R476); `dma` the copies in progress; `run` the margin run in
progress; `overCrit` the samples in a row, counted to 3, that each sensor reads above CRIT_C (R498). `scratch` is the scratchpad (R473)
and `scratchUe` its words with an uncorrectable error (R477); `msix` holds the MSI-X table words by BAR0 address (R506); `vecs` the
vectors (vector v of PF0 at v, vector v of VF s at 64 + 4 s + v); `sent` the messages sent, newest first; `history` the margin runs
(R499); `aer` the VFs' logged aborts (R486); `hostMem` the host memory that the device masters reach; `completion` the last PCI Express
completion; `spOut` the results of the last scratchpad accesses by port (R475); `wdt` the tick at which each watchdog was last restarted
(R472); `runSec` the SECURITY_VERSION of the running image (R505). -/
structure McState where
  cores : Table MgmtCore
  scratch : Mem
  scratchUe : List Nat
  coresUp : Bool
  spWait : List SpAcc
  spTurn : Table Nat
  spLostBy : Table Nat
  spMiss : List (Nat × Nat × Nat)
  dma : Table DmaJob
  pcie : Pcie
  run : Option MarginRun
  msix : Table Nat
  vecs : Table Vec
  sent : List Nat
  history : List (Nat × Nat)
  avsTarget : Nat
  marginDay : Nat
  overCrit : Table Nat
  flash : Flash
  fuses : Fuses
  runSlot : Nat
  trial : Bool
  rolledBack : Bool
  mgmtPause : Nat
  mgmtStat : Table Nat
  mgmtTx : List Byte
  aer : Table Nat
  hostMem : Mem
  completion : Option Completion
  spOut : List (Nat × Completion)
  wdt : Table Nat
  runSec : Nat
  deriving DecidableEq, Repr

/-! ### Observability (spec/16) -/

/-- A record (R514): the header fields and the body, with the tick at which it entered staging. -/
structure Rec where
  typ : Nat
  src : Nat
  inst : Nat
  flags : Nat
  seq : Nat
  cycle : Nat
  todS : Nat
  todNs : Nat
  opSec : Nat
  body : List Byte
  entered : Nat
  deriving DecidableEq, Repr

/-- A copy of the recorder's control block (R521). -/
structure RecCtl where
  seq : Nat
  cairnHalf : Nat
  erasePending : Bool
  wrapped : Bool
  cycle : Nat
  clearCount : Nat
  tideStart : Nat
  tideHint : Nat
  seqHint : Nat
  opSec : Nat
  deriving DecidableEq, Repr

/-- The recorder memory that is fitted (R519): whether it answers, whether its parameter table declares an erase operation, its size in bytes,
whether it no longer takes a write of the control block, and what it holds, by address, as the difference from an erased byte: what is not
listed is erased on NOR and zero on MRAM. It outlives resets and power. -/
structure RecMem where
  answers : Bool
  erases : Bool
  size : Nat
  ctlBad : Bool
  cells : Mem
  deriving DecidableEq, Repr

/-- A packet sample (R533): its 32 bytes, and whether it has been written. -/
structure PktSample where
  packet : Nat
  bytes : List Byte
  written : Bool
  deriving DecidableEq, Repr

/-- A discarded run of SEQ values that the next LOSS record accounts for (R517, R522). -/
structure Loss where
  first : Nat
  last : Nat
  count : Nat
  deriving DecidableEq, Repr

/-- Observability state. `kind` is MEM_KIND as the release of PORST_N read it (R519). The recorder's position in its memory (R520, R521):
`wp` the write point and `tideStart` the place of the last CLEAR, as offsets in the Tideline; `tide` the offsets of the records held there,
oldest first; `wrapped`; `half` the Cairn half in use, `cairn` the offsets of its records and `cairnEnd` its free place; `clears` the
clears made; `erasing` the background erase; `opPos` the free place of the operating-seconds log (R526). `insRun` is each core's place in
its sampling run and the number of the run (R532), and `coreDraw` how many of `Config.coreValue` have been taken. -/
structure ObState where
  mem : RecMem
  kind : Nat
  wp : Nat
  tide : List Nat
  tideStart : Nat
  wrapped : Bool
  half : Nat
  cairn : List Nat
  cairnEnd : Nat
  clears : Nat
  erasing : Bool
  opPos : Nat
  failed : Bool
  toMate : List (List Byte)
  staging : List Rec
  nextSeq : Nat
  lost : Nat
  loss : Option Loss
  opSec : Nat
  cycle : Nat
  pwrFail : Bool
  todUnset : Bool
  stepped : Bool
  cnt : Table Nat
  pcnt : Table Nat
  cntHi : Table Nat
  partialNoted : Bool
  statBind : Table Nat
  stats : Table (List Nat)
  insBuf : Table (List (List Byte))
  insRun : Table (Nat × Nat)
  coreDraw : Nat
  pkt : List PktSample
  pktRun : Nat
  pktRuns : Nat
  deriving DecidableEq, Repr

end Sys2Proof.Machine
end

