-- ==== Sys2Proof/Machine/LaneState.lean ====
section
/-! DEFINITION. State of the lanes (spec/03) beside their registers. -/

namespace Sys2Proof.Machine

/-- A burst that a map stamped for the lane (R77): the upstream frame and StartTime that name it, its slot, its expected arrival
bit A, and its Benchmark profile index or NONE. -/
structure Burst where
  frame : Nat
  start : Nat
  slot : Nat
  a : Int
  stamp : Option Nat
  deriving DecidableEq, Repr

/-- A profile slot of a PB lane (R78, R79): the burst it serves, the copied profile, and its valid mark; `late` says the copy
failed for a reason of R79. -/
structure PbSlot where
  burst : Burst
  profile : List Byte
  valid : Bool
  late : Bool
  deriving DecidableEq, Repr

/-- A receiver set-up (R77): amplitude and DC offset in 0.1 mV, the eight feed-forward taps, and the CDR phase in 1/64 UI or free
acquisition. -/
structure RxSetup where
  amp : Nat
  dc : Int
  taps : List Int
  cdr : Option Nat
  deriving DecidableEq, Repr

/-- What is in force on a PB lane since a swap bit (R77): the burst, the profile applied or none for the neutral set-up, what the
receiver is set to, and TF_US_CFG as the burst takes it (R142). -/
structure PbSetup where
  burst : Burst
  profile : Option (List Byte)
  late : Bool
  rx : RxSetup
  usCfg : Nat
  deriving DecidableEq, Repr

/-- The detectors of a UL or ML lane (R89, R90): the raw condition of each as last sampled, and the samples in a row on which it has
differed from what the detector shows. -/
structure LaneDet where
  losRaw : Bool
  losRun : Nat
  lolRaw : Bool
  lolRun : Nat
  deriving DecidableEq, Repr

/-- Both raw conditions absent. -/
def LaneDet.rest : LaneDet := ⟨false, 0, false, 0⟩

/-- A PRBS checker (R98): its reference (the register of a PRBS; for SSPRQ the place in the pattern while locked, and the last bits
received below a leading 1 while it searches), the error-free bits in a row while it searches, the bits since it locked, the errors in
the present block of 1,024 bits, and the last received level where the checker has seen it (R85). -/
structure PrbsChk where
  ref : Nat
  run : Nat
  pos : Nat
  errs : Nat
  prev : Option Nat
  deriving DecidableEq, Repr

/-- A checker that has seen nothing. -/
def PrbsChk.rest : PrbsChk := ⟨0, 0, 0, 0, none⟩

/-- Lane state. `ptFault` lists the PT lanes squelched since their PLL lost lock, with the tick of the relock once it came
(R76); `pbQueue` the stamped bursts that wait for a profile slot, `pbSlots` the four slots, `pbSetup` the set-up in force;
`rstPulse` the last PB_RST pulse (start bit, width in reach cycles) (R84); `rejoin` the ML lanes that wait for their boundary
(R93); `lolHold` the lanes whose LOL keeps reading 1 after LOS cleared, by 12 for ML (R90); `injected` the generated bits that are
inverted, by kind, lane and number since the generator started (R110); `mateUp` says that the mate link is up (R448). `det` holds the
detectors and `skewed` the lanes beyond the skew tolerance, ML lanes from 12 (R88, R89); `delays` the identity and the delay in UI of
each mate lane as its markers show them (R87); `clean` the tick since which a mate lane has been clear and locked (R93); `gens` the
tick at which a generator started and `chks` the checkers, by lane key (R97, R98); `txPrev` the precoder's prev_tx of a lane that drives
no pattern, 0 where none is listed and unknown where data has gone out since the lane started, and `genPrev` its value at the start of
the generator that runs (R85); `echo` the levels that a far-end loopback last sent
back (R101). -/
structure LxState where
  ptFault : Table (Option Nat)
  pbQueue : Table (List Burst)
  pbSlots : Table (List PbSlot)
  pbSetup : Table PbSetup
  rstPulse : Table (Int × Nat)
  rejoin : List Nat
  lolHold : List Nat
  injected : List (LaneKind × Nat × Nat)
  mateUp : Bool
  det : Table LaneDet
  skewed : List Nat
  delays : Table (Nat × Nat)
  clean : Table Nat
  gens : Table Nat
  genPrev : Table Nat
  txPrev : Table (Option Nat)
  chks : Table PrbsChk
  echo : Table (List Nat)
  deriving DecidableEq, Repr

/-- No lane state. -/
def LxState.rest : LxState := ⟨[], [], [], [], [], [], [], [], false, [], [], [], [], [], [], [], [], []⟩

end Sys2Proof.Machine
end

