-- ==== Sys2Proof/Machine/TreeState.lean ====
section
/-! DEFINITION. State of the tree framers (spec/04), of the ranging engines (spec/05) and of the grant schedulers (spec/06).
Trees are numbered 0 to 63, terminals by global index 512 t + s (R14). -/

namespace Sys2Proof.Machine

/-! ### Tree framing (spec/04) -/

/-- The states of a tree (R115). -/
inductive TreeState where
  | off | standby | active
  deriving DecidableEq, Repr

/-- TF_TREE_STATUS.STATE (R139). -/
def TreeState.code : TreeState → Nat
  | .off => 0
  | .standby => 1
  | .active => 2

/-- An active XGEM port (R125): its slot and its OMCC mark. -/
structure XPort where
  slot : Nat
  omcc : Bool
  deriving DecidableEq, Repr

/-- An open upstream packet of a port (R124): the bytes so far and the upstream frames without continuation. -/
structure OpenPkt where
  bytes : List Byte
  age : Nat
  deriving DecidableEq, Repr

/-- An entry of the defect event queue (R132, R147). -/
structure DefEvt where
  set : Bool
  code : Nat
  slot : Nat
  sfc : Nat
  deriving DecidableEq, Repr

/-- A terminal's defect state (R126, R128): the counts of LOSi, LOBi, LOFi and LCDGi, declared and reported states as bits by
code, and its last arrival offset. `dying` marks a dying gasp not yet reported. -/
structure TermDef where
  nLos : Nat
  nLob : Nat
  nLof : Nat
  nLcdg : Nat
  declared : Nat
  reported : Nat
  offset : Int
  dying : Bool
  deriving DecidableEq, Repr

/-- No counts, nothing declared. -/
def TermDef.rest : TermDef := ⟨0, 0, 0, 0, 0, 0, 0, false⟩

/-- What a granted burst says to the defects of its terminal (R126): its slot, the outcome, whether its header passed, whether XGEM
delineation was lost in it, its arrival offset, a dying-gasp indication, and whether it came under a data grant. -/
structure BurstRes where
  slot : Nat
  out : BurstEnd
  hdr : Bool
  lost : Bool
  off : Int
  dying : Bool
  data : Bool
  deriving DecidableEq, Repr

/-- What the framer collects over one upstream frame until its evaluation point (R126, R129, R133, R175): whether it is a
counted frame, whether it held an OK burst of a ranged terminal, the counts for the PM bins by slot and for the tree, and the
slots that its ungranted-energy reports name (512 for none). `resp` counts the responses of each discovery grant by StartTime and keeps the
bit after the end of the last one as an offset from e (R159), `evalIn` the boundaries until its evaluation point,
`ranging` lists the slots that its ranging grants addressed (R163), `res` what its granted bursts say to the defects, in burst
order (R129). -/
structure FrameAcc where
  frame : Nat
  evalIn : Nat
  ranging : List Nat
  counted : Bool
  okRanged : Bool
  pmTerm : Table (List Nat)
  pmTree : List Nat
  energy : List Nat
  resp : Table (Nat × Int)
  res : List BurstRes
  deriving DecidableEq, Repr

/-- A downstream packet at the framer (R25, R120): its XGEM port, its bytes left and its whole length, its queue's KEY_SEL and
TERMINAL, the key slot it is bound to (R352), its slice, the bytes of it that have come from the traffic manager and have not been sent,
and those that have been sent. -/
structure DsPkt where
  port : Nat
  left : Nat
  len : Nat
  sel : Nat
  term : Nat
  slot : Nat
  slice : Nat
  bytes : List Byte
  out : List Byte
  deriving DecidableEq, Repr

/-- A piece of an FS payload (R120, R353): an XGEM frame with its port, key index, LF, packet bytes and payload as it leaves; the idle XGEM
frame that stands in for one of n bytes; a run of n bytes of idle XGEM frames. -/
inductive XPiece where
  | frame (port key : Nat) (lf : Bool) (pli : Nat) (payload : List Byte)
  | stand (n : Nat)
  | idle (n : Nat)
  deriving DecidableEq, Repr

/-- A downstream frame of an ACTIVE tree (R117, R119): its SFC, PON-ID and FEC mode, the allocation structures of its map with their
8 bytes each, its PLOAMd messages, and its FS payload so far. -/
structure DsFrame where
  sfc : Nat
  ponid : Nat
  fec : Bool
  map : List (List Byte)
  ploam : List (List Byte)
  pieces : List XPiece
  deriving DecidableEq, Repr

/-- One tree's framer. `frame` is the downstream frame that leaves and `last` the one before it, `room` the FS payload room left in `frame`,
`contd` the packet to be continued and `wait` the packets that wait for room (R120), and `feed` what the traffic manager still holds of the
last of them for want of credit (R25). A defect second was last counted in the second that
`dsec` keeps per object (0 to 511 for slots, 512 for the tree). `txFault` is the PT lane's fault (R126). -/
structure TfTree where
  state : TreeState
  sfc : Nat
  sfcLoad : Option Nat
  sfcShadow : Nat
  ponidHeld : Option Nat
  ponidPending : Option (Nat × Nat)
  protCtrl : Bool
  losCount : Nat
  declared : Nat
  reported : Nat
  txFault : Bool
  terms : Table TermDef
  events : List DefEvt
  ports : Table XPort
  openPkts : Table OpenPkt
  accs : List FrameAcc
  dsec : Table Nat
  frame : Option DsFrame
  last : Option DsFrame
  room : Nat
  contd : Option DsPkt
  wait : List DsPkt
  feed : List Byte
  winEnd : Option (Nat × Nat)
  deriving DecidableEq, Repr

/-- A tree after PORST_N. -/
def TfTree.rest : TfTree :=
  ⟨.off, 0, none, 0, none, none, false, 0, 0, 0, false, [], [], [], [], [], [], none, none, 0, none, [], [], none⟩

/-! ### Performance bins (R133 to R137) -/

/-- The header that the bins of one kind in a reach share: START_S, SEQ, the frame boundaries covered, PARTIAL, and the time steps that fell
in the bin (TIME_DISC). -/
structure PmHdr where
  startS : Nat
  seq : Nat
  frames : Nat
  part : Bool
  discs : Nat
  deriving DecidableEq, Repr

/-- One object's share of a bin: the boundaries and the time steps before its last PM_RESET_CURRENT, its own PARTIAL, SATURATED, and
counters. -/
structure PmObj where
  base : Nat
  discBase : Nat
  part : Bool
  sat : Bool
  cnt : List Nat
  deriving DecidableEq, Repr

/-- Nothing counted. -/
def PmObj.rest : PmObj := ⟨0, 0, false, false, []⟩

/-- A closed bin of a reach, over its objects: terminal at 512 (t mod 8) + s, tree at 4,096 + t mod 8. -/
structure PmClosed where
  hdr : PmHdr
  objs : Table PmObj
  deriving DecidableEq, Repr

/-- The bins of a reach. `running` says that the current bins count; `step` is what a time-of-day step does at the next boundary
(0 nothing, 1 both gain TIME_DISC, 2 the 15-minute bins close, 3 both close) (R136); `crossQ` and `crossD` say that a 15-minute or a day
boundary has been passed since the last frame boundary, before or by a step forwards; `waiting` lists closed bins (15-minute: false, day:
true) that wait for their history write (R135). -/
structure PmReach where
  running : Bool
  q : PmHdr
  d : PmHdr
  qObjs : Table PmObj
  dObjs : Table PmObj
  waiting : List (Bool × PmClosed)
  hist : List PmClosed
  histDay : Option PmClosed
  lastS : Nat
  dayOff : Nat
  step : Nat
  crossQ : Bool
  crossD : Bool
  deriving DecidableEq, Repr

/-- A header at rest. -/
def PmHdr.rest : PmHdr := ⟨0, 0, 0, true, 0⟩

/-- Bins at rest. -/
def PmReach.rest : PmReach := ⟨false, PmHdr.rest, PmHdr.rest, [], [], [], [], none, 0, 0, 0, false, false⟩

/-! ### Ranging (spec/05) -/

/-- The head-end states of a terminal slot (R155). -/
inductive TermState where
  | free | provisioned | assigned | operation | lost | disabled
  deriving DecidableEq, Repr

/-- The code of R155. -/
def TermState.code : TermState → Nat
  | .free => 0
  | .provisioned => 1
  | .assigned => 2
  | .operation => 3
  | .lost => 4
  | .disabled => 5

/-- A ranged terminal (R155). -/
def TermState.ranged : TermState → Bool
  | .operation => true
  | .lost => true
  | _ => false

/-- An adjustment in flight (R166, R167): δ, the new equalisation delay, the frames since it was last sent, whether it has
been resent, and whether its second message waits for an OK burst because the queue was full (R179). -/
structure Adj where
  delta : Int
  eqd : Nat
  age : Nat
  resent : Bool
  retry : Bool
  deriving DecidableEq, Repr

/-- A terminal slot (R155, R156, R192). `tries` and `since` count the ranging grants and frames of the present activation; `grants` says a
ranging grant was placed; `rangedEqd` holds the equalisation delay whose Ranging_Time waits to leave (R165); `lostS` counts seconds in
LOST (in frames of 125 µs); `run` counts consecutive bursts at ADJ_THRESH; `adjDue` holds δ and the new delay of an adjustment that found
the queue full and is tried again at the next OK burst (R179); `retry` lists deactivations and disables that wait for a place in the queue
(R179); `seq` is the PLOAM sequence counter (R178) and `hwSeqs` the numbers of hardware messages not yet acknowledged; `upAt` the map
count of the last PLOAMu grant and `msgAt` the frame in which a message last left (R203). -/
structure Term where
  state : TermState
  sn : Nat
  rtdSn : Option Int
  eqd : Nat
  o : Int
  rtd : Int
  fails : Nat
  ik : Option Nat
  adj : Option Adj
  adjDue : Option (Int × Nat)
  tries : Nat
  since : Nat
  granted : Bool
  rangedEqd : Option Nat
  lostFrames : Nat
  run : Nat
  retry : List Nat
  seq : Nat
  hwSeqs : List Nat
  upAt : Nat
  msgAt : Option Nat
  deriving DecidableEq, Repr

/-- A FREE slot. -/
def Term.rest : Term := ⟨.free, 0, none, 0, 0, 0, 0, none, none, none, 0, 0, false, none, 0, 0, [], 0, [], 0, none⟩

/-- A hardware downstream message (R177): kind 0 Assign_ONU-ID, 1 Ranging_Time, 2 Deactivate_ONU-ID, 3 Disable_Serial_Number
(disable), 4 the same (enable); its slot, its value (serial number or delay) and its sequence number. -/
structure HwMsg where
  kind : Nat
  slot : Nat
  value : Nat
  seq : Nat
  deriving DecidableEq, Repr

/-- A host downstream message (R192): ONU-ID (1,023 broadcast), identifier, content bytes 0 to 35, sequence number and the key
latched at acceptance. -/
structure HostMsg where
  onu : Nat
  ident : Nat
  content : List Byte
  seq : Nat
  key : Option Nat
  deriving DecidableEq, Repr

/-- A host upstream message (R180): its slot, its MIC check and its 48 bytes. -/
structure UpMsg where
  slot : Nat
  micOk : Bool
  bytes : List Byte
  deriving DecidableEq, Repr

/-- A Benchmark profile (R169), with the amplitude and position (1/64 UI) of the last burst while learning (R170). `ue` says that
reads of it meet an uncorrectable error (R79). -/
structure BProf where
  valid : Bool
  learning : Bool
  count : Nat
  amp : Nat
  dc : Int
  phase : Nat
  taps : List Int
  arr : Int
  lastSfc : Nat
  okBursts : Nat
  prevAmp : Nat
  prevPos : Int
  ue : Bool
  deriving DecidableEq, Repr

/-- A profile that nothing has learned: invalid and learning. -/
def BProf.rest : BProf := ⟨false, true, 0, 0, 0, 0, [0, 0, 0, 0, 0, 0, 0, 0], 0, 0, 0, 0, 0, false⟩

/-- The 32 bytes of R169. -/
def BProf.bytes (p : BProf) : List Byte :=
  leBytes 1 (b2n p.valid + 2 * b2n p.learning) ++ leBytes 1 p.count ++ leBytes 2 p.amp ++ leBytes 2 (unsigned 16 p.dc) ++
  leBytes 1 (p.phase % 64) ++ [0] ++ (List.range 8).map (fun i => BitVec.ofInt 8 (p.taps.getD i 0)) ++
  leBytes 2 (unsigned 16 p.arr) ++ [0, 0] ++ leBytes 4 p.lastSfc ++ leBytes 4 p.okBursts ++ [0, 0, 0, 0]

/-- One tree's ranging engine. `rogueRun` lists the last 16 counted frames, newest first, each by number with the slots its reports named
(R175, R176); `rogueAge` counts them since the suspect was last computed. `turn` says that the next single message comes from the host queue
(R179). -/
structure RgTree where
  hwq : List HwMsg
  hostq : List HostMsg
  upq : List UpMsg
  turn : Bool
  bcastSeq : Nat
  rogueRun : List (Nat × List Nat)
  rogue : Bool
  rogueAge : Nat
  suspect : Option Nat
  deriving DecidableEq, Repr

/-- A tree's engine at rest. -/
def RgTree.rest : RgTree := ⟨[], [], [], false, 0, [], false, 0, none⟩

/-- A discovery queue entry (R161). -/
structure Disc where
  tree : Nat
  sn : Nat
  rtd : Int
  sightings : Nat
  deriving DecidableEq, Repr

/-! ### Grant scheduling (spec/06) -/

/-- An allocation's parameters (R199). -/
structure AllocPar where
  id : Nat
  slot : Nat
  prio : Nat
  elig : Nat
  weight : Nat
  dbru : Bool
  pred : Bool
  fixed : Nat
  assured : Nat
  maximum : Nat
  poll : Nat
  congQueue : Nat
  congEn : Bool
  congKib : Nat
  deriving DecidableEq, Repr

/-- The predictor of an entry (R204): the 64-byte state and the 96-byte day profile of the far tier. -/
structure Pred where
  rateQ : Nat
  prevB : Nat
  prevF : Nat
  mSec : List Nat
  mDay : Nat
  sArr : Nat
  sFrm : Nat
  dArr : Nat
  dFrm : Nat
  day : Table Nat
  deriving DecidableEq, Repr

/-- The predictor that PRED_RESET gives (R230), with the present SFC. -/
def Pred.reset (sfc : Nat) : Pred := ⟨0, 0, sfc % 2 ^ 32, List.replicate 16 64, 64, 0, 0, 0, 0, []⟩

/-- What an allocation accumulates (R200 to R203): its credits, its last report (backlog, upstream frame), the maps since its
last grant, its grants by map (newest first, at most 16), and its predictor. -/
structure AllocRun where
  cf : Nat
  ca : Nat
  cm : Int
  report : Option (Nat × Nat)
  idle : Nat
  hist : List (Nat × Nat)
  pred : Pred
  deriving DecidableEq, Repr

/-- No credits, no report, and no grant yet: the first computation polls it (log entry 57). -/
def AllocRun.rest : AllocRun := ⟨0, 0, 0, none, 256, [], Pred.reset 0⟩

/-- An allocation entry in use (R198). -/
structure Alloc where
  par : AllocPar
  run : AllocRun
  deriving DecidableEq, Repr

/-- An allocation structure of a map (R211): StartTime (0xFFFF within a burst), GrantSize, flags, burst profile index; its payload words,
in all and by pass (R200: fixed, cooperative, assured, predicted, surplus). -/
structure GStruct where
  alloc : Nat
  slot : Nat
  dbru : Bool
  ploamu : Bool
  prof : Nat
  start : Nat
  size : Nat
  words : Nat
  ws : List Nat
  deriving DecidableEq, Repr

/-- What a burst is granted for: data, discovery (R159), ranging (R163). -/
inductive GrantKind where
  | data | discovery | ranging
  deriving DecidableEq, Repr

/-- A burst profile of GS_BPROF (R224): guard, preamble and delimiter bytes, FEC, and the tree's mode. -/
structure BurstProf where
  guard : Nat
  pre : Nat
  delim : Nat
  fec : Bool
  xg : Bool
  deriving DecidableEq, Repr

/-- A burst of a map (R210, R211, R224): its slot, its first and end words, the StartTime, A, its stamp, its burst profile's number and
that profile as the computation took it, and its structures. -/
structure GBurst where
  slot : Nat
  kind : GrantKind
  first : Nat
  fin : Nat
  start : Nat
  a : Int
  stamp : Option Nat
  prof : Nat
  bp : BurstProf
  coop : Bool
  structs : List GStruct
  deriving DecidableEq, Repr

/-- A bandwidth map (R193). `cycles` is what R194 needs, `waits` its scratchpad waits. -/
structure GMap where
  frame : Nat
  bursts : List GBurst
  replayed : Bool
  cycles : Nat
  waits : Nat
  deriving DecidableEq, Repr

/-- A planned window (R213): its kind and slot, the expected delimiter position e, its span and the end of its quiet interval as
upstream bit numbers, and the frame and StartTime of its grant. -/
structure PlanWin where
  kind : GrantKind
  slot : Nat
  e : Nat
  lo : Nat
  hi : Nat
  quietEnd : Nat
  frame : Nat
  start : Nat
  deriving DecidableEq, Repr

/-- A cooperative entry accepted into the table (R217, R218). -/
structure Coop where
  idx : Nat
  tree : Nat
  dbru : Bool
  alloc : Nat
  target : Nat
  earliest : Nat
  latest : Nat
  words : Nat
  reps : Nat
  period : Nat
  tag : Nat
  next : Nat
  placed : Nat
  missed : Nat
  lastStart : Nat
  deriving DecidableEq, Repr

/-- One tree's scheduler. `built` lists maps built for coming frames, `sent` the maps sent, newest first (at most 20); `wins` the planned
windows, `rangeReq` the slots that wait for a ranging grant in order of request; `discAge` counts maps since a discovery window was
planned, `defers` its deferrals in a row; `secBin` and `dayBin` are the profile bins now running and `stepCut` says a time step fell in
them (R204, R205). `emptyLeft` counts frames that carry an empty map (R197), `takeoverLeft` frames that replay the mate's map (spec/14),
`need` the slots of the mate's latest NEED cell (R456); `lateFor` holds, by frame, START_US, the cycles and the scratchpad waits of a
computation that will not be on time (R220); `busy` is the boundary N - 2 of the last computation with the reach cycle after it at which
its engine was free (R194, R196). -/
structure GsTree where
  allocs : Table Alloc
  defaults : Table AllocRun
  built : List GMap
  sent : List GMap
  wins : List PlanWin
  rangeReq : List Nat
  discAge : Nat
  defers : Nat
  maps : Nat
  secBin : Nat
  dayBin : Nat
  stepCut : Bool
  lateFor : Table (Nat × Nat × Nat)
  emptyLeft : Nat
  takeoverLeft : Nat
  need : List Nat
  busy : Nat × Nat
  deriving DecidableEq, Repr

/-- A tree's scheduler at rest. -/
def GsTree.rest : GsTree := ⟨[], [], [], [], [], [], 65536, 0, 0, 0, 0, false, [], 0, 0, [], (0, 0)⟩

/-- One reach's cooperative table (R218): accepted entries, the ring indexes already made final beyond CI,
and the tree of an entry that waits for a place in the table. -/
structure CoopState where
  table : List Coop
  finals : List Nat
  draining : Bool
  full : Option Nat
  deriving DecidableEq, Repr

/-- No entries. -/
def CoopState.rest : CoopState := ⟨[], [], false, none⟩

/-- Per-tree state of framing, ranging and scheduling, with the terminals and profiles by global terminal index and the PLOAM
tail bytes by window and bank; `psw` lists the protection switch requests that go to the protection unit, with tree,
slot and defect code (R131); `bnd` counts frame boundaries and `bndAt` is the tick of the last one; `days` holds the day profiles
that the reserved region keeps for entries no longer in use, at 2,048 t + entry (R205, R318). -/
structure RxState where
  tf : Table TfTree
  pm : Table PmReach
  rg : Table RgTree
  terms : Table Term
  profs : Table BProf
  disc : Table (List Disc)
  tails : Table (List Byte)
  psw : List (Nat × Option Nat × Nat)
  bnd : Nat
  bndAt : Nat
  gs : Table GsTree
  coop : Table CoopState
  days : Table (Table Nat)
  deriving DecidableEq, Repr

/-- Nothing listed. -/
def RxState.rest : RxState := ⟨[], [], [], [], [], [], [], [], 0, 0, [], [], []⟩

end Sys2Proof.Machine
end

