-- ==== Sys2Proof/Machine/PacketState.lean ====
section
/-! DEFINITION. State of the packet path: parser and classifier, flow store and policers, traffic manager, buffer pools, cipher
engine and uplink ports (spec/07 to spec/12). -/

namespace Sys2Proof.Machine

/-! ### Packets -/

/-- A packet on its way: source (R231), global terminal (0xFFFF where none) and upstream XGEM port, its bytes from DA without FCS, slice,
stamped bank and EPOCH (R257), pass, META, colour, hash, the pipeline that took it in and the timebase tick and C of its entry, its
receive timestamp in ns (R394), the SA slot and PN under which it arrived with the result of its ICV, and whether a frame of the same PN
passed its tail before it (R363), whether it is an untagged 0x888E frame of a secured port (R364), what an injection descriptor gave it
(R482), its KIND and LENCONFLICT reason (R481), the XGEM port of its downstream frame (R249), whether it counts in PC_INFLIGHT while it
waits for recirculation (R258), and its entry of the packet sampling buffer (R533). -/
structure Pkt where
  src : Nat
  term : Nat
  port : Nat
  bytes : List Byte
  slice : Nat
  bank : Nat
  epoch : Nat
  second : Bool
  metaVal : Nat
  colour : Nat
  hash : Nat
  pipe : Nat
  tick : Nat
  c : Nat
  rx : Option Nat
  sa : Option Nat
  pn : Nat
  icvBad : Bool
  twin : Bool
  eapol : Bool
  clearSend : Bool
  launch : Option Nat
  tsId : Option Nat
  kind : Nat
  reason : Nat
  dsPort : Nat
  recirc : Bool
  sample : Option Nat
  deriving DecidableEq, Repr

/-- A packet of a source with given bytes, before its first pass. -/
def Pkt.of (src : Nat) (bytes : List Byte) : Pkt :=
  ⟨src, 0xFFFF, 0, bytes, 0, 0, 0, false, 0, 0, 0, 0, 0, 0, none, none, 0, false, false, false, false, none, none, 0, 0, 0, false, none⟩

/-- LEN: from DA through FCS (R293). -/
def Pkt.len (p : Pkt) : Nat := p.bytes.length + 4

/-- What a packet goes to after its action: a queue, and the packet as that queue gets it (R250). -/
structure Out where
  queue : Nat
  pkt : Pkt
  deriving DecidableEq, Repr

/-- A packet between its action and its enqueue commit (R31): its pipeline, its source for the tail check, its destinations; a
chain that a descriptor hands over (R483) and the queue that a BYPASS descriptor names. -/
structure Flight where
  pipe : Nat
  pkt : Pkt
  outs : List Out
  chain : Option (Nat × List Nat)
  deriving DecidableEq, Repr

/-! ### Parser and classifier (spec/07) -/

/-- A key profile (R244): field IDs and SCOPE. -/
structure KeyProf where
  ids : List Nat
  scope : Bool
  deriving DecidableEq, Repr

/-- A key profile of NONE fields. -/
def KeyProf.rest : KeyProf := ⟨[], false⟩

/-- One bank (R256): rules as the words of R260, key profiles, mirror sessions as their word by slice × 8 + session. -/
structure PcBank where
  rules : Table (List Nat)
  profs : Table KeyProf
  mirrors : Table Nat
  deriving DecidableEq, Repr

/-- An empty bank (R246). -/
def PcBank.rest : PcBank := ⟨[], [], []⟩

/-- Parser and classifier state: packets that wait to enter, the two banks, packets that wait for enqueue commit. -/
structure PcState where
  arrivals : List Pkt
  bankA : PcBank
  bankB : PcBank
  flights : List Flight
  deriving DecidableEq, Repr

/-- At rest. -/
def PcState.rest : PcState := ⟨[], PcBank.rest, PcBank.rest, []⟩

/-! ### Flow store and policers (spec/08) -/

/-- A slot of the flow store or of the stash (R261, R265): VALID, GEN, key, action, and the errors that its entry and its tag hold:
0 none, 1 a single-bit error, 2 an uncorrectable one. -/
structure FsSlot where
  valid : Bool
  gen : Bool
  key : Nat
  act : Nat
  ent : Nat
  tag : Nat
  deriving DecidableEq, Repr

/-- A free slot. -/
def FsSlot.rest : FsSlot := ⟨false, false, 0, 0, 0, 0⟩

/-- A policer (R275). -/
structure Policer where
  prof : Nat
  tc : Nat
  tp : Nat
  last : Nat
  deriving DecidableEq, Repr

/-- A policer after reset (R275). -/
def Policer.rest : Policer := ⟨0, 0, 0, 0⟩

/-- A policer profile as written (R276). -/
structure PolProf where
  cir : Nat
  pir : Nat
  cbs : Nat
  pbs : Nat
  alg : Bool
  aware : Bool
  redDrop : Bool
  adj : Nat
  deriving DecidableEq, Repr

/-- A profile after reset (R275). -/
def PolProf.rest : PolProf := ⟨0, 0, 0, 0, false, false, false, 0⟩

/-- Flow-store state: slots, stash, the generation of the working layout, what a rebuild counts for its record, policers; `mended`
counts the corrections of a read that ECC_CORR has not yet told of. -/
structure FsState where
  slots : Table FsSlot
  stash : Table FsSlot
  gen : Bool
  rebuildAt : Nat
  stalls : Nat
  policers : Table Policer
  profs : Table PolProf
  mended : Nat
  deriving DecidableEq, Repr

/-- At rest. -/
def FsState.rest : FsState := ⟨[], [], false, 0, 0, [], [], 0⟩

/-! ### Traffic manager (spec/09) -/

/-- A token bucket (R294): enabled, rate in kbit/s, burst, the MODE last written, tokens in 1/4096 byte, LAST. -/
structure Bucket where
  en : Bool
  rate : Nat
  burst : Nat
  mode : Nat
  tok : Int
  last : Nat
  deriving DecidableEq, Repr

/-- A bucket after reset (R287). -/
def Bucket.rest : Bucket := ⟨false, 0, 0, 0, 0, 0⟩

/-- A child of a node (R283). -/
inductive Child where
  | node (n : Nat)
  | queue (q : Nat)
  deriving DecidableEq, Repr

/-- A scheduler node (R283, R290): its words of NODE_WRITE, its rings by PRIO in attach order with their pointers, its own
deficit in its parent's ring, its buckets. -/
structure Node where
  valid : Bool
  parent : Nat
  prio : Nat
  qshift : Nat
  weight : Nat
  rings : Table (List Child)
  rr : Table Nat
  deficit : Int
  cir : Bucket
  pir : Bucket
  deriving DecidableEq, Repr

/-- An invalid node. -/
def Node.rest : Node := ⟨false, 0, 0, 0, 0, [], [], 0, Bucket.rest, Bucket.rest⟩

/-- A packet that a queue holds: LEN, its enqueue tick of 16 ns, its cells in order, the packet. -/
structure Held where
  len : Nat
  tick : Nat
  cells : List Nat
  pkt : Pkt
  deriving DecidableEq, Repr

/-- A queue (R283, R314, R329): its words of QUEUE_WRITE, manual HOLD, near and far lists, deficit, buckets, and the tick of
its last decision, counted without an end (R304). -/
structure Queue where
  valid : Bool
  w0 : Nat
  w1 : Nat
  thG : Nat
  thY : Nat
  thR : Nat
  w5 : Nat
  hold : Bool
  near : List Held
  far : List Held
  deficit : Int
  cir : Bucket
  pir : Bucket
  lastDec : Nat
  deriving DecidableEq, Repr

/-- An invalid queue. -/
def Queue.rest : Queue := ⟨false, 0, 0, 0, 0, 0, 0, false, [], [], 0, Bucket.rest, Bucket.rest, 0⟩

/-- Traffic-manager state: nodes and queues. -/
structure TmState where
  nodes : Table Node
  queues : Table Queue
  deriving DecidableEq, Repr

/-- At rest. -/
def TmState.rest : TmState := ⟨[], []⟩

/-! ### Buffer pools (spec/10) -/

/-- A cell (R316, R328, R338): its state bit, whether it is retired, the error that lies in its link word and in its payload (0
none, 1 correctable, 2 uncorrectable), the link word's fields (NEXT absent where the list ends), and its payload bytes as last
written. -/
structure Cell where
  used : Bool
  retired : Bool
  linkErr : Nat
  dataErr : Nat
  next : Option Nat
  eop : Bool
  nextLen : Nat
  owner : Nat
  data : List Byte
  deriving DecidableEq, Repr

/-- A cell that nothing has used. -/
def Cell.rest : Cell := ⟨false, false, 0, 0, none, false, 0, 0, []⟩

/-- An entry of the ECC log (R345). -/
structure EccEvt where
  ue : Bool
  tier : Nat
  reserved : Bool
  link : Bool
  source : Nat
  cell : Nat
  deriving DecidableEq, Repr

/-- Buffer-pool state: the cells of the two tiers, the retirement lists, the cells of queue lists broken by a link error, the
ECC log, the armed injection of each tier (cell, double, link), the corrected and uncorrectable counts by 16 × tier + channel,
allocation failures by 2 × pool + tier, the cell behind BP_FREE_ERR, the scrub places, the cells of the reserved region with an
uncorrectable error and those with a correctable one, the tick from which rounds are numbered (R326), the queues eligible for
prefetch in the order in which they became so, each with whether it waits for its near list to shrink, the copy that the
prefetch engine makes: its queue and the near cells (R330, R331), and what the seams to the memories hold, by event number: bytes, and the
tick at which they held them (R24). -/
structure BpState where
  near : Table Cell
  far : Table Cell
  retNear : List Nat
  retFar : List Nat
  log : List EccEvt
  armed : Table (Nat × Bool × Bool)
  ce : Table Nat
  ue : Table Nat
  fails : Table Nat
  errCell : Nat
  scrub : Table Nat
  resBad : List Nat
  resSoft : List Nat
  roundBase : Nat
  fetch : List (Nat × Bool)
  copy : Option (Nat × List Nat)
  seams : Table (Nat × Nat)
  deriving DecidableEq, Repr

/-- At rest. -/
def BpState.rest : BpState := ⟨[], [], [], [], [], [], [], [], [], 0, [], [], [], 0, [], none, []⟩

/-! ### Cipher engine (spec/11) -/

/-- The states of a PON key slot (R350). -/
inductive KeyState where
  | empty | ready | active | spent | void
  deriving DecidableEq, Repr

/-- The code of a key state (R350). -/
def KeyState.code : KeyState → Nat
  | .empty => 0 | .ready => 1 | .active => 2 | .spent => 3 | .void => 4

/-- A PON key slot (R349): key, state, whether VOID comes from a memory error, usage count, whether WARN has been reported,
limits, lifetime, frames ACTIVE, HWM, upstream blocks. -/
structure KeySlot where
  key : Nat
  state : KeyState
  memErr : Bool
  count : Nat
  warned : Bool
  limit : Nat
  warn256 : Nat
  life : Nat
  frames : Nat
  hwm : Option Nat
  up : Nat
  deriving DecidableEq, Repr

/-- An EMPTY slot (R351). -/
def KeySlot.rest : KeySlot := ⟨0, .empty, false, 0, false, 0, 0, 0, 0, none, 0⟩

/-- A key pair (R349, R353, R357): the index that was ACTIVE last, the pending host switch (target, AT_SFC), whether an automatic
switch waits for the next boundary, and the switch that a clear under R360 has cancelled (its tick, target and AT_SFC, R358). -/
structure KeyPair where
  last : Nat
  pend : Option (Nat × Nat)
  auto : Bool
  cut : Option (Nat × Nat × Nat)
  deriving DecidableEq, Repr

/-- A pair with nothing pending. -/
def KeyPair.rest : KeyPair := ⟨0, none, false, none⟩

/-- A key event (R375). -/
structure KeyEvt where
  kind : Nat
  bcast : Bool
  sfc : Nat
  slot : Nat
  deriving DecidableEq, Repr

/-- A MACsec SA slot (R362): 0 FREE, 1 LOADED, 2 ENABLED; `w0` is the parameter word of MS_SA_PARAM; `pn` the next PN (transmit)
or the lowest acceptable PN (receive). -/
structure SaSlot where
  state : Nat
  key : Nat
  w0 : Nat
  sci : Nat
  ssci : Nat
  salt : Nat
  pn : Nat
  ok : Nat
  fail : Nat
  rekeyed : Bool
  exhausted : Bool
  deriving DecidableEq, Repr

/-- A FREE SA slot. -/
def SaSlot.rest : SaSlot := ⟨0, 0, 0, 0, 0, 0, 0, 0, 0, false, false⟩

/-- A look-aside key slot (R378). -/
structure LaKey where
  long : Bool
  owner : Nat
  key : Nat
  deriving DecidableEq, Repr

/-- Cipher-engine state. PON slots: unicast slot n at n, broadcast slot n at 65,536 + n; pairs: terminal g at g, tree t at
32,768 + t. `curTx` gives each port's current transmit SA, and `dropped` counts the switches that R358 drops. -/
structure CeState where
  keys : Table KeySlot
  pairs : Table KeyPair
  evts : List KeyEvt
  sas : Table SaSlot
  curTx : Table Nat
  la : Table LaKey
  pnHeld : Option Nat
  corrected : Nat
  dropped : Nat
  deriving DecidableEq, Repr

/-- At rest. -/
def CeState.rest : CeState := ⟨[], [], [], [], [], [], none, 0, 0⟩

/-! ### Uplink ports (spec/12) -/

/-- The states of a port (R380). -/
inductive PortState where
  | disabled | down | up
  deriving DecidableEq, Repr

/-- The code of a port state (R397). -/
def PortState.code : PortState → Nat
  | .disabled => 0 | .down => 1 | .up => 2

/-- An uplink port (R380 to R390): its state, declared and reported conditions (bits 1 LOS, 2 LOA, 3 HI_BER, 4 LF, 5 RF,
6 DEGRADED), the ticks at which its PAUSE and PFC timers end, the classes in XOFF, its statistics, the STAT_HI shadows, the tick
since which the first five conditions have been absent and the last of them to clear, the UL_SER_CFG of the window under way and the
tick at which that window began; the tick at which the frame that is being sent ends, with whether it left an entry in the port's
timestamp queue (R381, R417); C in ns at which the port last left UP (R381); and the tick of the last frame or change of each class's
flow-control state (R390). -/
structure UlPort where
  state : PortState
  cond : Nat
  reported : Nat
  pause : Option Nat
  pfc : Table Nat
  xoff : Nat
  stats : Table Nat
  shadow : Table Nat
  clearAt : Option Nat
  upCause : Nat
  ser : Nat
  winAt : Nat
  tx : Option (Nat × Bool)
  leftAt : Option Nat
  fcAt : Table Nat
  deriving DecidableEq, Repr

/-- A disabled port. -/
def UlPort.rest : UlPort := ⟨.disabled, 0, 0, none, [], 0, [], [], none, 0, 0x34000400, 0, none, none, []⟩

/-- A MAC control frame that a port sends (R390): PAUSE or PFC, with the quanta of each class it carries (PAUSE: class 0). -/
structure FcFrame where
  port : Nat
  pfc : Bool
  quanta : List (Nat × Nat)
  deriving DecidableEq, Repr

/-- A frame that left the device (outputs of a run, newest first): egress port and bytes; `note` is 0 data, 1 idle replacement. -/
structure Sent where
  port : Nat
  note : Nat
  bytes : List Byte
  deriving DecidableEq, Repr

/-- Uplink state, with the frames sent. -/
structure UlState where
  ports : Table UlPort
  lagDist : Table Nat
  fcSent : List FcFrame
  sent : List Sent
  deriving DecidableEq, Repr

/-- At rest. -/
def UlState.rest : UlState := ⟨[], [], [], []⟩

end Sys2Proof.Machine
end

