-- ==== Sys2Proof/Machine/ProtState.lean ====
section
/-! DEFINITION. State of the protection unit and the mate link (spec/14). -/

namespace Sys2Proof.Machine

/-- The protection states of a tree (R437). -/
inductive PxTreeState where
  | isolated | standby | active | off
  deriving DecidableEq, Repr

/-- The code of a protection state (R437). -/
def PxTreeState.code : PxTreeState → Nat
  | .isolated => 0 | .standby => 1 | .active => 2 | .off => 3

/-- The protection state of a code. -/
def PxTreeState.ofCode : Nat → PxTreeState
  | 1 => .standby | 2 => .active | 3 => .off | _ => .isolated

/-- A protected tree (R437 to R445, R456 to R461): its state and the cause of its last change, lockout, the seconds that
wait-to-restore started, frames without fibre evidence, frames that the mate's tree has been unfit or OFF, consecutive frames of
foreign energy, the energy reports and the fibre evidence of the frame under way, the change due at a boundary (its number and
the cause), refused PSW requests that stay pending (slot, code), the mate's state and fitness from its last HELLO, the SFC of the
last copy, what a restore starts from (SFC and BOUNDARY_C), the boundaries of a cold SWITCH still to come, a refused SWITCH
or JOIN that completes at the next boundary, the boundaries that a SWITCH sent to the mate still waits for a COMMIT, and that the mate has
left ACTIVE while this unit is STANDBY (R441); `entered` and `heard` say that the tree has entered a state and that a HELLO has come. -/
structure PxTree where
  state : PxTreeState
  cause : Nat
  lockout : Bool
  wtr : Option Nat
  silent : Nat
  mateUnfit : Nat
  foreign : Nat
  energy : Nat
  evidence : Bool
  change : Option (Nat × Nat)
  psw : List (Option Nat × Nat)
  mate : PxTreeState
  mateFit : Bool
  copySfc : Nat
  restore : Option (Nat × Nat)
  snapWait : Nat
  deny : Bool
  denyJoin : Bool
  askWait : Nat
  mateLeft : Bool
  entered : Bool
  heard : Bool
  deriving DecidableEq, Repr

/-- A protected tree before its reach is lit. -/
def PxTree.rest : PxTree := ⟨.off, 0, false, none, 0, 0, 0, 0, false, none, [], .off, false, 0, none, 0, false, false, 0, false, false, false⟩

/-- A record of a copy frame (R451). -/
inductive CopyRec where
  | tree (t state seq sfc : Nat)
  | terminal (g state fails eqd seq off : Nat)
  | keyUsage (slot count : Nat)
  | key (slot state flags count warn limit life frames atSfc hwm key : Nat)
  | alloc (t del entry : Nat) (data : List Nat)
  | xgemPort (t del data : Nat)
  | termSn (g sn : Nat)
  | ik (g present key : Nat)
  deriving DecidableEq, Repr

/-- The length of a record in bytes (R451). -/
def CopyRec.bytes : CopyRec → Nat
  | .tree .. => 16 | .terminal .. => 16 | .keyUsage .. => 12 | .key .. => 68 | .alloc .. => 32 | .xgemPort .. => 12
  | .termSn .. => 16 | .ik .. => 32

/-- An object that a full pass sends (R455). -/
inductive CopyObj where
  | term (g : Nat)
  | key (n : Nat)
  | alloc (t i : Nat)
  | port (t p : Nat)
  | sn (g : Nat)
  | ik (g : Nat)
  deriving DecidableEq, Repr

/-- The length of an object's record in bytes (R451). -/
def CopyObj.bytes : CopyObj → Nat
  | .term .. => 16 | .key .. => 68 | .alloc .. => 32 | .port .. => 12 | .sn .. => 16 | .ik .. => 32

/-- A copy frame (R450): cadence, flags, FRAME_NO, STRUCTURE_ID, BOUNDARY_C and records. -/
structure CopyFrame where
  cadence : Nat
  flags : Nat
  frameNo : Nat
  structId : List Byte
  boundaryC : Nat
  records : List CopyRec
  deriving DecidableEq, Repr

/-- A control cell that waits to be sent (R449): KIND, tree, SFC of the frame concerned, PART, PARTS, and the bytes of its content. -/
structure CtlCell where
  kind : Nat
  tree : Nat
  sfc : Nat
  part : Nat
  parts : Nat
  content : List Byte
  deriving DecidableEq, Repr

/-- A CONTROL or COPY cell that has left (R446 to R448): the number of its codeword on its lane, the lane, SEQ, and its data. -/
structure CellOut where
  word : Nat
  lane : Nat
  seq : Nat
  control : Bool
  data : List Byte
  deriving DecidableEq, Repr

/-- A map of the mate in MAP cells (R449): tree, frame, REPLAYED, the parts there are, and those that have arrived. -/
structure MapIn where
  tree : Nat
  frame : Nat
  replayed : Bool
  parts : Nat
  got : Table (List MapStruct)
  deriving DecidableEq, Repr

/-- Protection state. `helloAge` counts boundaries since the last HELLO and `matched` says that its values agree (R436); `mateMask` is the
mate's good-lane mask and `markers` the tick of the last marker cell at the spacing by lane (R446, R447); `bndTick` is the tick of the
last boundary; `lastRx` the C of the last HELLO received with its arrival time, in ps; `buf` the copy frame that waits for the next
boundary, `lastNo` the last FRAME_NO accepted, `inPass` says that a full pass is being applied, `copyC` is the BOUNDARY_C of the applied
state; `backlog` holds the objects of the waiting events, `pass` the objects of a full pass still to be sent, `passDue` says that one
starts at the next copy frame, `lastTerms` the TERMINAL records last sent; `ctlQ` and `copyQ` are the CONTROL cells and the data of the
COPY cells that wait, oldest first, `out` the cells that have left in the frame under way, newest first, `word` the number of the last
codeword that has begun on the lanes, and `frame` the last copy frame sent; `txSeq` the next SEQ to be sent and `rxSeq` the next SEQ to be
delivered (R448); `cells` and `cellsIn` the cells sent and received in the frame under way; `mapsIn` the mate's maps; `cfg` and `cfg2` the
configuration in force (R466); `snap` holds the bytes of a snapshot that is due (R460). -/
structure PxState where
  trees : Table PxTree
  pairKey : Option Nat
  helloAge : Option Nat
  matched : Bool
  mateMask : Nat
  markers : Table Nat
  bndTick : Nat
  bndC : Nat
  lastRx : Option (Nat × Nat)
  buf : Option CopyFrame
  lastNo : Option Nat
  inPass : Bool
  copyC : Nat
  backlog : List CopyObj
  pass : Option (List CopyObj)
  passDue : Bool
  lastTerms : Table CopyRec
  ctlQ : List CtlCell
  copyQ : List (List Byte)
  out : List CellOut
  word : Nat
  frame : Option CopyFrame
  txSeq : Nat
  cells : Nat
  cellsIn : Nat
  cellsLast : Nat
  lastSecond : Nat
  mapsIn : List MapIn
  rxSeq : Option Nat
  cfg : Nat
  cfg2 : Nat
  snap : Option (List Byte)
  sfcLoads : Nat
  deriving DecidableEq, Repr

/-- At rest. -/
def PxState.rest : PxState where
  trees := []
  pairKey := none
  helloAge := none
  matched := false
  mateMask := 15
  markers := []
  bndTick := 0
  bndC := 0
  lastRx := none
  buf := none
  lastNo := none
  inPass := false
  copyC := 0
  backlog := []
  pass := none
  passDue := false
  lastTerms := []
  ctlQ := []
  copyQ := []
  out := []
  word := 0
  frame := none
  txSeq := 0
  cells := 0
  cellsIn := 0
  cellsLast := 0
  lastSecond := 0
  mapsIn := []
  rxSeq := none
  cfg := 0x4B010210
  cfg2 := 0x10401F40
  snap := none
  sfcLoads := 0

end Sys2Proof.Machine
end

