-- ==== Sys2Proof/Machine/Dev.lean ====
section
/-! DEFINITION. The device: all of the machine's state but the queue of waiting commands. -/

namespace Sys2Proof.Machine

/-- The device: register file, command windows and the state of each block. `regs` lists the registers that differ from
their value after PORST_N; `kicks` names the windows whose running command an event has just completed (empty between
steps); `free` counts the free values taken (log entry 4). -/
structure Dev where
  regs : Table RegWord
  wins : Table Window
  kicks : List Nat
  free : Nat
  pins : PinState
  im : ImState
  tb : TbState
  mc : McState
  ob : ObState
  lx : LxState
  rx : RxState
  pc : PcState
  fs : FsState
  tm : TmState
  bp : BpState
  ce : CeState
  ul : UlState
  px : PxState
  deriving DecidableEq, Repr

end Sys2Proof.Machine
end

