-- ==== Sys2Proof/Machine/Image.lean ====
section
/-! DEFINITION. The Ulili image and the firmware container (R39 to R43, R52, R319, R435, R491, R492, R504): the checks that the
device makes on their bytes, and the structure that they define. -/

namespace Sys2Proof.Machine

/-! ### Where an image lies -/

/-- What a load is for (R42): a full image, a reach image for a reach, a firmware container. -/
inductive ImgUse where
  | full
  | reach (r : Nat)
  | firmware
  deriving DecidableEq, Repr

/-- Where the bytes of an image lie (R44, R60): its memory and first address, the length of the host buffer for a load from
the host, and the read stage at which a read faults (0 none). -/
structure ImgSrc where
  mem : Mem
  base : Nat
  len : Option Nat
  fault : Nat
  deriving DecidableEq, Repr

/-- A section-table entry (R40). -/
structure Section where
  typ : Nat
  flags : Nat
  off : Nat
  len : Nat
  crc : Nat
  deriving DecidableEq, Repr

/-- What the checks pass on: the header's REACH_MASK, SERIAL, SECURITY_VERSION and STRUCTURE_ID, and the sections in table order
with their payloads. -/
structure Img where
  reachMask : Nat
  serial : Nat
  security : Nat
  structId : List Byte
  sections : List (Section × List Byte)
  deriving DecidableEq, Repr

/-- A LOAD_ERR with its ERR_SECTION (R42). -/
abbrev LoadErr := Nat × Nat

/-! ### The header (R39) -/

/-- MAGIC of the header: "ULIL", or "UFWR" of a firmware container (R504). -/
def imgMagic : ImgUse → Nat
  | .firmware => 0x52574655
  | _ => 0x4C494C55

/-- The fields that R42 checks under 0x02 in the header, but for MAGIC. -/
def headerOk (u : ImgUse) (h : List Byte) (len : Option Nat) : Bool :=
  let n := leAt h 15 1
  let total := leAt h 24 4
  let zero (a n : Nat) : Bool := leAt h a n == 0
  let kind := leAt h 13 1
  let kindOk : Bool := match u with
    | .full => kind == 0 && zero 48 16
    | .reach _ => kind == 1 && zero 32 16
    | .firmware => kind == 0 && zero 14 1 && zero 32 32
  leAt h 4 2 == 1 && leAt h 6 2 == 128 && decide (1 ≤ n ∧ n ≤ 32) && decide (total % 16 = 0 ∧ total ≤ 33554432) &&
    decide (128 + 16 * n + 208 ≤ total) && decide (leAt h 28 4 ≤ 15) && leAt h 72 4 == 128 && leAt h 76 4 == crc32c (h.take 76) &&
    zero 80 48 && kindOk && (match len with | some l => decide (total ≤ l) | none => true)

/-- The checks of the header, codes 0x01 to 0x03 (R42). -/
def checkHeader (u : ImgUse) (f : Fuses) (s : ImgSrc) : Except LoadErr (List Byte) :=
  if (match s.len with | some l => decide (l < 128) | none => false) then .error (0x02, 0)
  else if s.fault = 1 then .error (0x0C, 0)
  else
    let h := s.mem.readN s.base 128
    if leAt h 0 4 ≠ imgMagic u then .error (if u = .full ∧ s.len = none then 0x01 else 0x02, 0)
    else if !headerOk u h s.len then .error (0x02, 0)
    else if leAt h 8 4 ≠ 0x6412 ∨ f.stepping < leAt h 12 1 then .error (0x03, 0)
    else .ok h

/-! ### The signature block (R41) -/

/-- The checks of the signature block, 0x04, after its form (R41, R42). -/
def checkKey (f : Fuses) (sg : List Byte) : Except LoadErr Unit :=
  let k := leAt sg 4 1
  if leAt sg 0 4 ≠ 0x47495355 ∨ leAt sg 5 11 ≠ 0 then .error (0x02, 0)
  else if 3 < k ∨ f.keyHash.getD k 0 ≠ Config.sha384 (sub sg 16 96) ∨ bit f.revoked k then .error (0x04, 0)
  else .ok ()

/-- The signature over bytes 0 to TOTAL_LEN − 209 (R41). -/
def signatureOk (bs sg : List Byte) : Bool :=
  Config.ecdsaVerifies (beAt sg 16 48) (beAt sg 64 48) (beAt sg 112 48) (beAt sg 160 48) (Config.sha384 bs)

/-! ### The section table (R40) -/

/-- Entry i of the section table. -/
def sectionAt (h : List Byte) (i : Nat) : Section :=
  let a := 128 + 16 * i
  ⟨leAt h a 2, leAt h (a + 2) 2, leAt h (a + 4) 4, leAt h (a + 8) 4, leAt h (a + 12) 4⟩

/-- The section types of R40, and those of a firmware container (R504). -/
def knownType (u : ImgUse) (t : Nat) : Bool :=
  match u with
  | .firmware => decide (0x300 ≤ t ∧ t < 0x304) || t == 0x310
  | _ => decide (1 ≤ t ∧ t ≤ 8) || decide (0x100 ≤ t ∧ t < 0x108) || t == 0x200

/-- Two intervals of bytes share one. -/
def overlap (a n b m : Nat) : Bool := decide (a < b + m ∧ b < a + n)

/-- The largest payload that the device can place (R504): a core's code, the scratchpad contents. -/
def sectionLimit (u : ImgUse) (t : Nat) : Option Nat :=
  match u with
  | .firmware => if t = 0x310 then some 4194304 else if knownType .firmware t then some 262144 else none
  | _ => none

/-- A section-table entry at fault (R42, 0x07): entry i of an image of `total` bytes. A payload of length 0 overlaps what its OFFSET
lies strictly inside (log entry 87). -/
def sectionBad (u : ImgUse) (ss : List Section) (i : Nat) (x : Section) (total : Nat) (bs : List Byte) : Bool :=
  decide (4 ≤ x.flags) || (!knownType u x.typ && bit x.flags 1) || decide (x.off % 16 ≠ 0) ||
    decide (x.off < 128 + 16 * ss.length) || decide (total - 208 < x.off + x.len) ||
    ((List.range ss.length).any fun j => j != i && (match ss[j]? with
      | some y => overlap x.off x.len y.off y.len
      | none => false)) ||
    (match sectionLimit u x.typ with | some n => decide (n < x.len) | none => false) ||
    x.crc != crc32c (sub bs x.off x.len)

/-- The first entry at fault, in table order. -/
def firstBad (u : ImgUse) (ss : List Section) (total : Nat) (bs : List Byte) : Option Nat :=
  ((List.range ss.length).zip ss).findSome? fun y => if sectionBad u ss y.1 y.2 total bs then some y.2.typ else none

/-! ### The structure (R42 codes 0x08 and 0x09) -/

/-- The payloads of the sections of a type. -/
def Img.payloads (m : Img) (t : Nat) : List (List Byte) := (m.sections.filter fun x => x.1.typ == t).map Prod.snd

/-- The payload of a section type, if it is there. -/
def Img.payload (m : Img) (t : Nat) : Option (List Byte) := (m.payloads t).head?

/-- A structural section (R40): by the table for a TYPE that the table has, by FLAGS bit 0 for any other, which the load skips
(log entry 88). -/
def structural (x : Section) : Bool :=
  let t := x.typ
  decide (1 ≤ t ∧ t ≤ 7) || decide (0x100 ≤ t ∧ t < 0x108) || (!knownType .full t && bit x.flags 0)

/-- STRUCTURE_ID computed (R40): the first 16 bytes of the SHA-384 digest over the structural payloads in table order. -/
def Img.computedId (m : Img) : List Byte :=
  (beBytes 48 (Config.sha384 ((m.sections.filter fun x => structural x.1).map Prod.snd).flatten)).take 16

/-- The first required section of a full image that is missing, duplicated or unfitting (R42): 0 where none is at fault.
Required are types 1 to 7 once each and REACH_r for each bit of REACH_MASK; PROTECTION stands at most once (log entry 86). -/
def sectionsFault (m : Img) : Option Nat :=
  let once (t : Nat) : Option Nat := match (m.payloads t).length with
    | 0 => some 0
    | 1 => none
    | _ => some t
  ((List.range 7).findSome? fun i => once (i + 1)) <|>
  ((List.range 8).findSome? fun r => if bit m.reachMask r then once (0x100 + r)
    else if (m.payloads (0x100 + r)).isEmpty then none else some (0x100 + r)) <|>
  (if 1 < (m.payloads 8).length then some 8 else none)

/-- The limits of table n's units (R43): least and most. -/
def carveLimits : Nat → Nat × Nat
  | 0 => (16, 256)
  | 1 => (4, 64)
  | 2 => (4, 64)
  | 3 => (3, 48)
  | 4 => (32, 32)
  | _ => (48, 453)

/-- A power of two among the flow store's units (R43). -/
def pow2Units (n : Nat) : Bool := (List.range 9).any fun k => n == 2 ^ k

/-- The units of tables 0 to 5, if the CARVE section keeps its rule (R43). -/
def decodeCarve (b : List Byte) : Option (List Nat) :=
  let ents := (List.range 6).map fun i => (leAt b (8 * i) 2, leAt b (8 * i + 2) 2, leAt b (8 * i + 4) 4)
  let units := (List.range 6).map fun t => ((ents.find? fun e => e.1 == t).map fun e => e.2.1).getD 0
  let ok := b.length == 48 && (List.range 6).all (fun t => (ents.filter fun e => e.1 == t).length == 1) &&
    ents.all (fun e => e.2.2 == 0) &&
    (List.range 6).all (fun t => decide ((carveLimits t).1 ≤ units.getD t 0 ∧ units.getD t 0 ≤ (carveLimits t).2)) &&
    pow2Units (units.getD 0 0) && units.foldl (· + ·) 0 == 512
  if ok then some units else none

/-- What a POOLS section says (R319): DDR_CAP, DDR_RANKS and the pools. -/
def decodePools (b : List Byte) : Option (Nat × Nat × List PoolDef) :=
  let cap := leAt b 0 1
  let n := leAt b 3 1
  let pools := (List.range n).map fun p =>
    let a := 16 + 16 * p
    (⟨leAt b a 1, leAt b (a + 4) 4, leAt b (a + 8) 4⟩ : PoolDef)
  let ok := (cap == 8 || cap == 16 || cap == 24 || cap == 32) && decide (leAt b 1 1 ≤ 3) &&
    (leAt b 2 1 == 1 || leAt b 2 1 == 2) && decide (1 ≤ n ∧ n ≤ 64) && leAt b 4 12 == 0 && b.length == 16 + 16 * n &&
    pools.all (fun p => decide (p.slice < 16) || p.slice == 0xFF) &&
    (List.range n).all (fun p => leAt b (17 + 16 * p) 3 == 0 && leAt b (28 + 16 * p) 4 == 0) &&
    decide ((pools.map PoolDef.nearMin).foldl (· + ·) 0 ≤ 67108864) &&
    decide ((pools.map PoolDef.farMin).foldl (· + ·) 0 ≤ cap * 2097152 - 40960)
  if ok then some (cap, leAt b 2 1, pools) else none

/-- The ports of a PORTS payload, if each is an aligned group of 1, 2 or 4 lanes and no lane is covered twice (R42, R379). -/
def decodePorts (b : List Byte) : Option (List PortDef) :=
  let ps := (Config.imagePorts b).map fun p => (⟨p.1, p.2⟩ : PortDef)
  let ok := ps.all (fun p => (p.lanes == 1 || p.lanes == 2 || p.lanes == 4) && p.lane % p.lanes == 0 && decide (p.lane + p.lanes ≤ 12)) &&
    (List.range 12).all fun u => decide ((ps.filter fun p => decide (p.lane ≤ u ∧ u < p.lane + p.lanes)).length ≤ 1)
  if ok then some ps else none

/-- The trees that an image's REACH_r payloads define, by tree number. -/
def decodeTrees (m : Img) : Table TreeDef :=
  ((List.range 8).map fun r => match m.payload (0x100 + r) with
    | some b => (List.range 8).map fun i =>
        let x := (Config.imageTrees b).getD i (false, 0, [])
        (8 * r + i, (⟨x.1, x.2.1, x.2.2⟩ : TreeDef))
    | none => []).flatten

/-- The worst-case load of pipeline k in bit/s of 672-bit frames, against 1,125 Mpkt/s (R29). -/
def pipeLoadOk (pipes : List Nat) (trees : Table TreeDef) (ports : List PortDef) (k : Nat) : Bool :=
  let reaches : List Nat := ((List.range 8).filter fun r => pipes.getD r 4 == k).map fun r =>
    ((trees.filter fun t => t.1 / 8 == r).map fun t => if t.2.xgpon then 2488320000 else 9953280000).foldl (· + ·) (0 : Nat)
  let uls : List Nat := (ports.filter fun p => pipes.getD (8 + p.lane) 4 == k).map fun p => p.lanes * 100000000000
  let inj : Nat := if pipes.getD 20 4 = k then 105000000000 else 0
  decide (reaches.foldl (· + ·) 0 + uls.foldl (· + ·) 0 + inj ≤ 756000000000)

/-- Every source has a pipeline, and no pipeline is overloaded (R29). DESIGN CHOICE: an absent reach and a lane that is no port's lowest
need a pipeline too (log entry 126). -/
def pipesOk (pipes : List Nat) (trees : Table TreeDef) (ports : List PortDef) : Bool :=
  (List.range 22).all (fun i => decide (pipes.getD i 4 < 4)) && (List.range 4).all (pipeLoadOk pipes trees ports)

/-- Entry s of a SLICES payload (R491). -/
def sliceAt (b : List Byte) (s : Nat) : SliceDef :=
  let a := 64 * s
  ⟨leAt b a 8, leAt b (a + 8) 2, leAt b (a + 10) 1 == 1, leAt b (a + 12) 4, leAt b (a + 16) 4, leAt b (a + 20) 4, leAt b (a + 24) 4,
    leAt b (a + 28) 4, leAt b (a + 32) 4⟩

/-- Ranges of one kind: none overlaps another and none runs beyond the count (R492); an empty range holds nothing to overlap. -/
def rangesOk (rs : List (Nat × Nat)) (count least : Nat) : Bool :=
  rs.all (fun r => r.2 == 0 || decide (least ≤ r.1 ∧ r.1 + r.2 ≤ count)) &&
    (List.range rs.length).all fun i => (List.range rs.length).all fun j =>
      i == j || (rs.getD i (0, 0)).2 == 0 || (rs.getD j (0, 0)).2 == 0 || !overlap (rs.getD i (0, 0)).1 (rs.getD i (0, 0)).2 (rs.getD j (0, 0)).1 (rs.getD j (0, 0)).2

/-- The slices of a SLICES payload, if they keep R492. -/
def decodeSlices (b : List Byte) (mask : Nat) (carve : List Nat) : Option (List SliceDef) :=
  let ss := (List.range 16).map (sliceAt b)
  let nodes := 65536 * carve.getD 3 0 / 48
  let queues := min (524288 * carve.getD 2 0 / 64) (524288 * carve.getD 3 0 / 48)
  let pols := 1048576 * carve.getD 1 0 / 64
  let ok := b.length == 1024 &&
    (List.range 16).all (fun s => decide (leAt b (64 * s + 10) 1 ≤ 1) && leAt b (64 * s + 11) 1 == 0 && leAt b (64 * s + 36) 28 == 0) &&
    (List.range 64).all (fun t => (ss.filter fun x => bit x.trees t).length == if bit mask (t / 8) then 1 else 0) &&
    rangesOk (ss.map fun x => (x.nodeFirst, x.nodeCount)) nodes 128 &&
    rangesOk (ss.map fun x => (x.queueFirst, x.queueCount)) queues 0 &&
    rangesOk (ss.map fun x => (x.polFirst, x.polCount)) pols 0 &&
    ss.all (fun x => x.valid || (x.trees == 0 && x.ports == 0 && x.nodeCount == 0 && x.queueCount == 0 && x.polCount == 0))
  if ok then some ss else none

/-- ROLE, MODE and TREES of a PROTECTION payload (R435); no section gives no protection. -/
def decodeProt (b : Option (List Byte)) (mask : Nat) : Option (Nat × Nat × Nat) :=
  match b with
  | none => some (0, 0, 0)
  | some b =>
    let ok := b.length == 16 && decide (1 ≤ leAt b 0 1 ∧ leAt b 0 1 ≤ 2) && decide (1 ≤ leAt b 1 1 ∧ leAt b 1 1 ≤ 2) &&
      leAt b 2 6 == 0 && (List.range 64).all fun t => !bit (leAt b 8 8) t || bit mask (t / 8)
    if ok then some (leAt b 0 1, leAt b 1 1, leAt b 8 8) else none

/-- The address and value pairs of the BOOT_DEFAULTS sections, 8 bytes each (R40; log entry 9). -/
def Img.defaults (m : Img) : List (Nat × Nat) :=
  ((m.payloads 0x200).map fun b => (List.range (b.length / 8)).map fun i => (leAt b (8 * i) 4, leAt b (8 * i + 4) 4)).flatten

/-- The registers that the REACH_r payloads of an image set. -/
def Img.reachRegs (m : Img) : List (Nat × Nat) :=
  ((List.range 8).map fun r => match m.payload (0x100 + r) with
    | some b => Config.imageReachRegs b
    | none => []).flatten

/-- The only island frequencies that stepping A1 supports, in Hz (R21): pipelines, HBM controller, DDR5 controllers, uplink MACs, mate
link, timebase, management. The reach clock, 622,080,000 Hz, is not set by the image. -/
def islandHz : List Nat := [1250000000, 1800000000, 1600000000, 1328125000, 664062500, 781250000, 1600000000]

/-- The structure of a full image, or the code 0x08 with its section (R42). -/
def decodeStructure (m : Img) : Except LoadErr Structure :=
  match sectionsFault m with
  | some t => .error (0x08, t)
  | none =>
    let p (t : Nat) : List Byte := (m.payload t).getD []
    let trees := decodeTrees m
    let pipes := Config.imagePipes (p 4)
    if Config.imageIslands (p 1) ≠ islandHz then .error (0x08, 1)
    else
      match decodePorts (p 3) with
      | none => .error (0x08, 3)
      | some ports =>
        if !pipesOk pipes trees ports then .error (0x08, 4)
        else
          match decodeCarve (p 5) with
          | none => .error (0x08, 5)
          | some carve =>
            match decodePools (p 6) with
            | none => .error (0x08, 6)
            | some (cap, ranks, pools) =>
              match decodeSlices (p 7) m.reachMask carve with
              | none => .error (0x08, 7)
              | some slices =>
                match decodeProt (m.payload 8) m.reachMask with
                | none => .error (0x08, 8)
                | some (role, mode, prot) =>
                  .ok { reachMask := m.reachMask, trees := trees, ports := ports, pipeReach := pipes.take 8
                        pipePort := (pipes.drop 8).take 12, pipeInject := pipes.getD 20 0, pipeRecirc := pipes.getD 21 0
                        carve := carve, ddrGiB := cap, ddrRanks := ranks, pools := pools, slices := slices, role := role
                        mode := mode, protTrees := prot, mateLanes := mode == 1 }

/-! ### The checks in order (R42) -/

/-- The checks up to the section table, common to every image (R42 codes 0x01 to 0x07, 0x0C). -/
def checkImage (u : ImgUse) (f : Fuses) (s : ImgSrc) : Except LoadErr Img :=
  match checkHeader u f s with
  | .error e => .error e
  | .ok h =>
    let total := leAt h 24 4
    if s.fault = 2 then .error (0x0C, 0)
    else
      let sg := s.mem.readN (s.base + (total - 208)) 208
      match checkKey f sg with
      | .error e => .error e
      | .ok () =>
        if s.fault = 3 then .error (0x0C, 0)
        else
          let bs := s.mem.readN s.base (total - 208)
          if !signatureOk bs sg then .error (0x05, 0)
          else if s.fault = 4 then .error (0x0C, 0)
          else if leAt h 28 4 < f.security then .error (0x06, 0)
          else if s.fault = 5 then .error (0x0C, 0)
          else
            let ss := (List.range (leAt h 15 1)).map (sectionAt bs)
            match firstBad u ss total bs with
            | some t => .error (0x07, t)
            | none =>
              .ok ⟨leAt h 14 1, leAt h 16 8, leAt h 28 4, sub h 32 16, ss.map fun x => (x, sub bs x.off x.len)⟩

/-- A full image and the structure it defines (R42). -/
def loadFull (f : Fuses) (s : ImgSrc) : Except LoadErr (Img × Structure) :=
  match checkImage .full f s with
  | .error e => .error e
  | .ok m =>
    if s.fault = 6 then .error (0x0C, 0)
    else
      match decodeStructure m with
      | .error e => .error e
      | .ok t => if m.structId ≠ m.computedId then .error (0x09, 0) else .ok (m, t)

/-- The windows that a reach image's BOOT_DEFAULTS may address (R52): the reach's window, and the PT and PB lane windows of its
trees. -/
def reachWindow (r a : Nat) : Bool :=
  decide (0x1000000 + 0x100000 * r ≤ a ∧ a < 0x1100000 + 0x100000 * r) ||
    decide (0x400000 + 0x20000 * r ≤ a ∧ a < 0x420000 + 0x20000 * r) || decide (0x500000 + 0x20000 * r ≤ a ∧ a < 0x520000 + 0x20000 * r)

/-- A reach image for reach r on the running STRUCTURE_ID (R52); the header's bytes 48 to 63 hold BASE_STRUCTURE_ID. -/
def loadReach (f : Fuses) (s : ImgSrc) (r : Nat) (running : List Byte) : Except LoadErr Img :=
  match checkImage (.reach r) f s with
  | .error e => .error e
  | .ok m =>
    if s.fault = 6 then .error (0x0C, 0)
    else if m.reachMask ≠ 2 ^ r then .error (0x08, 0)
    else
      match m.sections.find? fun x => structural x.1 && x.1.typ != 0x100 + r with
      | some x => .error (0x08, x.1.typ)
      | none =>
        match (m.payloads (0x100 + r)).length with
        | 0 => .error (0x08, 0)
        | 1 =>
          if m.defaults.any fun x => !reachWindow r x.1 then .error (0x08, 0x200)
          else if s.mem.readN (s.base + 48) 16 ≠ running then .error (0x09, 0)
          else .ok m
        | _ => .error (0x08, 0x100 + r)

/-- A firmware container (R504). -/
def loadFirmware (f : Fuses) (s : ImgSrc) : Except LoadErr Img := checkImage .firmware f s

end Sys2Proof.Machine
end

