-- ==== Sys2Proof/Machine/Ops.lean ====
section
/-! DEFINITION. The named operations over registers, flags, counters, records and command windows that every family uses. -/

namespace Sys2Proof.Machine

/-! ### Order -/

/-- An element put into an ordered list, in front of the first that it may precede. -/
def insertBy {α : Type} (le : α → α → Bool) (x : α) : List α → List α
  | [] => [x]
  | y :: ys => if le x y then x :: y :: ys else y :: insertBy le x ys
/-- A list in order; equal elements keep the order in which they stand. -/
def sortBy {α : Type} (le : α → α → Bool) (l : List α) : List α := l.foldr (insertBy le) []

/-! ### Block updates -/

/-- The timebase changed by f. -/
def Dev.onTb (d : Dev) (f : TbState → TbState) : Dev := { d with tb := f d.tb }
/-- The management complex changed by f. -/
def Dev.onMc (d : Dev) (f : McState → McState) : Dev := { d with mc := f d.mc }
/-- Observability changed by f. -/
def Dev.onOb (d : Dev) (f : ObState → ObState) : Dev := { d with ob := f d.ob }
/-- Image and control changed by f. -/
def Dev.onIm (d : Dev) (f : ImState → ImState) : Dev := { d with im := f d.im }

/-- The lanes changed by f. -/
def Dev.onLx (d : Dev) (f : LxState → LxState) : Dev := { d with lx := f d.lx }
/-- Framing, ranging and scheduling changed by f. -/
def Dev.onRx (d : Dev) (f : RxState → RxState) : Dev := { d with rx := f d.rx }
/-- The parser and classifier changed by f. -/
def Dev.onPc (d : Dev) (f : PcState → PcState) : Dev := { d with pc := f d.pc }
/-- The flow store changed by f. -/
def Dev.onFs (d : Dev) (f : FsState → FsState) : Dev := { d with fs := f d.fs }
/-- The traffic manager changed by f. -/
def Dev.onTm (d : Dev) (f : TmState → TmState) : Dev := { d with tm := f d.tm }
/-- The buffer pools changed by f. -/
def Dev.onBp (d : Dev) (f : BpState → BpState) : Dev := { d with bp := f d.bp }
/-- The cipher engine changed by f. -/
def Dev.onCe (d : Dev) (f : CeState → CeState) : Dev := { d with ce := f d.ce }
/-- The uplink ports changed by f. -/
def Dev.onUl (d : Dev) (f : UlState → UlState) : Dev := { d with ul := f d.ul }
/-- The protection unit changed by f. -/
def Dev.onPx (d : Dev) (f : PxState → PxState) : Dev := { d with px := f d.px }

/-- f at every number below n, in rising order. -/
def upTo {α : Type} (n : Nat) (a : α) (f : Nat → α → α) : α := (List.range n).foldl (fun x i => f i x) a

/-! ### The register file (R7, R10, R11) -/

/-- The value a register holds. -/
def Dev.reg (d : Dev) (r : Reg) : Nat :=
  match d.regs.get? r.addr with
  | some v => v.toNat
  | none => r.reset

/-- A register set to a value; a register at its value after PORST_N is not listed. -/
def Dev.setReg (d : Dev) (r : Reg) (v : Nat) : Dev :=
  { d with regs := d.regs.put (BitVec.ofNat 32 r.reset) r.addr (BitVec.ofNat 32 v) }

/-- Bits hi to lo of a register. -/
def Dev.fld (d : Dev) (r : Reg) (hi lo : Nat) : Nat := bits (d.reg r) hi lo

/-- Bit i of a register. -/
def Dev.flag (d : Dev) (r : Reg) (i : Nat) : Bool := bit (d.reg r) i

/-- A field written by hardware. -/
def Dev.setFld (d : Dev) (r : Reg) (hi lo v : Nat) : Dev := d.setReg r (putBits (d.reg r) hi lo v)

/-- A register returned to its value after PORST_N. -/
def Dev.resetReg (d : Dev) (r : Reg) : Dev := { d with regs := d.regs.erase r.addr }

/-! ### Event counters (R527, R528, R530) -/

/-- The fixed counter of event e grown by n, modulo 2^48, without the overflow report; the flag says that it wrapped. -/
def Dev.cntAdd (d : Dev) (e n : Nat) : Dev × Bool :=
  if e < 0x800 then
    let v := d.ob.cnt.getD e 0 + n
    (d.onOb fun o => { o with cnt := o.cnt.put 0 e (v % 2 ^ 48) }, decide (2 ^ 48 ≤ v))
  else (d, false)

/-- A listed register is the configuration of a programmable counter that counts event e (R530). -/
def pcntHit (e : Nat) (kv : Nat × RegWord) : Bool :=
  decide (0x100200 ≤ kv.1 ∧ kv.1 < 0x100300) && bit kv.2.toNat 31 && bits kv.2.toNat 11 0 == e

/-- The events of level-set flags (R68, R528), each with its island's clock in cycles per tick (R21; a tick is that of TIMEBASE):
THERM_WARN, FRAME_DRIFT, PHASE_BAD, STASH_HIGH, RANGE_WAIT, COOP_TABLE_FULL and SKEW_EXCEEDED. -/
def levelClock (e : Nat) : Option (Nat × Nat) :=
  if e = 7 then some (256, 125)
  else if e = 0x74 then some (1, 1)
  else if e = 0x83 then some (17, 20)
  else if e = 0xC2 then some (8, 5)
  else if 0x140 ≤ e ∧ e < 0x340 ∧ ((e - 0x140) % 64 = 26 ∨ (e - 0x140) % 64 = 32) then some (622080, 781250)
  else if 0x800 ≤ e ∧ e < 0x900 ∧ e % 16 = 5 then (if e < 0x8C0 then some (17, 10) else some (17, 20))
  else none

/-- What n occurrences in m cycles add to a programmable counter: in MODE 0 all of them, in MODE 1 one for each cycle (R530). In MODE 1 a
level event adds its cycles elsewhere (`Dev.levelTime`). -/
def pcntInc (n m w : Nat) : Nat := if bit w 30 then (if (levelClock (bits w 11 0)).isSome then 0 else m) else n

/-- One programmable counter grown by n; one that wraps sets OVF and PCNT_OVF (R530). -/
def Dev.pcntGrow (d : Dev) (k n : Nat) : Dev :=
  let v := d.ob.pcnt.getD k 0 + n
  let d := d.onOb fun o => { o with pcnt := o.pcnt.put 0 k (v % 2 ^ 48) }
  if 2 ^ 48 ≤ v then (d.setFld (R .OB_PCNT_CFG k) 29 29 1).setFld (R .OB_FLAGS) 5 5 1 else d

/-- n occurrences in m cycles at one programmable counter (R530). -/
def Dev.pcntStep (n m : Nat) (d : Dev) (kv : Nat × RegWord) : Dev := d.pcntGrow ((kv.1 - 0x100200) / 4) (pcntInc n m kv.2.toNat)

/-- The programmable counters that count event e grown by n occurrences in m cycles (R530). -/
def Dev.pcntAdd (d : Dev) (e n m : Nat) : Dev := (d.regs.filter (pcntHit e)).foldl (Dev.pcntStep n m) d

/-- How many programmable counters that count event e wrap on n occurrences in m cycles (R530). -/
def Dev.pcntWraps (d : Dev) (e n m : Nat) : Nat :=
  ((d.regs.filter (pcntHit e)).filter fun kv =>
    decide (2 ^ 48 ≤ d.ob.pcnt.getD ((kv.1 - 0x100200) / 4) 0 + pcntInc n m kv.2.toNat)).length

/-- Event e adds n to its fixed counter and p occurrences in m cycles to the programmable counters: a wrap of the fixed one sets its overflow
bit and CNT_OVF, one of a programmable one sets OVF and PCNT_OVF (R527, R530), and these flags are events themselves (R528). The fuel
bounds the wraps of one occurrence: a counter that has wrapped does not wrap again. -/
def Dev.countBy : Nat → Dev → Nat → Nat → Nat → Nat → Dev
  | 0, d, _, _, _, _ => d
  | k + 1, d, e, n, p, m =>
    if p = 0 then d
    else
      let (d1, w) := d.cntAdd e n
      let d2 := d1.pcntAdd e p m
      let d3 := if w then
          Dev.countBy k ((d2.setFld (R .OB_CNT_OVF (e / 32)) (e % 32) (e % 32) 1).setFld (R .OB_FLAGS) 4 4 1) 0x44 1 1 1
        else d2
      Dev.countBy k d3 0x45 (d.pcntWraps e p m) (d.pcntWraps e p m) (min 1 (d.pcntWraps e p m))

/-- n occurrences of event e in one cycle (R527, R530). -/
def Dev.countN (d : Dev) (e n : Nat) : Dev := Dev.countBy 68 d e n n (min n 1)

/-- n occurrences of event e, each in a cycle of its own (R527, R530). -/
def Dev.countEach (d : Dev) (e n : Nat) : Dev := Dev.countBy 68 d e n n n

/-- One occurrence of event e. -/
def Dev.count (d : Dev) (e : Nat) : Dev := d.countN e 1

/-- A byte event: the fixed counter adds the bytes, the programmable ones the packet (R527, R530). -/
def Dev.countBytes (d : Dev) (e n : Nat) : Dev := Dev.countBy 68 d e n 1 1

/-- The event number of bit b of a flag register (R528). -/
def flagEvent (r : Reg) (b : Nat) : Option Nat :=
  match r.name with
  | .MC_FLAGS => some b
  | .IM_FLAGS => some (0x20 + b)
  | .OB_FLAGS => some (0x40 + b)
  | .TB_FLAGS => some (0x60 + b)
  | .PX_FLAGS => some (0x80 + b)
  | .PC_FLAGS => some (0xA0 + b)
  | .FS_FLAGS => some (0xC0 + b)
  | .TM_FLAGS => some (0xE0 + b)
  | .BP_FLAGS => some (0x100 + b)
  | .CE_FLAGS => some (0x120 + b)
  | .TF_FLAGS => some (0x140 + 64 * (r.i / 8) + b)
  | .RG_FLAGS => some (0x140 + 64 * (r.i / 8) + 10 + b)
  | .GS_FLAGS => some (0x140 + 64 * (r.i / 8) + 20 + b)
  | .GS_RFLAGS => some (0x140 + 64 * r.i + 29 + b)
  | .LX_UL_FLAGS => some (0x800 + 16 * r.i + b)
  | .LX_ML_FLAGS => some (0x800 + 16 * (12 + r.i) + b)
  | .LX_PT_FLAGS => if b = 4 then some (0x900 + 4 * r.i) else if b = 12 then some (0x900 + 4 * r.i + 1) else none
  | .LX_PB_FLAGS =>
    if b = 8 then some (0x900 + 4 * r.i + 2) else if b = 10 then some (0x900 + 4 * r.i + 3)
    else if b = 11 then some (0x340 + 6 * r.i + 5) else if b = 12 then some (0x900 + 4 * r.i + 1) else none
  | .UL_FLAGS => some (0xA00 + 16 * r.i + b)
  | .UL_LAG_FLAGS => some (0xAC0 + 4 * r.i + b)
  | _ => none

/-- An edge-set flag sets: the bit reads 1 and the occurrence is counted (R68). -/
def Dev.raise (d : Dev) (r : Reg) (b : Nat) : Dev :=
  let d := d.setFld r b b 1
  match flagEvent r b with
  | some e => d.count e
  | none => d

/-- A level-set flag while its condition holds: the bit sets, and the start of the condition counts as one occurrence
(R68). -/
def Dev.raiseLevel (d : Dev) (r : Reg) (b : Nat) (starts : Bool) : Dev :=
  if starts then d.raise r b else d.setFld r b b 1

/-- The flag sets when a condition holds. -/
def Dev.raiseIf (d : Dev) (c : Bool) (r : Reg) (b : Nat) : Dev := if c then d.raise r b else d

/-! ### Time of day (R405) -/

/-- The integer nanoseconds of C (R403). -/
def Dev.now (d : Dev) : Nat := d.tb.c / 2 ^ 40

/-- The seconds of the time of day, in 48 bits (R405). -/
def Dev.todS (d : Dev) : Nat := d.now / 1000000000 % 2 ^ 48

/-- The nanoseconds of the time of day (R405). -/
def Dev.todNs (d : Dev) : Nat := d.now % 1000000000

/-- The 16 ns tick counter of R275 and R294, carried by the timebase ticks of 1.28 ns (log entry 5). -/
def Dev.tick16 (d : Dev) : Nat := d.tb.ticks * 2 / 25

/-! ### Records (R514 to R524) -/

/-- The SOURCE codes of R514. -/
inductive RSrc where
  | mc | ob | tb | px | lx | im | tf | rg | gs | pc | fs | tm | bp | ce | ul | fw | host
  deriving DecidableEq, Repr

/-- The code of a record's SOURCE (R514). -/
def RSrc.code : RSrc → Nat
  | .mc => 0 | .ob => 1 | .tb => 2 | .px => 3 | .lx => 4 | .im => 5 | .tf => 6 | .rg => 7 | .gs => 8
  | .pc => 9 | .fs => 10 | .tm => 11 | .bp => 12 | .ce => 13 | .ul => 14 | .fw => 15 | .host => 16

/-- A record body from fields of given byte widths, padded to 16 bytes and to a multiple of 8 (R516). -/
def recBody (fs : List (Nat × Nat)) : List Byte :=
  let b := (fs.map fun f => leBytes f.1 f.2).flatten
  b ++ List.replicate (max 16 (up8 b.length) - b.length) 0

/-- The length of a record in bytes (R514). -/
def Rec.len (r : Rec) : Nat := 32 + r.body.length

/-- A fault record carries FAULT (R518). -/
def Rec.fault (r : Rec) : Bool := bit r.flags 0

/-- The bytes of a record with a given MARK and CRC (R514). -/
def Rec.raw (r : Rec) (mark crc : Nat) : List Byte :=
  leBytes 2 r.len ++ leBytes 2 r.typ ++ leBytes 1 r.src ++ leBytes 1 r.inst ++ leBytes 1 r.flags ++ leBytes 1 mark ++
  leBytes 4 r.seq ++ leBytes 2 r.cycle ++ leBytes 6 r.todS ++ leBytes 4 r.todNs ++ leBytes 4 r.opSec ++ leBytes 4 crc ++
  r.body

/-- The bytes of a marked record: MARK 0x5A, CRC over the record with MARK and CRC taken as zero (R514). -/
def Rec.bytes (r : Rec) : List Byte := r.raw 0x5A (crc32c (r.raw 0 0))

/-- Bytes in staging. -/
def ObState.stagedBytes (o : ObState) : Nat := (o.staging.map Rec.len).foldl (· + ·) 0

/-- The loss account with one more SEQ discarded (R522). -/
def addLoss (l : Option Loss) (seq : Nat) : Option Loss :=
  match l with
  | none => some ⟨seq, seq, 1⟩
  | some x => some ⟨x.first, seq, x.count + 1⟩

/-- The list without its first ordinary record, and that record's SEQ (R522). -/
def dropOrdinary : List Rec → Option (Nat × List Rec)
  | [] => none
  | r :: rs =>
    if r.fault then
      match dropOrdinary rs with
      | some (q, rs') => some (q, r :: rs')
      | none => none
    else some (r.seq, rs)

/-- Staging with room made for n bytes: the oldest ordinary records are displaced, each counted lost (R522). The fuel is the
number of staged records. -/
def makeRoom : Nat → Nat → ObState → ObState × Nat
  | 0, _, o => (o, 0)
  | k + 1, n, o =>
    if o.stagedBytes + n ≤ 65536 then (o, 0)
    else
      match dropOrdinary o.staging with
      | none => (o, 0)
      | some (q, rest) =>
        let (o', m) := makeRoom k n
          { o with staging := rest, lost := min (o.lost + 1) 0xFFFFFFFF, loss := addLoss o.loss q }
        (o', m + 1)

/-- The LOSS record that accounts for the discarded records enters staging as soon as there is room and ordinary records are
accepted (R517, R522, R523). It takes the times of the record made last. -/
def ObState.lossIn (o : ObState) (r : Rec) : ObState :=
  match o.loss with
  | some l =>
    if o.pwrFail ∨ 65536 < o.stagedBytes + 48 then o
    else
      let x : Rec := { r with typ := 5, src := RSrc.ob.code, inst := 0, flags := 4 * bits r.flags 4 2, seq := o.nextSeq
                              body := recBody [(4, l.first), (4, l.last), (4, l.count), (1, 0)] }
      { o with staging := o.staging ++ [x], nextSeq := (o.nextSeq + 1) % 2 ^ 32, loss := none }
  | none => o

/-- A record enters staging, or is discarded at once when staging is full of fault records (R515, R522); then the LOSS record where
one is due. Behind a fall of PWRFAIL_N nothing is displaced: a fault record enters while there is room (R523). -/
def Dev.stage (d : Dev) (r : Rec) : Dev :=
  let (o, m) := makeRoom (if d.ob.pwrFail then 0 else d.ob.staging.length) r.len d.ob
  let d := { d with ob := { o with nextSeq := (o.nextSeq + 1) % 2 ^ 32 } }
  let d := upTo m d fun _ d => d.raise (R .OB_FLAGS) 1
  if o.stagedBytes + r.len ≤ 65536 then d.onOb fun o => { o with staging := o.staging ++ [r] }.lossIn r
  else
    ((d.onOb fun o => { o with lost := min (o.lost + 1) 0xFFFFFFFF, loss := addLoss o.loss r.seq }).raise (R .OB_FLAGS) 1).onOb fun o =>
      o.lossIn r

/-- A record is made (R514, R515): header filled now, fault records accepted in power fail and ordinary ones not (R523). With the
memory failed, a fault record is also for the mate (R524). -/
def Dev.makeRec (d : Dev) (typ src inst : Nat) (fault mate : Bool) (body : List Byte) : Dev :=
  if d.ob.pwrFail && !fault then d
  else
    let flags := b2n fault + 2 * b2n d.ob.stepped + 4 * d.fld (R .TB_STATUS) 31 30 + 16 * b2n d.ob.todUnset + 32 * b2n mate
    let r : Rec := ⟨typ, src, inst, flags, d.ob.nextSeq, d.ob.cycle, d.todS, d.todNs, d.ob.opSec, body, d.tb.ticks⟩
    ((d.onOb fun o => { o with stepped := false }).stage r).onOb fun o =>
      if o.failed && fault then { o with toMate := o.toMate ++ [r.bytes] } else o

/-- A record of event e (R516), with its fields' byte widths and values. -/
def Dev.record (d : Dev) (e : Nat) (s : RSrc) (inst : Nat) (fault : Bool) (fs : List (Nat × Nat)) : Dev :=
  d.makeRec (0x1000 + e) s.code inst fault false (recBody fs)

/-- A flag that sets and is recorded: the record takes the TYPE of the flag's event (R516). -/
def Dev.raiseRec (d : Dev) (r : Reg) (b : Nat) (s : RSrc) (inst : Nat) (fault : Bool) (fs : List (Nat × Nat)) : Dev :=
  let d := d.raise r b
  match flagEvent r b with
  | some e => d.record e s inst fault fs
  | none => d

/-! ### Sources (R53, R56, R71) -/

/-- The number of a source's bank, in the order of R56. -/
def bankOf : Src → Nat
  | .pf0 => 0
  | .vf n => 1 + n
  | .core c => 17 + c
  | .dma c => 17 + c

/-- The slice of a VF source. -/
def sliceOf? : Src → Option Nat
  | .vf n => some n
  | _ => none

/-- PF0 and the cores, with their DMA channels (R53). -/
def trusted : Src → Bool
  | .vf _ => false
  | _ => true

/-- The scratchpad and source port of R71 and R473. -/
def portOf : Src → Nat
  | .core c => c
  | .dma _ => 4
  | _ => 14

/-! ### Structure queries (R14, R17, R37, R43, R491) -/

/-- Slice s of the image (R491). -/
def Dev.slice (d : Dev) (s : Nat) : SliceDef := d.im.str.slices.getD s ⟨0, 0, false, 0, 0, 0, 0, 0, 0⟩

/-- Reach r exists in the image (R17). -/
def Dev.reachExists (d : Dev) (r : Nat) : Bool := decide (r < 8) && bit d.im.str.reachMask r

/-- Tree t exists: its reach does (R14, R17). -/
def Dev.treeExists (d : Dev) (t : Nat) : Bool := decide (t < 64) && d.reachExists (t / 8)

/-- Reach r's state (R50). -/
def Dev.reach (d : Dev) (r : Nat) : Reach := d.im.reaches.getD r Reach.rest

/-- Reach r changed by f. -/
def Dev.onReach (d : Dev) (r : Nat) (f : Reach → Reach) : Dev :=
  d.onIm fun m => { m with reaches := m.reaches.put Reach.rest r (f (m.reaches.getD r Reach.rest)) }

/-- Tree t belongs to slice s (R491). -/
def Dev.treeInSlice (d : Dev) (t s : Nat) : Bool := bit (d.slice s).trees t

/-- The slice of a tree (R492: exactly one). -/
def Dev.sliceOfTree (d : Dev) (t : Nat) : Nat := ((List.range 16).find? fun s => d.treeInSlice t s).getD 0

/-- The slices that name uplink port u (R491). -/
def Dev.slicesOfPort (d : Dev) (u : Nat) : List Nat := (List.range 16).filter fun s => bit (d.slice s).ports u

/-- The port belongs to slice s: exactly one slice names it (R491). -/
def Dev.portInSlice (d : Dev) (u s : Nat) : Bool := d.slicesOfPort u == [s]

/-- Table 0 to 5's units of the carve (R43). -/
def Dev.units (d : Dev) (n : Nat) : Nat := d.im.str.carve.getD n 0

/-- Entry counts of the carved tables (R43): maximum count times units over maximum units. -/
def Dev.nPolicers (d : Dev) : Nat := 1048576 * d.units 1 / 64
def Dev.nQueues (d : Dev) : Nat := min (524288 * d.units 2 / 64) (524288 * d.units 3 / 48)
def Dev.nNodes (d : Dev) : Nat := 65536 * d.units 3 / 48
def Dev.nStatSets (d : Dev) : Nat := (d.units 5 - 17) * 4096

/-- The slice that owns a number of a range kind, if any (R491). -/
def ownerIn (sl : List SliceDef) (first count : SliceDef → Nat) (n : Nat) : Option Nat :=
  (List.range 16).find? fun s =>
    match sl[s]? with
    | some x => decide (first x ≤ n ∧ n < first x + count x)
    | none => false
def Dev.sliceOfQueue (d : Dev) (q : Nat) : Option Nat := ownerIn d.im.str.slices (·.queueFirst) (·.queueCount) q
def Dev.sliceOfNode (d : Dev) (n : Nat) : Option Nat := ownerIn d.im.str.slices (·.nodeFirst) (·.nodeCount) n
def Dev.sliceOfPolicer (d : Dev) (n : Nat) : Option Nat := ownerIn d.im.str.slices (·.polFirst) (·.polCount) n

/-- The uplink port whose lowest lane is u (R379). -/
def Dev.portDef (d : Dev) (u : Nat) : Option PortDef := d.im.str.ports.find? fun p => p.lane == u

/-- The uplink port that lane u belongs to. -/
def Dev.portOfLane (d : Dev) (u : Nat) : Option PortDef :=
  d.im.str.ports.find? fun p => decide (p.lane ≤ u ∧ u < p.lane + p.lanes)

/-! ### Command windows (R53 to R59, R571) -/

/-- The status codes of R57. -/
inductive Status where
  | ok | notInState | badArgument | tableFull | notFound | busy | denied | memoryFault
  deriving DecidableEq, Repr

/-- The code of a status (R57). -/
def Status.code : Status → Nat
  | .ok => 0 | .notInState => 1 | .badArgument => 2 | .tableFull => 3 | .notFound => 4 | .busy => 5 | .denied => 6
  | .memoryFault => 7

/-- The command windows of the device. -/
inductive Win where
  | im | upd | ob | tb | px | pc | fs | tm | bp | ce
  | tf (r : Nat) | rg (r : Nat) | gs (t : Nat)
  deriving DecidableEq, Repr

/-- The base address of a window (R59, R149, R192, R230, R260, R282, R314, R348, R378, R434, R469, R505, R539). -/
def Win.base : Win → Nat
  | .im => 0x800100 | .upd => 0x100 | .ob => 0x100100 | .tb => 0x200800 | .px => 0x300200 | .pc => 0x1800100
  | .fs => 0x1C00100 | .tm => 0x2000500 | .bp => 0x2800100 | .ce => 0x3001000
  | .tf r => 0x10C0100 + 0x100000 * r | .rg r => 0x10C0200 + 0x100000 * r | .gs t => treeBase t + 0x80040

/-- The record source and instance of a window. -/
def Win.rsrc : Win → RSrc × Nat
  | .im => (.im, 0) | .upd => (.mc, 0) | .ob => (.ob, 0) | .tb => (.tb, 0) | .px => (.px, 0) | .pc => (.pc, 0)
  | .fs => (.fs, 0) | .tm => (.tm, 0) | .bp => (.bp, 0) | .ce => (.ce, 0)
  | .tf r => (.tf, r) | .rg r => (.rg, r) | .gs t => (.gs, t)

/-- The window of a base address, for the queue that settles completed commands. -/
def Win.ofBase (a : Nat) : Option Win :=
  [Win.im, .upd, .ob, .tb, .px, .pc, .fs, .tm, .bp, .ce].find? (fun w => w.base == a) <|>
  ((List.range 8).find? fun r => (Win.tf r).base == a).map Win.tf <|>
  ((List.range 8).find? fun r => (Win.rg r).base == a).map Win.rg <|>
  ((List.range 64).find? fun t => (Win.gs t).base == a).map Win.gs

/-- The outcome of running a command: refused with no side effect on any object (R58), done with results written into _DATA
words, waiting for the event that completes it, or ended by a reset with no completion written (R60). A refusal carries the
object's state for its record. -/
inductive CmdRes where
  | refuse (st : Status) (obj : Nat)
  | refuseAt (d : Dev) (st : Status) (obj : Nat)
  | done (d : Dev) (st : Status) (out : List (Nat × Nat))
  | wait (d : Dev)
  | reset (d : Dev)

/-- Results written over _DATA words. -/
def putData (data : List Nat) (out : List (Nat × Nat)) : List Nat := out.foldl (fun l kv => l.set kv.1 (kv.2 % 2 ^ 32)) data

/-- A window. -/
def Dev.win (d : Dev) (w : Win) : Window := d.wins.getD w.base Window.rest

/-- A window changed by f. -/
def Dev.onWin (d : Dev) (w : Win) (f : Window → Window) : Dev := { d with wins := d.wins.set w.base (f (d.win w)) }

/-- A source's bank of a window. -/
def Window.bank (x : Window) (k : Nat) : Bank := x.banks.getD k Bank.rest

/-- A bank of a window changed by f. -/
def Window.onBank (x : Window) (k : Nat) (f : Bank → Bank) : Window := { x with banks := x.banks.set k (f (x.bank k)) }

/-- The report of a refusal (R58, R528): its counter, and for NOT_IN_STATE and DENIED its record; an IM_CMD command that so
ends sets CMD_REJECT (R63). -/
def Dev.reportRefusal (d : Dev) (w : Win) (a : Accepted) (st : Status) (obj : Nat) : Dev :=
  let fs := [(4, w.base), (1, a.opcode), (1, a.seq), (4, a.obj), (1, st.code), (1, (bankOf a.src)), (1, obj)]
  let im (d : Dev) : Dev := if w = .im then d.raise (R .IM_FLAGS) 4 else d
  match st with
  | .notInState => im ((d.count 0x19).record 0x19 w.rsrc.1 w.rsrc.2 false fs)
  | .denied => im ((d.count 0x1A).record 0x1A w.rsrc.1 w.rsrc.2 false fs)
  | .badArgument => d.count 0x1B
  | .busy => d.count 0x1C
  | _ => d

/-- Completion of the running command of a window (R56): results, STATUS, DONE, BUSY clear, and the command leaves the queue.
Results of a command whose bank was reset are discarded (R487). -/
def Dev.complete (d : Dev) (w : Win) (a : Accepted) (st : Status) (out : List (Nat × Nat)) : Dev :=
  d.onWin w fun x =>
    let x := { x with queue := x.queue.drop 1, waiting := false }
    if a.drop then x
    else x.onBank (bankOf a.src) fun b =>
      { b with data := putData b.data out, busy := false, done := true, status := st.code }

/-- A refused command completes with its code and is reported (R57, R58). -/
def Dev.finish (d : Dev) (w : Win) (a : Accepted) (r : CmdRes) : Dev :=
  match r with
  | .refuse st obj => (d.complete w a st []).reportRefusal w a st obj
  | .refuseAt d st obj => (d.complete w a st []).reportRefusal w a st obj
  | .done d st out => (d.complete w a st out).reportRefusal w a st 0
  | .wait d => d.onWin w fun x => { x with waiting := true }
  | .reset d => d

/-- The running command of a window, if it waits for an event and has the given opcode. -/
def Dev.waitingCmd (d : Dev) (w : Win) (opcode : Nat) : Option Accepted :=
  if (d.win w).waiting then
    match (d.win w).queue with
    | a :: _ => if a.opcode = opcode then some a else none
    | [] => none
  else none

/-- The event that a waiting command of a window waits for completes it; the window is then settled. -/
def Dev.completeWaiting (d : Dev) (w : Win) (opcode : Nat) (st : Status) (out : List (Nat × Nat)) : Dev :=
  match d.waitingCmd w opcode with
  | some a => { d.complete w a st out with kicks := d.kicks ++ [w.base] }
  | none => d

/-- As `completeWaiting`, for a completion that R58 calls a refusal. -/
def Dev.refuseWaiting (d : Dev) (w : Win) (opcode : Nat) (st : Status) (obj : Nat) : Dev :=
  match d.waitingCmd w opcode with
  | some a => { (d.complete w a st []).reportRefusal w a st obj with kicks := d.kicks ++ [w.base] }
  | none => d

/-- The configuration refusal of a block's register write: the block's CFG_REFUSED flag sets and the event is counted (R68).
Only the lane refusals of R99 are recorded as well; they are `Dev.laneRefused`. -/
def Dev.cfgRefused (d : Dev) (flags : Reg) (b : Nat) : Dev := d.raise flags b

/-- A write that would step outside the structure (R38): STRUCT_WRITE_REJECT, the address, the count and the record. -/
def Dev.structReject (d : Dev) (r : Reg) (v : Nat) (src : Src) : Dev :=
  (d.setFld (R .IM_STRUCT_REJ_ADDR) 25 0 r.addr).raiseRec (R .IM_FLAGS) 5 .im 0 false
    [(4, r.addr), (4, v), (1, portOf src)]

/-! ### Command arguments and scratchpad reads -/

/-- Word n of the latched _DATA. -/
def Accepted.dat (a : Accepted) (n : Nat) : Nat := a.data.getD n 0

/-- Bits of word n of the latched _DATA. -/
def Accepted.db (a : Accepted) (n hi lo : Nat) : Nat := bits (a.dat n) hi lo

/-- A two-word value of _DATA, low word first. -/
def Accepted.dat64 (a : Accepted) (n : Nat) : Nat := a.dat n + 2 ^ 32 * a.dat (n + 1)

/-- Words of a value as results in _DATA from word n upward. -/
def outWords (n k v : Nat) : List (Nat × Nat) := (List.range k).map fun i => (n + i, v / 2 ^ (32 * i) % 2 ^ 32)

/-- The 32-bit little-endian words of bytes as results in _DATA from word n upward. -/
def outBytes (n k : Nat) (bs : List Byte) : List (Nat × Nat) := (List.range k).map fun i => (n + i, leAt bs (4 * i) 4)

/-- The scratchpad aperture of VF s (R485, R510): its base, when EN = 1. -/
def Dev.aperture (d : Dev) (s : Nat) : Option Nat :=
  if d.flag (R .MC_VF_SP s) 31 then some (d.fld (R .MC_VF_SP s) 21 16 * 65536) else none

/-- Scratchpad bytes a to a + n lie in the aperture of VF s. -/
def Dev.inAperture (d : Dev) (s a n : Nat) : Bool :=
  match d.aperture s with
  | some b => decide (b ≤ a ∧ a + n ≤ b + 65536)
  | none => false

/-- A read of n scratchpad bytes meets an uncorrectable word (R477). -/
def Dev.spFault (d : Dev) (a n : Nat) : Bool := d.mc.scratchUe.any fun w => decide (8 * w < a + n ∧ a < 8 * w + 8)

/-- The byte address of the first word with an uncorrectable error among n scratchpad bytes (R477). -/
def Dev.spBad (d : Dev) (a n : Nat) : Nat :=
  (d.mc.scratchUe.filter fun w => decide (8 * w < a + n ∧ a < 8 * w + 8)).foldl (fun m w => min m (8 * w)) (2 ^ 22)

/-- The report of an uncorrectable scratchpad read: SP_UE and the fault record with address and port (R477, R518). -/
def Dev.spUe (d : Dev) (a port : Nat) : Dev := d.raiseRec (R .MC_FLAGS) 3 .mc 0 true [(4, a), (1, port)]

/-- The scratchpad offset of an address (R473: 4 MiB; log entry 22). -/
def spOff (a : Nat) : Nat := a % 2 ^ 22

/-- Bytes written to the scratchpad by a device engine under its port: a word that is written whole is good again; one with an uncorrectable
error that is written in part stays as it is and is reported (R477); bytes that lost a collision are not written (R475). -/
def Dev.spWrite (d : Dev) (port a : Nat) (bs : List Byte) : Dev :=
  let o := spOff a
  let hit (w : Nat) : Bool := decide (8 * w < o + bs.length ∧ o < 8 * w + 8)
  let whole (w : Nat) : Bool := decide (o ≤ 8 * w ∧ 8 * w + 8 ≤ o + bs.length)
  let torn := d.mc.scratchUe.filter fun w => hit w && !whole w
  let miss := d.mc.spMiss.filter fun x => x.1 == port && hit x.2.1
  let kept (i : Nat) : Bool := torn.contains ((o + i) / 8) || miss.any fun x => x.2.1 == (o + i) / 8 && bit x.2.2 ((o + i) % 8)
  let now := if torn.isEmpty && miss.isEmpty then bs
    else ((List.range bs.length).zip bs).map fun x => if kept x.1 then d.mc.scratch.read (o + x.1) else x.2
  let d := d.onMc fun m => { m with
    scratch := m.scratch.writeL o now
    scratchUe := m.scratchUe.filter fun w => !whole w || miss.any fun x => x.2.1 == w
    spMiss := m.spMiss.filter fun x => !(x.1 == port && hit x.2.1) }
  torn.foldl (fun d w => d.spUe (8 * w) port) d

/-- The last PCI Express completion. -/
def Dev.respond (d : Dev) (c : Completion) : Dev := d.onMc fun m => { m with completion := some c }

/-- An out-of-slice VF access (R486): ABORT in VF_FLAGS, VF_ABORT in MC_FLAGS, the count and the record with the VF, the VF
offset, the PF0 address and the direction; a read completes with Completer Abort, a write is logged in the VF's AER. -/
def Dev.outOfSlice (d : Dev) (s off pf0 : Nat) (write : Bool) : Dev :=
  let d := (d.raise (R .VF_FLAGS s) 3).raiseRec (R .MC_FLAGS) 5 .mc (1 + s) false
    [(1, s), (4, off), (4, pf0), (1, b2n write)]
  if write then d.onMc fun m => { m with aer := m.aer.put 0 s (m.aer.getD s 0 + 1) } else d.respond .abort

/-! ### Data seams (R24) -/

/-- The event number of the stalls of the seam by which a packet reaches its pipeline (R24, R528): from a reach, or from an uplink
port; none for the others. -/
def seamEvent (p : Pkt) : Option Nat :=
  if p.second then none
  else if p.src < 64 then some (0x7C0 + p.src / 8)
  else if p.src < 76 then some (0x7D0 + (p.src - 64))
  else none

/-- The bytes of the packets that wait in a seam. -/
def Dev.seamHeld (d : Dev) (e : Nat) : Nat :=
  ((d.pc.arrivals.filter fun p => seamEvent p == some e).map fun p => p.bytes.length).foldl (· + ·) 0

/-- A seam goes from `before` to `after` bytes (R24): the source that fills it stalls, which counts. -/
def Dev.seamStall (d : Dev) (e before after : Nat) : Dev :=
  if before < after ∧ before ≤ Config.seamDepth e ∧ Config.seamDepth e < after then d.count e else d

/-- A packet comes to the seam of its pipeline (R24): nothing is dropped; the seam that fills stalls its source, which counts, and
what follows waits at the source in the same order (log 80). -/
def Dev.seamIn (d : Dev) (p : Pkt) : Dev :=
  let d1 := d.onPc fun x => { x with arrivals := x.arrivals ++ [p] }
  match seamEvent p with
  | some e => d1.seamStall e (d.seamHeld e) (d1.seamHeld e)
  | none => d1

/-- What a seam to a memory holds now: what it held less what has left it since. -/
def Dev.memSeam (d : Dev) (e : Nat) : Nat :=
  match d.bp.seams.get? e with
  | some x => x.1 - (d.tb.ticks - x.2) * Config.seamDrain e
  | none => 0

/-- n bytes enter a seam to a memory (R24). -/
def Dev.memPut (d : Dev) (e n : Nat) : Dev :=
  (d.onBp fun b => { b with seams := b.seams.set e (d.memSeam e + n, d.tb.ticks) }).seamStall e (d.memSeam e) (d.memSeam e + n)

/-- A seam that holds `held` bytes is full: its source stalls (R24). -/
def seamFull (e held : Nat) : Bool := held != 0 && decide (Config.seamDepth e < held)

end Sys2Proof.Machine
end

