-- ==== Sys2Proof/Machine/Buffers.lean ====
section
/-! DEFINITION. The buffer pools (spec/10): cells, requests under the pool limits, frees and ownership, ECC events, retirement, and
packets in cells. -/

namespace Sys2Proof.Machine

/-! ### Cells (R315, R316) -/

/-- The cells of a tier (0 near, 1 far; R315). -/
def Dev.tierCells (d : Dev) (n : Nat) : Nat := if n = 0 then 67108864 else d.im.str.ddrGiB * 2097152

/-- The reserved region (R318). -/
def reservedCell (n c : Nat) : Bool := n == 1 && decide (c < 40960)

/-- Payload bytes of a cell (R316). -/
def cellRoom (n : Nat) : Nat := if n = 0 then 248 else 2040

/-- The cells of a tier that have been used. -/
def Dev.cells (d : Dev) (n : Nat) : Table Cell := if n = 0 then d.bp.near else d.bp.far

/-- Cell c of tier n. -/
def Dev.cell (d : Dev) (n c : Nat) : Cell := (d.cells n).getD c Cell.rest

/-- Cell c of tier n changed by f. -/
def Dev.onCell (d : Dev) (n c : Nat) (f : Cell → Cell) : Dev :=
  d.onBp fun b =>
    if n = 0 then { b with near := b.near.put Cell.rest c (f (b.near.getD c Cell.rest)) }
    else { b with far := b.far.put Cell.rest c (f (b.far.getD c Cell.rest)) }

/-- The channel of a cell (R316). -/
def cellChannel (n c : Nat) : Nat := if n = 0 then c % 16 else c % 4

/-- Bytes that nothing states: n free values from the counter's place `base` on. -/
def freeBytes (base n : Nat) : List Byte := (List.range n).map fun i => BitVec.ofNat 8 (Config.freeValue (base + i))

/-- n free values taken. -/
def Dev.takeFree (d : Dev) (n : Nat) : Dev := { d with free := d.free + n }

/-! ### ECC events (R334, R335) -/

/-- An ECC event of a cell: counts, flag, log of 64 entries, and for an uncorrectable error the record (R335). Sources: R345. -/
def Dev.eccEvent (d : Dev) (n c : Nat) (ue link : Bool) (source : Nat) : Dev :=
  let k := 16 * n + cellChannel n c
  let d1 := d.onBp fun b => if ue then { b with ue := b.ue.put 0 k (b.ue.getD k 0 + 1) } else { b with ce := b.ce.put 0 k (b.ce.getD k 0 + 1) }
  let d2 := if d1.bp.log.length < 64 then d1.onBp fun b => { b with log := b.log ++ [⟨ue, n, reservedCell n c, link, source, c⟩] }
    else d1.raise (R .BP_FLAGS) 11
  if ue then d2.raiseRec (R .BP_FLAGS) (2 + n) .bp 0 true [(1, n), (4, c), (1, cellChannel n c), (1, source)]
  else d2.raise (R .BP_FLAGS) n

/-- A read of a cell's link word or payload: what ECC reports, and whether it is uncorrectable (R335). -/
def Dev.cellCheck (d : Dev) (n c : Nat) (link : Bool) (source : Nat) : Dev × Bool :=
  let x := d.cell n c
  let e := if link then x.linkErr else x.dataErr
  if e = 1 then (d.eccEvent n c false link source, false)
  else if e = 2 then (d.eccEvent n c true link source, true)
  else (d, false)

/-- A cell changed by a write, with what an armed injection does to it (R348). -/
def Dev.cellPut (d : Dev) (n c : Nat) (f : Cell → Cell) : Dev :=
  match d.bp.armed.get? n with
  | some (a, double, link) =>
    if a = c then
      let e := if double then 2 else 1
      (d.onCell n c fun x => let y := f x
        if link then { y with linkErr := e } else { y with dataErr := e }).onBp fun b => { b with armed := b.armed.erase n }
    else d.onCell n c f
  | none => d.onCell n c f

/-- A write of a whole cell: its codes become correct, but for an armed injection (R316, R348). -/
def Dev.cellWrite (d : Dev) (n c : Nat) (f : Cell → Cell) : Dev :=
  d.cellPut n c fun x => f { x with linkErr := 0, dataErr := 0 }

/-- A write of a cell's link word (R316, R348). -/
def Dev.linkWrite (d : Dev) (n c : Nat) (f : Cell → Cell) : Dev := d.cellPut n c fun x => f { x with linkErr := 0 }

/-- A write of the reserved region to the cells that p names: an armed injection of such a cell is made there (R348). A write of
a part of a cell mends none of the cell's other parts, so an error stays until the region is lost (log 103). -/
def Dev.resWrite (d : Dev) (p : Nat → Bool) : Dev :=
  match d.bp.armed.get? 1 with
  | some (c, double, _) =>
    if reservedCell 1 c && p c then
      d.onBp fun b => { b with armed := b.armed.erase 1
                               resBad := if double && !b.resBad.contains c then b.resBad ++ [c] else b.resBad
                               resSoft := if !double && !b.resSoft.contains c then b.resSoft ++ [c] else b.resSoft }
    else d
  | none => d

/-- A read of a cell of the reserved region: what ECC reports, and whether it is uncorrectable (R335, R337). -/
def Dev.resRead (d : Dev) (c source : Nat) : Dev × Bool :=
  if d.bp.resBad.contains c then (d.eccEvent 1 c true false source, true)
  else if d.bp.resSoft.contains c then (d.eccEvent 1 c false false source, false)
  else (d, false)

/-! ### Requests (R322, R323) -/

/-- SHARED_FREE of a tier (R322, R342: s28). -/
def Dev.sharedFree (d : Dev) (n : Nat) : Int := signed 28 (d.reg (R .BP_TIER_SHARED n))

/-- SHARED_FREE changed. -/
def Dev.addShared (d : Dev) (n : Nat) (x : Int) : Dev := d.setReg (R .BP_TIER_SHARED n) (unsigned 28 (d.sharedFree n + x))

/-- The cells drawn from the shared remainder when a pool's use goes from u to u + k (R322). -/
def sharedDraw (used k minimum : Nat) : Nat := (used + k - minimum) - (used - minimum)

/-- USED, MIN and CAP of pool p in tier n (R322, R346). -/
def Dev.poolUsed (d : Dev) (p n : Nat) : Nat := d.reg (R .BP_POOL_USED p n)
def Dev.poolMin (d : Dev) (p n : Nat) : Nat := d.reg (R .BP_POOL_MIN p n)
def Dev.poolCap (d : Dev) (p n : Nat) : Nat := if n = 0 then d.reg (R .BP_POOL_NEAR_CAP p) else d.reg (R .BP_POOL_FAR_CAP p)

/-- Pool p lies in the image's pool layout (R319). -/
def Dev.poolExists (d : Dev) (p : Nat) : Bool := decide (p < d.im.str.pools.length)

/-- The slice of pool p: 0 to 15, or 0xFF for a device pool (R319). -/
def Dev.poolSlice (d : Dev) (p : Nat) : Nat := (d.im.str.pools.getD p ⟨0xFF, 0, 0⟩).slice

/-- Whether a request for k cells is granted (R322). -/
def Dev.poolGrants (d : Dev) (p n k : Nat) : Bool :=
  let u := d.poolUsed p n
  decide (u + k ≤ d.poolCap p n) && decide ((sharedDraw u k (d.poolMin p n) : Int) ≤ d.sharedFree n) &&
    decide (k ≤ d.reg (R .BP_TIER_FREE n))

/-- The k lowest free cells from `cur` on, given the used part of the tier (log entry 55). -/
def pickFree : Nat → Table Cell → Nat → Nat → List Nat
  | 0, _, _, _ => []
  | f + 1, t, cur, k =>
    if k = 0 then []
    else
      match t with
      | [] => cur :: pickFree f [] (cur + 1) (k - 1)
      | (c, x) :: rest =>
        if c < cur then pickFree f rest cur k
        else if cur < c then cur :: pickFree f ((c, x) :: rest) (cur + 1) (k - 1)
        else if x.used ∨ x.retired then pickFree f rest (cur + 1) k
        else cur :: pickFree f rest (cur + 1) (k - 1)

/-- The counts after k cells of pool p are granted or freed (R322). -/
def Dev.chargeCells (d : Dev) (p n k : Nat) : Dev :=
  let u := d.poolUsed p n
  (((d.addShared n (-(sharedDraw u k (d.poolMin p n) : Int))).setReg (R .BP_POOL_USED p n) (u + k))).setReg (R .BP_TIER_FREE n)
    (d.reg (R .BP_TIER_FREE n) - k)
def Dev.creditCells (d : Dev) (p n k : Nat) : Dev :=
  let u := d.poolUsed p n
  (((d.addShared n (sharedDraw (u - k) k (d.poolMin p n) : Int)).setReg (R .BP_POOL_USED p n) (u - k))).setReg (R .BP_TIER_FREE n)
    (d.reg (R .BP_TIER_FREE n) + k)

/-- A failed request (R323). -/
def Dev.allocFail (d : Dev) (p n : Nat) : Dev :=
  (d.onBp fun b => { b with fails := b.fails.put 0 (2 * p + n) (b.fails.getD (2 * p + n) 0 + 1) }).raise (R .BP_FLAGS) 9

/-- A request of pool p for k cells of tier n (R322, R325): granted whole, or failed whole. -/
def Dev.allocCells (d : Dev) (p n k : Nat) : Dev × Option (List Nat) :=
  if d.poolGrants p n k then
    let t := d.cells n
    let cs := pickFree (k + t.length) t (if n = 0 then 0 else 40960) k
    let d1 := cs.foldl (fun d c => d.onCell n c fun x => { x with used := true, owner := p }) (d.chargeCells p n k)
    (d1, some cs)
  else (d.allocFail p n, none)

/-! ### Frees (R327, R328) -/

/-- Why a free is rejected: 0 a double free, 1 a non-owner free (R328). -/
def Dev.freeFault (d : Dev) (n c p : Nat) : Option Nat :=
  let x := d.cell n c
  if reservedCell n c then some 1
  else if !x.used then some 0
  else if x.retired then some 1
  else if x.owner ≠ p then some 1
  else none

/-- The report of a rejected free (R328, R344). -/
def Dev.freeReject (d : Dev) (n c p req kind : Nat) : Dev :=
  let owner := if kind = 0 ∨ reservedCell n c then 0 else (d.cell n c).owner
  let w := 2 ^ 31 + kind * 2 ^ 30 + n * 2 ^ 29 + req * 2 ^ 25 + p * 2 ^ 19 + owner * 2 ^ 13
  ((d.setReg (R .BP_FREE_ERR) w).onBp fun b => { b with errCell := c }).raiseRec (R .BP_FLAGS) (4 + kind) .bp 0 false
    [(1, kind), (1, n), (1, req), (1, p), (1, owner), (4, c)]

/-- A free decided (R328): rejected with its kind, or done. The cell's link word, OWNER among it, stays as last written. -/
def Dev.freeDecided (d : Dev) (n p req c : Nat) : Option Nat → Dev
  | some k => d.freeReject n c p req k
  | none => (d.creditCells p n 1).onCell n c fun x => { x with used := false }

/-- CELL_FREE (R328): one cell freed for pool p by a requester. -/
def Dev.freeCell (d : Dev) (n p req : Nat) (c : Nat) : Dev := d.freeDecided n p req c (d.freeFault n c p)

/-- Cells freed one after another. -/
def Dev.freeCells (d : Dev) (n p req : Nat) (cs : List Nat) : Dev := cs.foldl (fun d c => d.freeCell n p req c) d

/-- BP_FREE_ERR is read: the matching cell goes into the shadow (R344). -/
def Dev.freeErrRead (d : Dev) : Dev :=
  (d.setReg (R .BP_FREE_ERR_CELL) d.bp.errCell).respond (.data (d.reg (R .BP_FREE_ERR)))

/-! ### Retirement (R337, R338) -/

/-- The retirement list of a tier. -/
def Dev.retList (d : Dev) (n : Nat) : List Nat := if n = 0 then d.bp.retNear else d.bp.retFar

/-- RETIRED of a tier is what BP_TIER_RETIRED counts (R338, R342). -/
def Dev.retireCount (d : Dev) (n : Nat) : Dev :=
  let r := R .BP_TIER_RETIRED n
  d.setReg r ((d.retList n).length * 2 ^ 14 + min 0x3FFF (d.fld r 13 0 + 1))

/-- A cell is retired (R338): listed and out of its pool; when the list is full it stays as it is and RETIRE_FULL sets. -/
def Dev.retire (d : Dev) (n c : Nat) : Dev :=
  let x := d.cell n c
  if x.retired then d
  else if 4096 ≤ (d.retList n).length then d.raiseRec (R .BP_FLAGS) 7 .bp 0 false [(1, n), (4, c)]
  else
    let d1 := if x.used then (d.creditCells x.owner n 1).setReg (R .BP_TIER_FREE n) (d.reg (R .BP_TIER_FREE n))
      else d.setReg (R .BP_TIER_FREE n) (d.reg (R .BP_TIER_FREE n) - 1)
    let d2 := (d1.addShared n (-1)).onBp fun b => if n = 0 then { b with retNear := b.retNear ++ [c] } else { b with retFar := b.retFar ++ [c] }
    (((d2.onCell n c fun y => { y with used := true, retired := true }).retireCount n)).raiseRec (R .BP_FLAGS) 6 .bp 0 false
      [(1, n), (4, c)]

/-! ### Packets in cells (R316, R317) -/

/-- Cells that a packet of LEN bytes takes in a tier (R317). -/
def cellsFor (n len : Nat) : Nat := (len + 32 + cellRoom n - 1) / cellRoom n

/-- Bytes cut into pieces of m. -/
def chunks (m : Nat) : Nat → List Byte → List (List Byte)
  | 0, _ => []
  | k + 1, b => b.take m :: chunks m k (b.drop m)

/-- Cells chained by NEXT with EOP on the last and the given payloads (R316). -/
def Dev.chain (d : Dev) (n : Nat) : List Nat → List (List Byte) → Dev
  | [], _ => d
  | c :: cs, ps =>
    (d.cellWrite n c fun x => { x with next := cs.head?, eop := cs.isEmpty, nextLen := 0, data := ps.headD [] }).chain n cs (ps.drop 1)

/-- The cells that pipeline k writes cross its seam to the near tier's controller, or the seams to the channels of the far tier (R24). -/
def Dev.cellSeams (d : Dev) (k n : Nat) (cs : List Nat) : Dev :=
  if n = 0 then d.memPut (0x7E8 + k) (256 * cs.length) else cs.foldl (fun d c => d.memPut (0x7EC + c % 4) 2048) d

/-- Pipeline k is stalled by a full seam to a memory (R24). -/
def Dev.pipeStalled (d : Dev) (k : Nat) : Bool :=
  ((0x7E8 + k) :: (List.range 4).map (0x7EC + ·)).any fun e => (d.bp.seams.get? e).isSome && seamFull e (d.memSeam e)

/-- A packet that pipeline k writes into its cells: 32 bytes of metadata, whose layout is the device's own, its bytes, and its FCS (R316). -/
def Dev.writePkt (d : Dev) (k n : Nat) (cs : List Nat) (bytes : List Byte) : Dev :=
  let all := freeBytes d.free 32 ++ bytes ++ fcs bytes
  ((d.takeFree 32).chain n cs (chunks (cellRoom n) cs.length all)).cellSeams k n cs

/-- The link word of the last packet of a list names the next one (R316). -/
def Dev.linkTail (d : Dev) (n : Nat) (tail : Option Held) (first len : Nat) : Dev :=
  match tail with
  | none => d
  | some h =>
    match h.cells.getLast? with
    | none => d
    | some c => d.linkWrite n c fun x => { x with next := some first, nextLen := len }

/-- What a read of a packet meets: its bytes, errors in payloads, or an error in a link word, which ends the reading. -/
inductive ReadRes where
  | bytes (b : List Byte)
  | badData (cs : List Nat)
  | badLink (c : Nat)
  deriving DecidableEq, Repr

/-- The cells of a packet read and checked in order to the last one (R332, R337), with the failed payload cells so far. -/
def Dev.readCells (d : Dev) (n source : Nat) : List Nat → List Byte → List Nat → Dev × ReadRes
  | [], acc, bad => (d, if bad.isEmpty then .bytes acc else .badData bad)
  | c :: cs, acc, bad =>
    let (d1, l) := d.cellCheck n c true source
    if l then (d1, .badLink c)
    else
      let (d2, p) := d1.cellCheck n c false source
      d2.readCells n source cs (acc ++ (d2.cell n c).data) (if p then bad ++ [c] else bad)

/-- The bytes of a packet of LEN bytes, out of its cells. -/
def Dev.readPkt (d : Dev) (n source : Nat) (h : Held) : Dev × ReadRes :=
  match d.readCells n source h.cells [] [] with
  | (d1, .bytes b) => (d1, .bytes (sub b 32 (h.len - 4)))
  | r => r

/-- The link words of a packet's cells read for a discard (R337): the failed cell, if any. -/
def Dev.checkLinks (d : Dev) (n source : Nat) : List Nat → Dev × Option Nat
  | [] => (d, none)
  | c :: cs =>
    let (d1, l) := d.cellCheck n c true source
    if l then (d1, some c) else d1.checkLinks n source cs

end Sys2Proof.Machine
end

