-- ==== Sys2Proof/Machine/Obs.lean ====
section
/-! DEFINITION. Observability (spec/16): the recorder memory, the recorder's own records, counters, statistics sets and
sampling buffers, and the opcodes of OB_CMD (R539). -/

namespace Sys2Proof.Machine

/-! ### The recorder memory (R519 to R521, R526) -/

/-- The Tideline (R519): its address and its 108 MiB. -/
def tideBase : Nat := 0x1400000
def tideSize : Nat := 113246208

/-- The address of a Cairn half (R519). -/
def cairnBase (half : Nat) : Nat := 0x200000 + 0x900000 * half

/-- a comes after b modulo 2^32, compared as a signed difference (R515). -/
def seqAfter (a b : Nat) : Bool := decide (0 < signed 32 (a + 2 ^ 32 - b % 2 ^ 32))

/-- MEM_KIND (R519): 0 for a memory that does not answer or is too small, 1 NOR, 2 MRAM. -/
def RecMem.kind (m : RecMem) : Nat := if !m.answers ∨ m.size < 134217728 then 0 else if m.erases then 1 else 2

/-- An erased byte (R521, R522): all ones on NOR, zero on MRAM. -/
def RecMem.blank (m : RecMem) : Byte := if m.erases then 0xFF else 0

/-- The address behind a by i: the Tideline is circular (R520). -/
def tideWrap (a i : Nat) : Nat := if a < tideBase then a + i else tideBase + (a - tideBase + i) % tideSize

/-- n bytes from an address on. -/
def RecMem.rd (m : RecMem) (a n : Nat) : List Byte := (List.range n).map fun i => m.cells.read (tideWrap a i) ^^^ m.blank

/-- Bytes written from an address on. -/
def RecMem.wr (m : RecMem) (a : Nat) (bs : List Byte) : RecMem :=
  { m with cells := ((List.range bs.length).zip bs).foldl (fun c x => c.write (tideWrap a x.1) (x.2 ^^^ m.blank)) m.cells }

/-- n bytes from an address on erased, or zeroed. -/
def RecMem.clear (m : RecMem) (a n : Nat) : RecMem :=
  { m with cells := m.cells.keep fun x _ => !decide (if a < tideBase then a ≤ x ∧ x < a + n
      else tideBase ≤ x ∧ x < tideBase + tideSize ∧ (x + tideSize - a) % tideSize < n) }

/-- n bytes from an address on are erased. -/
def RecMem.isBlank (m : RecMem) (a n : Nat) : Bool := !m.cells.any fun x => decide (a ≤ x.1 ∧ x.1 < a + n)

/-- The marked record at an address (R514): the bytes of its LENGTH. -/
def RecMem.recAt (m : RecMem) (a : Nat) : Option (List Byte) :=
  let h := m.rd a 8
  let n := leAt h 0 2
  if leAt h 7 1 = 0x5A ∧ 48 ≤ n ∧ n ≤ 1056 ∧ n % 8 = 0 then some (m.rd a n) else none

/-- The CRC of a stored record is good (R514). -/
def recSound (b : List Byte) : Bool := leAt b 28 4 == crc32c (b.take 7 ++ [0] ++ (b.drop 8).take 20 ++ [0, 0, 0, 0] ++ b.drop 32)

/-- The 64 bytes of a control-block copy (R521). -/
def RecCtl.bytes (c : RecCtl) : List Byte :=
  let b := leBytes 4 0x424C5443 ++ leBytes 4 c.seq ++ leBytes 1 c.cairnHalf ++ leBytes 1 (b2n c.erasePending + 2 * b2n c.wrapped) ++
    leBytes 2 c.cycle ++ leBytes 4 c.clearCount ++ leBytes 4 c.tideStart ++ leBytes 4 c.tideHint ++ leBytes 4 c.seqHint ++ leBytes 4 c.opSec ++
    List.replicate 28 0
  b ++ leBytes 4 (crc32c b)

/-- Copy k of the control block, where MAGIC and CRC are good (R519, R521). -/
def RecMem.copy (m : RecMem) (k : Nat) : Option RecCtl :=
  let b := m.rd (0x100000 + 0x8000 * k) 64
  if leAt b 0 4 ≠ 0x424C5443 then none
  else if leAt b 60 4 ≠ crc32c (b.take 60) then none
  else
    some ⟨leAt b 4 4, leAt b 8 1, bit (leAt b 9 1) 0, bit (leAt b 9 1) 1, leAt b 10 2, leAt b 12 4, leAt b 16 4, leAt b 20 4, leAt b 24 4,
      leAt b 28 4⟩

/-- The copy that rules, and its number (R521); of two valid ones that with the larger CB_SEQ. -/
def RecMem.ruling (m : RecMem) : Option (Nat × RecCtl) :=
  match m.copy 0, m.copy 1 with
  | some a, some b => if seqAfter b.seq a.seq then some (1, b) else some (0, a)
  | some a, none => some (0, a)
  | none, some b => some (1, b)
  | none, none => none

/-- The address of the copy that does not rule. -/
def RecMem.nextCopy (m : RecMem) : Nat := 0x100000 + 0x8000 * (match m.ruling with | some (0, _) => 1 | _ => 0)

/-- The control block written (R521): the copy that does not rule, with CB_SEQ + 1. -/
def ObState.writeCtl (o : ObState) : ObState :=
  let seq := match o.mem.ruling with | some x => x.2.seq + 1 | none => 1
  let c : RecCtl := ⟨seq % 2 ^ 32, o.half, o.erasing, o.wrapped, o.cycle, o.clears, o.tideStart, o.wp, o.nextSeq, o.opSec⟩
  { o with mem := (o.mem.clear o.mem.nextCopy 0x8000).wr o.mem.nextCopy c.bytes }

/-- The record at a Tideline offset loses a byte to an erase of n bytes from offset a on (R520). -/
def ObState.loses (o : ObState) (a n off : Nat) : Bool :=
  decide ((off + tideSize - a) % tideSize < n ∨ (a + tideSize - off) % tideSize < leNat (o.mem.rd (tideBase + off) 2))

/-- Where the erased stretch ahead of the write point begins, and its length (R520): two sectors on NOR, 2,048 bytes on MRAM. -/
def ObState.aheadAt (o : ObState) : Nat × Nat :=
  if o.kind = 1 then ((o.wp / 65536 + 1) * 65536 % tideSize, 131072) else (o.wp, 2048)

/-- What lies ahead of the write point is kept erased on NOR, two sectors, or zeroed on MRAM, 2,048 bytes; the records that lose a part to it
are no longer held (R520). -/
def ObState.ahead (o : ObState) : ObState :=
  let (a, n) := o.aheadAt
  let held := o.tide.filter fun off => !o.loses a n off
  { o with mem := o.mem.clear (tideBase + a) n, tide := held, wrapped := o.wrapped || decide (held.length < o.tide.length) }

/-- A marked record appended to the Tideline, and to the current Cairn half while its SEQ is below 8,192 (R520). -/
def ObState.append (o : ObState) (r : Rec) : ObState :=
  let b := r.bytes
  let o := if r.seq < 8192 then
      { o with mem := o.mem.wr (cairnBase o.half + o.cairnEnd) b, cairn := o.cairn ++ [o.cairnEnd], cairnEnd := o.cairnEnd + b.length }
    else o
  { o with mem := o.mem.wr (tideBase + o.wp) b, tide := o.tide ++ [o.wp], wp := (o.wp + b.length) % tideSize }.ahead

/-- The recorder's own records (R517), source OB. -/
def Dev.ownRec (d : Dev) (typ : Nat) (fault : Bool) (width : Nat) (fs : List (Nat × Nat)) : Dev :=
  let b := recBody fs
  d.makeRec typ 1 0 fault false (b ++ List.replicate (width - b.length) 0)

/-- The LOSS record that accounts for discarded records, where room has come about other than by a new record (R522). -/
def Dev.lossRec (d : Dev) : Dev :=
  match d.ob.loss with
  | some l =>
    if !d.ob.pwrFail ∧ d.ob.stagedBytes + 48 ≤ 65536 then
      (d.onOb fun o => { o with loss := none }).ownRec 5 false 16 [(4, l.first), (4, l.last), (4, l.count), (1, 0)]
    else d
  | none => d

/-- The memory is marked failed (R524, R526): FAILED, REC_FAILED, no power-cycle count and operating seconds from 0, and the MEMORY_FAILED
record with address, operation and kind. -/
def Dev.recFail (d : Dev) (addr op : Nat) : Dev :=
  ((d.onOb fun o => { o with failed := true, cycle := 0, opSec := 0 }).raise (R .OB_FLAGS) 0).ownRec 4 true 16
    [(4, addr), (1, op), (1, d.ob.kind)]

/-- The control block is written (R521), or its write fails (R524). -/
def Dev.ctlWrite (d : Dev) : Dev :=
  if d.ob.failed then d else if d.ob.mem.ctlBad then d.recFail d.ob.mem.nextCopy 3 else d.onOb ObState.writeCtl

/-- A record written to the memory, with the control block rewritten when the write point crosses 1 MiB (R521). -/
def Dev.persist (d : Dev) (r : Rec) : Dev :=
  let d1 := d.onOb fun o => o.append r
  if d1.ob.wp / 1048576 ≠ d.ob.wp / 1048576 then d1.ctlWrite else d1

/-- The first n staged records are written in SEQ order and leave staging, as long as the memory takes them (R522). -/
def Dev.writeStaged (d : Dev) : Nat → Dev
  | 0 => d
  | n + 1 =>
    match d.ob.staging with
    | [] => d
    | r :: rs => if d.ob.failed then d else ((d.onOb fun o => { o with staging := rs }).persist r).writeStaged n

/-- The staged records that the recorder writes now (R522): all of them once 256 bytes are staged or the oldest has waited 100 ms
(78,125,000 ticks), else those up to the last fault record. -/
def Dev.flushDue (d : Dev) : Nat :=
  let st := d.ob.staging
  let late := match st with
    | r :: _ => decide (r.entered + 78125000 ≤ d.tb.ticks)
    | [] => false
  if 256 ≤ d.ob.stagedBytes ∨ late = true then st.length
  else ((List.range st.length).zip st).foldl (fun n x => if x.2.fault then x.1 + 1 else n) 0

/-- A record written without its mark leaves its bytes at the write point and takes their place (R522). -/
def ObState.spoil (o : ObState) (r : Rec) : ObState :=
  let b := r.raw o.mem.blank.toNat (crc32c (r.raw 0 0))
  { o with mem := o.mem.wr (tideBase + o.wp) b, wp := (o.wp + b.length) % tideSize }.ahead

/-- The code of an operation in MEMORY_FAILED (R517). -/
def recOpCode : RecOp → Nat
  | .program => 0
  | .compare => 2

/-- RECORD_FLUSH (R522 to R524): the records that are due are written, compared and marked. `fails` says what failed of the first of them:
one failure retries it at the next free place; a second, a failed erase of the sectors ahead or a failed control-block write marks the
memory failed. Behind a fall of PWRFAIL_N no write starts here. -/
def Dev.recordFlush (d : Dev) (fails : List RecOp) (eraseFail ctlFail : Bool) : Dev :=
  match if d.ob.failed || d.ob.pwrFail || d.flushDue == 0 then none else d.ob.staging.head? with
  | none => d
  | some r =>
    let n := d.flushDue
    if eraseFail ∧ d.ob.kind = 1 then d.recFail (tideBase + (d.ob.wp / 65536 + 2) * 65536 % tideSize) 1
    else if ctlFail then (d.onOb fun o => { o with mem := { o.mem with ctlBad := true } }).recFail d.ob.mem.nextCopy 3
    else
      match fails with
      | _ :: op :: _ =>
        let d1 := d.onOb fun o => o.spoil r
        (d1.onOb fun o => o.spoil r).recFail (tideBase + d1.ob.wp) (recOpCode op)
      | [_] => ((d.onOb fun o => o.spoil r).writeStaged n).lossRec
      | [] => (d.writeStaged n).lossRec

/-- A fall of PWRFAIL_N (R523): ordinary records stop, the POWER_FAIL record is written first, and then the first `fits`
staged records, those whose writes end within 2 ms. -/
def Dev.powerFail (d : Dev) (fits : Nat) : Dev :=
  let st := d.ob.staging
  let first := (st.head?.map Rec.seq).getD d.ob.nextSeq
  let last := (st.getLast?.map Rec.seq).getD d.ob.nextSeq
  let d := d.onOb fun o => { o with pwrFail := true, staging := [] }
  let d := d.ownRec 3 true 32 [(2, st.length), (4, first), (4, last), (4, (st.map Rec.len).foldl (· + ·) 0)]
  if d.ob.failed then d.onOb fun o => { o with staging := st ++ o.staging }
  else
    let d := d.writeStaged 1
    (d.onOb fun o => { o with staging := st ++ o.staging }).writeStaged fits

/-- A clear (R525) by the source of a bank: staging discarded and counted lost, SEQ restarted, the other Cairn half taken, the control
block written, then CLEAR, and LOSS if staged records were discarded. A memory taken as `new`, whose halves are erased already, gets half 0
and no background erase (log entry 117). -/
def Dev.recClear (d : Dev) (bank : Nat) (new : Bool) : Dev :=
  let reached := d.ob.nextSeq
  let st := d.ob.staging
  let bad := !d.ob.failed && d.ob.mem.ctlBad
  let d := d.onOb fun o =>
    let o := { o with staging := [], nextSeq := 0, lost := st.length, loss := none }
    if o.failed then o
    else
      let o := { o with half := if new then 0 else 1 - o.half, erasing := !new, tide := [], cairn := [], cairnEnd := 0, wrapped := false
                        tideStart := o.wp, clears := min (o.clears + 1) 0xFFFFFFFF }
      if bad then o else o.writeCtl
  let d := upTo st.length d fun _ d => d.raise (R .OB_FLAGS) 1
  let d := (d.raise (R .OB_FLAGS) 2).ownRec 1 false 16 [(1, bank), (4, reached), (4, st.length)]
  let d := match st.head?, st.getLast? with
    | some f, some l => d.ownRec 5 false 16 [(4, f.seq), (4, l.seq), (4, st.length), (1, 1)]
    | _, _ => d
  if bad then d.recFail d.ob.mem.nextCopy 3 else d

/-! ### The recorder's start (R519, R521, R523, R526) -/

/-- Steps 2 and 4 of R521: the offsets, in an area, of the records from an offset on, each marked and with a good CRC, and the first
position that holds none. The fuel is more than the records that the Tideline takes. -/
def RecMem.scan (m : RecMem) (base : Nat) : Nat → Nat → List Nat × Nat
  | 0, off => ([], off)
  | k + 1, off =>
    match m.recAt (base + off) with
    | some b =>
      if recSound b then
        let p := m.scan base k ((off + b.length) % tideSize)
        (off :: p.1, p.2)
      else ([], off)
    | none => ([], off)

/-- The first erased page of 256 bytes from a page on (R521). The fuel is the pages of the Tideline. -/
def RecMem.page (m : RecMem) : Nat → Nat → Nat
  | 0, p => p
  | k + 1, p => if m.isBlank (tideBase + 256 * p) 256 then p else m.page k ((p + 1) % (tideSize / 256))

/-- The write point that a scan gives (R521): on NOR the next erased page where the position is not erased. -/
def RecMem.writePoint (m : RecMem) (off : Nat) : Nat :=
  if m.kind ≠ 1 ∨ m.isBlank (tideBase + off) (256 - off % 256) then off
  else 256 * m.page (tideSize / 256) ((off / 256 + 1) % (tideSize / 256))

/-- The offsets of the records in a stretch of the Tideline of `left` bytes, in order; behind a sound one, one whose CRC is bad is held too
(R525). A place that holds none, where a write failed, is passed over 8 bytes at a time, up to the next sound record. The fuel is
the stretch in units of 8 bytes. -/
def RecMem.walk (m : RecMem) : Nat → Nat → Nat → Bool → List Nat
  | 0, _, _, _ => []
  | k + 1, off, left, chain =>
    match m.recAt (tideBase + off) with
    | some b =>
      if b.length ≤ left ∧ (chain ∨ recSound b) then off :: m.walk k ((off + b.length) % tideSize) (left - b.length) true
      else m.walk k ((off + 8) % tideSize) (left - 8) false
    | none => m.walk k ((off + 8) % tideSize) (left - 8) false

/-- The recorder's position, recovered from the copy that rules (R521, steps 2, 4 and 5). The log has wrapped when the copy says so, or when
what is kept erased ahead of the write point has since reached the last CLEAR (log entry 138). -/
def ObState.recover (o : ObState) (c : RecCtl) : ObState :=
  let m := o.mem
  let o := { o with half := c.cairnHalf, erasing := c.erasePending, clears := c.clearCount, tideStart := c.tideStart
                    wp := m.writePoint (m.scan tideBase (tideSize / 48) c.tideHint).2 }
  let free := (o.aheadAt.1 + o.aheadAt.2) % tideSize
  let t := (c.tideStart + tideSize - c.tideHint) % tideSize
  let wrapped := c.wrapped || decide (t ≠ 0 ∧ t < (free + tideSize - c.tideHint) % tideSize)
  let start := if wrapped then free else c.tideStart
  let left := (o.wp + tideSize - start) % tideSize
  let cairn := m.scan (cairnBase c.cairnHalf) 8192 0
  { o with wrapped := wrapped, tide := m.walk (left / 8 + 1) start left (!wrapped), cairn := cairn.1, cairnEnd := cairn.2 }

/-- A memory without a valid control block, taken as new (R521, step 1). -/
def ObState.fresh (o : ObState) : ObState :=
  { o with mem := ((o.mem.clear 0x100000 0x10000).clear (cairnBase 0) 0x1200000).clear tideBase 131072 }

/-- The SEQ, the TYPE and the body of a stored record (R514). -/
def recSeq (b : List Byte) : Nat := leAt b 8 4
def recTyp (b : List Byte) : Nat := leAt b 2 2

/-- The record at a Tideline offset. -/
def ObState.tideRec (o : ObState) (off : Nat) : List Byte := o.mem.rd (tideBase + off) (leNat (o.mem.rd (tideBase + off) 2))

/-- The records held in the Tideline, oldest first. -/
def ObState.tideRecs (o : ObState) : List (List Byte) := o.tide.map o.tideRec

/-- The valid entries of the operating-seconds log (R526): slot, OP_SECONDS and POWER_CYCLE. -/
def RecMem.opLog (m : RecMem) : List (Nat × Nat × Nat) :=
  (m.cells.filter fun x => decide (x.1 < 0x100000)).filterMap fun x =>
    let b := m.rd (x.1 / 8 * 8) 8
    if leAt b 6 2 = crc32c (b.take 6) % 65536 then some (x.1 / 8, leAt b 0 4, leAt b 4 2) else none

/-- The 8 bytes of an entry for the count as it stands (R526). -/
def ObState.opEntry (o : ObState) : List Byte :=
  let b := leBytes 4 o.opSec ++ leBytes 2 o.cycle
  b ++ leBytes 2 (crc32c b)

/-- The count appended to the operating-seconds log, whose sectors are reused in turn (R526). -/
def ObState.opAppend (o : ObState) : ObState :=
  let m := if o.kind = 1 ∧ o.opPos % 65536 = 0 then o.mem.clear o.opPos 65536 else o.mem
  { o with mem := m.wr o.opPos o.opEntry, opPos := (o.opPos + 8) % 0x100000 }

/-- The operating seconds resumed under the next power-cycle count and persisted (R526). -/
def ObState.resume (o : ObState) : ObState :=
  let best := o.mem.opLog.foldl (fun b x => if b.2.2 < x.2.2 ∨ (b.2.2 = x.2.2 ∧ b.2.1 ≤ x.2.1) then x else b) (0x1FFFF, 0, 0)
  { o with opSec := best.2.1, cycle := min (best.2.2 + 1) 0xFFFF, opPos := (best.1 + 1) % 0x20000 * 8 }.opAppend

/-- The later of two next SEQs. -/
def seqMax (a b : Nat) : Nat := if seqAfter b a then b else a

/-- The records that the last POWER_FAIL record held names (R523): how many, the first and the last SEQ; none without one. -/
def ObState.failNamed (o : ObState) : Nat × Nat × Nat :=
  match (o.tideRecs.filter fun b => recTyp b == 3).getLast? with
  | some b => (leAt b 32 2, leAt b 34 4, leAt b 38 4)
  | none => (0, 0, 0)

/-- How many of them are held (R523). -/
def ObState.failFound (o : ObState) : Nat :=
  let (count, first, last) := o.failNamed
  min count (o.tideRecs.filter fun b =>
    recTyp b != 3 && recSound b && decide ((recSeq b + 2 ^ 32 - first) % 2 ^ 32 ≤ (last + 2 ^ 32 - first) % 2 ^ 32)).length

/-- The next SEQ at a start (R521, step 3): behind the hint, the records read in step 2, and those that POWER_FAIL names. -/
def ObState.nextAt (o : ObState) (c : RecCtl) : Nat :=
  let seen := (o.mem.scan tideBase (tideSize / 48) c.tideHint).1
  let top := seen.foldl (fun s off => seqMax s ((recSeq (o.tideRec off) + 1) % 2 ^ 32)) c.seqHint
  let (count, _, last) := o.failNamed
  if count = 0 then top else seqMax top ((last + 1) % 2 ^ 32)

/-- The recorder's start at S (R519, R521, R523, R526): the memory identified, its position and the next SEQ recovered, a memory without a
valid control block taken as new and cleared, operating seconds resumed, the control block written, and the START record. -/
def Dev.recorderStart (d : Dev) : Dev :=
  let d := d.onOb fun o => { o with kind := o.mem.kind }
  if d.ob.kind = 0 then d.recFail 0 4
  else
    let d := match d.ob.mem.ruling with
      | some (_, c) =>
        let d := d.onOb fun o => (o.recover c).resume
        d.onOb fun o => { o with nextSeq := o.nextAt c }
      | none => (d.onOb fun o => o.fresh.resume).recClear 0 true
    let (count, first, last) := d.ob.failNamed
    let found := d.ob.failFound
    let d := d.ctlWrite.ownRec 2 false 32 [(1, d.ob.kind), (2, d.ob.cycle), (4, d.ob.opSec), (4, first), (4, last), (4, found)]
    d.raiseIf (decide (found < count)) (R .OB_FLAGS) 3

/-- The operating seconds persisted, as long as the memory works (R524, R526). -/
def Dev.opPersist (d : Dev) : Dev := d.onOb fun o => if o.failed then o else o.opAppend

/-- n operating seconds pass, and each multiple of 64 is persisted (R526). -/
def Dev.opSeconds (d : Dev) (n : Nat) : Dev :=
  let a := d.ob.opSec
  let d := upTo ((a + n) / 64 - a / 64) d fun k d => (d.onOb fun o => { o with opSec := (a / 64 + k + 1) * 64 % 2 ^ 32 }).opPersist
  d.onOb fun o => { o with opSec := (a + n) % 2 ^ 32 }

/-- OP_SECONDS_PERSIST (R526): an entry is appended where OP_SECONDS stands at a multiple of 64 that the log does not end with. -/
def Dev.opSecondsPersist (d : Dev) : Dev :=
  if d.ob.opSec % 64 = 0 ∧ d.ob.mem.rd ((d.ob.opPos + 0xFFFF8) % 0x100000) 8 ≠ d.ob.opEntry then d.opPersist else d

/-- CLEAR_ERASE_DONE (R525): the background erase of the old Cairn half and of the Tideline has finished; it makes no progress while
PWRFAIL_N is low or the memory is failed (R523, R524). -/
def Dev.clearEraseDone (d : Dev) : Dev :=
  d.onOb fun o =>
    if o.failed || o.pwrFail || !o.erasing then o
    else
      let m := o.mem.clear (cairnBase (1 - o.half)) 0x900000
      let a := o.aheadAt.1
      let n := ((if o.kind = 1 then o.tideStart / 65536 * 65536 else o.tideStart) + tideSize - a) % tideSize
      { o with erasing := false, mem := if o.wrapped then m else m.clear (tideBase + a) (if n = 0 then tideSize else n) }

/-- CLEAR_BUSY (R525, R535). -/
def ObState.clearBusy (o : ObState) : Bool := o.erasing && !o.failed

/-- The record of a SEQ, in the order Cairn, Tideline, staging (R525); in failed mode from staging. -/
def ObState.findRec (o : ObState) (seq : Nat) : Option (List Byte) :=
  let staged := (o.staging.find? fun r => r.seq == seq).map Rec.bytes
  if o.failed then staged
  else
    ((o.cairn.map fun off => o.mem.rd (cairnBase o.half + off) (leNat (o.mem.rd (cairnBase o.half + off) 2))).find? fun b =>
      recSeq b == seq) <|> (o.tideRecs.find? fun b => recSeq b == seq) <|> staged

/-- The oldest of a list of SEQs (R515). -/
def oldestSeq : List Nat → Option Nat
  | [] => none
  | x :: xs => some (xs.foldl (fun m y => if seqAfter m y then y else m) x)

/-- REC_READ (R525, R539). -/
def opRecRead (a : Accepted) (d : Dev) : CmdRes :=
  match d.ob.findRec a.obj with
  | none => .done d .notFound []
  | some b =>
    if b.length ≤ 32 * a.db 0 5 0 then .refuse .badArgument 0
    else .done d (if recSound b then .ok else .memoryFault) (outBytes 0 8 (b.drop (32 * a.db 0 5 0)))

/-- REC_CLEAR (R525). -/
def opRecClear (a : Accepted) (d : Dev) : CmdRes :=
  if d.ob.clearBusy then .refuse .busy 0 else .done (d.recClear (bankOf a.src) false) .ok [(0, d.ob.nextSeq)]

/-- The SOURCE and INSTANCE of a record that a source writes (R514): firmware for a core, host for a function. -/
def recWriter : Src → Nat × Nat
  | .core c => (15, c)
  | .dma c => (15, c)
  | .pf0 => (16, 0)
  | .vf n => (16, 1 + n)

/-- REC_WRITE (R539). In power fail an ordinary record is not accepted and the command completes with BUSY (log entry 6). -/
def opRecWrite (a : Accepted) (d : Dev) : CmdRes :=
  let typ := a.db 0 15 0
  let off := a.db 1 21 0
  let len := a.db 2 10 0
  let denied := match sliceOf? a.src with
    | some s => !d.inAperture s off len
    | none => false
  if denied then .refuse .denied 0
  else if typ < 0x8000 ∨ len < 16 ∨ 1024 < len ∨ len % 8 ≠ 0 ∨ 4194304 < off + len then .refuse .badArgument 0
  else if d.ob.pwrFail ∧ !a.db 0 16 16 == 1 then .refuse .busy 0
  else if d.spFault off len then .done (d.spUe (d.spBad off len) (portOf a.src)) .memoryFault []
  else
    let w := recWriter a.src
    .done (d.makeRec typ w.1 w.2 (a.db 0 16 16 == 1) false (d.mc.scratch.readN off len)) .ok [(0, d.ob.nextSeq)]

/-- CNT_CLEAR (R7, R527, R539): with the counter of discarded partial writes, the note of the first one is armed again. -/
def opCntClear (a : Accepted) (d : Dev) : CmdRes :=
  if !trusted a.src then .refuse .denied 0
  else if bit a.obj 31 then
    let d := d.onOb fun o => { o with cnt := [], partialNoted := false }
    .done (upTo 64 d fun w d => d.resetReg (R .OB_CNT_OVF w)) .ok []
  else
    let n := bits a.obj 10 0
    .done ((d.onOb fun o => { o with cnt := o.cnt.erase n, partialNoted := o.partialNoted && n ≠ 0x18 }).setFld (R .OB_CNT_OVF (n / 32)) (n % 32) (n % 32) 0) .ok []

/-- STAT_BIND (R531, R539). -/
def opStatBind (a : Accepted) (d : Dev) : CmdRes :=
  if !trusted a.src then .refuse .denied 0
  else if d.nQueues ≤ a.obj ∨ (!bit (a.dat 0) 31 ∧ d.nStatSets ≤ a.db 0 20 0) then .refuse .badArgument 0
  else if bit (a.dat 0) 31 then
    match d.ob.statBind.get? a.obj with
    | some _ => .done (d.onOb fun o => { o with statBind := o.statBind.erase a.obj }) .ok []
    | none => .done d .notFound []
  else .done (d.onOb fun o => { o with statBind := o.statBind.set a.obj (a.db 0 20 0) }) .ok []

/-- A statistics set at rest (R531). -/
def statRest : List Nat := [0, 0, 0, 0, 0, 0, 0, 0]

/-- STAT_READ (R531, R539). -/
def opStatRead (a : Accepted) (d : Dev) : CmdRes :=
  if !trusted a.src then .refuse .denied 0
  else if d.nStatSets ≤ a.obj then .refuse .badArgument 0
  else
    let c := (d.ob.stats.getD a.obj statRest).drop (4 * a.db 0 0 0)
    .done d .ok ((List.range 4).flatMap fun i => outWords (2 * i) 2 (c.getD i 0))

/-- STAT_CLEAR (R539). -/
def opStatClear (a : Accepted) (d : Dev) : CmdRes :=
  if !trusted a.src then .refuse .denied 0
  else if d.nStatSets ≤ a.obj then .refuse .badArgument 0
  else .done (d.onOb fun o => { o with stats := o.stats.erase a.obj }) .ok []

/-- Counter i of the statistics set bound to queue q grown by n (R531). -/
def Dev.stat (d : Dev) (q i n : Nat) : Dev :=
  match d.ob.statBind.get? q with
  | none => d
  | some k => d.onOb fun o =>
    let c := o.stats.getD k statRest
    { o with stats := o.stats.put statRest k (c.set i ((c.getD i 0 + n) % 2 ^ 64)) }

/-- SAMPLE_READ (R532, R533, R539). -/
def opSampleRead (a : Accepted) (d : Dev) : CmdRes :=
  let b := a.db 0 2 0
  if !trusted a.src then .refuse .denied 0
  else if 4 < b ∨ (if b = 4 then 4096 else 256) ≤ a.obj then .refuse .badArgument 0
  else if b = 4 then
    match (d.ob.pkt.filter PktSample.written)[a.obj]? with
    | some e => .done d .ok (outBytes 0 8 e.bytes)
    | none => .done d .notFound []
  else
    match (d.ob.insBuf.getD b [])[a.obj]? with
    | some e => .done d .ok (outBytes 0 4 e)
    | none => .done d .notFound []

/-- SAMPLE_RESTART (R532, R533, R539). -/
def opSampleRestart (a : Accepted) (d : Dev) : CmdRes :=
  let b := a.db 0 2 0
  if !trusted a.src then .refuse .denied 0
  else if 4 < b then .refuse .badArgument 0
  else if b = 4 then .done (d.onOb fun o => { o with pkt := [], pktRun := 0, pktRuns := o.pktRuns + 1 }) .ok []
  else
    let run := (d.ob.insRun.getD b (0, 0)).2
    .done (d.onOb fun o => { o with insBuf := o.insBuf.erase b, insRun := o.insRun.put (0, 0) b (0, run + 1) }) .ok []

/-- Whether the enqueue commit at hand is sampled, and the commits of the run so far (R533): one place in each run of
2^PKT_LOG2 commits that pass the slice filter, chosen pseudo-randomly (log entry 7). -/
def Dev.pickSample (d : Dev) (slice : Nat) : Dev × Bool :=
  let c := d.reg (R .OB_SAMP_CFG)
  if !bit c 31 || (bit c 30 && bits c 29 26 ≠ slice) || decide (4096 ≤ d.ob.pkt.length) then (d, false)
  else
    let log2 := bits c 25 21
    let place := Config.samplePlace log2 d.ob.pktRuns % 2 ^ log2
    let run := d.ob.pktRun + 1
    let (run', runs') := if 2 ^ log2 ≤ run then (0, d.ob.pktRuns + 1) else (run, d.ob.pktRuns)
    (d.onOb fun o => { o with pktRun := run', pktRuns := runs' }, decide (d.ob.pktRun = place))

/-- A packet's sample reserved at selection (R533). -/
def Dev.reserveSample (d : Dev) (packet : Nat) : Dev :=
  d.onOb fun o => { o with pkt := o.pkt ++ [⟨packet, [], false⟩] }

/-- A reserved sample written when its packet departs or is discarded: written entries stand first, in completion order;
PKT_FULL sets when the last of 4,096 is written (R533). -/
def Dev.writeSample (d : Dev) (packet : Nat) (bs : List Byte) : Dev :=
  if d.ob.pkt.any fun e => !e.written && e.packet == packet then
    let w := d.ob.pkt.filter PktSample.written
    let rest := (d.ob.pkt.filter fun e => !e.written && e.packet ≠ packet)
    let d := d.onOb fun o => { o with pkt := w ++ [⟨packet, bs, true⟩] ++ rest }
    d.raiseIf (decide (4096 ≤ w.length + 1)) (R .OB_FLAGS) 10
  else d

/-- PCNT_CFG_WRITE (R530): a change of EVENT or MODE zeroes the counter and clears OVF; `occ` occurrences of the old event in
the commit cycle, in MODE 1 that one cycle, that wrap it set OVF_AT_RESELECT. -/
def Dev.pcntCfgWrite (d : Dev) (k v occ : Nat) : Dev :=
  let old := d.reg (R .OB_PCNT_CFG k)
  let same := decide (bits old 11 0 = bits v 11 0 ∧ bits old 30 30 = bits v 30 30)
  let w1c := bits old 29 28 - (bits old 29 28 &&& bits v 29 28)
  let cfg := bits v 31 30 * 2 ^ 30 + bits v 11 0
  if same then d.setReg (R .OB_PCNT_CFG k) (cfg + w1c * 2 ^ 28)
  else
    let wraps := bit old 31 && decide (2 ^ 48 ≤ d.ob.pcnt.getD k 0 + if bit old 30 then min occ 1 else occ)
    let ovf := if wraps then 1 else w1c % 2
    let d := d.raiseIf wraps (R .OB_FLAGS) 5
    let d := d.onOb fun o => { o with pcnt := o.pcnt.erase k }
    d.setReg (R .OB_PCNT_CFG k) (cfg + ovf * 2 ^ 28)

/-- The shadow key of a counter for a source: programmable counters after the 2,048 fixed ones. -/
def cntKey (src : Src) (prog : Bool) (n : Nat) : Nat := 4096 * bankOf src + (if prog then 2048 else 0) + n

/-- A read of a counter's low word (R529): the high bits and the overflow bits latch into the source's shadow. -/
def Dev.cntLoRead (d : Dev) (src : Src) (prog : Bool) (n : Nat) : Dev :=
  let v := if prog then d.ob.pcnt.getD n 0 else d.ob.cnt.getD n 0
  let hi := if prog then bits v 47 32 + 2 ^ 30 * d.fld (R .OB_PCNT_CFG n) 28 28 + 2 ^ 31 * d.fld (R .OB_PCNT_CFG n) 29 29
    else bits v 47 32 + 2 ^ 31 * d.fld (R .OB_CNT_OVF (n / 32)) (n % 32) (n % 32)
  (d.onOb fun o => { o with cntHi := o.cntHi.put 0 (cntKey src prog n) hi }).respond (.data (v % 2 ^ 32))

end Sys2Proof.Machine
end

