-- ==== Sys2Proof/Machine/Timebase.lean ====
section
/-! DEFINITION. The Datum timebase (spec/13): ticks and slews, compares, captures, transmit timestamps, gate lists, clock
source and sync chain. The commands that step C, and frame alignment, follow in Control.lean and Boundary.lean. -/

namespace Sys2Proof.Machine

/-- INC in force, in units of 2^-40 ns (R403). -/
def Dev.inc (d : Dev) : Nat :=
  d.fld (R .TB_INC_HI) 15 8 * 2 ^ 40 + d.fld (R .TB_INC_HI) 7 0 * 2 ^ 32 + d.reg (R .TB_INC_LO)

/-- The slew term of one tick (R407): INC times RATE in ppm, truncated. -/
def Dev.slewTerm (d : Dev) : Nat := d.inc * d.tb.rate / 1000000

/-- C moved by n units of 2^-40 ns, modulo 2^104. -/
def addC (c : Nat) (n : Int) : Nat := unsigned 104 ((c : Int) + n)

/-- C as a signed 64-bit distance from t (R409). -/
def Dev.sinceC (d : Dev) (t : Nat) : Int := signed 64 (d.now + 2 ^ 64 - t % 2 ^ 64)

/-- The target of compare n (R409). -/
def Dev.cmpTarget (d : Dev) (n : Nat) : Nat := d.reg (R .TB_CMP_TGT_LO n) + 2 ^ 32 * d.reg (R .TB_CMP_TGT_HI n)

/-- The target of compare n set. -/
def Dev.setCmpTarget (d : Dev) (n t : Nat) : Dev :=
  (d.setReg (R .TB_CMP_TGT_LO n) (t % 2 ^ 32)).setReg (R .TB_CMP_TGT_HI n) (t / 2 ^ 32 % 2 ^ 32)

/-- Compare n is armed and its target has been reached (R409). -/
def Dev.cmpDue (d : Dev) (n : Nat) : Bool := d.flag (R .TB_CMP_CFG n) 0 && decide (0 ≤ d.sinceC (d.cmpTarget n))

/-- The last target T + k PERIOD that lies at or before the integer nanosecond `first`, T where that is later or PERIOD is 0: the
target at which compare n fires when C passes `first` in one tick (R409). -/
def Dev.cmpFirst (d : Dev) (n first : Nat) : Nat :=
  let t := d.cmpTarget n
  let p := d.reg (R .TB_CMP_PERIOD n)
  let x := signed 64 (first + 2 ^ 64 - t)
  if p = 0 ∨ x < 0 then t else (t + x.toNat / p * p) % 2 ^ 64

/-- A pin's pulse (start, width) has not ended at C (R411). -/
def Dev.pulseOn (d : Dev) (x : Nat × Nat) : Bool := decide (d.sinceC x.1 < (x.2 : Int))

/-- A pulse joins those that a pin still carries (R411). -/
def Dev.pulse (d : Dev) (pin : Nat) (x : Nat × Nat) : Dev :=
  d.onTb fun b => { b with pinPulse := b.pinPulse.set pin (((b.pinPulse.getD pin []).filter d.pulseOn) ++ [x]) }

/-- The level of a pin (R411): the pulses routed to it ORed together. -/
def Dev.pinHigh (d : Dev) (pin : Nat) : Bool := (d.tb.pinPulse.getD pin []).any fun x => decide (0 ≤ d.sinceC x.1) && d.pulseOn x

/-- A compare fires (R409, R411): CMP_FIRED, its pulse from T on the pin of OUT (at least 8 ns), CHAIN_OUT_PPS from compare 0
in REGEN (R426), then disarm or the next target after C. `first` is C behind the first tick that has passed: a periodic compare fires
once there, and once at each of its targets that C passes later. -/
def Dev.fire (d : Dev) (n first : Nat) : Dev :=
  let t0 := d.cmpFirst n first
  let again := if d.reg (R .TB_CMP_PERIOD n) = 0 then 0 else (d.sinceC t0).toNat / d.reg (R .TB_CMP_PERIOD n)
  let t := t0 + again * d.reg (R .TB_CMP_PERIOD n)
  let out := d.fld (R .TB_CMP_CFG n) 29 27
  let width := max 8 (d.fld (R .TB_CMP_PULSE n) 29 0)
  let period := d.reg (R .TB_CMP_PERIOD n)
  let d := (d.raise (R .TB_FLAGS) (3 + n)).countEach (0x63 + n) again
  let d := if out = 0 then d else d.pulse out (t, width)
  let d := if n = 0 ∧ d.tb.chainMode = 1 then d.pulse 6 (t, width) else d
  if period = 0 then d.setFld (R .TB_CMP_CFG n) 0 0 0
  else d.setCmpTarget n ((t + period) % 2 ^ 64)

/-- A compare fires if it is due, where C stood at `first` behind the first tick (R409). -/
def Dev.compareFrom (d : Dev) (first n : Nat) : Dev := if decide (n < 8) && d.cmpDue n then d.fire n first else d

/-- COMPARE_FIRE: the compare fires if it is due (R409). -/
def Dev.compareFire (d : Dev) (n : Nat) : Dev := d.compareFrom d.now n

/-- After a step, a periodic compare with REBASE = 1 keeps its phase: T becomes the earliest T + k PERIOD at or after the new
C (R410). -/
def Dev.rebase (d : Dev) (n : Nat) : Dev :=
  let p := d.reg (R .TB_CMP_PERIOD n)
  if p = 0 ∨ !d.flag (R .TB_CMP_CFG n) 30 then d
  else d.setCmpTarget n ((d.now + ((-(d.sinceC (d.cmpTarget n))) % (p : Int)).toNat) % 2 ^ 64)

/-- The gate lists of port u. -/
def Dev.gates (d : Dev) (u : Nat) : Gates := d.tb.gates.getD u Gates.rest

/-- The gate lists of port u changed by f. -/
def Dev.onGates (d : Dev) (u : Nat) (f : Gates → Gates) : Dev :=
  d.onTb fun b => { b with gates := b.gates.put Gates.rest u (f (b.gates.getD u Gates.rest)) }

/-- GCL_START (R422): at S the pending list of port u becomes operational and the old one is cut. -/
def Dev.gclStart (d : Dev) (u : Nat) : Dev :=
  match (d.gates u).pending with
  | some g => if 0 ≤ d.sinceC g.start then (d.onGates u fun x => { x with pending := none, oper := some g }).raise (R .TB_FLAGS) 21 else d
  | none => d

/-- What the timebase does at its ticks beside counting: due compares fire (R409) and due gate lists start (R422); `first` is C behind
the first of the ticks. -/
def Dev.tbEvaluate (d : Dev) (first : Nat) : Dev :=
  let d := upTo 8 d fun n d => d.compareFrom first n
  d.tb.gates.foldl (fun d g => d.gclStart g.1) d

/-- SLEWING returns to 0 (R407, R429). -/
def Dev.slewDone (d : Dev) : Dev := (d.onTb fun b => { b with rho := 0 }).raise (R .TB_FLAGS) 1

/-- The ticks after which the slew remainder is 0 (R407). -/
def Dev.slewTicks (d : Dev) : Nat :=
  if d.tb.rho = 0 ∨ d.slewTerm = 0 then 0 else (d.tb.rho.natAbs + d.slewTerm - 1) / d.slewTerm

/-- A pending increment comes into force at the first tick after the write (R404). -/
def Dev.commitInc (d : Dev) : Dev :=
  match d.tb.incPending with
  | some v =>
    ((d.onTb fun b => { b with incPending := none }).setReg (R .TB_INC_LO) (v % 2 ^ 32)).setReg (R .TB_INC_HI) (v / 2 ^ 32)
  | none => d

/-- n ticks of the timebase island (R403, R404, R407): C grows by INC each tick, and by the slew term while a remainder is
left; operating seconds grow with the ticks (R526; log entry 38); then due compares and gate lists. -/
def Dev.advance (d : Dev) (n : Nat) : Dev :=
  if n = 0 then d
  else
    let d := d.commitInc
    let a := min d.tb.rho.natAbs (n * d.slewTerm)
    let δ : Int := if 0 < d.tb.rho then a else -(a : Int)
    let rho := d.tb.rho - δ
    let ends := decide (d.tb.rho ≠ 0) && decide (rho = 0)
    let a1 := min d.tb.rho.natAbs d.slewTerm
    let first := addC d.tb.c ((d.inc : Nat) + if 0 < d.tb.rho then (a1 : Int) else -(a1 : Int)) / 2 ^ 40
    let d := d.onTb fun b => { b with c := addC b.c ((n * d.inc : Nat) + δ), ticks := b.ticks + n, rho := rho }
    let d := d.opSeconds (d.tb.ticks / 781250000 - (d.tb.ticks - n) / 781250000)
    (if ends then d.slewDone else d).tbEvaluate first

/-- SLEW_COMPLETE (R407): the ticks up to the one that applies the last of the remainder. -/
def Dev.slewComplete (d : Dev) : Dev := d.advance d.slewTicks

/-! ### Register hooks -/

/-- A held low word (R570). -/
def Dev.holdInc (d : Dev) (v : Nat) : Dev := d.onTb fun b => { b with heldLow := some v }

/-- INC_HI_WRITE (R404): the new high word with the held low word, or the low word in force, from the next tick; an INC
outside 1.27872 to 1.28128 ns is refused and the held word discarded. -/
def Dev.incHiWrite (d : Dev) (v : Nat) : Dev :=
  let lo := d.tb.heldLow.getD (d.reg (R .TB_INC_LO))
  let inc := bits v 15 0 * 2 ^ 32 + lo
  let d := d.onTb fun b => { b with heldLow := none }
  -- 1.27872 and 1.28128 ns in units of 2^-40 ns, exactly: 100000 INC against 127872 * 2^40 and 128128 * 2^40
  if 100000 * inc < 127872 * 2 ^ 40 ∨ 128128 * 2 ^ 40 < 100000 * inc then d.cfgRefused (R .TB_FLAGS) 23
  else d.onTb fun b => { b with incPending := some inc }

/-- A held low word of compare n (R409, R570). -/
def Dev.holdCmp (d : Dev) (n v : Nat) : Dev := d.onTb fun b => { b with cmpHeld := b.cmpHeld.set n v }

/-- CMP_TGT_HI_WRITE (R409): the target commits with the held low word, and arms while EN = 1. -/
def Dev.cmpHiWrite (d : Dev) (n v : Nat) : Dev :=
  let lo := (d.tb.cmpHeld.get? n).getD (d.reg (R .TB_CMP_TGT_LO n))
  let d := d.onTb fun b => { b with cmpHeld := b.cmpHeld.erase n }
  let d := d.setCmpTarget n (lo + 2 ^ 32 * v)
  if d.flag (R .TB_CMP_CFG n) 31 then d.setFld (R .TB_CMP_CFG n) 0 0 1 else d

/-- An edge on capture input n (R412): input 4 is PPS_IN, or CHAIN_IN_PPS whose rising edges come with `chain`. -/
def Dev.captureEdge (d : Dev) (n : Nat) (falling : Bool) (chain : Bool) : Dev :=
  let cfg := d.reg (R .TB_CAP_CFG n)
  if 4 < n ∨ !bit cfg 31 ∨ bit cfg 30 ≠ falling ∨ (n = 4 ∧ bit cfg 29 ≠ chain ∧ !falling) then d
  else
    let d := d.raiseIf (bit cfg 28) (R .TB_FLAGS) 16
    ((d.onTb fun b => { b with capture := b.capture.put 0 n (d.now % 2 ^ 64) }).setFld (R .TB_CAP_CFG n) 28 28 1).raise
      (R .TB_FLAGS) (11 + n)

/-- CAP_LO_READ (R412): the low word, the high word latched into the shadow, VALID cleared. -/
def Dev.capLoRead (d : Dev) (n : Nat) : Dev :=
  let v := d.tb.capture.getD n 0
  ((d.setReg (R .TB_CAP_HI n) (v / 2 ^ 32)).setFld (R .TB_CAP_CFG n) 28 28 0).respond (.data (v % 2 ^ 32))

/-- TODCAP_T_LO_READ (R432). -/
def Dev.todcapLoRead (d : Dev) (n : Nat) : Dev :=
  let v := d.tb.todResult.getD n 0
  (d.setReg (R .TB_TODCAP_T_HI n) (v / 2 ^ 32)).respond (.data (v % 2 ^ 32))

/-- NOW_LO_READ (R430). -/
def Dev.nowLoRead (d : Dev) : Dev :=
  (d.setReg (R .TB_NOW_HI) (d.now / 2 ^ 32 % 2 ^ 32)).respond (.data (d.now % 2 ^ 32))

/-- TOD_NS_READ (R430). -/
def Dev.todNsRead (d : Dev) : Dev :=
  ((d.setReg (R .TB_TOD_S_LO) (d.todS % 2 ^ 32)).setReg (R .TB_TOD_S_HI) (d.todS / 2 ^ 32)).respond (.data d.todNs)

/-- TODCAP_ARM (R415): slot n armed for TREE and the target SFC as they stand. -/
def Dev.todcapArm (d : Dev) (n : Nat) : Dev :=
  (d.onTb fun b => { b with todTarget := b.todTarget.set n ⟨d.fld (R .TB_TODCAP_CTL n) 5 0, d.reg (R .TB_TODCAP_SFC n)⟩ }).setFld
    (R .TB_TODCAP_CTL n) 30 29 1

/-- The armed slots whose target satisfies p are cancelled (R415). -/
def Dev.todcapCancel (d : Dev) (p : TodTarget → Bool) : Dev :=
  d.tb.todTarget.foldl (fun d x =>
    if p x.2 then
      (d.onTb fun b => { b with todTarget := b.todTarget.erase x.1 }).setFld (R .TB_TODCAP_CTL x.1) 30 29 3
    else d) d

/-! ### Transmit timestamps (R416, R417) -/

/-- A frame's timestamp enters its port's queue, or is discarded when the queue holds 64 entries (R417): TXTS_OVF, LOST, and
a record only for the first overflow after each clear of TXTS_OVF. -/
def Dev.txStamp (d : Dev) (u : Nat) (e : TxStamp) : Dev :=
  let q := d.tb.txts.getD u []
  if q.length < 64 then d.onTb fun b => { b with txts := b.txts.put [] u (q ++ [e]) }
  else
    let first := !d.flag (R .TB_FLAGS) 17
    let d := d.setReg (R .TB_TXTS_LOST u) (min (d.reg (R .TB_TXTS_LOST u) + 1) 0xFFFFFFFF)
    let d := d.count (0xA00 + 16 * u + 15)
    if first then d.raiseRec (R .TB_FLAGS) 17 .tb u false [(1, u), (2, e.id)] else d.raise (R .TB_FLAGS) 17

/-- TXTS_POP (R416): the head entry leaves; a pop of an empty queue has no effect. -/
def Dev.txtsPop (d : Dev) (u : Nat) : Dev :=
  d.onTb fun b => { b with txts := b.txts.put [] u ((b.txts.getD u []).drop 1) }

/-- CLR_LOST (R433); a loss in the same cycle leaves 1. -/
def Dev.clrLost (d : Dev) (u : Nat) (lossNow : Bool) : Dev := d.setReg (R .TB_TXTS_LOST u) (b2n lossNow)

/-! ### Gate lists (R420 to R423) -/

/-- The index of the entry that covers phase ph of a cycle, and the ns until it ends (R421). -/
def gateAt : List GateEntry → Nat → Nat → Nat → Nat × Nat
  | [], i, _, _ => (i, 0)
  | [_], i, ph, cycle => (i, cycle - ph)
  | e :: es, i, ph, cycle => if ph < e.ns then (i, min e.ns cycle - ph) else
    let (j, left) := gateAt es (i + 1) (ph - e.ns) (cycle - e.ns)
    (j, left)

/-- The entry that an operational list runs now (R423); none before S. -/
def Dev.gateNow (d : Dev) (g : GateList) : Option Nat :=
  let x := d.sinceC g.start
  if x < 0 then none else some (gateAt g.entries 0 (x.toNat % g.cycle) g.cycle).1

/-- The ns for which the gate of a class stays open from phase ph on, at most one cycle (R421). -/
def openFor : List GateEntry → Nat → Nat → Nat → Nat
  | [], _, _, _ => 0
  | e :: es, cls, ph, cycle =>
    if cycle = 0 then 0
    else
      let len := if es.isEmpty then cycle else min e.ns cycle
      if len ≤ ph then openFor es cls (ph - len) (cycle - len)
      else if bit e.gates cls then (len - ph) + openFor es cls 0 (cycle - len)
      else 0

/-- The longest open interval of a class in a cycle, over its entries' starts (R421). -/
def longestOpen (es : List GateEntry) (cls cycle : Nat) : Nat :=
  let starts := (es.foldl (fun (x : Nat × List Nat) e => (x.1 + e.ns, x.2 ++ [x.1])) (0, [])).2.filter fun s => decide (s < cycle)
  starts.foldl (fun m s => max m (openFor es cls s cycle + if openFor es cls s cycle = cycle - s then openFor es cls 0 cycle else 0)) 0

/-- The ns for which the gate of a class has been open up to phase ph of a cycle, after `acc` before these entries (R421). -/
def openBefore : List GateEntry → Nat → Nat → Nat → Nat → Nat
  | [], _, _, _, acc => acc
  | e :: es, cls, ph, cycle, acc =>
    let len := if es.isEmpty then cycle else min e.ns cycle
    let gate := bit e.gates cls
    if ph < len then if gate then acc + ph else 0
    else openBefore es cls (ph - len) (cycle - len) (if gate then acc + len else 0)

/-- Whether port u's gates let a packet of class cls start that takes ns nanoseconds, and whether it overruns (R420, R421): it fits before
its class gate closes, which a gate open all cycle never does, or fits in no open interval of the list and is sent at the start of the
next one, so that it has waited at its queue's head since the gate opened; `waited` is for how many ns it has stood there. -/
def Dev.gateOpen (d : Dev) (u cls ns waited : Nat) : Bool × Bool :=
  match (d.gates u).oper with
  | none => (true, false)
  | some g =>
    let x := d.sinceC g.start
    if x < 0 ∨ openFor g.entries cls 0 g.cycle = g.cycle then (true, false)
    else
      let ph := x.toNat % g.cycle
      let left := openFor g.entries cls ph g.cycle
      let left := if left = g.cycle - ph then left + openFor g.entries cls 0 g.cycle else left
      if left = 0 then (false, false)
      else if ns ≤ left then (true, false)
      else
        let run := openBefore g.entries cls ph g.cycle 0
        let run := if run = ph ∧ ph < x.toNat then run + openBefore g.entries cls g.cycle g.cycle 0 else run
        if longestOpen g.entries cls g.cycle < ns ∧ run ≤ waited then (true, true) else (false, false)

/-- A GCL opcode's port: none where OBJ[3:0] is not a port's lowest lane (R434). -/
def Dev.gclPort (d : Dev) (a : Accepted) : Option Nat := (d.portDef (bits a.obj 3 0)).map PortDef.lane

/-- GCL_WRITE (R434). -/
def opGclWrite (a : Accepted) (d : Dev) : CmdRes :=
  if !trusted a.src then .refuse .denied (b2n (d.gates (bits a.obj 3 0)).pending.isSome)
  else match d.gclPort a with
  | none => .refuse .badArgument 0
  | some u =>
    if a.db 0 23 0 < 64 then .refuse .badArgument 0
    else if (d.gates u).pending.isSome then .refuse .notInState 1
    else .done (d.onGates u fun g => { g with admin := g.admin.set (bits a.obj 15 8) ⟨a.db 0 31 24, a.db 0 23 0⟩ }) .ok []

/-- The admin entries 0 to count - 1; an entry never written is all gates closed for 0 ns (log entry 8). -/
def adminEntries (t : Table GateEntry) (count : Nat) : List GateEntry := (List.range count).map fun i => t.getD i ⟨0, 0⟩

/-- The start S of a list committed at C = now with base B (R422). -/
def gclStartTime (now b cycle : Nat) : Nat := if now + 2000 ≤ b then b else b + (now + 2000 - b + cycle - 1) / cycle * cycle

/-- GCL_COMMIT (R422, R434). -/
def opGclCommit (a : Accepted) (d : Dev) : CmdRes :=
  if !trusted a.src then .refuse .denied (b2n (d.gates (bits a.obj 3 0)).pending.isSome)
  else match d.gclPort a with
  | none => .refuse .badArgument 0
  | some u =>
    let n := a.db 3 8 0
    if a.dat 2 < 256 ∨ n = 0 ∨ 256 < n then .refuse .badArgument 0
    else if (d.gates u).pending.isSome then .refuse .notInState 1
    else
      let s := gclStartTime (d.now % 2 ^ 64) (a.dat64 0) (a.dat 2) % 2 ^ 64
      .done (d.onGates u fun g => { g with pending := some ⟨s, a.dat 2, adminEntries g.admin n⟩ }) .ok []

/-- GCL_CANCEL (R434). -/
def opGclCancel (a : Accepted) (d : Dev) : CmdRes :=
  if !trusted a.src then .refuse .denied (b2n (d.gates (bits a.obj 3 0)).pending.isSome)
  else match d.gclPort a with
  | none => .refuse .badArgument 0
  | some u =>
    if (d.gates u).pending.isNone then .done d .notFound []
    else .done (d.onGates u fun g => { g with pending := none }) .ok []

/-- GCL_STOP (R434). -/
def opGclStop (a : Accepted) (d : Dev) : CmdRes :=
  if !trusted a.src then .refuse .denied (b2n (d.gates (bits a.obj 3 0)).pending.isSome)
  else match d.gclPort a with
  | none => .refuse .badArgument 0
  | some u =>
    if (d.gates u).oper.isNone then .done d .notFound []
    else .done (d.onGates u fun g => { g with oper := none }) .ok []

/-- GCL_READ (R434): entry, state, S, CYCLE_NS, count and the entry now running. -/
def opGclRead (a : Accepted) (d : Dev) : CmdRes :=
  if !trusted a.src then .refuse .denied (b2n (d.gates (bits a.obj 3 0)).pending.isSome)
  else match d.gclPort a with
  | none => .refuse .badArgument 0
  | some u =>
    let g := d.gates u
    let oper := bit a.obj 16
    let i := bits a.obj 15 8
    let l : Option GateList := if oper then g.oper else g.pending
    let n := match l with
      | some x => x.entries.length
      | none => if oper then 0 else (g.admin.foldl (fun m e => max m (e.1 + 1)) 0)
    if n ≤ i then .done d .notFound []
    else
      let e : GateEntry := match l with
        | some x => x.entries.getD i ⟨0, 0⟩
        | none => g.admin.getD i ⟨0, 0⟩
      let st := if oper then 2 else if l.isSome then 1 else 0
      let s := (l.map GateList.start).getD 0
      let cyc := (l.map GateList.cycle).getD 0
      let run := match l with
        | some x => if oper then (d.gateNow x).getD 0 else 0
        | none => 0
      .done d .ok ([(0, e.gates * 2 ^ 24 + e.ns), (1, st)] ++ outWords 2 2 s ++ [(4, cyc), (5, n + run * 2 ^ 16)])

/-- TIME_SLEW (R407, R434): a new slew replaces the old remainder and rate; no step. -/
def opTimeSlew (a : Accepted) (d : Dev) : CmdRes :=
  if !trusted a.src then .refuse .denied 0
  else
    let δ := signed 32 (a.dat 0)
    let rate := a.db 1 9 0
    if 1000000 < δ.natAbs ∨ rate = 0 ∨ 1000 < rate then .refuse .badArgument 0
    else if δ = 0 ∧ d.tb.rho ≠ 0 then .done (d.onTb fun b => { b with rate := rate }).slewDone .ok []
    else .done (d.onTb fun b => { b with rho := δ * (2 ^ 40 : Int), rate := rate }) .ok []

/-! ### Clock source and sync chain -/

/-- LOS or LOL of the lane of SyncE output 0 (R408). -/
def Dev.rec0Bad (d : Dev) : Bool := d.fld (R .LX_UL_STATUS (d.fld (R .TB_SYNCE_CFG) 3 0)) 1 0 ≠ 0

/-- CLOCK_FALLBACK (R408): LOS or LOL on REC0's lane returns the island to REFCLK_ETH; C continues. -/
def Dev.clockFallback (d : Dev) : Dev :=
  if d.flag (R .TB_CTL) 0 && !d.flag (R .TB_STATUS) 28 && d.rec0Bad then
    (d.setFld (R .TB_STATUS) 28 28 1).raise (R .TB_FLAGS) 2
  else d

/-- n ticks have passed since the last rising edge on CHAIN_IN_PPS, or there was none. -/
def Dev.chainQuiet (d : Dev) (n : Nat) : Bool :=
  match d.tb.lastChainEdge with
  | some t => decide (t + n ≤ d.tb.ticks)
  | none => true

/-- CHAIN_MODE_CHANGE (R426): the written MODE comes into force once 500 ms (390,625,000 ticks) have passed since the last rising
edge on CHAIN_IN_PPS; none for 2 s lies beyond that. -/
def Dev.chainModeChange (d : Dev) : Dev :=
  if d.chainQuiet 390625000 then d.onTb fun b => { b with chainMode := d.fld (R .TB_CHAIN_CFG) 0 0 } else d

/-- CHAIN_IN_PPS_EDGE (R412, R426): the edge is noted, and capture input 4 sees it when it selects CHAIN_IN_PPS. -/
def Dev.chainEdge (d : Dev) : Dev := (d.onTb fun b => { b with lastChainEdge := some b.ticks }).captureEdge 4 false true

/-- The PPS switch is closed (R425, R426): in HELD, BOOTING and FAILED, and in BYPASS. -/
def Dev.ppsClosed (d : Dev) : Bool :=
  match d.im.state with
  | .structured | .running | .quiesced => d.tb.chainMode == 0
  | _ => true

/-- A rising edge on CHAIN_IN_PPS was seen within 2 s (R431): 1,562,500,000 ticks. -/
def Dev.ppsSeen (d : Dev) : Bool := !d.chainQuiet 1562500000

end Sys2Proof.Machine
end

