-- ==== Sys2Proof/Machine/Trees.lean ====
section
/-! DEFINITION. Reading and changing the state of trees, terminals, profiles and allocations, the performance bins (R133 to
R137), and what every tree family shares. -/

namespace Sys2Proof.Machine

/-! ### Access -/

/-- The framer of tree t. -/
def Dev.tf (d : Dev) (t : Nat) : TfTree := d.rx.tf.getD t TfTree.rest
/-- The framer of tree t changed by f. -/
def Dev.onTf (d : Dev) (t : Nat) (f : TfTree → TfTree) : Dev :=
  d.onRx fun x => { x with tf := x.tf.put TfTree.rest t (f (x.tf.getD t TfTree.rest)) }
/-- Terminal slot g (global index). -/
def Dev.term (d : Dev) (g : Nat) : Term := d.rx.terms.getD g Term.rest
/-- Terminal slot g changed by f. -/
def Dev.onTerm (d : Dev) (g : Nat) (f : Term → Term) : Dev :=
  d.onRx fun x => { x with terms := x.terms.put Term.rest g (f (x.terms.getD g Term.rest)) }
/-- The Benchmark profile of terminal g. -/
def Dev.prof (d : Dev) (g : Nat) : BProf := d.rx.profs.getD g BProf.rest
/-- The Benchmark profile of terminal g changed by f. -/
def Dev.onProf (d : Dev) (g : Nat) (f : BProf → BProf) : Dev :=
  d.onRx fun x => { x with profs := x.profs.put BProf.rest g (f (x.profs.getD g BProf.rest)) }
/-- The ranging engine of tree t. -/
def Dev.rg (d : Dev) (t : Nat) : RgTree := d.rx.rg.getD t RgTree.rest
/-- The ranging engine of tree t changed by f. -/
def Dev.onRg (d : Dev) (t : Nat) (f : RgTree → RgTree) : Dev :=
  d.onRx fun x => { x with rg := x.rg.put RgTree.rest t (f (x.rg.getD t RgTree.rest)) }
/-- The scheduler of tree t. -/
def Dev.gs (d : Dev) (t : Nat) : GsTree := d.rx.gs.getD t GsTree.rest
/-- The scheduler of tree t changed by f. -/
def Dev.onGs (d : Dev) (t : Nat) (f : GsTree → GsTree) : Dev :=
  d.onRx fun x => { x with gs := x.gs.put GsTree.rest t (f (x.gs.getD t GsTree.rest)) }
/-- The bins of reach r. -/
def Dev.pm (d : Dev) (r : Nat) : PmReach := d.rx.pm.getD r PmReach.rest
/-- The bins of reach r changed by f. -/
def Dev.onPm (d : Dev) (r : Nat) (f : PmReach → PmReach) : Dev :=
  d.onRx fun x => { x with pm := x.pm.put PmReach.rest r (f (x.pm.getD r PmReach.rest)) }

/-- Tree t runs XG-PON mode (R114, R115). -/
def Dev.xg (d : Dev) (t : Nat) : Bool := (d.im.str.trees.get? t).any TreeDef.xgpon

/-- L, the upstream bits of a frame (R77, R152). -/
def Dev.frameBits (d : Dev) (t : Nat) : Nat := if d.xg t then 311040 else 1244160

/-- The reach of tree t is LIT. -/
def Dev.lit (d : Dev) (t : Nat) : Bool := (d.reach (t / 8)).state == .lit

/-- A detail event of reach r (R528): 0x140 + 64 r + o. -/
def Dev.countRx (d : Dev) (t o : Nat) : Dev := d.count (0x140 + 64 * (t / 8) + o)

/-- The trees of reach r. -/
def treesOf (r : Nat) : List Nat := (List.range 8).map fun i => 8 * r + i

/-- A VF source may act on tree t only if its slice owns the tree; other sources always may (R53, R149). -/
def Dev.treeOpen (d : Dev) (src : Src) (t : Nat) : Bool :=
  match sliceOf? src with
  | some s => d.treeInSlice t s
  | none => true

/-- A count of 0 is treated as 1 (R145 and its like). -/
def atLeast1 (n : Nat) : Nat := max 1 n

/-- TEQ of a reach (R191). -/
def Dev.teq (d : Dev) (t : Nat) : Nat := d.fld (R .RG_EQ_CFG (t / 8)) 23 0

/-- A time in µs as bits at 9.95328 Gbit/s, rounded down (R153). -/
def usBits (us : Nat) : Nat := us * 995328 / 100

/-- A time in µs as bits at 9.95328 Gbit/s, rounded up (R153, R159). -/
def usBitsUp (us : Nat) : Nat := (us * 995328 + 99) / 100

/-- min_rtd of tree t in bits, rounded down (R153). -/
def Dev.minRtd (d : Dev) (t : Nat) : Nat := usBits (d.fld (R .RG_TREE_CFG t) 9 0)

/-- max_rtd of tree t in bits, rounded up (R153). -/
def Dev.maxRtd (d : Dev) (t : Nat) : Nat := usBitsUp (d.fld (R .RG_TREE_CFG t) 25 16)

/-- rand: SN_RAND_US in bits, rounded up (R159). -/
def Dev.rand (d : Dev) (t : Nat) : Nat := usBitsUp (d.fld (R .RG_EQ_CFG (t / 8)) 31 24)

/-- TF_US_CFG in force (R142): as it stood at the lane's latest swap bit. -/
def Dev.usCfgNow (d : Dev) (t : Nat) : Nat := ((d.lx.pbSetup.get? t).map PbSetup.usCfg).getD (d.reg (R .TF_US_CFG t))

/-- DELIM_WIN of tree t (R142). -/
def Dev.delimWin (d : Dev) (t : Nat) : Nat := bits (d.usCfgNow t) 3 0

/-! ### Performance bins (R133 to R137) -/

/-- The key of a terminal's bins within its reach. -/
def pmTermKey (g : Nat) : Nat := g % 4096
/-- The key of a tree's bins within its reach. -/
def pmTreeKey (t : Nat) : Nat := 4096 + t % 8

/-- Counter i of a counter list grown by n: terminal counters are 32-bit and saturate, tree counters are 64-bit and wrap
(R134). -/
def PmObj.add (o : PmObj) (tree : Bool) (i n : Nat) : PmObj :=
  let v := o.cnt.getD i 0 + n
  let cnt := (o.cnt ++ List.replicate (i + 1 - o.cnt.length) 0)
  if tree then { o with cnt := cnt.set i (v % 2 ^ 64) }
  else { o with cnt := cnt.set i (min v 0xFFFFFFFF), sat := o.sat || decide (0xFFFFFFFF < v) }

/-- Both current bins of an object grow (R133, R135). -/
def Dev.pmAdd (d : Dev) (r key i n : Nat) : Dev :=
  if n = 0 || !(d.pm r).running then d
  else
    let f (t : Table PmObj) : Table PmObj := t.put PmObj.rest key ((t.getD key PmObj.rest).add (decide (4096 ≤ key)) i n)
    d.onPm r fun p => { p with qObjs := f p.qObjs, dObjs := f p.dObjs }

/-- A terminal counter (R134). -/
def Dev.pmTerm (d : Dev) (g i n : Nat) : Dev := d.pmAdd (g / 4096) (pmTermKey g) i n

/-- A tree counter (R134). -/
def Dev.pmTree (d : Dev) (t i n : Nat) : Dev := d.pmAdd (t / 8) (pmTreeKey t) i n

/-- A 15-minute bin or day bin closes and a new one starts (R135, R136). -/
def PmReach.close (p : PmReach) (day part : Bool) (s : Nat) : PmReach :=
  let h := if day then p.d else p.q
  let c : PmClosed := ⟨h, if day then p.dObjs else p.qObjs⟩
  let n : PmHdr := ⟨s, (h.seq + 1) % 2 ^ 32, 0, part, 0⟩
  let p := { p with waiting := p.waiting ++ [(day, c)] }
  if day then { p with d := n, dObjs := [] } else { p with q := n, qObjs := [] }

/-- DAY_OFFSET_Q as it counts (R148). -/
def Dev.dayOffset (d : Dev) (r : Nat) : Nat :=
  let q := d.fld (R .TF_PM_CFG r) 6 0
  if q < 96 then q else 0

/-- A crossing of a multiple of m (shifted by off) between two times. -/
def crossed (a b m off : Nat) : Bool := decide ((a + m - off % m) / m < (b + m - off % m) / m)

/-- TIME_DISC for both kinds of bin (R136). -/
def PmReach.stepped (p : PmReach) : PmReach :=
  { p with q := { p.q with discs := p.q.discs + 1 }, d := { p.d with discs := p.d.discs + 1 } }

/-- The bins of a reach at a downstream frame boundary (R133 to R137): a time step leaves its mark, then each kind closes once, for a step,
for its scheduled boundary or for both, and the boundary is counted. A new bin is PARTIAL where a step opened it. A write of
DAY_OFFSET_Q takes effect at the next day boundary of the old value. -/
def Dev.pmBoundary (d : Dev) (r : Nat) : Dev :=
  let p := d.pm r
  if !p.running then d
  else
    let s := d.todS
    let q := p.crossQ || crossed p.lastS s 900 0
    let dd := p.crossD || crossed p.lastS s 86400 (900 * p.dayOff)
    let p1 := if p.step = 0 then p else p.stepped
    let p2 := if q || decide (2 ≤ p.step) then p1.close false (decide (2 ≤ p.step)) s else p1
    let p3 := if dd || decide (3 ≤ p.step) then p2.close true (decide (3 ≤ p.step)) s else p2
    let p4 := { p3 with step := 0, crossQ := false, crossD := false, lastS := s, dayOff := if dd then d.dayOffset r else p.dayOff
                        q := { p3.q with frames := p3.q.frames + 1 }, d := { p3.d with frames := p3.d.frames + 1 } }
    let d1 := d.onPm r fun _ => p4
    if p.step = 0 then d1 else (treesOf r).foldl (fun d t => d.raise (R .TF_FLAGS t) 6) d1

/-- What a time-of-day step from s0 to s1 does to a reach's bins (R136): a scheduled boundary passed before the step stands, as does a
day boundary that a step forwards crosses. -/
def Dev.pmStep (d : Dev) (r s0 s1 : Nat) (back : Bool) : Dev :=
  d.onPm r fun p =>
    if !p.running then
      { p with dayOff := if crossed p.lastS s0 86400 (900 * p.dayOff) || (!back && crossed s0 s1 86400 (900 * p.dayOff)) then d.dayOffset r else p.dayOff
               lastS := s1 }
    else
      let q := !back && crossed s0 s1 900 0
      let day := !back && crossed s0 s1 86400 (900 * p.dayOff)
      let k := if back then 3 else if q then (if day then 3 else 2) else 1
      { p with step := max p.step k, crossQ := p.crossQ || crossed p.lastS s0 900 0
               crossD := p.crossD || crossed p.lastS s0 86400 (900 * p.dayOff) || day, lastS := s1 }

/-- While no bins run, a day boundary of the value in use that has passed brings DAY_OFFSET_Q as it stands into use (R137). -/
def Dev.pmDay (d : Dev) (r : Nat) : Dev :=
  d.onPm r fun p =>
    if p.running then p
    else { p with dayOff := if crossed p.lastS d.todS 86400 (900 * p.dayOff) then d.dayOffset r else p.dayOff, lastS := d.todS }

/-- A write of TF_PM_CFG (R137, R148): DAY_OFFSET_Q comes into use at the next day boundary of the value in use. -/
def Dev.pmCfgWrite (d : Dev) (r v : Nat) : Dev := (d.pmDay r).setReg (R .TF_PM_CFG r) (bits v 6 0)

/-- The bins of a reach start at the boundary at which it becomes LIT, with PARTIAL; that boundary counts, SEQ goes on, and the day
boundaries are those of the DAY_OFFSET_Q in use (R134, R137). -/
def Dev.pmStart (d : Dev) (r : Nat) : Dev :=
  (d.pmDay r).onPm r fun p => { p with
    running := true, q := ⟨d.todS, p.q.seq, 1, true, 0⟩, d := ⟨d.todS, p.d.seq, 1, true, 0⟩
    qObjs := [], dObjs := [], step := 0, crossQ := false, crossD := false, lastS := d.todS }

/-- DARKEN_REACH and resets discard the current bins (R137). DESIGN CHOICE: a discarded bin uses up its SEQ; the next bins take the next
(log entry 131). -/
def Dev.pmDiscard (d : Dev) (r : Nat) : Dev :=
  d.onPm r fun p =>
    if p.running then
      { p with running := false, qObjs := [], dObjs := []
               q := { PmHdr.rest with seq := (p.q.seq + 1) % 2 ^ 32 }, d := { PmHdr.rest with seq := (p.d.seq + 1) % 2 ^ 32 } }
    else p

/-- The history slot of a closed bin (R135): 15-minute bins by SEQ modulo 32, the day bin in slot 32. -/
def pmSlot (day : Bool) (seq : Nat) : Nat := if day then 32 else seq % 32

/-- The byte offset in the far tier of history slot h of an object of reach r (R318). -/
def pmOffset (r key h : Nat) : Nat :=
  if key < 4096 then ((4096 * r + key) * 33 + h) * 64 else 69206016 + ((8 * r + (key - 4096)) * 33 + h) * 128

/-- Far cell c holds a bin of history slot h of an object of reach r (R318): a cell holds 32 places of terminal bins, or 16 of tree
bins. -/
def pmCellOf (r h c : Nat) : Bool :=
  if c < 33792 then (List.range 32).any fun i => (32 * c + i) % 33 == h && (32 * c + i) / 33 / 4096 == r
  else (List.range 16).any fun i => (16 * (c - 33792) + i) % 33 == h && (16 * (c - 33792) + i) / 33 / 8 == r

/-- PM_HISTORY_WRITE (R135): the closed bins of reach r reach the history region, each displacing the oldest of its kind, and
PM_CLOSED sets for the trees. -/
def Dev.pmHistoryWrite (d : Dev) (r : Nat) : Dev :=
  let p := d.pm r
  if p.waiting.isEmpty then d
  else
    let d := d.resWrite fun c => p.waiting.any fun w => pmCellOf r (pmSlot w.1 w.2.hdr.seq) c
    let d := d.onPm r fun p =>
      p.waiting.foldl (fun (p : PmReach) w =>
        if w.1 then { p with histDay := some w.2 } else { p with hist := (w.2 :: p.hist).take 32 }) { p with waiting := [] }
    ((treesOf r).filter d.treeExists).foldl (fun d t => d.raise (R .TF_FLAGS t) 5) d

/-- The bytes of a bin (R134). -/
def pmBytes (h : PmHdr) (o : PmObj) (tree valid : Bool) : List Byte :=
  let flags := b2n (h.part || o.part) + 2 * b2n (decide (o.discBase < h.discs)) + 4 * b2n o.sat + 8 * b2n valid
  leBytes 6 h.startS ++ leBytes 1 flags ++ [0] ++ leBytes 4 (h.frames - o.base) ++ leBytes 4 h.seq ++
  if tree then (List.range 14).flatMap fun i => leBytes 8 (o.cnt.getD i 0)
  else (List.range 12).flatMap fun i => leBytes 4 (o.cnt.getD i 0)

/-- The bytes of bin BIN of an object, or none while its history write is pending (R149). DESIGN CHOICE: a current bin reads FLAGS.VALID = 0,
which R134 gives for history slots alone (log entry 93); a slot never filled reads zero. -/
def Dev.pmRead (d : Dev) (r key bin : Nat) : Option (List Byte) :=
  let p := d.pm r
  let tree := decide (4096 ≤ key)
  let zero := List.replicate (if tree then 128 else 64) (0 : Byte)
  let get (c : PmClosed) := pmBytes c.hdr (c.objs.getD key PmObj.rest) tree true
  if bin = 0 then some (if p.running then pmBytes p.q (p.qObjs.getD key PmObj.rest) tree false else zero)
  else if bin = 1 then some (if p.running then pmBytes p.d (p.dObjs.getD key PmObj.rest) tree false else zero)
  else if bin = 2 then
    if p.waiting.any fun w => w.1 then none else some ((p.histDay.map get).getD zero)
  else
    let w := (p.waiting.filter fun w => !w.1).length
    if bin - 3 < w then none
    else some (((p.hist[bin - 3 - w]?).map get).getD zero)

/-- The far cell that holds a history bin that PM_READ names, once written (R318, R337). -/
def Dev.pmCell (d : Dev) (r key bin : Nat) : Option Nat :=
  let p := d.pm r
  if bin < 2 then none
  else if bin = 2 then p.histDay.map fun c => pmOffset r key (pmSlot true c.hdr.seq) / 2048
  else
    let w := (p.waiting.filter fun w => !w.1).length
    (p.hist[bin - 3 - w]?).map fun c => pmOffset r key (pmSlot false c.hdr.seq) / 2048

/-- PM_RESET_CURRENT (R137): both current bins of the object zeroed, TIME_DISC among the rest, with PARTIAL. -/
def Dev.pmReset (d : Dev) (r key : Nat) : Dev :=
  d.onPm r fun p =>
    if p.running then
      { p with qObjs := p.qObjs.set key ⟨p.q.frames, p.q.discs, true, false, []⟩
               dObjs := p.dObjs.set key ⟨p.d.frames, p.d.discs, true, false, []⟩ }
    else p

/-- The octets that a queue of the traffic manager holds (R204, R298): LEN over both its lists. -/
def Dev.queueOcc (d : Dev) (q : Nat) : Nat :=
  let x := d.tm.queues.getD q Queue.rest
  ((x.near ++ x.far).map Held.len).foldl (· + ·) 0

/-- A tree under protection control that is not ACTIVE here takes its state from the mate (R157, R469). -/
def Dev.copyTree (d : Dev) (t : Nat) : Bool := (d.tf t).protCtrl && (d.tf t).state == .standby

/-! ### State copy (R451) -/

/-- An event of a driven tree enters the copy backlog of 1 MiB by its object, whose image is taken when it is sent; an overflow discards
every event and a full pass is due (R451). -/
def Dev.pxEvent (d : Dev) (t : Nat) (r : CopyObj) : Dev :=
  if d.im.str.mode = 1 ∧ bit d.im.str.protTrees t ∧ (d.px.trees.getD t PxTree.rest).state = .active then
    let b := d.px.backlog ++ [r]
    if (b.map CopyObj.bytes).foldl (· + ·) 0 ≤ 1048576 then d.onPx fun x => { x with backlog := b }
    else (d.onPx fun x => { x with backlog := [], passDue := true }).raise (R .PX_FLAGS) 10
  else d

/-! ### Allocations of a slot -/

/-- The present SFC of tree t. -/
def Dev.sfc (d : Dev) (t : Nat) : Nat := (d.tf t).sfc

/-- Credits and residual zeroed and predictor reset (R198). -/
def AllocRun.reset (sfc : Nat) : AllocRun := { AllocRun.rest with pred := Pred.reset sfc }

/-- The day profiles of the allocation entries in use join those that the reserved region keeps (R318). -/
def RxState.keepDays (x : RxState) (p : Nat → Nat → Bool) : Table (Table Nat) :=
  x.gs.foldl (fun t g => g.2.allocs.foldl (fun t a =>
    if p g.1 a.1 then t.set (2048 * g.1 + a.1) a.2.run.pred.day else t) t) x.days

/-- On a slot's entry to PROVISIONED, DISABLED or FREE its allocations lose credits, residual and predictors (R198). -/
def Dev.gsSlotReset (d : Dev) (g : Nat) : Dev :=
  let t := g / 512
  let s := g % 512
  d.onGs t fun x =>
    { x with defaults := x.defaults.erase s
             allocs := x.allocs.mapVal fun _ a => if a.par.slot = s then { a with run := AllocRun.reset (d.sfc t) } else a }

/-- A ranging request of a slot: it waits for the first computation with a free place, and RANGE_WAIT is set while one waits
(R163, R215). -/
def Dev.rangeRequest (d : Dev) (g : Nat) : Dev :=
  let t := g / 512
  let old := (d.gs t).rangeReq
  if old.contains (g % 512) then d
  else (d.onGs t fun x => { x with rangeReq := old ++ [g % 512] }).raiseLevel (R .GS_FLAGS t) 6 old.isEmpty

/-- A slot left ASSIGNED: its request and its windows whose grant has not been sent are cancelled (R215). -/
def Dev.rangeCancel (d : Dev) (g : Nat) : Dev :=
  d.onGs (g / 512) fun x =>
    { x with rangeReq := x.rangeReq.filter fun s => s ≠ g % 512
             wins := x.wins.filter fun w => !(w.kind == .ranging && w.slot == g % 512 && decide (d.sfc (g / 512) < w.frame)) }

end Sys2Proof.Machine
end

