-- ==== Sys2Proof/Machine/Keys.lean ====
section
/-! DEFINITION. PON keys (spec/11, R349 to R360): slots, pairs and holds, usage and lifetime, switches at boundaries, counter
repeats, and the PON opcodes of CE_CMD (R378). -/

namespace Sys2Proof.Machine

/-! ### Slots and pairs (R349) -/

/-- The pair of a unicast terminal, and of a tree's broadcast keys. -/
def uniPair (g : Nat) : Nat := g
def bcastPair (t : Nat) : Nat := 32768 + t

/-- The slot of key index i of a pair (R349): unicast 2 g + i - 1, broadcast 65,536 + 2 t + i - 1. -/
def pairSlot (pr i : Nat) : Nat := 2 * pr + (i - 1)

/-- Broadcast slots lie from 65,536 on. -/
def slotBcast (n : Nat) : Bool := decide (65536 ≤ n)

/-- The slot number that registers and records give (R349). -/
def slotNo (n : Nat) : Nat := if slotBcast n then n - 65536 else n

/-- The tree of a slot. -/
def slotTree (n : Nat) : Nat := if slotBcast n then (n - 65536) / 2 else n / 1024

/-- A PON key slot. -/
def Dev.key (d : Dev) (n : Nat) : KeySlot := d.ce.keys.getD n KeySlot.rest

/-- A PON key slot changed by f. -/
def Dev.onKey (d : Dev) (n : Nat) (f : KeySlot → KeySlot) : Dev :=
  d.onCe fun c => { c with keys := c.keys.put KeySlot.rest n (f (c.keys.getD n KeySlot.rest)) }

/-- A key pair. -/
def Dev.pair (d : Dev) (pr : Nat) : KeyPair := d.ce.pairs.getD pr KeyPair.rest

/-- A key pair changed by f. -/
def Dev.onPair (d : Dev) (pr : Nat) (f : KeyPair → KeyPair) : Dev :=
  d.onCe fun c => { c with pairs := c.pairs.put KeyPair.rest pr (f (c.pairs.getD pr KeyPair.rest)) }

/-- The index of a pair's ACTIVE slot, if any (R350). -/
def Dev.activeIdx (d : Dev) (pr : Nat) : Option Nat := [1, 2].find? fun i => (d.key (pairSlot pr i)).state == .active

/-- A pair is under hold while neither slot is ACTIVE (R356). -/
def Dev.pairHeld (d : Dev) (pr : Nat) : Bool := (d.activeIdx pr).isNone

/-- What a KEY record says of a slot (R451). -/
def Dev.keyRec (d : Dev) (n : Nat) : CopyRec :=
  let k := d.key n
  let p := d.pair (n / 2)
  let mine := p.pend.filter fun x => x.1 == n % 2 + 1
  .key n (k.state.code + 128 * b2n k.memErr) (b2n mine.isSome + 2 * b2n k.hwm.isSome) k.count
    k.warn256 k.limit k.life k.frames ((mine.map Prod.snd).getD 0) (k.hwm.getD 0) k.key

/-- A change of a slot's state, limits or pending switch enters the copy (R451). -/
def Dev.keyCopied (d : Dev) (n : Nat) : Dev := d.pxEvent (slotTree n) (.key n)

/-- The hold of slot n's pair has started or ended (R303, R356): HOLD_START or HOLD_END and the record; `was` says whether it stood. -/
def Dev.holdEdge (d : Dev) (n : Nat) (was : Bool) : Dev :=
  if was = d.pairHeld (n / 2) then d
  else d.raiseRec (R .TM_FLAGS) (if was then 1 else 0) .tm 0 false [(1, b2n (slotBcast n)), (2, slotNo n)]

/-- A slot takes a state: the pair's hold starts or ends with its ACTIVE slot, with HOLD_START or HOLD_END and the record
(R303, R356), and the index last ACTIVE is kept (R353). -/
def Dev.setKeyState (d : Dev) (n : Nat) (st : KeyState) : Dev :=
  let pr := n / 2
  let was := d.pairHeld pr
  let d1 := d.onKey n fun k => { k with state := st }
  let d2 := if st = .active then d1.onPair pr fun p => { p with last := n % 2 + 1 } else d1
  (d2.holdEdge n was).keyCopied n

/-- A key event: the queue of 64 entries, or KEY_EVT_OVF (R375). -/
def Dev.keyEvt (d : Dev) (kind n : Nat) : Dev :=
  if d.ce.evts.length < 64 then
    d.onCe fun c => { c with evts := c.evts ++ [⟨kind, slotBcast n, d.sfc (slotTree n) % 2048, slotNo n⟩] }
  else d.raise (R .CE_FLAGS) 4

/-- A key event with its flag and its record. -/
def Dev.keyFlag (d : Dev) (bit' kind n : Nat) (fault : Bool) (fs : List (Nat × Nat)) : Dev :=
  (d.keyEvt kind n).raiseRec (R .CE_FLAGS) bit' .ce 0 fault ([(1, b2n (slotBcast n)), (2, slotNo n)] ++ fs)

/-! ### Use (R352 to R355) -/

/-- A corrected error of a key store is written back and counted (R351). -/
def Dev.keyCorrected (d : Dev) : Dev := d.onCe fun c => { c with corrected := c.corrected + 1 }

/-- The record of an uncorrectable error in the SA or the look-aside store, with its slot (R351); R528 gives it no event number, so a
free value stands for the low bits of its TYPE (log entry 107). -/
def Dev.keyStoreRec (d : Dev) (n : Nat) : Dev :=
  (d.record (Config.freeValue d.free % 0x1000) .ce 0 true [(2, n)]).takeFree 1

/-- An uncorrectable error of the key store makes a slot VOID with its memory cause (R351). -/
def Dev.keyMemErr (d : Dev) (n : Nat) : Dev :=
  ((d.onKey n fun k => { k with memErr := true }).setKeyState n .void).keyFlag 2 3 n true []

/-- An ACTIVE slot becomes SPENT by lifetime while the other is READY: no hold arises, since the switch follows in the same boundary
(R357). -/
def Dev.keyOutlived (d : Dev) (n : Nat) : Dev :=
  (((d.onKey n fun k => { k with state := .spent }).keyCopied n).keyEvt 1 n).raise (R .CE_FLAGS) 1

/-- An ACTIVE slot becomes SPENT (R355, R375), which is queued and flagged but not recorded; with the other slot READY a switch is due
(R357). -/
def Dev.keySpent (d : Dev) (n : Nat) : Dev :=
  let other := pairSlot (n / 2) (2 - n % 2)
  let d1 := ((d.setKeyState n .spent).keyEvt 1 n).raise (R .CE_FLAGS) 1
  if (d1.key other).state = .ready then d1.onPair (n / 2) fun p => { p with auto := true } else d1

/-- WARN of a slot (R355). -/
def KeySlot.warn (k : KeySlot) : Nat := k.limit * k.warn256 / 256

/-- A slot charged with blocks (R352, R355): WARN first, then SPENT (R358). -/
def Dev.keyCharge (d : Dev) (n blocks : Nat) : Dev :=
  let d1 := d.onKey n fun k => { k with count := k.count + blocks }
  let k := d1.key n
  let d2 := if k.warn ≤ k.count ∧ !k.warned then (d1.onKey n fun k => { k with warned := true }).keyFlag 0 0 n false [] else d1
  if k.state = .active ∧ k.limit - 8200 ≤ k.count then d2.keySpent n else d2

/-- Blocks that a packet of LEN bytes charges (R352). -/
def keyBlocks (len : Nat) : Nat := ((len + 3) / 4 * 4 + 15) / 16 + 1

/-- KEY_STAGE_BIND (R352, R353): the slot that a packet of a queue binds to, charged; `ecc` is what the key store reports (1
corrected, 2 uncorrectable). -/
def Dev.keyBind (d : Dev) (pr len ecc : Nat) : Dev × Nat :=
  let i := match d.activeIdx pr with
    | some i => i
    | none => max 1 (d.pair pr).last
  let n := pairSlot pr i
  let d1 := if ecc = 1 then d.keyCorrected else if ecc = 2 then d.keyMemErr n else d
  match (d1.key n).state with
  | .active => (d1.keyCharge n (keyBlocks len), n)
  | .spent => (d1.keyCharge n (keyBlocks len), n)
  | _ => (d1, n)

/-- HWM of a slot that encrypts or decrypts in a frame (R359). -/
def Dev.keyMark (d : Dev) (n sfc : Nat) : Dev := d.onKey n fun k => { k with hwm := some (max sfc (k.hwm.getD 0)) }

/-- Upstream decryption of an XGEM frame of terminal g (R354): whether it is delivered; `ecc` is what the key store reports (R351). -/
def Dev.keyUp (d : Dev) (g idx bytes frame ecc : Nat) : Dev × Bool :=
  let discard (d : Dev) : Dev × Bool := ((d.raise (R .CE_FLAGS) 5).count (0x4C0 + 48 * d.sliceOfTree (g / 512) + 42), false)
  if idx % 4 = 0 then (d, true)
  else if idx % 4 = 3 then discard d
  else
    let n := pairSlot (uniPair g) (idx % 4)
    let d := if ecc = 1 then d.keyCorrected else if ecc = 2 then d.keyMemErr n else d
    match (d.key n).state with
    | .empty => discard d
    | .void => discard d
    | _ => ((d.keyMark n frame).onKey n fun k => { k with up := k.up + (bytes + 15) / 16 }, true)

/-! ### Switches (R357, R358) -/

/-- A switch that finds no READY slot is dropped, counted and queued (R358; log entry 124). -/
def Dev.switchDropped (d : Dev) (n : Nat) : Dev := (d.onCe fun c => { c with dropped := c.dropped + 1 }).keyEvt 6 n

/-- A switch of a pair to index i: the READY slot becomes ACTIVE from zero counts, the old ACTIVE slot READY; a target that is not
READY drops the switch (R357, R358). `held` says that the pair is under hold, which ends here (R303). -/
def Dev.keySwitchTo (d : Dev) (pr i : Nat) (held : Bool) : Dev :=
  let n := pairSlot pr i
  let clear (p : KeyPair) : KeyPair := { p with auto := false, pend := none }
  if (d.key n).state ≠ .ready then
    let d1 := d.onPair pr clear
    (if (d.pair pr).pend.isSome then d1.keyCopied n else d1).switchDropped n
  else
    let old := d.activeIdx pr
    let d1 := (d.onPair pr clear).onKey n fun k => { k with count := 0, frames := 0, warned := false }
    let d2 := match old with
      | some j => d1.onKey (pairSlot pr j) fun k => { k with state := .ready }
      | none => d1
    let d3 := d2.onPair pr fun p => { p with last := i }
    let d4 := d3.onKey n fun k => { k with state := .active }
    let d5 := match old with
      | some j => d4.keyCopied (pairSlot pr j)
      | none => if held then d4.raiseRec (R .TM_FLAGS) 1 .tm 0 false [(1, b2n (slotBcast n)), (2, slotNo n)] else d4
    (d5.keyCopied n).keyFlag 3 4 n false [(8, d5.sfc (slotTree n))]

/-- A switch of a pair to index i, which ends the hold that stands. -/
def Dev.keySwitch (d : Dev) (pr i : Nat) : Dev := d.keySwitchTo pr i (d.pairHeld pr)

/-- The index that was ACTIVE last. -/
def Dev.lastIdx (d : Dev) (pr : Nat) : Nat := max 1 (d.pair pr).last

/-- A frame's SFC has reached AT_SFC (R357). -/
def atSfc (sfc at_ : Nat) : Bool := decide (signed 32 (sfc + 2 ^ 32 - at_ % 2 ^ 32) ≥ 0)

/-- AUTO_EARLY calls for a switch (R357): the ACTIVE slot's count is at WARN or above and the other slot is READY. -/
def Dev.keyEarly (d : Dev) (pr : Nat) : Bool :=
  match d.activeIdx pr with
  | some i =>
    let k := d.key (pairSlot pr i)
    d.flag (R .CE_PON_CFG) 0 && decide (k.warn ≤ k.count ∧ k.limit ≠ 0) && (d.key (pairSlot pr (3 - i))).state == .ready
  | none => false

/-- A switch that a clear has overtaken in its cycle is dropped and queued (R358). -/
def Dev.keyCutStep (d : Dev) (pr sfc : Nat) : Dev :=
  match (d.pair pr).cut with
  | some (tick, i, at_) =>
    let d1 := d.onPair pr fun p => { p with cut := none }
    if tick = d.tb.ticks ∧ atSfc sfc at_ then d1.switchDropped (pairSlot pr i) else d1
  | none => d

/-- One pair at a downstream boundary of its tree (R355, R357): lifetime, then the switch that is due. A slot that its lifetime ends is
followed at once by the other where that is READY. -/
def Dev.pairBoundary (d : Dev) (pr sfc : Nat) : Dev :=
  match d.activeIdx pr with
  | none => due d
  | some i =>
    let n := pairSlot pr i
    let e := d.onKey n fun k => { k with frames := (k.frames + 1) % 2 ^ 32 }
    let k := e.key n
    if k.life ≠ 0 ∧ k.life ≤ k.frames then
      if (e.key (pairSlot pr (3 - i))).state = .ready then
        let p := e.pair pr
        let x := (e.keyOutlived n).keySwitchTo pr (3 - i) false
        match p.pend with
        | some (j, at_) => if atSfc sfc at_ then x else keep x j at_
        | none => x
      else due (e.keySpent n)
    else due e
where
  /-- The switch that is due, of the host or of itself. -/
  due (d1 : Dev) : Dev :=
    let p := d1.pair pr
    let auto := p.auto || d1.keyEarly pr
    match p.pend with
    | some (i, at_) =>
      if atSfc sfc at_ then d1.keySwitch pr i
      else if auto then keep (d1.keySwitch pr (3 - d1.lastIdx pr)) i at_ else d1
    | none => if auto then d1.keySwitch pr (3 - d1.lastIdx pr) else d1
  /-- A host switch that names the slot made ACTIVE is made with it; to another slot it stays pending. -/
  keep (d : Dev) (i at_ : Nat) : Dev :=
    if d.activeIdx pr = some i then d else d.onPair pr fun p => { p with pend := some (i, at_) }

/-- The key pairs of a tree. -/
def Dev.pairsOf (d : Dev) (t : Nat) : List Nat :=
  let ps := (d.ce.keys.filter fun kv => slotTree kv.1 == t).map fun kv => kv.1 / 2
  let qs := (d.ce.pairs.filter fun kv => slotTree (2 * kv.1) == t).map Prod.fst
  (ps ++ qs).dedup

/-- The keys of a tree at its downstream boundary (R355, R357); the mate's copy rules a tree that is not driven here. -/
def Dev.keysBoundary (d : Dev) (t : Nat) : Dev :=
  if d.copyTree t then d else (d.pairsOf t).foldl (fun d pr => (d.keyCutStep pr (d.sfc t)).pairBoundary pr (d.sfc t)) d

/-- The SFC of a tree is loaded (R359): every slot whose HWM is valid and not below it becomes VOID with its repeat cause, but for those
that are so already. -/
def Dev.keysVoid (d : Dev) (t old new : Nat) : Dev :=
  let ns := (d.ce.keys.filter fun kv => slotTree kv.1 == t && (match kv.2.hwm with | some h => decide (new ≤ h) | none => false)).map Prod.fst
  ns.foldl (fun d n =>
    if (d.key n).state = .void ∧ !(d.key n).memErr then d
    else ((d.onKey n fun k => { k with memErr := false }).setKeyState n .void).keyFlag 2 2 n false [(8, old), (8, new), (8, (d.key n).hwm.getD 0)]) d

/-- A slot becomes EMPTY with its key overwritten (R351), its other parameters as they were; the event KIND 5 only where a terminal's
state clears it (R360). -/
def Dev.keyEmpty (d : Dev) (n : Nat) (evt : Bool) : Dev :=
  if (d.key n).state = .empty then d
  else
    let d1 := (d.onKey n fun k => { k with key := 0, memErr := false }).setKeyState n .empty
    if evt then d1.keyEvt 5 n else d1

/-- Both unicast slots of a terminal become EMPTY and a pending switch is cancelled (R360); it is dropped where its boundary is in the same
cycle (R358). -/
def Dev.keysClear (d : Dev) (g : Nat) : Dev :=
  let pr := uniPair g
  let cut := match (d.pair pr).pend with
    | some (i, at_) => some (d.tb.ticks, i, at_)
    | none => if (d.pair pr).auto || d.keyEarly pr then some (d.tb.ticks, 3 - d.lastIdx pr, d.sfc (g / 512)) else (d.pair pr).cut
  let d1 := d.onPair pr fun p => { p with pend := none, auto := false, cut := cut }
  (d1.keyEmpty (pairSlot pr 1) true).keyEmpty (pairSlot pr 2) true

/-! ### Commands (R378) -/

/-- The pair of a PON opcode: slice, then whether tree or terminal exists (R17, R378). -/
def Dev.ponPair (d : Dev) (a : Accepted) (k : Nat → Nat → CmdRes) : CmdRes :=
  let b := bit a.obj 16
  let pr := if b then bcastPair (a.obj % 64) else uniPair (bits a.obj 14 0)
  let t := slotTree (2 * pr)
  if !d.treeOpen a.src t then .refuse .denied (d.key (pairSlot pr (max 1 (bits a.obj 19 18)))).state.code
  else if !d.treeExists t then .refuse .badArgument 0
  else k pr (bits a.obj 19 18)

/-- A terminal that may be given a key (R360): ASSIGNED, in OPERATION or LOST. -/
def Dev.keyable (d : Dev) (pr : Nat) : Bool := decide (32768 ≤ pr) || (d.term pr).state.ranged || (d.term pr).state == .assigned

/-- The slot is the target of the pair's pending switch. -/
def Dev.keyTarget (d : Dev) (pr i : Nat) : Bool := ((d.pair pr).pend.map Prod.fst) == some i

/-- PON_KEY_INSTALL (R355, R360, R378). -/
def opPonKeyInstall (a : Accepted) (d : Dev) : CmdRes :=
  d.ponPair a fun pr i =>
    let n := pairSlot pr i
    let limit := a.dat 4 + 2 ^ 32 * a.db 5 15 0
    let w := a.db 5 23 16
    let st := (d.key n).state
    if i = 0 ∨ i = 3 ∨ limit < 16384 ∨ w = 0 then .refuse .badArgument st.code
    else if st = .active ∨ d.keyTarget pr i ∨ !d.keyable pr ∨ d.copyTree (slotTree n) then .refuse .notInState st.code
    else
      let key := beNat ((a.data.take 4).flatMap fun x => leBytes 4 x)
      let d1 := d.onKey n fun _ => { KeySlot.rest with key := key, limit := limit, warn256 := w, life := a.dat 6 }
      .done (d1.setKeyState n .ready) .ok []

/-- PON_KEY_SWITCH (R357, R378). -/
def opPonKeySwitch (a : Accepted) (d : Dev) : CmdRes :=
  d.ponPair a fun pr _ =>
    let i := a.db 0 1 0
    let n := pairSlot pr (max 1 i)
    let ahead := signed 32 (a.dat 1 + 2 ^ 32 - d.sfc (slotTree n) % 2 ^ 32)
    let st := (d.key n).state
    if i = 3 ∨ (i ≠ 0 ∧ 80000 < ahead) then .refuse .badArgument st.code
    else if d.copyTree (slotTree n) ∨ (i ≠ 0 ∧ st ≠ .ready) then .refuse .notInState st.code
    else
      let d1 := d.onPair pr fun p => { p with pend := if i = 0 then none else some (i, a.dat 1) }
      let d2 := match (d.pair pr).pend with
        | some (j, _) => if j = i then d1 else d1.keyCopied (pairSlot pr j)
        | none => d1
      .done (if i = 0 then d2 else d2.keyCopied n) .ok []

/-- PON_KEY_CLEAR (R378). -/
def opPonKeyClear (a : Accepted) (d : Dev) : CmdRes :=
  d.ponPair a fun pr i =>
    let n := pairSlot pr i
    let st := (d.key n).state
    if i = 0 ∨ i = 3 then .refuse .badArgument st.code
    else if d.keyTarget pr i ∨ d.copyTree (slotTree n) then .refuse .notInState st.code
    else .done (d.keyEmpty n false) .ok []

/-- PON_KEY_READ (R378). -/
def opPonKeyRead (a : Accepted) (d : Dev) : CmdRes :=
  d.ponPair a fun pr i =>
    if i = 0 ∨ i = 3 then .refuse .badArgument 0
    else
      let n := pairSlot pr i
      let k := d.key n
      .done d .ok [(0, k.state.code + 8 * b2n k.memErr + 16 * b2n (d.keyTarget pr i) + 32 * b2n k.hwm.isSome), (1, k.count % 2 ^ 32),
        (2, k.count / 2 ^ 32 % 65536 + 65536 * k.warn256), (3, k.limit % 2 ^ 32), (4, k.limit / 2 ^ 32), (5, k.life), (6, k.frames),
        (7, k.hwm.getD 0 % 2 ^ 32)]

/-- KEY_EVT_POP (R372, R375): a VF pops only an entry of a tree of its slice. -/
def Dev.keyEvtSeen (d : Dev) (src : Src) : Option KeyEvt :=
  match d.ce.evts with
  | e :: _ => if d.treeOpen src (if e.bcast then e.slot / 2 else e.slot / 1024) then some e else none
  | [] => none
def Dev.keyEvtPop (d : Dev) (src : Src) : Dev :=
  match d.keyEvtSeen src with
  | some _ => d.onCe fun c => { c with evts := c.evts.drop 1 }
  | none => d

end Sys2Proof.Machine
end

