-- ==== Sys2Proof/Machine/Modes.lean ====
section
/-! DEFINITION. The modes of operation that the cipher engine runs over the AES block (R361, R369): CTR, GCM with GHASH, CMAC. The
AES block itself is a constant without a body (Config). Blocks are numbers, their first byte the most significant. -/

namespace Sys2Proof.Machine

/-- AES of a block, with a 128-bit or a 256-bit key. -/
def aes (long : Bool) (key block : Nat) : Nat := if long then Config.aes256 key block else Config.aes128 key block

/-- The 16-byte block at offset a of bytes, padded with zeros. -/
def blockAt (bs : List Byte) (a : Nat) : Nat := beAt bs a 16

/-- Bytes of two lists XORed, as long as the first. -/
def xorBytes (a b : List Byte) : List Byte := (a.zip (b ++ List.replicate a.length 0)).map fun p => p.1 ^^^ p.2

/-- The keystream of n blocks from a counter block, where `inc` gives the next counter. -/
def keystream (e : Nat → Nat) (inc : Nat → Nat) : Nat → Nat → List Byte
  | 0, _ => []
  | n + 1, c => beBytes 16 (e c) ++ keystream e inc n (inc c)

/-- CTR (SP 800-38A): the counter block increments as a big-endian integer modulo 2^128 (R369). -/
def ctrCrypt (e : Nat → Nat) (iv : Nat) (data : List Byte) : List Byte :=
  xorBytes data (keystream e (fun c => (c + 1) % 2 ^ 128) ((data.length + 15) / 16) iv)

/-- One step of the product in GHASH's field: x by one bit of y, most significant bit first. -/
def gfStep (z v : Nat) (b : Bool) : Nat × Nat :=
  (if b then z ^^^ v else z, if v % 2 = 1 then v / 2 ^^^ 0xE1000000000000000000000000000000 else v / 2)

/-- The product of SP 800-38D. -/
def gfMul (x y : Nat) : Nat := ((List.range 128).foldl (fun (p : Nat × Nat) i => gfStep p.1 p.2 (bit y (127 - i))) (0, x)).1

/-- GHASH over the blocks of bytes, zero-padded at the end. -/
def ghash (h : Nat) (bs : List Byte) (x : Nat) : Nat :=
  (List.range ((bs.length + 15) / 16)).foldl (fun x i => gfMul (x ^^^ blockAt bs (16 * i)) h) x

/-- The counter of GCM increments modulo 2^32 in its last word. -/
def inc32 (c : Nat) : Nat := c / 2 ^ 32 * 2 ^ 32 + (c % 2 ^ 32 + 1) % 2 ^ 32

/-- GCM's tag over AAD and ciphertext for a 96-bit IV (SP 800-38D). -/
def gcmTag (e : Nat → Nat) (iv : Nat) (aad ct : List Byte) : Nat :=
  let h := e 0
  let s := ghash h ct (ghash h aad 0)
  gfMul (s ^^^ (8 * aad.length * 2 ^ 64 + 8 * ct.length)) h ^^^ e (iv * 2 ^ 32 + 1)

/-- GCM's encryption and decryption of data for a 96-bit IV. -/
def gcmCrypt (e : Nat → Nat) (iv : Nat) (data : List Byte) : List Byte :=
  xorBytes data (keystream e inc32 ((data.length + 15) / 16) (iv * 2 ^ 32 + 2))

/-- The doubling of CMAC's subkeys (SP 800-38B). -/
def cmacDouble (x : Nat) : Nat := if 2 ^ 127 ≤ x then (2 * x) % 2 ^ 128 ^^^ 0x87 else 2 * x

/-- CMAC of bytes: K1 for a complete final block, 10* padding and K2 otherwise (R369). -/
def cmac (e : Nat → Nat) (bs : List Byte) : Nat :=
  let k1 := cmacDouble (e 0)
  let n := max 1 ((bs.length + 15) / 16)
  let x := (List.range (n - 1)).foldl (fun x i => e (x ^^^ blockAt bs (16 * i))) 0
  let last := bs.drop (16 * (n - 1))
  let m := if last.length = 16 then blockAt last 0 ^^^ k1 else blockAt (last ++ [0x80]) 0 ^^^ cmacDouble k1
  e (x ^^^ m)

/-- The leading n bytes of a 16-byte block. -/
def blockTake (b n : Nat) : List Byte := (beBytes 16 b).take n

end Sys2Proof.Machine
end

