-- ==== Sys2Proof/Machine/Frame.lean ====
section
/-! DEFINITION. The bytes of a downstream frame (R114, R117, R119, R120, R211, R352): PSBd, FS header, bandwidth map, XGEM frames, RS
codewords and scrambling. Field places within the headers are G.9807.1's (log entry 95). -/

namespace Sys2Proof.Machine

/-- A header of n bits followed by its 13 HEC bits, in m bytes. -/
def headed (m n v : Nat) : List Byte := beBytes m (v % 2 ^ n * 2 ^ 13 + Config.hec n (v % 2 ^ n) % 2 ^ 13)

/-- PSBd (R117): PSync, the SFC structure and the PON-ID structure. -/
def psbd (sfc ponid : Nat) : List Byte := beBytes 8 Config.psync ++ headed 8 51 sfc ++ headed 8 51 ponid

/-- The FS header (R119): its HLend gives the number of allocation structures and of PLOAMd messages. -/
def fsHeader (structs msgs : Nat) : List Byte := headed 4 19 (structs % 2 ^ 11 * 2 ^ 8 + msgs % 2 ^ 8)

/-- An allocation structure (R211): Alloc-ID, flags, StartTime, GrantSize, FWI 0, burst profile index. -/
def GStruct.wire (s : GStruct) : List Byte :=
  headed 8 51 (s.alloc % 2 ^ 14 * 2 ^ 37 + b2n s.dbru * 2 ^ 36 + b2n s.ploamu * 2 ^ 35 + s.start % 2 ^ 16 * 2 ^ 19 + s.size % 2 ^ 16 * 2 ^ 3 +
    s.prof % 4)

/-- The header of an XGEM frame (R120, R352): PLI, key index, port, options, LF. -/
def xgemHeader (pli key port : Nat) (lf : Bool) : List Byte :=
  headed 8 51 (pli % 2 ^ 14 * 2 ^ 37 + key % 4 * 2 ^ 35 + port % 2 ^ 16 * 2 ^ 19 + b2n lf)

/-- An idle XGEM frame of n bytes, header included (R120). -/
def idleFrame (n : Nat) : List Byte := xgemHeader (n - 8) 0 0xFFFF true ++ (List.range (n - 8)).map Config.idleByte

/-- The lengths into which a run of n idle bytes is cut (R120): 64 while 80 or more are left. -/
def idleCut : Nat → Nat → List Nat
  | 0, _ => []
  | k + 1, n => if n = 0 then [] else if n < 80 then [n] else 64 :: idleCut k (n - 64)

/-- The bytes of a piece of an FS payload. -/
def XPiece.bytes : XPiece → List Byte
  | .frame port key lf pli p => xgemHeader pli key port lf ++ p
  | .stand n => idleFrame n
  | .idle n => (idleCut n n).flatMap idleFrame

/-- How many bytes of FS payload a piece takes. -/
def XPiece.len : XPiece → Nat
  | .frame _ _ _ _ p => 8 + p.length
  | .stand n => n
  | .idle n => n

/-- The FS frame (R119): header, map, messages, payload. -/
def DsFrame.fs (f : DsFrame) : List Byte :=
  fsHeader f.map.length f.ploam.length ++ f.map.flatten ++ f.ploam.flatten ++ f.pieces.flatMap XPiece.bytes

/-- Bytes of the FS frame that come before its payload (R119). -/
def DsFrame.head (f : DsFrame) : Nat := 4 + 8 * f.map.length + 48 * f.ploam.length

/-- The FS frame's size (R117). -/
def fsBody (fec : Bool) : Nat := if fec then 135432 else 155496

/-- Bytes scrambled from the frame's SFC (R117). -/
def scrambled (sfc : Nat) (bs : List Byte) : List Byte := bs.zipIdx.map fun p => p.1 ^^^ Config.scramble sfc p.2

/-- RS(248,216) codewords over bytes (R117). -/
def rsEncode : Nat → List Byte → List Byte
  | 0, _ => []
  | n + 1, bs => bs.take 216 ++ (List.range 32).map (Config.rsByte (bs.take 216)) ++ rsEncode n (bs.drop 216)

/-- The PHY frame as the PT lane sends it (R117): PSBd, then the payload scrambled, with 627 codewords where FEC is on. -/
def DsFrame.phy (f : DsFrame) : List Byte :=
  psbd f.sfc f.ponid ++ scrambled f.sfc (if f.fec then rsEncode 627 f.fs else f.fs)

/-- Payload bytes padded to a word (R120). -/
def padded (bs : List Byte) : List Byte := bs ++ List.replicate ((bs.length + 3) / 4 * 4 - bs.length) 0x55

/-- Bytes under AES-128-CTR with the counter block of a superframe counter and an intra-frame position (R352, R354). -/
def ponCrypt (key sfc pos : Nat) (bs : List Byte) : List Byte := ctrCrypt (Config.aes128 key) (Config.counterBlock sfc pos) bs

/-- A piece joins the frame that leaves. -/
def Dev.emit (d : Dev) (t : Nat) (p : XPiece) : Dev :=
  if p.len = 0 then d
  else d.onTf t fun x => { x with frame := x.frame.map fun f => { f with pieces := f.pieces ++ [p] } }

end Sys2Proof.Machine
end

