-- ==== Sys2Proof/Machine/Ranging.lean ====
section
/-! DEFINITION. Terminal activation, ranging, burst profiles and PLOAM (spec/05): the slot state machine of R156, discovery,
adjustments, the message queues, and the opcodes of RG_CMD (R192). -/

namespace Sys2Proof.Machine

/-! ### Profiles (R169 to R174) -/

/-- A profile stops being valid (R79, R173): VALID and LEARN_COUNT clear, LEARNING sets, and the lane's slot copies lose their mark. -/
def Dev.profClear (d : Dev) (g : Nat) : Dev :=
  (d.onProf g fun p => { p with valid := false, count := 0, learning := true }).onLx fun x =>
    { x with pbSlots := x.pbSlots.mapVal fun t l =>
        if t = g / 512 then l.map fun b => if b.burst.stamp = some (g % 4096) then { b with valid := false } else b else l }

/-- A profile is invalidated (R173), and
the cause (0 to 6, in R173's order) is counted for a profile that was VALID. -/
def Dev.invalidate (d : Dev) (g cause : Nat) : Dev :=
  (if (d.prof g).valid then d.countRx (g / 512) (48 + cause) else d).profClear g

/-! ### Message formats and integrity (R177, R178; log entries 12, 13, 96) -/

/-- The key of a message as CMAC takes it: the slot's, else the default PLOAM integrity key. -/
def ploamKey (ik : Option Nat) : Nat := beNat (leBytes 16 (ik.getD 0x55555555555555555555555555555555))

/-- The MIC of a message's first 40 bytes: 64 bits of CMAC over the direction (1 down, 2 up) and the bytes. -/
def ploamMic (ik : Option Nat) (dir : Nat) (content : List Byte) : List Byte :=
  blockTake (cmac (Config.aes128 (ploamKey ik)) (BitVec.ofNat 8 dir :: content)) 8

/-- A message of 48 bytes: its first 40 and their MIC. -/
def ploamSigned (ik : Option Nat) (dir : Nat) (content : List Byte) : List Byte := content ++ ploamMic ik dir content

/-- The first 40 bytes of a downstream message: ONU-ID, identifier, sequence number, content padded with zeros. -/
def ploamHead (onu ident seq : Nat) (content : List Byte) : List Byte :=
  beBytes 2 onu ++ leBytes 1 ident ++ leBytes 1 seq ++ (content ++ List.replicate 36 0).take 36

/-- An upstream message passes its MIC under the key of terminal g, or under the default key (R178). -/
def Dev.micGood (d : Dev) (g : Option Nat) (bytes : List Byte) : Bool :=
  bytes.drop 40 == ploamMic (g.bind fun g => (d.term g).ik) 2 (bytes.take 40)

/-- The equalisation delay as the Ranging_Time of a tree carries it (R153): in the tree's unit, a quarter of which G.987.3 counts, to the
nearest. -/
def Dev.eqdField (d : Dev) (t eqd : Nat) : Nat := if d.xg t then (eqd + 2) / 4 else eqd

/-- A hardware message as it leaves (R177, R178). -/
def Dev.hwBytes (d : Dev) (t : Nat) (m : HwMsg) : List Byte :=
  let ik := (d.term (512 * t + m.slot)).ik
  match m.kind with
  | 0 => ploamSigned none 1 (ploamHead 1023 3 m.seq (beBytes 2 m.slot ++ leBytes 8 m.value))
  | 1 => ploamSigned ik 1 (ploamHead m.slot 4 m.seq (leBytes 1 1 ++ beBytes 4 (d.eqdField t m.value)))
  | 2 => ploamSigned ik 1 (ploamHead m.slot 5 m.seq [])
  | k => ploamSigned none 1 (ploamHead 1023 6 m.seq (leBytes 1 (if k = 3 then 0xFF else 0) ++ leBytes 8 m.value))

/-- A host message as it leaves, under the key latched at its acceptance (R178, R192). -/
def HostMsg.bytes (m : HostMsg) : List Byte := ploamSigned m.key 1 (ploamHead m.onu m.ident m.seq m.content)

/-! ### Message queues (R177 to R180) -/

/-- A hardware downstream message is generated and queued; a full queue takes none and counts (R179). The messages that bear the
broadcast ONU-ID take their number from the tree's broadcast counter, the others from the slot's (R178; log entry 12). -/
def Dev.hwPush (d : Dev) (g kind value : Nat) : Dev × Bool :=
  let t := g / 512
  if 32 ≤ (d.rg t).hwq.length then (d.countRx t 56, false)
  else
    let bc := kind = 0 ∨ kind = 3 ∨ kind = 4
    let seq := if bc then (d.rg t).bcastSeq else (d.term g).seq
    let d1 := d.onRg t fun x =>
      { x with hwq := x.hwq ++ [⟨kind, g % 512, value, seq⟩], bcastSeq := if bc then (x.bcastSeq + 1) % 256 else x.bcastSeq }
    (if bc then d1 else d1.onTerm g fun x => { x with seq := (x.seq + 1) % 256 }, true)

/-- The value that a hardware message of a kind carries for a slot. -/
def Term.msgValue (x : Term) (kind : Nat) : Nat :=
  if kind = 1 then x.rangedEqd.getD 0 else if kind = 2 then 0 else x.sn

/-- A message that is retried at each following frame boundary until queued (R179). -/
def Dev.hwPushRetry (d : Dev) (g kind : Nat) : Dev :=
  let p := d.hwPush g kind ((d.term g).msgValue kind)
  if p.2 then p.1 else p.1.onTerm g fun x => { x with retry := x.retry ++ [kind] }

/-- The retries of a tree's slots at a frame boundary (R179). -/
def Dev.hwRetries (d : Dev) (t : Nat) : Dev :=
  (d.rx.terms.filter fun kv => kv.1 / 512 == t && !kv.2.retry.isEmpty).foldl (fun d kv =>
    let d := d.onTerm kv.1 fun x => { x with retry := [] }
    kv.2.retry.foldl (fun d k => d.hwPushRetry kv.1 k) d) d

/-- A message enters the tree's host upstream queue, or is discarded when the queue holds 64 (R180). -/
def Dev.upPush (d : Dev) (t slot : Nat) (mic : Bool) (bytes : List Byte) : Dev :=
  if 64 ≤ (d.rg t).upq.length then d.raise (R .RG_FLAGS t) 8
  else (d.onRg t fun x => { x with upq := x.upq ++ [⟨slot, mic, bytes⟩] }).raise (R .RG_FLAGS t) 7

/-- PLOAMU_POP (R180, R189). -/
def Dev.ploamuPop (d : Dev) (t : Nat) : Dev := d.onRg t fun x => { x with upq := x.upq.drop 1 }

/-! ### The slot state machine (R155 to R158) -/

/-- A slot moves under a row of R156 (rows from 0): the counts, TERM_STATE, the record, and on entry to PROVISIONED, DISABLED or
FREE what R156 and R198 clear. A release clears SUFi; the clear is reported at the next evaluation point (R126). -/
def Dev.slotMove (d : Dev) (g row : Nat) (new : TermState) : Dev :=
  let t := g / 512
  let old := (d.term g).state
  let d1 := ((d.countRx t (34 + row)).raise (R .RG_FLAGS t) 2).record (0x140 + 64 * (t / 8) + 34 + row) .rg t false
    [(1, t), (2, g % 512), (1, old.code), (1, new.code), (8, d.sfc t)]
  let d2 := d1.onTerm g fun x => { x with state := new, lostFrames := 0 }
  if new = .provisioned ∨ new = .disabled ∨ new = .free then
    let d3 := d2.onTerm g fun x =>
      { x with eqd := 0, o := 0, adj := none, adjDue := none, ik := none, rangedEqd := none, tries := 0, since := 0, granted := false
               run := 0, retry := [], fails := if new = .free then 0 else x.fails
               sn := if new = .free then 0 else x.sn, rtdSn := if new = .free then none else x.rtdSn
               rtd := if new = .free then 0 else x.rtd }
    let d4 := d3.onRg t fun x => { x with hwq := x.hwq.filter fun m => m.slot ≠ g % 512 }
    let d5 := if new = .free then
        d4.onTf t fun x => { x with terms := x.terms.upd TermDef.rest (g % 512) fun y => { y with declared := putBits y.declared 8 8 0 } }
      else d4
    let d6 := if new = .free then d5.pxEvent t (.sn g) else d5
    ((((d6.pxEvent t (.ik g)).invalidate g 5).gsSlotReset g).rangeCancel g).keysClear g
  else d2

/-- An activation fails (R156, R165): PROVISIONED with Deactivate_ONU-ID queued, the failure counted for SUFi (R126), ACT_FAIL. -/
def Dev.activationFail (d : Dev) (g : Nat) : Dev :=
  let t := g / 512
  let d1 := (d.slotMove g 4 .provisioned).onTerm g fun x => { x with fails := min (x.fails + 1) 255 }
  (d1.hwPushRetry g 2).raise (R .RG_FLAGS t) 3

/-- A slot enters ASSIGNED (R156, R163, R165): Assign_ONU-ID queued, or the activation fails when the queue is full; a ranging
grant is requested. -/
def Dev.assign (d : Dev) (g row : Nat) : Dev :=
  let d1 := (d.slotMove g row .assigned).onTerm g fun x => { x with tries := 0, since := 0, granted := false, rangedEqd := none }
  let p := d1.hwPush g 0 (d1.term g).sn
  if p.2 then p.1.rangeRequest g else p.1.activationFail g

/-- A deactivation (R131, R156): DEACT, TERM_DEACTIVATE. A slot without a ranged state takes none and is counted. -/
def Dev.deactivate (d : Dev) (g : Nat) : Dev :=
  match (d.term g).state with
  | .operation => (d.slotMove g 8 .provisioned).hwPushRetry g 2
  | .lost => (d.slotMove g 8 .provisioned).hwPushRetry g 2
  | _ => d.countRx (g / 512) 59

/-- A tree goes OFF: its ASSIGNED, OPERATION and LOST slots return to PROVISIONED and nothing is sent (R156). -/
def Dev.treeOffSlots (d : Dev) (t : Nat) : Dev :=
  (d.rx.terms.filter fun kv => kv.1 / 512 == t).foldl (fun d kv =>
    match kv.2.state with
    | .assigned => d.slotMove kv.1 13 .provisioned
    | .operation => d.slotMove kv.1 13 .provisioned
    | .lost => d.slotMove kv.1 13 .provisioned
    | _ => d) d

/-- LOSi reported for a slot moves it between OPERATION and LOST; a transition that the state no longer permits is dropped and
counted (R156, R158). -/
def Dev.losReported (d : Dev) (g : Nat) (set : Bool) : Dev :=
  match (d.term g).state, set with
  | .operation, true => d.slotMove g 5 .lost
  | .lost, false => d.slotMove g 6 .operation
  | _, _ => d.countRx (g / 512) 58

/-- LOST_TIMEOUT (R156, R157): LOST for LOST_S seconds of 8,000 frames, on an ACTIVE tree. -/
def Dev.lostTimeout (d : Dev) (g : Nat) : Dev :=
  let n := d.fld (R .RG_TREE_CFG (g / 512)) 15 10
  if (d.tf (g / 512)).state = .active ∧ (d.term g).state = .lost ∧ n ≠ 0 ∧ 8000 * n ≤ (d.term g).lostFrames then (d.slotMove g 7 .provisioned).hwPushRetry g 2 else d

/-- RANGE_TRIES (R184). -/
def Dev.rangeTries (d : Dev) (t : Nat) : Nat := atLeast1 (d.fld (R .RG_TRACK_CFG t) 27 24)

/-- ACTIVATION_FAIL (R157, R165): on an ACTIVE tree, no ranging grant within 64 frames of the request, or no valid Registration within
RANGE_TRIES grants. -/
def Dev.activationTimeout (d : Dev) (g : Nat) : Dev :=
  let x := d.term g
  if (d.tf (g / 512)).state = .active ∧ x.state = .assigned ∧ x.rangedEqd = none ∧
      ((!x.granted && decide (64 ≤ x.since)) || (x.granted && decide (d.rangeTries (g / 512) < x.tries))) then d.activationFail g
  else d

/-! ### Discovery and ranging (R159 to R165) -/

/-- A number enters the reach's discovery queue (R161). -/
def Dev.discover (d : Dev) (t sn : Nat) (rtd : Int) : Dev :=
  let r := t / 8
  let q := d.rx.disc.getD r []
  if q.any fun x => x.tree == t && x.sn == sn then
    d.onRx fun x => { x with disc := x.disc.put [] r (q.map fun e =>
      if e.tree == t && e.sn == sn then { e with rtd := rtd, sightings := min (e.sightings + 1) 255 } else e) }
  else if 16 ≤ q.length then d.raise (R .RG_FLAGS t) 1
  else (d.onRx fun x => { x with disc := x.disc.put [] r (q ++ [⟨t, sn, rtd, 1⟩]) }).raise (R .RG_FLAGS t) 0

/-- The slot of tree t that holds a serial number (R160, R162). -/
def Dev.slotOfSn (d : Dev) (t sn : Nat) : Option Nat :=
  (d.rx.terms.find? fun kv => kv.1 / 512 == t && kv.2.sn == sn && kv.2.state ≠ .free).map Prod.fst

/-- SERIAL_NUMBER_ONU (R160): `diff` is p - e in the tree's upstream bits. DESIGN CHOICE: on rediscovery with AUTO_ASSIGN = 0 the slot goes to
PROVISIONED and keeps rtd_sn, and its number is not queued for the host (log entry 97). -/
def Dev.serialNumber (d : Dev) (t : Nat) (diff : Int) (bytes : List Byte) : Dev :=
  let sn := leAt bytes 4 8
  if (d.tf t).state ≠ .active then d
  else if !d.micGood none bytes then d.countRx t 61
  else
    let rtd : Int := (d.teq t : Int) + if d.xg t then 4 * diff else diff
    if rtd < d.minRtd t ∨ (d.maxRtd t + d.rand t : Nat) < rtd then
      (d.countRx t 57).record (0x140 + 64 * (t / 8) + 57) .rg t false [(8, sn)]
    else
      let auto := d.flag (R .RG_TREE_CFG t) 31
      match d.slotOfSn t sn with
      | none => d.discover t sn rtd
      | some g =>
        match (d.term g).state with
        | .provisioned =>
          let d1 := d.onTerm g fun x => { x with rtdSn := some rtd }
          if auto then d1.assign g 1 else d1.discover t sn rtd
        | .operation =>
          let d1 := (d.slotMove g 8 .provisioned).onTerm g fun x => { x with rtdSn := some rtd }
          if auto then d1.assign g 1 else d1
        | .lost =>
          let d1 := (d.slotMove g 8 .provisioned).onTerm g fun x => { x with rtdSn := some rtd }
          if auto then d1.assign g 1 else d1
        | _ => d.countRx t 62

/-- REGISTRATION (R153, R158, R164, R165): copied to the host in every case; with a good MIC it completes ranging of an ASSIGNED slot, and
for a slot that has left ASSIGNED it is dropped and counted (log entry 115). DESIGN CHOICE: a Ranging_Time that finds the hardware queue
full is retried at each frame boundary (log entry 133). -/
def Dev.registration (d : Dev) (g : Nat) (diff : Int) (bytes : List Byte) : Dev :=
  let t := g / 512
  let mic := d.micGood none bytes
  let d1 := d.upPush t (g % 512) mic bytes
  if !mic then d1.countRx t 61
  else if (d1.tf t).state ≠ .active ∨ (d1.term g).rangedEqd.isSome then d1
  else if (d1.term g).state ≠ .assigned then d1.countRx t 58
  else
    let eqd : Int := -(if d.xg t then 4 * diff else diff)
    let rtd : Int := (d.teq t : Int) - eqd
    if eqd < 0 ∨ (d.teq t : Int) < eqd ∨ rtd < d.minRtd t ∨ (d.maxRtd t : Int) < rtd then d1.activationFail g
    else (d1.onTerm g fun x => { x with eqd := eqd.toNat, rangedEqd := some eqd.toNat, rtd := rtd }).hwPushRetry g 1

/-- ACKNOWLEDGE (R177, R178): consumed when its number belongs to a hardware message of the slot, else passed to the host. -/
def Dev.acknowledge (d : Dev) (g : Nat) (bytes : List Byte) : Dev :=
  let seq := leAt bytes 3 1
  let mic := d.micGood (some g) bytes
  if (d.term g).hwSeqs.contains seq then
    if mic then d.onTerm g fun x => { x with hwSeqs := x.hwSeqs.filter fun q => q ≠ seq } else d.countRx (g / 512) 61
  else d.upPush (g / 512) (g % 512) mic bytes

/-- A VF sees the discovery queue only while its head names a tree of its slice (R191). -/
def Dev.discHead (d : Dev) (src : Src) (r : Nat) : Option Disc :=
  match (d.rx.disc.getD r []).head? with
  | some h => if d.treeOpen src h.tree then some h else none
  | none => none

/-- DISC_POP (R161, R191). -/
def Dev.discPop (d : Dev) (src : Src) (r : Nat) : Dev :=
  if (d.discHead src r).isSome then d.onRx fun x => { x with disc := x.disc.put [] r ((x.disc.getD r []).drop 1) } else d

/-! ### Drift tracking (R166 to R168) -/

/-- An adjustment's Ranging_Time is queued and the adjustment is in flight; a full queue leaves it due (R166, R179). -/
def Dev.adjSend (d : Dev) (g : Nat) (delta : Int) (eqd : Nat) : Dev :=
  let p := d.hwPush g 1 eqd
  if p.2 then p.1.onTerm g fun y => { y with adj := some ⟨delta, eqd, 0, false, false⟩, adjDue := none, run := 0 }
  else p.1.onTerm g fun y => { y with adjDue := some (delta, eqd) }

/-- The adjustment that an OK burst with offset o may start (R166, R168, R179): one that found the queue full is tried again whatever this
burst's offset, with the delay computed first (log entry 112). -/
def Dev.adjust (d : Dev) (g : Nat) (off : Int) : Dev :=
  let t := g / 512
  let x := d.term g
  let run := if (d.fld (R .RG_TRACK_CFG t) 7 0 : Int) ≤ off.natAbs then x.run + 1 else 0
  let d1 := d.onTerm g fun y => { y with o := off, run := min run 15 }
  if !d.flag (R .RG_TREE_CFG t) 30 then d1.onTerm g fun y => { y with adjDue := none }
  else
    match x.adjDue with
    | some a => d1.adjSend g a.1 a.2
    | none =>
      if atLeast1 (d.fld (R .RG_TRACK_CFG t) 11 8) ≤ run then
        let e : Int := (x.eqd : Int) - if d.xg t then 4 * off else off
        if e < 0 ∨ (d.teq t : Int) < e then d1.raise (R .RG_FLAGS t) 4 else d1.adjSend g off e.toNat
      else d1

/-- An adjustment's message is sent once more, or waits for the next OK burst (R167, R179). -/
def Dev.adjResend (d : Dev) (g : Nat) (a : Adj) : Dev :=
  let p := d.hwPush g 1 a.eqd
  p.1.onTerm g fun x => { x with adj := some (if p.2 then { a with age := 0, resent := true, retry := false } else { a with retry := true }) }

/-- The tracked offset after an OK burst of a ranged terminal of an ACTIVE tree (R166, R167). -/
def Dev.track (d : Dev) (g : Nat) (off : Int) : Dev :=
  match (d.term g).adj with
  | none => d.adjust g off
  | some a =>
    if (off - ((d.term g).o - a.delta)).natAbs ≤ d.delimWin (g / 512) then
      d.onTerm g fun x => { x with eqd := a.eqd, rtd := (d.teq (g / 512) : Int) - a.eqd, o := off, adj := none, run := 0 }
    else
      let d1 := d.onTerm g fun x => { x with o := off }
      if a.retry then d1.adjResend g a else d1

/-- ADJ_WAIT_EXPIRY (R167): the first expiry sends the same Ranging_Time again, the second abandons the adjustment. -/
def Dev.adjWaitExpiry (d : Dev) (g : Nat) : Dev :=
  let t := g / 512
  match (d.term g).adj with
  | none => d
  | some a =>
    if a.retry ∨ a.age < atLeast1 (d.fld (R .RG_TRACK_CFG t) 23 16) then d
    else if a.resent then
      (d.onTerm g fun x => { x with adj := none }).raiseRec (R .RG_FLAGS t) 4 .rg t false [(1, t), (2, g % 512)]
    else d.adjResend g a

/-- What the slots of a tree count at a frame boundary: frames in LOST, frames of a waiting request, frames of an adjustment. -/
def Dev.slotFrames (d : Dev) (t : Nat) : Dev :=
  d.onRx fun x => { x with terms := x.terms.mapVal fun g y =>
    if g / 512 = t then
      { y with lostFrames := if y.state = .lost then y.lostFrames + 1 else 0
               since := if y.state = .assigned then min (y.since + 1) 255 else 0
               adj := y.adj.map fun a => { a with age := a.age + 1 } }
    else y }

/-! ### Downstream PLOAM of a frame (R119, R179) -/

/-- PLOAM_MAX as it counts (R141). -/
def Dev.ploamMax (d : Dev) (t : Nat) : Nat :=
  let m := d.fld (R .TF_DS_CFG t) 7 4
  if m = 0 then 1 else min m 8

/-- A hardware message leaves (R156, R165, R166): one addressed to the slot's ONU-ID asks for a PLOAMu burst (R203), its number waits
for the slot's Acknowledge (R177), and a Ranging_Time puts its ASSIGNED slot into OPERATION, or counts an
adjustment. -/
def Dev.hwSent (d : Dev) (t : Nat) (m : HwMsg) : Dev :=
  let g := 512 * t + m.slot
  let d1 := d.onTerm g fun x =>
    { x with msgAt := if m.kind = 1 ∨ m.kind = 2 then some (d.sfc t) else x.msgAt
             hwSeqs := m.seq :: x.hwSeqs.filter fun q => q ≠ m.seq }
  if m.kind ≠ 1 then d1
  else
    match (d1.term g).state, (d1.term g).rangedEqd with
    | .assigned, some e =>
      let d2 := (d1.slotMove g 3 .operation).onTerm g fun x => { x with eqd := e, rangedEqd := none, fails := 0, o := 0 }
      d2.onTf t fun x => { x with terms := x.terms.upd TermDef.rest m.slot fun y => { y with declared := putBits y.declared 8 8 0 } }
    | _, _ => d1.pmTerm g 10 1

/-- The PLOAMd messages of one frame are taken (R179); the answer carries them as they leave. -/
def Dev.takePloam (d : Dev) (t : Nat) : Dev × List (List Byte) :=
  let x := d.rg t
  let m := d.ploamMax t
  let nHw := if m = 1 then (if x.hostq.isEmpty || (!x.hwq.isEmpty && !x.turn) then min 1 x.hwq.length else 0)
    else min x.hwq.length (if x.hostq.isEmpty then m else m - 1)
  let nHost := min x.hostq.length (m - nHw)
  let turn := if m = 1 && !x.hwq.isEmpty && !x.hostq.isEmpty then !x.turn else false
  let d1 := d.onRg t fun y => { y with hwq := y.hwq.drop nHw, hostq := y.hostq.drop nHost, turn := turn }
  let d2 := (x.hwq.take nHw).foldl (fun d m => d.hwSent t m) d1
  let d3 := (x.hostq.take nHost).foldl (fun d h =>
    if h.onu < 512 then d.onTerm (512 * t + h.onu) fun y => { y with msgAt := some (d.sfc t) } else d) d2
  (d3, (x.hwq.take nHw).map (d.hwBytes t) ++ (x.hostq.take nHost).map HostMsg.bytes)

/-! ### Rogue bursts (R175, R176) -/

/-- ROGUE_N as it counts (R186). -/
def Dev.rogueN (d : Dev) (t : Nat) : Nat :=
  let n := d.fld (R .RG_ROGUE_CFG t) 4 0
  if n = 0 then 1 else min n 16

/-- The slot named most often among reports, a tie going to the lowest (R176); 512 names none. -/
def suspectOf (names : List Nat) : Option Nat :=
  (names.filter fun s => decide (s < 512)).foldl (fun best s =>
    match best with
    | none => some s
    | some b =>
      if names.count b < names.count s ∨ (names.count s = names.count b ∧ s < b) then some s else some b) none

/-- The suspect written to RG_ROGUE_STATUS (R176, R188). -/
def Dev.setSuspect (d : Dev) (t : Nat) : Dev :=
  let s := suspectOf ((d.rg t).rogueRun.flatMap Prod.snd)
  ((d.onRg t fun x => { x with suspect := s, rogueAge := 0 }).setFld (R .RG_ROGUE_STATUS t) 30 30 (b2n s.isSome)).setFld
    (R .RG_ROGUE_STATUS t) 29 21 (s.getD 0)

/-- A counted frame with the slots its reports named (R175, R176). -/
def Dev.rogueFrame (d : Dev) (t frame : Nat) (names : List Nat) : Dev :=
  let d1 := d.onRg t fun x => { x with rogueRun := ((frame, names) :: x.rogueRun).take 16, rogueAge := x.rogueAge + 1 }
  let run := (d1.rg t).rogueRun
  let n := (run.filter fun l => !l.2.isEmpty).length
  if (d1.rg t).rogue then
    if n = 0 ∧ run.length = 16 then
      let d2 := (d1.onRg t fun x => { x with rogue := false }).setFld (R .RG_ROGUE_STATUS t) 31 31 0
      d2.raiseRec (R .RG_FLAGS t) 6 .rg t false [(1, t)]
    else if 16 ≤ (d1.rg t).rogueAge then d1.setSuspect t else d1
  else if d1.rogueN t ≤ n then
    let d2 := ((d1.onRg t fun x => { x with rogue := true }).setFld (R .RG_ROGUE_STATUS t) 31 31 1).setSuspect t
    d2.raiseRec (R .RG_FLAGS t) 5 .rg t false [(1, t)]
  else d1

/-! ### Register writes (R154, R182, R191) -/

/-- A write of RG_EQ_CFG (R154): TEQ stays unless the reach is DARK and no tree's max_rtd exceeds it. DESIGN CHOICE: a write that repeats
the TEQ in force is refused nothing, and CFG_REFUSED of the reach's first tree shows a refusal (log entry 98). -/
def Dev.eqCfgWrite (d : Dev) (r v : Nat) : Dev :=
  let teq := bits v 23 0
  let old := d.fld (R .RG_EQ_CFG r) 23 0
  let bad := decide (teq ≠ old) && ((d.reach r).state ≠ .dark || decide (teq = 0) || (treesOf r).any fun t => decide (teq < d.maxRtd t))
  if bad then
    (d.setReg (R .RG_EQ_CFG r) (bits v 31 24 * 2 ^ 24 + old)).cfgRefused (R .RG_FLAGS (8 * r)) 9
  else d.setReg (R .RG_EQ_CFG r) (bits v 31 0)

/-- A write of RG_TREE_CFG (R154, R182): the RTD fields stay when MAX_RTD_US would exceed TEQ or fall below MIN_RTD_US. -/
def Dev.rgTreeCfgWrite (d : Dev) (t v : Nat) : Dev :=
  let r := R .RG_TREE_CFG t
  if d.teq t < usBitsUp (bits v 25 16) ∨ bits v 25 16 < bits v 9 0 then
    let keep := putBits (putBits (bits v 31 28 * 2 ^ 28 + bits v 15 10 * 2 ^ 10) 25 16 (d.fld r 25 16)) 9 0 (d.fld r 9 0)
    (d.setReg r keep).cfgRefused (R .RG_FLAGS t) 9
  else d.setReg r (bits v 31 28 * 2 ^ 28 + bits v 25 0)

/-! ### RG_CMD (R192) -/

/-- The terminal that a terminal opcode of RG_CMD[r] names, with the checks of R192 in the order of R571. -/
def Dev.rgTerm (d : Dev) (r : Nat) (a : Accepted) (k : Nat → CmdRes) : CmdRes :=
  let g := bits a.obj 15 0
  if !d.treeOpen a.src (if bit a.obj 16 then g else g / 512) then .refuse .denied (if bit a.obj 16 then 0 else (d.term g).state.code)
  else if bit a.obj 16 then .refuse .badArgument 0
  else if g / 4096 ≠ r ∨ !d.reachExists r then .refuse .badArgument (d.term g).state.code
  else k g

/-- The tree of terminal g is ACTIVE, as R157 asks of what changes its state. -/
def Dev.termActive (d : Dev) (g : Nat) : Bool := (d.tf (g / 512)).state == .active

/-- NOT_IN_STATE with the slot's state for the record. -/
def Dev.wrongState (d : Dev) (g : Nat) : CmdRes := .refuse .notInState (d.term g).state.code

/-- TERM_PROVISION (R156, R162). -/
def opTermProvision (r : Nat) (a : Accepted) (d : Dev) : CmdRes :=
  d.rgTerm r a fun g =>
    let sn := a.dat64 0
    match d.slotOfSn (g / 512) sn with
    | some g' => if g' ≠ g then .refuse .badArgument (d.term g).state.code else d.wrongState g
    | none =>
      if (d.term g).state ≠ .free ∨ (d.tf (g / 512)).state = .standby then d.wrongState g
      else .done (((d.slotMove g 0 .provisioned).onTerm g fun x => { x with sn := sn }).pxEvent (g / 512) (.sn g)) .ok []

/-- TERM_ASSIGN (R156). DESIGN CHOICE: the number's last discovery is the coarse delay that the slot itself has kept; a discovery-queue
entry from before TERM_PROVISION is none (log entry 134). -/
def opTermAssign (r : Nat) (a : Accepted) (d : Dev) : CmdRes :=
  d.rgTerm r a fun g =>
    if (d.term g).state = .provisioned ∧ (d.term g).rtdSn.isSome ∧ d.termActive g then .done (d.assign g 2) .ok []
    else d.wrongState g

/-- TERM_DEACTIVATE (R156). -/
def opTermDeactivate (r : Nat) (a : Accepted) (d : Dev) : CmdRes :=
  d.rgTerm r a fun g =>
    if !d.termActive g then d.wrongState g
    else
      match (d.term g).state with
      | .assigned => .done ((d.slotMove g 9 .provisioned).hwPushRetry g 2) .ok []
      | .operation => .done (d.deactivate g) .ok []
      | .lost => .done (d.deactivate g) .ok []
      | _ => d.wrongState g

/-- TERM_DISABLE (R156). -/
def opTermDisable (r : Nat) (a : Accepted) (d : Dev) : CmdRes :=
  d.rgTerm r a fun g =>
    if !d.termActive g then d.wrongState g
    else
      match (d.term g).state with
      | .free => d.wrongState g
      | .disabled => d.wrongState g
      | _ => .done ((d.slotMove g 10 .disabled).hwPushRetry g 3) .ok []

/-- TERM_ENABLE (R156). -/
def opTermEnable (r : Nat) (a : Accepted) (d : Dev) : CmdRes :=
  d.rgTerm r a fun g =>
    if (d.term g).state = .disabled ∧ d.termActive g then .done ((d.slotMove g 11 .provisioned).hwPushRetry g 4) .ok []
    else d.wrongState g

/-- TERM_RELEASE (R156, R157). -/
def opTermRelease (r : Nat) (a : Accepted) (d : Dev) : CmdRes :=
  d.rgTerm r a fun g =>
    let s := (d.term g).state
    if s = .free ∨ (d.tf (g / 512)).state = .standby then d.wrongState g
    else
      let d1 := d.slotMove g 12 .free
      .done (if s = .assigned ∨ s = .operation ∨ s = .lost then d1.hwPushRetry g 2 else d1) .ok []

/-- TERM_SET_IK (R178). -/
def opTermSetIk (r : Nat) (a : Accepted) (d : Dev) : CmdRes :=
  d.rgTerm r a fun g =>
    let st := (d.term g).state
    if d.copyTree (g / 512) ∨ !(st == .assigned || st == .operation || st == .lost) then d.wrongState g
    else
      let k := a.dat64 0 + 2 ^ 64 * a.dat64 2
      .done ((d.onTerm g fun x => { x with ik := some k }).pxEvent (g / 512) (.ik g)) .ok []

/-- TERM_READ (R192). -/
def opTermRead (r : Nat) (a : Accepted) (d : Dev) : CmdRes :=
  d.rgTerm r a fun g =>
    let x := d.term g
    .done d .ok ([(0, x.state.code + 2 ^ 8 * x.fails + 2 ^ 16 * b2n x.ik.isSome + 2 ^ 17 * b2n x.adj.isSome +
        2 ^ 18 * b2n (d.prof g).valid), (1, x.eqd % 2 ^ 24), (2, unsigned 32 x.o), (3, unsigned 24 x.rtd)] ++ outWords 4 2 x.sn)

/-- PROFILE_READ (R192). -/
def opProfileRead (r : Nat) (a : Accepted) (d : Dev) : CmdRes :=
  d.rgTerm r a fun g =>
    if (d.prof g).ue then .done d .memoryFault [] else .done d .ok (outBytes 0 8 (d.prof g).bytes)

/-- PROFILE_INVALIDATE (R173). -/
def opProfileInvalidate (r : Nat) (a : Accepted) (d : Dev) : CmdRes :=
  d.rgTerm r a fun g => .done (d.invalidate g 3) .ok []

/-- The key of a bank's tail bytes. -/
def tailKey (r : Nat) (src : Src) : Nat := 32 * r + bankOf src

/-- PLOAM_TAIL (R192): OBJ names a terminal of the reach, or a tree for a broadcast. -/
def opPloamTail (r : Nat) (a : Accepted) (d : Dev) : CmdRes :=
  let t := if bit a.obj 16 then bits a.obj 15 0 else bits a.obj 15 0 / 512
  let st := if bit a.obj 16 then (d.tf t).state.code else (d.term (bits a.obj 15 0)).state.code
  if !d.treeOpen a.src t then .refuse .denied st
  else if t / 8 ≠ r ∨ !d.reachExists r then .refuse .badArgument st
  else .done (d.onRx fun x => { x with tails := x.tails.set (tailKey r a.src) (leBytes 4 (a.dat 0) ++ leBytes 1 (a.dat 1)) }) .ok []

/-- The identifiers of the four hardware downstream messages (R177; log entry 13): Assign_ONU-ID, Ranging_Time,
Deactivate_ONU-ID, Disable_Serial_Number. -/
def hwIdent (i : Nat) : Bool := decide (3 ≤ i ∧ i ≤ 6)

/-- The content bytes of PLOAM_SEND: bytes 0 to 30 from _DATA, 31 to 35 from the bank's tail (R192). -/
def Dev.ploamContent (d : Dev) (r : Nat) (a : Accepted) : List Byte :=
  ((List.range 8).flatMap fun i => leBytes 4 (a.dat i)).drop 1 ++
    ((d.rx.tails.get? (tailKey r a.src)).getD [0, 0, 0, 0, 0])

/-- PLOAM_SEND (R178, R192). -/
def opPloamSend (r : Nat) (a : Accepted) (d : Dev) : CmdRes :=
  let bc := bit a.obj 16
  let x := bits a.obj 15 0
  let t := if bc then x else x / 512
  let st := if bc then (d.tf t).state.code else (d.term x).state.code
  let legal := (d.tf t).state = .active ∧
    (bc ∨ (d.term x).state = .assigned ∨ (d.term x).state = .operation ∨ (d.term x).state = .lost)
  if !d.treeOpen a.src t then .refuse .denied st
  else if t / 8 ≠ r ∨ !d.reachExists r ∨ hwIdent (a.db 0 7 0) then .refuse .badArgument st
  else if ¬ legal then .refuse .notInState st
  else if 64 ≤ (d.rg t).hostq.length then .done d .tableFull []
  else
    let seq := if bc then (d.rg t).bcastSeq else (d.term x).seq
    let m : HostMsg := ⟨if bc then 1023 else x % 512, a.db 0 7 0, d.ploamContent r a, seq, if bc then none else (d.term x).ik⟩
    let d1 := d.onRg t fun y => { y with hostq := y.hostq ++ [m], bcastSeq := if bc then (y.bcastSeq + 1) % 256 else y.bcastSeq }
    let d2 := if bc then d1 else d1.onTerm x fun y => { y with seq := (y.seq + 1) % 256, hwSeqs := y.hwSeqs.filter fun q => q ≠ seq }
    .done (d2.onRx fun y => { y with tails := y.tails.erase (tailKey r a.src) }) .ok [(0, seq)]

end Sys2Proof.Machine
end

