-- ==== Sys2Proof/Machine/Grants.lean ====
section
/-! DEFINITION. Upstream grant scheduling (spec/06): allocations, demand and predictor, the map computation with its passes and
layout, planned windows, cooperative grants, replay, and the opcodes of GS_ALLOC_CMD (R230). -/

namespace Sys2Proof.Machine

/-! ### Parameters -/

/-- The words of a frame (R199). -/
def Dev.frameWords (d : Dev) (t : Nat) : Nat := if d.xg t then 9720 else 38880

/-- The line rate in units of 1/16 word per frame (R199). -/
def Dev.lineRate (d : Dev) (t : Nat) : Nat := 16 * d.frameWords t

/-- Burst profile n of tree t (R224). -/
def Dev.bprof (d : Dev) (t n : Nat) : BurstProf :=
  let v := d.reg ⟨.GS_BPROF, t, n⟩
  ⟨bits v 15 8, bits v 27 16, if bit v 28 then 8 else 4, bit v 31, d.xg t⟩

/-- SHORT_IDX and LONG_IDX (R224). -/
def Dev.shortIdx (d : Dev) (t : Nat) : Nat := d.fld (R .GS_PROFILE_SEL t) 5 4
def Dev.longIdx (d : Dev) (t : Nat) : Nat := d.fld (R .GS_PROFILE_SEL t) 1 0

/-- Guard, preamble and delimiter in words (R209). -/
def BurstProf.oh (p : BurstProf) : Nat := (p.guard + p.pre + p.delim) / 4

/-- FEC parity words over data words (R209). -/
def BurstProf.parity (p : BurstProf) (dw : Nat) : Nat :=
  if !p.fec then 0 else if p.xg then 4 * ((dw + 57) / 58) else 8 * ((dw + 53) / 54)

/-- The default allocation of slot s (R198, R227). -/
def Dev.defaultPar (d : Dev) (t s : Nat) : AllocPar :=
  let c := d.reg (R .GS_DEFAULT_CFG t)
  ⟨s, s, bits c 23 21, bits c 20 19, atLeast1 (bits c 15 0), bit c 18, false, d.fld (R .GS_DEFAULT_FIXED t) 23 0,
    d.fld (R .GS_DEFAULT_ASSURED t) 23 0, d.fld (R .GS_DEFAULT_MAX t) 23 0, bits c 31 24, 0, false, 0⟩

/-- An allocation at work: its key (slot s at s, entry i at 512 + i), parameters, run state with the frame's credits added (`base`) and as
the passes charge it (`run`), residual r, prediction p, surplus want, and the words granted so far in the map. -/
structure WAlloc where
  key : Nat
  par : AllocPar
  base : AllocRun
  run : AllocRun
  r : Nat
  p : Nat
  want : Nat
  total : Nat
  ok : Bool
  deriving DecidableEq, Repr

/-- The run state of an allocation key of tree t. -/
def GsTree.runOf (x : GsTree) (key : Nat) : AllocRun :=
  if key < 512 then x.defaults.getD key AllocRun.rest else ((x.allocs.get? (key - 512)).map Alloc.run).getD AllocRun.rest

/-- The run state of an allocation key changed by f. -/
def GsTree.onRun (x : GsTree) (key : Nat) (f : AllocRun → AllocRun) : GsTree :=
  if key < 512 then { x with defaults := x.defaults.put AllocRun.rest key (f (x.defaults.getD key AllocRun.rest)) }
  else match x.allocs.get? (key - 512) with
    | some a => { x with allocs := x.allocs.set (key - 512) { a with run := f a.run } }
    | none => x

/-- The key of an active Alloc-ID of tree t: a default allocation or an entry (R198). -/
def GsTree.keyOf (x : GsTree) (id : Nat) : Option Nat :=
  if id < 512 then some id else (x.allocs.find? fun kv => kv.2.par.id == id).map fun kv => 512 + kv.1

/-! ### Demand (R201 to R205) -/

/-- The words granted to an allocation in maps lo to hi (R201). -/
def AllocRun.grantedIn (a : AllocRun) (lo hi : Nat) : Nat :=
  ((a.hist.filter fun h => decide (lo ≤ h.1 ∧ h.1 ≤ hi)).map Prod.snd).foldl (· + ·) 0

/-- The residual r for map n (R201). -/
def AllocRun.residual (a : AllocRun) (n : Nat) : Nat :=
  match a.report with
  | some (b, f) => if f + 17 < n then 0 else b - a.grantedIn (f + 1) (n - 1)
  | none => 0

/-- The predictor on a report of backlog b from upstream frame f (R204). -/
def AllocRun.predict (a : AllocRun) (b f : Nat) : AllocRun :=
  let q := a.pred
  let f32 := f % 2 ^ 32
  let frames := (f32 + 2 ^ 32 - q.prevF) % 2 ^ 32
  let arr := ((b : Int) + a.grantedIn (f + 1 - frames) f - q.prevB).toNat
  let rate := if frames = 0 then q.rateQ
    else unsigned 32 ((q.rateQ : Int) + ((arr * 16 / frames : Nat) - (q.rateQ : Int)) / 16)
  { a with pred := { q with rateQ := rate, prevB := b, prevF := f32, sArr := (q.sArr + arr) % 2 ^ 64
                            sFrm := (q.sFrm + frames) % 2 ^ 64, dArr := (q.dArr + arr) % 2 ^ 64
                            dFrm := (q.dFrm + frames) % 2 ^ 64 } }

/-- A backlog of allocation `id` from upstream frame f (R201, R202). -/
def Dev.backlog (d : Dev) (t id b f : Nat) : Dev :=
  d.onGs t fun x =>
    match x.keyOf id with
    | some k =>
      let pred := decide (512 ≤ k) && ((x.allocs.get? (k - 512)).any fun a => a.par.pred)
      x.onRun k fun a => let a := if pred then a.predict b f else a
                         { a with report := some (b, f) }
    | none => x

/-- A DBRu (R201): a bad CRC discards it with REPORT_BAD; a BufOcc of 0xFF_FFFF is ignored. -/
def Dev.report (d : Dev) (t id occ : Nat) (crcOk : Bool) (f : Nat) : Dev :=
  if !crcOk then d.raise (R .GS_FLAGS t) 7 else if occ = 0xFFFFFF then d else d.backlog t id occ f

/-- The parameters of an allocation key of tree t (R198). -/
def Dev.parOfKey (d : Dev) (t k : Nat) : Option AllocPar :=
  if k < 512 then some (d.defaultPar t k) else ((d.gs t).allocs.get? (k - 512)).map Alloc.par

/-- An allocation with DBRU_EN = 0 (R202): the backlog from the u non-idle words of its granted payload of w words. -/
def Dev.implied (d : Dev) (t id w u f : Nat) : Dev :=
  match ((d.gs t).keyOf id).bind (d.parOfKey t) with
  | some p => if p.dbru ∨ w = 0 then d else d.backlog t id (if u = w then 2 * w else u) f
  | none => d

/-- A profile value at the end of its bin (R204). -/
def binRatio (m rate arr frm shift : Nat) : Nat :=
  let ratio := if rate = 0 then 64 else min 255 (arr * 1024 / (rate * frm))
  unsigned 8 ((m : Int) + ((ratio : Int) - (m : Int)) / (2 ^ shift : Nat))

/-- The reserved-region cell that holds day bin `bin` of an entry of tree t (R318). -/
def dayCell (t entry bin : Nat) : Nat := (71303168 + (t * 2048 + entry) * 96 + bin) / 2048

/-- PREDICTOR_BIN_END (R204): the second bin or the day bin of every predicting entry of tree t ends; a day bin is written to the
reserved region (R205, R318). -/
def Dev.binEnd (d : Dev) (t : Nat) (day : Bool) : Dev :=
  (if day then d.resWrite fun c => (d.gs t).allocs.any fun kv => kv.2.par.pred && dayCell t kv.1 (d.gs t).dayBin == c else d).onGs t fun x =>
    let k := x.secBin
    { x with
      allocs := x.allocs.mapVal fun _ a =>
        if !a.par.pred then a
        else
          let q := a.run.pred
          let q1 : Pred :=
            if day then
              let m := if x.stepCut ∨ q.dFrm = 0 then q.mDay else binRatio q.mDay q.rateQ q.dArr q.dFrm 2
              { q with mDay := m, day := q.day.put 64 x.dayBin m, dArr := 0, dFrm := 0 }
            else
              let m := if x.stepCut ∨ q.sFrm = 0 then q.mSec.getD k 64 else binRatio (q.mSec.getD k 64) q.rateQ q.sArr q.sFrm 3
              { q with mSec := q.mSec.set k m, sArr := 0, sFrm := 0 }
          { a with run := { a.run with pred := q1 } } }

/-- The second bin and the day bin of a time of day (R205). -/
def secBinOf (ns : Nat) : Nat := ns / 62500000 % 16
def dayBinOf (s : Nat) : Nat := s / 900 % 96

/-- The running bins move at the first frame boundary at or after their crossing; a time step ends both without learning
(R205). -/
def Dev.binsMove (d : Dev) (t : Nat) : Dev :=
  let x := d.gs t
  let sb := secBinOf d.todNs
  let db := dayBinOf d.todS
  let d1 := if sb ≠ x.secBin ∨ x.stepCut then (d.binEnd t false).onGs t fun y => { y with secBin := sb } else d
  let d2 := if db ≠ x.dayBin ∨ x.stepCut then (d1.binEnd t true).onGs t fun y => { y with dayBin := db } else d1
  d2.onGs t fun y => { y with stepCut := false }

/-- DAY_PROFILE_LOAD (R205, R337): the day profile's value of the running bin is loaded; one that fails to load takes 64. -/
def Dev.dayLoad (d : Dev) (t : Nat) : Dev :=
  let d1 := (d.gs t).allocs.foldl (fun d kv => (d.resRead (dayCell t kv.1 (d.gs t).dayBin) 5).1) d
  d1.onGs t fun x => { x with allocs := x.allocs.mapVal fun i a =>
    let v := if d.bp.resBad.contains (dayCell t i x.dayBin) then 64 else a.run.pred.day.getD x.dayBin 64
    { a with run := { a.run with pred := { a.run.pred with mDay := v } } } }

/-- p for map n (R204), with congestion damping. -/
def Dev.predicted (d : Dev) (a : AllocPar) (q : Pred) (n sec : Nat) : Nat :=
  if !a.pred then 0
  else if a.congEn && decide (a.congKib * 1024 ≤ d.queueOcc a.congQueue) then 0
  else
    let lag := min ((n % 2 ^ 32 + 2 ^ 32 - q.prevF) % 2 ^ 32) 16
    q.rateQ * lag * q.mDay * q.mSec.getD sec 64 / 2 ^ 16 % 2 ^ 32

/-- Credits at the start of a computation (R200). -/
def AllocRun.addCredits (a : AllocRun) (p : AllocPar) : AllocRun :=
  { a with cf := min (a.cf + p.fixed) (8 * p.fixed), ca := min (a.ca + p.assured) (8 * p.assured)
           cm := min (a.cm + p.maximum) (2 * p.maximum : Nat) }

/-- The cm limit in words (R200). -/
def AllocRun.cmWords (a : AllocRun) : Nat := a.cm.toNat / 16

/-! ### The map under construction (R206 to R211) -/

/-- A structure under construction: its allocation, the DBRu flag, and its words by pass (fixed, cooperative, assured, predicted,
surplus). -/
structure GItem where
  key : Nat
  alloc : Nat
  dbru : Bool
  ws : List Nat
  deriving DecidableEq, Repr

/-- The payload words of an item. -/
def GItem.words (i : GItem) : Nat := i.ws.foldl (· + ·) 0

/-- A terminal's burst under construction. -/
structure GTerm where
  slot : Nat
  stamp : Option Nat
  prof : Nat
  bp : BurstProf
  pl : Bool
  pin : Option Nat
  items : List GItem
  deriving DecidableEq, Repr

/-- The data words of items (R209). -/
def dataWords (pl : Bool) (is : List GItem) : Nat :=
  2 + 12 * b2n pl + (is.map fun i => i.words + b2n i.dbru).foldl (· + ·) 0

/-- The words of a burst of items (R209). -/
def burstWords (bp : BurstProf) (pl : Bool) (is : List GItem) : Nat :=
  let dw := dataWords pl is
  bp.oh + dw + bp.parity dw

/-- The words of a terminal's burst. -/
def GTerm.total (g : GTerm) : Nat := burstWords g.bp g.pl g.items

/-- The build state: allocations in the order of R206, room, terminals, forbidden word intervals, fixed-position grants, and
whether a limit or a trim was met. -/
structure Build where
  n : Nat
  wa : List WAlloc
  room : Nat
  terms : List GTerm
  forb : List (Nat × Nat)
  pins : List GBurst
  limit : Nat
  trim : Bool
  deriving DecidableEq, Repr

/-- A structure granted for its PLOAMu alone stands only where no other grant gives the terminal a burst (R203). -/
def GTerm.live (g : GTerm) : GTerm :=
  let empty (i : GItem) : Bool := decide (i.key < 512) && !i.dbru && i.words == 0
  if g.items.any fun i => !empty i then { g with items := g.items.filter fun i => !empty i } else g

/-- Structures and bursts so far. -/
def Build.nStructs (b : Build) : Nat := b.pins.length + (b.terms.map fun g => g.live.items.length).foldl (· + ·) 0
def Build.nBursts (b : Build) : Nat := b.pins.length + b.terms.length

/-- How a terminal's new burst would be set up: stamp, profile and PLOAMu flag. -/
structure SlotInfo where
  stamp : Option Nat
  prof : Nat
  bp : BurstProf
  pl : Bool
  deriving DecidableEq, Repr

/-- The first burst of a slot in the build. -/
def Build.termOf (b : Build) (slot : Nat) : Option GTerm := b.terms.find? fun g => g.slot == slot

/-- A burst holds a structure of an allocation. -/
def GTerm.has (g : GTerm) (key : Nat) : Bool := g.items.any fun i => i.key == key

/-- The burst of a slot that an allocation's words go to (R210): the one that holds its structure, else the slot's first. -/
def Build.burstOf (b : Build) (slot key : Nat) : Option GTerm :=
  (b.terms.find? fun g => g.slot == slot && g.has key) <|> b.termOf slot

/-- A terminal's burst with w more words of a pass in an allocation's structure; a structure granted for its PLOAMu alone gains the DBRu flag
with the first grant that asks for it. -/
def GTerm.put (g : GTerm) (key alloc : Nat) (dbru : Bool) (pass w : Nat) : GTerm :=
  if g.has key then
    { g with items := g.items.map fun i => if i.key = key then { i with ws := i.ws.set pass (i.ws.getD pass 0 + w), dbru := i.dbru || dbru } else i }
  else { g with items := g.items ++ [⟨key, alloc, dbru, [0, 0, 0, 0, 0].set pass w⟩] }

/-- The burst that an allocation's words go to, existing or new. -/
def Build.termFor (b : Build) (slot key : Nat) (si : SlotInfo) : GTerm :=
  (b.burstOf slot key).getD ⟨slot, si.stamp, si.prof, si.bp, si.pl, none, []⟩

/-- The cost in words of w payload words of an allocation (R207). -/
def Build.cost (b : Build) (a : WAlloc) (si : SlotInfo) (dbru : Bool) (w : Nat) : Nat :=
  let g := b.termFor a.par.slot a.key si
  let old := if (b.termOf a.par.slot).isSome then g.total else 0
  (g.put a.key a.par.id dbru 0 w).total - old

/-- The largest w, at most hi, whose cost fits (R207): bisection over a rising cost. -/
def maxFit (cost : Nat → Nat) (room : Nat) : Nat → Nat → Nat → Nat
  | 0, lo, _ => lo
  | k + 1, lo, hi =>
    if hi ≤ lo then lo
    else
      let m := (lo + hi + 1) / 2
      if cost m ≤ room then maxFit cost room k m hi else maxFit cost room k lo (m - 1)

/-- Whether a grant to the allocation would need a 513th structure or a 257th burst (R207). -/
def Build.atLimit (b : Build) (a : WAlloc) : Bool :=
  match b.burstOf a.par.slot a.key with
  | some g =>
    !g.has a.key && decide (512 < b.nStructs + (g.put a.key a.par.id a.par.dbru 1 1).live.items.length - g.live.items.length)
  | none => decide (512 ≤ b.nStructs) || decide (256 ≤ b.nBursts)

/-- The credits charged for w words of a pass (R200). -/
def WAlloc.charge (a : WAlloc) (pass w : Nat) : WAlloc :=
  { a with total := a.total + w
           run := { a.run with cm := a.run.cm - (16 * w : Nat), cf := if pass = 0 then a.run.cf - 16 * w else a.run.cf
                               ca := if pass = 2 ∨ pass = 3 then a.run.ca - 16 * w else a.run.ca } }

/-- The words of one pass put into the build at a given charge to the room. -/
def Build.place (b : Build) (a : WAlloc) (si : SlotInfo) (dbru : Bool) (pass w charge : Nat) : Build :=
  let g := (b.termFor a.par.slot a.key si).put a.key a.par.id dbru pass w
  let terms := if (b.termOf a.par.slot).isSome then b.terms.map fun x => if x.slot = a.par.slot ∧ x.pin = g.pin then g else x
    else b.terms ++ [g]
  { b with terms := terms, room := b.room - charge
           wa := b.wa.map fun x => if x.key = a.key then x.charge pass w else x }

/-- A grant of up to w words (R207): reduced to the largest payload that fits; refused at a limit. The answer carries the words
granted. -/
def Build.grant (b : Build) (a : WAlloc) (si : SlotInfo) (pass w budget : Nat) : Build × Nat :=
  if w = 0 then (b, 0)
  else if b.atLimit a then ({ b with limit := b.limit + 1 }, 0)
  else
    let c := b.cost a si a.par.dbru
    if c 1 ≤ min budget b.room then
      let g := maxFit c (min budget b.room) 20 1 w
      (b.place a si a.par.dbru pass g (c g), g)
    else (b, 0)

/-- A grant without payload (R203). -/
def Build.grantZero (b : Build) (a : WAlloc) (si : SlotInfo) (dbru : Bool) : Build :=
  if b.atLimit a then { b with limit := b.limit + 1 }
  else if b.cost a si dbru 0 ≤ b.room then b.place a si dbru 0 0 (b.cost a si dbru 0) else b

/-- A step over the allocations in order. -/
def Build.each (b : Build) (f : Build → WAlloc → Build) : Build :=
  (b.wa.map WAlloc.key).foldl (fun b k =>
    match b.wa.find? fun a => a.key == k with
    | some a => f b a
    | none => b) b

/-- One allocation at work changed. -/
def Build.onAlloc (b : Build) (key : Nat) (f : WAlloc → WAlloc) : Build :=
  { b with wa := b.wa.map fun a => if a.key = key then f a else a }

/-- new_cost of R208: what the first word of an allocation pays beside itself. -/
def Build.newCost (b : Build) (a : WAlloc) (si : SlotInfo) : Nat := b.cost a si a.par.dbru 0

/-- One round of R208 over a group. A share above new_cost takes its g words from the want and the room even where parity growth or a limit
leaves no word of it, as the pseudocode has it. -/
def Build.shareRound (b : Build) (info : Nat → SlotInfo) (grp : List Nat) : Build :=
  let set := b.wa.filter fun a => grp.contains a.key && decide (0 < a.want)
  let room := b.room
  let wsum := (set.map fun a => a.par.weight).foldl (· + ·) 0
  if set.isEmpty ∨ room = 0 ∨ wsum = 0 then b
  else
    (set.map WAlloc.key).foldl (fun b k =>
      match b.wa.find? fun a => a.key == k with
      | none => b
      | some a =>
        let si := info a.par.slot
        let nc := b.newCost a si
        let g := min (room * a.par.weight / wsum) (a.want + nc)
        if nc < g then
          let w := maxFit (b.cost a si a.par.dbru) g 20 0 a.want
          let b1 := if b.atLimit a then { b with limit := b.limit + 1, room := b.room - g }
            else if w = 0 then { b with room := b.room - g }
            else b.place a si a.par.dbru 4 w g
          b1.onAlloc k fun x => { x with want := x.want - (g - nc) }
        else b) b

/-- The rounding remainder of R208: one word each. -/
def Build.shareRest (b : Build) (info : Nat → SlotInfo) (grp : List Nat) : Build :=
  grp.foldl (fun b k =>
    match b.wa.find? fun a => a.key == k with
    | none => b
    | some a =>
      let has := (b.burstOf a.par.slot k).any fun g => g.has k
      if 0 < b.room ∧ 0 < a.want ∧ has then
        (b.place a (info a.par.slot) a.par.dbru 4 1 1).onAlloc k fun x => { x with want := x.want - 1 }
      else b) b

/-- Surplus of one PRIO and ELIG group (R208). -/
def Build.share (b : Build) (info : Nat → SlotInfo) (prio elig : Nat) : Build :=
  let grp := (b.wa.filter fun a => a.ok && a.par.prio == prio && a.par.elig == elig).map WAlloc.key
  let b := upTo 4 b fun _ b => b.shareRound info grp
  b.shareRest info grp

/-! ### Layout (R210, R211) -/

/-- The first k words of an item, in pass order. -/
def takeWords (k : Nat) : List Nat → List Nat
  | [] => []
  | w :: ws => min k w :: takeWords (k - min k w) ws

/-- The rest after the first k words. -/
def dropWords (k : Nat) : List Nat → List Nat
  | [] => []
  | w :: ws => (w - min k w) :: dropWords (k - min k w) ws

/-- Items cut to a space: those that fit after `pre`, and the rest; an item that crosses is split. -/
def cutItems (bp : BurstProf) (pl : Bool) (space : Nat) : List GItem → List GItem → List GItem × List GItem
  | pre, [] => (pre, [])
  | pre, i :: is =>
    if burstWords bp pl (pre ++ [i]) ≤ space then cutItems bp pl space (pre ++ [i]) is
    else
      let fit (k : Nat) : Nat := burstWords bp pl (pre ++ [{ i with ws := takeWords k i.ws }])
      if fit 1 ≤ space ∧ 1 ≤ i.words then
        let k := maxFit fit space 20 1 i.words
        (pre ++ [{ i with ws := takeWords k i.ws }], { i with ws := dropWords k i.ws, dbru := false } :: is)
      else (pre, i :: is)

/-- Words of a pass removed from the last items until the burst fits (R210, trims). -/
def trimPass (bp : BurstProf) (pl : Bool) (space pass : Nat) (is : List GItem) : List GItem :=
  (List.range is.length).reverse.foldl (fun is k =>
    match is[k]? with
    | none => is
    | some i =>
      if burstWords bp pl is ≤ space then is
      else
        let f (x : Nat) : Nat := burstWords bp pl (is.set k { i with ws := i.ws.set pass x })
        is.set k { i with ws := i.ws.set pass (maxFit f space 20 0 (i.ws.getD pass 0)) }) is

/-- Items trimmed in the reverse of pass order; those that lost all their words go, and polls stay (R210). -/
def trimItems (bp : BurstProf) (pl : Bool) (space : Nat) (is : List GItem) : List GItem :=
  let x := [4, 3, 2, 1, 0].foldl (fun is p => trimPass bp pl space p is) is
  let y := (x.zip is).filterMap fun p => if p.1.words = 0 ∧ p.2.words ≠ 0 then none else some p.1
  if space < burstWords bp pl y then [] else y

/-- Up to k words of a pass taken from a burst's items, the last first; the answer carries the words still to be taken. -/
def GTerm.cutPass (g : GTerm) (pass k : Nat) : GTerm × Nat :=
  let r := g.items.reverse.foldl (fun (x : List GItem × Nat) i =>
    let n := min x.2 (i.ws.getD pass 0)
    let j := { i with ws := i.ws.set pass (i.ws.getD pass 0 - n) }
    (if j.words = 0 ∧ i.words ≠ 0 then x.1 else j :: x.1, x.2 - n)) ([], k)
  ({ g with items := r.1 }, r.2)

/-- k words removed from bursts in the order of layout (R210): surplus, predicted, assured, then fixed, within a pass from the last burst
on (log entry 17). -/
def trimWords (order : List GTerm) (k : Nat) : List GTerm :=
  ([4, 3, 2, 0].foldl (fun (x : List GTerm × Nat) pass =>
    let r := x.1.reverse.foldl (fun (y : List GTerm × Nat) g => let c := g.cutPass pass y.2; (c.1 :: y.1, c.2)) ([], x.2)
    r) (order, k)).1

/-- The smallest number from lo to hi for which a layout fits, by bisection. -/
def minFit (fits : Nat → Bool) : Nat → Nat → Nat → Nat
  | 0, _, hi => hi
  | k + 1, lo, hi => if hi ≤ lo then hi else let m := (lo + hi) / 2; if fits m then minFit fits k lo m else minFit fits k (m + 1) hi

/-- A burst of the map from items placed at a word (R211): StartTime after the delimiter, GrantSize the payload words with the
DBRu word when it carries payload (log entry 14). -/
def mkBurst (slot : Nat) (stamp : Option Nat) (prof : Nat) (bp : BurstProf) (pl coop : Bool) (w : Nat) (is : List GItem) : GBurst :=
  let start := w + bp.oh
  let structs := (List.range is.length).filterMap fun k => (is[k]?).map fun i =>
    (⟨i.alloc, slot, i.dbru, pl && k == 0, prof, if k = 0 then start else 0xFFFF,
      if i.words = 0 then 0 else i.words + b2n i.dbru, i.words, i.ws⟩ : GStruct)
  ⟨slot, .data, w, w + burstWords bp pl is, start, 32 * (start : Int) - 8 * (bp.pre + bp.delim : Nat), stamp, prof, bp, coop, structs⟩

/-- The first obstacle at or after word w, and the frame's end beyond the last. -/
def nextObstacle (obs : List (Nat × Nat)) (w fin : Nat) : Nat :=
  obs.foldl (fun m o => if w < o.2 ∧ o.1 < m then o.1 else m) fin

/-- The obstacle that covers word w, if any: its end. -/
def obstacleAt (obs : List (Nat × Nat)) (w : Nat) : Option Nat :=
  (obs.find? fun o => decide (o.1 ≤ w ∧ w < o.2)).map Prod.snd

/-- Word w moved past the obstacles that cover it. -/
def pastObstacles (obs : List (Nat × Nat)) : Nat → Nat → Nat
  | 0, w => w
  | k + 1, w => match obstacleAt obs w with
    | some e => pastObstacles obs k e
    | none => w

/-- The layout state: bursts placed, the next word, structures, and whether words were trimmed. -/
structure Lay where
  out : List GBurst
  w : Nat
  ns : Nat
  trim : Bool
  deriving DecidableEq, Repr

/-- One terminal's burst laid out from the next free word, split at obstacles, trimmed at the frame's end and the limits
(R210). -/
def layTerm (fin : Nat) (obs : List (Nat × Nat)) (g : GTerm) : Nat → Bool → List GItem → Lay → Lay
  | 0, _, _, l => l
  | k + 1, pl, is, l =>
    if is.isEmpty then l
    else
      let w := pastObstacles obs (obs.length + 1) l.w
      if 256 ≤ l.out.length ∨ fin ≤ w ∨ 512 ≤ l.ns then { l with trim := true }
      else
        let lim := nextObstacle obs w fin
        let space := lim - w
        let emit (part rest : List GItem) (tr : Bool) : Lay :=
          let part' := part.take (512 - l.ns)
          if part'.isEmpty then { l with trim := l.trim || tr }
          else
            let b := mkBurst g.slot g.stamp g.prof g.bp pl false w part'
            let l' : Lay := ⟨l.out ++ [b], b.fin, l.ns + part'.length, l.trim || tr || decide (part'.length < part.length)⟩
            layTerm fin obs g k false rest l'
        if burstWords g.bp pl is ≤ space then emit is [] false
        else if lim = fin then emit (trimItems g.bp pl space is) [] true
        else
          let c := cutItems g.bp pl space [] is
          if c.1.all fun i => i.words = 0 then layTerm fin obs g k pl is { l with w := lim }
          else emit c.1 c.2 false

/-- The layout of a build: pins first, extended with the terminal's other structures up to the next obstacle, then the other
bursts in ascending (slot - (n mod 512)) mod 512; where they do not fit, the fewest words that make them fit are trimmed (R210). -/
def Build.layout (b : Build) (fin : Nat) : List GBurst × Bool :=
  let pinned := b.terms.filter fun g => g.pin.isSome
  let plain := b.terms.filter fun g => g.pin.isNone
  let pinObs := pinned.map fun g =>
    let w := g.pin.getD 0
    (w, w + burstWords g.bp g.pl (g.items.take 1))
  let ext := pinned.map fun g =>
    let w := g.pin.getD 0
    let lim := nextObstacle ((b.forb ++ pinObs).filter fun o => decide (w < o.1)) w fin
    let c := cutItems g.bp g.pl (lim - w) [] g.items
    (mkBurst g.slot g.stamp g.prof g.bp g.pl true w c.1, { g with pin := none, pl := false, items := c.2 })
  let obs := b.forb ++ ext.map fun x => (x.1.first, x.1.fin)
  let rest := plain ++ (ext.map Prod.snd).filter fun g => !g.items.isEmpty
  let key (g : GTerm) : Nat := (g.slot + 512 - b.n % 512) % 512
  let order := sortBy (fun x y => decide (key x ≤ key y)) rest
  let l0 : Lay := ⟨b.pins ++ ext.map Prod.fst, 0, b.pins.length + (ext.map fun x => x.1.structs.length).foldl (· + ·) 0, false⟩
  let lay (k : Nat) : Lay := (if k = 0 then order else trimWords order k).foldl (fun l g => layTerm fin obs g (2 * obs.length + 4) g.pl g.items l) l0
  let l := lay 0
  let all := ((order.flatMap GTerm.items).map GItem.words).foldl (· + ·) 0
  let out := if l.trim then (lay (minFit (fun k => !(lay k).trim) 24 1 all)).out else l.out
  (sortBy (fun x y => decide (x.start ≤ y.start)) out, l.trim)

/-! ### Windows (R213 to R215) -/

/-- A value in bits at 9.95328 Gbit/s as the tree's upstream bits, rounded down. -/
def Dev.toUp (d : Dev) (t : Nat) (x : Int) : Int := if d.xg t then x / 4 else x

/-- The span of a window before and after its e (R159, R163). -/
def Dev.winSpan (d : Dev) (t : Nat) (kind : GrantKind) (slot : Nat) : Int × Int :=
  let teq : Int := d.teq t
  let sn : Int := ((d.term (512 * t + slot)).rtdSn).getD 0
  match kind with
  | .ranging => (d.toUp t (-teq + sn - d.rand t - 64), -(d.toUp t (teq - sn - 64)))
  | _ => (d.toUp t (-teq + d.minRtd t), -(d.toUp t (teq - d.maxRtd t - d.rand t)))

/-- The window with the smallest e whose span starts at or after bit `from_` (R213). -/
def Dev.windowFrom (d : Dev) (t : Nat) (kind : GrantKind) (slot from_ : Nat) : PlanWin :=
  let bp := d.bprof t (d.longIdx t)
  let sp := d.winSpan t kind slot
  let L := d.frameBits t
  let s := (((from_ : Int) - sp.1 + 8 * bp.delim).toNat + 31) / 32
  let e := 32 * s - 8 * bp.delim
  let lo := ((e : Int) + sp.1).toNat
  let hi := ((e : Int) + sp.2).toNat
  let resp := bp.oh + 14 + bp.parity 14
  let f := e / L
  ⟨kind, slot, e, lo, hi, 32 * (hi / 32 + 1 + resp), f, (e + 8 * bp.delim - f * L) / 32⟩

/-- e moved forward until the quiet interval meets no other window's (R213). -/
def Dev.planWindow (d : Dev) (t : Nat) (kind : GrantKind) (slot : Nat) : Nat → Nat → PlanWin
  | 0, from_ => d.windowFrom t kind slot from_
  | k + 1, from_ =>
    let w := d.windowFrom t kind slot from_
    match (d.gs t).wins.find? fun v => decide (v.lo / 32 * 32 < w.quietEnd ∧ w.lo / 32 * 32 < v.quietEnd) with
    | some v => d.planWindow t kind slot k v.quietEnd
    | none => w

/-- The words of frame n that a window keeps quiet. -/
def PlanWin.inFrame (w : PlanWin) (n L : Nat) : Option (Nat × Nat) :=
  let a := max (w.lo / 32) (n * (L / 32))
  let b := min (w.quietEnd / 32) ((n + 1) * (L / 32))
  if a < b then some (a - n * (L / 32), b - n * (L / 32)) else none

/-- A cooperative grant has been accepted for a frame that the window's quiet interval overlaps (R214). -/
def Dev.coopIn (d : Dev) (t : Nat) (w : PlanWin) : Bool :=
  let L := d.frameBits t
  (d.rx.coop.getD (t / 8) CoopState.rest).table.any fun c => c.tree == t &&
    (List.range ((w.quietEnd - 1) / L + 1 - w.lo / L)).any fun i =>
      let f := (w.lo / L + i) % 2 ^ 32
      let k := (f + 2 ^ 32 - c.target) % 2 ^ 32
      decide (k % c.period = 0 ∧ c.next ≤ k / c.period ∧ k / c.period < c.reps)

/-- The planned windows of a tree: those whose grant has not been sent (R215). -/
def Dev.planned (d : Dev) (t : Nat) : List PlanWin := (d.gs t).wins.filter fun w => decide (d.sfc t < w.frame)

/-- The quiet interval of a window lies before what now arrives at the PB ball (R151). -/
def Dev.winPast (d : Dev) (t : Nat) (w : PlanWin) : Bool :=
  decide ((w.quietEnd : Int) + d.toUp t (d.teq t) ≤ (d.sfc t * d.frameBits t : Nat))

/-- Planning of future windows (R206 step 8, R213 to R215) during the computation of map n. -/
def Dev.plan (d : Dev) (t n : Nat) : Dev :=
  let L := d.frameBits t
  let d1 :=
    if d.flag (R .RG_TREE_CFG t) 28 && decide (atLeast1 (d.fld (R .GS_TREE_CFG t) 31 16) ≤ (d.gs t).discAge) &&
        decide ((d.planned t).length < 4) then
      let w := d.planWindow t .discovery 512 8 ((n + 1) * L)
      let hit := d.coopIn t w
      if hit && decide ((d.gs t).defers < d.fld (R .GS_TREE_CFG t) 7 0) then
        (d.onGs t fun x => { x with defers := x.defers + 1 }).raise (R .GS_FLAGS t) 4
      else
        (d.onGs t fun x => { x with wins := x.wins ++ [w], discAge := 0, defers := 0 }).raiseIf hit (R .GS_FLAGS t) 5
    else d
  let d2 := d1.onGs t fun x => { x with discAge := min (x.discAge + 1) 65536 }
  (d2.gs t).rangeReq.foldl (fun d s =>
    if (d.planned t).length < 4 then
      let w := d.planWindow t .ranging s 8 ((n + 1) * L)
      d.onGs t fun x => { x with wins := x.wins ++ [w], rangeReq := x.rangeReq.filter fun y => y ≠ s }
    else d) d2

/-! ### Cooperative ring (R216 to R219, R229) -/

/-- The frame whose map a computation that starts now builds (R193, R196): a START_US of 125 µs or more falls in frame N - 1. -/
def Dev.mapTarget (d : Dev) (t : Nat) : Nat := d.sfc t + if d.fld (R .GS_MAP_CFG (t / 8)) 7 0 < 125 then 2 else 1

/-- The cooperative state of reach r. -/
def Dev.coop (d : Dev) (r : Nat) : CoopState := d.rx.coop.getD r CoopState.rest
/-- The cooperative state of reach r changed. -/
def Dev.onCoop (d : Dev) (r : Nat) (f : CoopState → CoopState) : Dev :=
  d.onRx fun x => { x with coop := x.coop.put CoopState.rest r (f (x.coop.getD r CoopState.rest)) }

/-- Entries of the ring (R228). -/
def Dev.coopSize (d : Dev) (r : Nat) : Nat := 2 ^ d.fld (R .GS_COOP_SIZE r) 3 0

/-- The scratchpad address of ring entry i (R217, R228). -/
def Dev.coopAddr (d : Dev) (r i : Nat) : Nat := d.fld (R .GS_COOP_BASE r) 21 5 * 32 + 32 * (i % d.coopSize r)

/-- CI advances over final entries in ring order (R219). -/
def Dev.coopAdvance (d : Dev) (r : Nat) : Dev :=
  upTo (d.coopSize r) d fun _ d =>
    let ci := d.fld (R .GS_COOP_CI r) 10 0
    if (d.coop r).finals.contains ci then
      (d.onCoop r fun x => { x with finals := x.finals.filter fun i => i ≠ ci }).setFld (R .GS_COOP_CI r) 10 0 ((ci + 1) % 2048)
    else d

/-- An entry is made final (R217, R219): its status word in the scratchpad, COOP_DONE, CI. -/
def Dev.coopFinal (d : Dev) (r idx status reason placed missed last : Nat) : Dev :=
  let w := leBytes 1 status ++ leBytes 1 reason ++ leBytes 2 placed ++ leBytes 2 missed ++ leBytes 2 last
  let d1 := d.spWrite (5 + r) (d.coopAddr r idx + 24) w
  ((d1.onCoop r fun x => { x with finals := x.finals ++ [idx] }).raise (R .GS_RFLAGS r) 0).coopAdvance r

/-- An occurrence of an entry is placed or missed (R219): the entry is made final after its last. -/
def Dev.coopStep (d : Dev) (r : Nat) (c : Coop) (start : Option Nat) : Dev :=
  let c1 : Coop := match start with
    | some s => { c with next := c.next + 1, placed := c.placed + 1, lastStart := s }
    | none => { c with next := c.next + 1, missed := c.missed + 1 }
  let d1 := if start.isNone then d.raise (R .GS_FLAGS c.tree) 1 else d
  if c1.reps ≤ c1.next then
    (d1.onCoop r fun x => { x with table := x.table.filter fun y => y.idx ≠ c.idx }).coopFinal r c.idx 1 0 c1.placed c1.missed c1.lastStart
  else d1.onCoop r fun x => { x with table := x.table.map fun y => if y.idx = c.idx then c1 else y }

/-- The frame of an entry's next occurrence, in 32 bits. -/
def Coop.due (c : Coop) : Nat := (c.target + c.next * c.period) % 2 ^ 32

/-- The occurrences of an entry that lie before frame n and have not been placed or missed (R219). -/
def Coop.past (c : Coop) (n : Nat) : Nat :=
  let behind := (signed 32 (n % 2 ^ 32 + 2 ^ 32 - c.due)).toNat
  min (c.reps - c.next) ((behind + c.period - 1) / c.period)

/-- Occurrences of tree t that lie before frame n have been missed (R219). -/
def Dev.coopPast (d : Dev) (t n : Nat) : Dev :=
  ((d.coop (t / 8)).table.filter fun c => c.tree == t).foldl (fun d c0 =>
    upTo (c0.past n) d fun _ d =>
      match (d.coop (t / 8)).table.find? fun c => c.idx == c0.idx with
      | some c => d.coopStep (t / 8) c none
      | none => d) d

/-- The check of an entry read (R217, R218): its REASON, 0 for none. -/
def Dev.coopReason (d : Dev) (r tree id target earliest latest words reps period : Nat) : Nat :=
  if tree / 8 ≠ r ∨ (d.tf tree).state ≠ .active then 1
  else
    match (d.gs tree).keyOf id with
    | none => 2
    | some k =>
      let slot := if k < 512 then k else (((d.gs tree).allocs.get? (k - 512)).map fun a => a.par.slot).getD 512
      let st := (d.term (512 * tree + slot)).state
      if !(st == .operation || (st == .lost && decide (k < 512))) then 2
      else if latest < earliest ∨ words = 0 ∨ d.frameWords tree < words ∨ 4096 < reps ∨ period = 0 ∨ 8000 < period then 3
      else if signed 32 (target + 2 ^ 32 - d.mapTarget tree % 2 ^ 32) < 0 then 4
      else 0

/-- The cooperative table has no place for an entry of a tree (R218). -/
def CoopState.noPlace (x : CoopState) (tree : Nat) : Bool :=
  decide (256 ≤ x.table.length ∨ 64 ≤ (x.table.filter fun c => c.tree == tree).length)

/-- One entry is read from the ring (R216, R218); the answer says whether reading goes on. -/
def Dev.coopRead1 (d : Dev) (r : Nat) : Dev × Bool :=
  let rd := d.fld (R .GS_COOP_RD r) 10 0
  if !d.flag (R .GS_MAP_CFG r) 31 || rd == d.fld (R .GS_COOP_PI r) 10 0 then (d, false)
  else
    let a := d.coopAddr r rd
    if d.spFault a 32 then (d.spUe (d.spBad a 32) (5 + r), false)
    else
      let m := d.mc.scratch
      let tree := m.le a 1
      let target := m.le (a + 4) 4
      let reps := atLeast1 (m.le (a + 14) 2)
      let period := m.le (a + 16) 2
      if tree / 8 = r ∧ 64 < signed 32 (target + 2 ^ 32 - d.mapTarget tree % 2 ^ 32) then (d, false)
      else
        let reason := d.coopReason r tree (m.le (a + 2) 2) target (m.le (a + 8) 2) (m.le (a + 10) 2) (m.le (a + 12) 2) reps period
        let next (d : Dev) : Dev := d.setFld (R .GS_COOP_RD r) 10 0 ((rd + 1) % 2048)
        if reason ≠ 0 then (((next d).coopFinal r rd 2 reason 0 0 0).raise (R .GS_RFLAGS r) 1, true)
        else if (d.coop r).noPlace tree then
          ((d.raiseLevel (R .GS_RFLAGS r) 3 (d.coop r).full.isNone).onCoop r fun x => { x with full := some tree }, false)
        else
          let c : Coop := ⟨rd, tree, bit (m.le (a + 1) 1) 0, m.le (a + 2) 2, target, m.le (a + 8) 2, m.le (a + 10) 2,
            m.le (a + 12) 2, reps, period, m.le (a + 20) 4, 0, 0, 0, 0⟩
          ((next d).onCoop r fun x => { x with table := x.table ++ [c] }, true)

/-- The entries that a computation reads, and their number (R194, R216). -/
def Dev.coopRead (d : Dev) (r : Nat) : Nat → Dev × Nat
  | 0 => (d, 0)
  | k + 1 =>
    let p := d.coopRead1 r
    if p.2 then
      let q := p.1.coopRead r k
      (q.1, q.2 + 1)
    else (p.1, 0)

/-- A stopped ring drains (R229): at the tree's next computation start every entry of it is made final. -/
def Dev.coopDrain (d : Dev) (t : Nat) : Dev :=
  let r := t / 8
  if d.flag (R .GS_MAP_CFG r) 31 then d
  else
    ((d.coop r).table.filter fun c => c.tree == t).foldl (fun d c =>
      let left := c.reps - c.next
      let d1 := upTo (min left 1) d fun _ d => d.raise (R .GS_FLAGS t) 1
      let d2 := if 1 < left then d1.countEach (0x140 + 64 * r + 21) (left - 1) else d1
      (d2.onCoop r fun x => { x with table := x.table.filter fun y => y.idx ≠ c.idx }).coopFinal r c.idx 1 0 c.placed
        (c.missed + left) c.lastStart) d

/-- COOP_PI_WRITE (R216): more than GS_COOP_SIZE entries beyond CI leave PI unchanged. -/
def Dev.coopPiWrite (d : Dev) (r v : Nat) : Dev :=
  let pi := bits v 10 0
  if d.coopSize r < (pi + 2048 - d.fld (R .GS_COOP_CI r) 10 0) % 2048 then d.raise (R .GS_RFLAGS r) 2
  else d.setFld (R .GS_COOP_PI r) 10 0 pi

/-- A write of GS_MAP_CFG: START_US (R196) and COOP_EN (R228, R229). -/
def Dev.mapCfgWrite (d : Dev) (r v : Nat) : Dev :=
  let reg := R .GS_MAP_CFG r
  let en := bit v 31
  let was := d.flag reg 31
  let drains := d.fld (R .GS_COOP_CI r) 10 0 ≠ d.fld (R .GS_COOP_RD r) 10 0
  let badEn := en && !was && decide drains
  let badUs := decide (180 < bits v 7 0)
  let d1 := if badUs then d else d.setFld reg 7 0 (bits v 7 0)
  let d2 := if badEn || en == was then d1
    else
      let pi := d.fld (R .GS_COOP_PI r) 10 0
      let d2 := d1.setFld reg 31 31 (b2n en)
      if en then (d2.setFld (R .GS_COOP_RD r) 10 0 pi).setFld (R .GS_COOP_CI r) 10 0 pi else d2
  if badEn || badUs then d2.cfgRefused (R .GS_RFLAGS r) 4 else d2

/-- A write of GS_COOP_BASE or GS_COOP_SIZE (R228): refused while the ring runs or drains, and for a size outside 4 to 10. -/
def Dev.coopCfgWrite (d : Dev) (reg : Reg) (r v : Nat) (size : Bool) : Dev :=
  if d.flag (R .GS_MAP_CFG r) 31 ∨ d.fld (R .GS_COOP_CI r) 10 0 ≠ d.fld (R .GS_COOP_RD r) 10 0 ∨
      (size ∧ (bits v 3 0 < 4 ∨ 10 < bits v 3 0)) then d.cfgRefused (R .GS_RFLAGS r) 4
  else d.setReg reg (if size then bits v 3 0 else bits v 21 5 * 32)

/-- A write of GS_BPROF[t][n] (R224). -/
def Dev.bprofWrite (d : Dev) (t n v : Nat) : Dev :=
  let delim := if bit v 28 then 8 else 4
  let reg : Reg := ⟨.GS_BPROF, t, n⟩
  if bits v 15 8 < 8 ∨ bits v 27 16 < 8 ∨ (bits v 15 8 + bits v 27 16 + delim) % 4 ≠ 0 then d.cfgRefused (R .GS_FLAGS t) 8
  else d.setReg reg (bits v 31 31 * 2 ^ 31 + bits v 28 8 * 2 ^ 8)

/-- A write of a default register (R227): a MAX below FIXED + ASSURED is refused; an ELIG of 3 keeps ELIG, and the rest of the word
takes effect. -/
def Dev.defaultWrite (d : Dev) (t : Nat) (reg : Reg) (v : Nat) : Dev :=
  if reg.name = .GS_DEFAULT_CFG then
    let bad := decide (bits v 20 19 = 3)
    let d1 := d.setReg reg (bits v 31 21 * 2 ^ 21 + (if bad then d.fld reg 20 19 else bits v 20 19) * 2 ^ 19 +
      bits v 18 18 * 2 ^ 18 + bits v 15 0)
    if bad then d1.cfgRefused (R .GS_FLAGS t) 8 else d1
  else
    let of (n : RegName) : Nat := if reg.name = n then bits v 23 0 else d.fld (R n t) 23 0
    if of .GS_DEFAULT_MAX < of .GS_DEFAULT_FIXED + of .GS_DEFAULT_ASSURED then d.cfgRefused (R .GS_FLAGS t) 8
    else d.setReg reg (bits v 23 0)

/-! ### The computation (R193 to R212) -/

/-- Staleness (R172): the profile is VALID and its LAST_SFC lies more than STALE_FRAMES back. -/
def Dev.stale (d : Dev) (g : Nat) : Bool :=
  (d.prof g).valid && decide (atLeast1 (d.fld (R .RG_PROFILE_CFG (g / 512)) 15 0) <
    (d.sfc (g / 512) % 2 ^ 32 + 2 ^ 32 - (d.prof g).lastSfc) % 2 ^ 32)

/-- How a terminal's burst is set up in the map of frame n (R172, R203, R209, R456). -/
def Dev.slotInfo (d : Dev) (t n slot : Nat) : SlotInfo :=
  let g := 512 * t + slot
  let use := (d.prof g).valid && d.flag (R .LX_PB_BURST_CFG t) 31 && !d.stale g &&
    !((d.gs t).need.contains slot && decide ((d.gs t).maps % 8 = 0))
  let prof := if use then d.shortIdx t else d.longIdx t
  let x := d.term g
  let recent := match x.msgAt with
    | some f => decide (f ≤ d.sfc t ∧ d.sfc t < f + 8)
    | none => false
  let period := atLeast1 (d.fld (R .GS_TREE_CFG t) 15 8)
  ⟨if use then some (g % 4096) else none, prof, d.bprof t prof, recent || decide (x.upAt = 0 ∨ x.upAt + period ≤ (d.gs t).maps + 1 + 0 * n)⟩

/-- The allocations of tree t in the order of R206 with credits added, residual and prediction for map n; the defaults of FREE slots, which
are granted nothing, gain theirs in `storeRuns`. -/
def Dev.workAllocs (d : Dev) (t n : Nat) : List WAlloc :=
  let x := d.gs t
  let st (s : Nat) := (d.term (512 * t + s)).state
  let slots := (d.rx.terms.filter fun kv => kv.1 / 512 == t && kv.2.state ≠ .free).map fun kv => kv.1 % 512
  let quiet := d.im.state == .quiesced
  let defs := slots.map fun s =>
    let par := d.defaultPar t s
    let run := (x.runOf s).addCredits par
    (⟨s, par, run, run, run.residual n, 0, 0, 0, (st s).ranged⟩ : WAlloc)
  let ents := x.allocs.map fun kv =>
    let run := kv.2.run.addCredits kv.2.par
    (⟨512 + kv.1, kv.2.par, run, run, run.residual n, d.predicted kv.2.par run.pred n x.secBin, 0, 0,
      !quiet && st kv.2.par.slot == .operation⟩ : WAlloc)
  sortBy (fun a b => decide (a.par.prio < b.par.prio ∨ (a.par.prio = b.par.prio ∧ a.key ≤ b.key))) (defs ++ ents)

/-- Step 1 (R206, R213): forbidden words and the window grants due in frame n. -/
def Dev.pinsOf (d : Dev) (t n : Nat) : List (Nat × Nat) × List GBurst :=
  let L := d.frameBits t
  let li := d.longIdx t
  let bp := d.bprof t li
  ((d.gs t).wins.filterMap fun w => w.inFrame n L,
   ((d.gs t).wins.filter fun w => w.frame == n).map fun w =>
    let id := if w.kind = .discovery then 1023 else w.slot
    (⟨w.slot, w.kind, 0, 0, w.start, 32 * (w.start : Int) - 8 * (bp.pre + bp.delim : Nat), none, li, bp, false,
      [⟨id, w.slot, false, true, li, w.start, 0, 0, []⟩]⟩ : GBurst))

/-- Words of disjoint or overlapping intervals within a frame, counted once. -/
def coveredWords (iv : List (Nat × Nat)) : Nat :=
  let s := sortBy (fun a b => decide (a.1 ≤ b.1)) iv
  (s.foldl (fun (x : Nat × Nat) i => (x.1 + (max i.2 x.2 - max i.1 x.2), max i.2 x.2)) (0, 0)).1

/-- The smallest StartTime in a range at which a burst of given words fits without meeting an obstacle or the frame's end
(R219). -/
def pinStart (obs : List (Nat × Nat)) (fin oh words lo hi : Nat) : Option Nat :=
  let cands := (max lo oh :: obs.map fun o => o.2 + oh).filter fun s => decide (lo ≤ s ∧ s ≤ hi ∧ oh ≤ s)
  let ok := cands.filter fun s =>
    decide (s - oh + words ≤ fin) && obs.all fun o => decide (s - oh + words ≤ o.1 ∨ o.2 ≤ s - oh)
  ok.foldl (fun m s => match m with | none => some s | some x => some (min x s)) none

/-- Step 3 (R206, R207, R210, R219): one cooperative occurrence is pinned or missed. A structure of the same Alloc-ID that no pin holds merges
with the pinned one, and the terminal's ordinary burst joins it; the place is sought for the burst with the merged structure, and the
charge is what the terminal's bursts grow by. -/
def coopPlace (info : Nat → SlotInfo) (fin : Nat) (b : Build) (c : Coop) : Build × Option Nat :=
  match b.wa.find? fun a => a.par.id == c.alloc && (a.ok) with
  | none => (b, none)
  | some a =>
    let si := info a.par.slot
    let mine := b.terms.filter fun g => g.slot == a.par.slot
    let old := mine.find? fun g => g.pin.isNone
    let tail (g : GTerm) : List GItem := if g.pin.isSome then g.items.drop 1 else g.items
    let same := mine.findSome? fun g => (tail g).find? fun i => i.key == a.key
    let it : GItem := match same with
      | some i => { i with ws := i.ws.set 1 c.words, dbru := c.dbru || i.dbru }
      | none => ⟨a.key, a.par.id, c.dbru, [0, c.words, 0, 0, 0]⟩
    let pl := match old with
      | some g => g.pl
      | none => si.pl && mine.isEmpty
    let joined := ((old.map GTerm.items).getD []).filter fun i => i.key ≠ a.key
    let g : GTerm := ⟨a.par.slot, si.stamp, si.prof, si.bp, pl, none, it :: joined⟩
    let strip (x : GTerm) : GTerm :=
      if x.slot = a.par.slot ∧ x.pin.isSome then { x with items := x.items.take 1 ++ (x.items.drop 1).filter fun i => i.key ≠ a.key } else x
    let others := (b.terms.filter fun x => !(x.slot == a.par.slot && x.pin.isNone)).map strip
    let words (l : List GTerm) : Nat := (l.map GTerm.total).foldl (· + ·) 0
    let cost := words (others ++ [g]) - words b.terms
    let obs := b.forb ++ (b.terms.filter fun g => g.pin.isSome).map fun g =>
      (g.pin.getD 0, g.pin.getD 0 + burstWords g.bp g.pl (g.items.take 1))
    let next (s : Nat) : Build := { b with terms := others ++ [{ g with pin := some (s - si.bp.oh) }], room := b.room - cost }
    if 512 < (next 0).nStructs ∨ 256 < (next 0).nBursts then ({ b with limit := b.limit + 1 }, none)
    else
      match pinStart obs fin si.bp.oh (burstWords si.bp pl [it]) c.earliest c.latest with
      | none => (b, none)
      | some s =>
        if b.room < cost then (b, none)
        else ((next s).onAlloc a.key fun x => { (x.charge 1 c.words) with r := x.r - c.words }, some s)

/-- Structures granted for their PLOAMu alone go from bursts that other grants give (R203). -/
def Build.dropIdle (b : Build) : Build := { b with terms := b.terms.map GTerm.live }

/-- The passes of R206 over a prepared build; quiesced, only the defaults' fixed words are granted (R48). -/
def Build.passes (b : Build) (info : Nat → SlotInfo) (quiet : Bool) (polls : List Nat) (coops : List Coop) (fin : Nat) :
    Build × List (Coop × Option Nat) :=
  let b1 := b.each fun b a => if a.ok then (b.grant a (info a.par.slot) 0 (a.run.cf / 16) b.room).1 else b
  if quiet then (b1, [])
  else
    let has (b : Build) (a : WAlloc) : Bool := (b.burstOf a.par.slot a.key).any fun g => g.has a.key
    let b1' := b1.each fun b a => if a.ok && polls.contains a.key && !has b a then b.grantZero a (info a.par.slot) true else b
    let b2 := b1'.each fun b a =>
      if a.ok && decide (a.key < 512) && (b.termOf a.par.slot).isNone && (info a.par.slot).pl then
        b.grantZero a (info a.par.slot) false else b
    let cs := coops.foldl (fun (x : Build × List (Coop × Option Nat)) c =>
      let p := coopPlace info fin x.1 c
      (p.1, x.2 ++ [(c, p.2)])) (b2, [])
    let b3 := cs.1.each fun b a =>
      if !a.ok then b
      else
        let p := b.grant a (info a.par.slot) 2 (min a.r (min (a.run.ca / 16) a.run.cmWords)) b.room
        p.1.onAlloc a.key fun x => { x with r := x.r - p.2 }
    let b4 := b3.each fun b a =>
      if !a.ok then b
      else
        let p := b.grant a (info a.par.slot) 3 (min (min a.p (a.par.maximum / 16 - a.total)) (min (a.run.ca / 16) a.run.cmWords)) b.room
        p.1.onAlloc a.key fun x => { x with p := x.p - p.2 }
    let b5 := b4.each fun b a => b.onAlloc a.key fun x =>
      { x with want := if x.ok ∧ x.par.elig ≠ 0 then min (x.r + x.p) (min x.run.cmWords (x.par.maximum / 16 - x.total)) else 0 }
    let b6 := upTo 8 b5 fun prio b => (b.share info prio 1).share info prio 2
    (b6.dropIdle, cs.2)

/-- The allocations due for a poll (R203). -/
def pollKeys (wa : List WAlloc) : List Nat :=
  (wa.filter fun a => a.par.dbru && decide (a.par.poll ≠ 0 ∧ a.par.poll ≤ a.run.idle)).map WAlloc.key

/-- The credits of the defaults of FREE slots, which no map grants anything (R198, R200): one step for each slot from s on. -/
def creditFree (par : AllocPar) (free : Nat → Bool) : Nat → Nat → Table AllocRun → Table AllocRun
  | 0, _, t => t
  | k + 1, s, t =>
    let old := (t.head?.filter fun kv => kv.1 == s).map Prod.snd
    let rest := creditFree par free k (s + 1) (if old.isSome then t.drop 1 else t)
    let new := if free s then (old.getD AllocRun.rest).addCredits par else old.getD AllocRun.rest
    if new = AllocRun.rest then rest else (s, new) :: rest

/-- The payload words of structures that came from some passes. -/
def passWords (ss : List GStruct) (ps : List Nat) : Nat := (ss.map fun s => (ps.map fun p => s.ws.getD p 0).foldl (· + ·) 0).foldl (· + ·) 0

/-- The grant history of an allocation, for its last 16 maps, after map n (R201). -/
def pushGrant (n words : Nat) (hist : List (Nat × Nat)) : List (Nat × Nat) :=
  let kept := hist.filter fun h => decide (n < h.1 + 16)
  if words = 0 then kept else (n, words) :: kept

/-- What a built map leaves with the allocations (R200, R201, R203): the frame's credits less the words that the map grants (trimmed words
keep theirs, log entry 17), grant history and idle counts. -/
def Dev.storeRuns (d : Dev) (t n : Nat) (b : Build) (m : List GBurst) : Dev :=
  d.onGs t fun x =>
    let x := b.wa.foldl (fun x a =>
      let ss := (m.filter fun b => b.kind == .data).flatMap GBurst.structs
      let mine := ss.filter fun s => s.alloc == a.par.id && s.slot == a.par.slot
      let words := (mine.map GStruct.words).foldl (· + ·) 0
      x.onRun a.key fun _ =>
        { a.base with cf := a.base.cf - 16 * passWords mine [0], ca := a.base.ca - 16 * passWords mine [2, 3]
                      cm := a.base.cm - (16 * words : Nat)
                      hist := pushGrant n words a.base.hist
                      idle := if mine.isEmpty then min (a.base.idle + 1) 256 else 0 }) x
    { x with defaults := creditFree (d.defaultPar t 0) (fun s => (d.term (512 * t + s)).state == .free) 512 0 x.defaults }

/-- Reach cycles of a frame. -/
def frameCycles : Nat := 77760

/-- The reach cycle after a boundary N - 2 at which map N's deadline lies, 10 µs before boundary N (R195). -/
def deadlineCycle : Nat := 149300

/-- The boundary N - 2 that a computation which starts now counts from (R193, R196). -/
def Dev.mapBase (d : Dev) (t : Nat) : Nat := d.rx.bnd - if d.fld (R .GS_MAP_CFG (t / 8)) 7 0 < 125 then 0 else 1

/-- The reach cycles after boundary N - 2 at which a computation ends (R194, R196): from START_US, or from the cycle at which its engine is
free of an earlier map, the engine's other tree first. -/
def Dev.endCycle (d : Dev) (t own : Nat) : Nat :=
  let free (u : Nat) : Nat :=
    let b := (d.gs u).busy
    if b.1 = d.mapBase t then b.2 else if b.1 + 1 = d.mapBase t then b.2 - frameCycles else 0
  max (d.fld (R .GS_MAP_CFG (t / 8)) 7 0 * 62208 / 100) (max (free (t / 2 * 2)) (free (t / 2 * 2 + 1))) + own

/-- On time (R195): complete before the reach cycle that begins 10 µs before boundary N, 240 µs after boundary N - 2. -/
def onTime (endCycle : Nat) : Bool := decide (endCycle < deadlineCycle)

/-- The planned window's grant of a frame no longer goes out (R220, R221): a ranging request is pending again, discovery due. -/
def Dev.cancelWindows (d : Dev) (t n : Nat) : Dev :=
  ((d.gs t).wins.filter fun w => w.frame == n).foldl (fun d w =>
    let d1 := d.onGs t fun x => { x with wins := x.wins.filter fun v => v ≠ w }
    if w.kind = .ranging then d1.rangeRequest (512 * t + w.slot) else d1.onGs t fun x => { x with discAge := 65536 }) d

/-- MAP_COMPUTATION_START (R193 to R212): the map of frame N of tree t is built, with the scratchpad waits it meets. A map that
will not be on time is abandoned at its deadline: it charges nothing, and its deadline will replay. A reach that darkens builds no further map
(R51); DESIGN CHOICE: with a START_US of 125 µs or more that holds for an earlier map not yet started too (log entry 99). -/
def Dev.mapStart (d : Dev) (t waits : Nat) : Dev :=
  if (d.tf t).state ≠ .active ∨ !d.lit t ∨ (d.reach (t / 8)).darkenIn.isSome ∨
      ((d.gs t).takeoverLeft ≠ 0 ∧ d.mapTarget t = d.sfc t + 1) ∨ ((d.gs t).built.any fun m => m.frame == d.mapTarget t) ∨
      ((d.gs t).lateFor.get? (d.mapTarget t)).isSome then d
  else
    let n := d.mapTarget t
    let quiet := d.im.state == .quiesced
    let p := if quiet then (d.coopDrain t, 0) else (d.coopDrain t).coopRead (t / 8) 256
    let d1 := p.1.coopPast t n
    let fin := d1.frameWords t
    let pins := d1.pinsOf t n
    let info := d1.slotInfo t n
    let wa := d1.workAllocs t n
    let coops := sortBy (fun a b => decide (a.alloc < b.alloc ∨ (a.alloc = b.alloc ∧ a.tag ≤ b.tag)))
      ((d1.coop (t / 8)).table.filter fun c => c.tree == t && c.due == n % 2 ^ 32)
    let b0 : Build := ⟨n, wa, fin - coveredWords pins.1, [], pins.1, pins.2, 0, false⟩
    let r := b0.passes info quiet (pollKeys wa) coops fin
    let lay := r.1.layout fin
    let ns := (lay.1.map fun b => b.structs.length).foldl (· + ·) 0
    let own := 640 + 6 * (wa.filter WAlloc.ok).length + 4 * ns + 12 * p.2 + waits
    let fin' := d1.endCycle t own
    let d2 := d1.onGs t fun x => { x with busy := (d1.mapBase t, min fin' deadlineCycle), maps := x.maps + 1 }
    if !onTime fin' then
      coops.foldl (fun d c => d.coopStep (t / 8) c none) (d2.onGs t fun x =>
        { x with lateFor := x.lateFor.set n (d.fld (R .GS_MAP_CFG (t / 8)) 7 0, own, waits) })
    else
      let stale := (lay.1.filter fun b => b.kind == .data && d2.stale (512 * t + b.slot)).map GBurst.slot
      let d3 := stale.foldl (fun d s => d.invalidate (512 * t + s) 0) d2
      let d4 := r.2.foldl (fun d c => d.coopStep (t / 8) c.1 c.2) d3
      let d5 := (d4.storeRuns t n r.1 lay.1).onGs t fun x => { x with built := x.built ++ [⟨n, lay.1, false, own, waits⟩] }
      let ups := (lay.1.filter fun b => b.kind == .data && b.structs.any GStruct.ploamu).map GBurst.slot
      let d6 := ups.foldl (fun d s => d.onTerm (512 * t + s) fun x => { x with upAt := (d.gs t).maps }) d5
      let d7 := upTo (min r.1.limit 4096) d6 fun _ d => d.raise (R .GS_FLAGS t) 2
      let d8 := d7.raiseIf lay.2 (R .GS_FLAGS t) 3
      if quiet then d8 else d8.plan t n

/-- The replay of a map for frame n (R220). -/
def Dev.replay (d : Dev) (t n : Nat) (m : GMap) : GMap :=
  let forb := (d.gs t).wins.filterMap fun w => w.inFrame n (d.frameBits t)
  let keep := m.bursts.filter fun b =>
    b.kind == .data && (d.term (512 * t + b.slot)).state.ranged && forb.all fun o => decide (b.fin ≤ o.1 ∨ o.2 ≤ b.first)
  ⟨n, keep, true, 0, 0⟩

/-- What a replayed map leaves with the allocations (R201, R203, R220): its grants enter the history and end an allocation's wait for a
poll, which goes on for the others; no credit moves. -/
def Dev.replayRuns (d : Dev) (t n : Nat) (m : GMap) : Dev :=
  let ss := m.bursts.flatMap GBurst.structs
  let keys := ((d.rx.terms.filter fun kv => kv.1 / 512 == t && kv.2.state ≠ .free).map fun kv => kv.1 % 512) ++
    (d.gs t).allocs.map fun kv => 512 + kv.1
  let d1 := d.onGs t fun x => keys.foldl (fun x k =>
    let mine := ss.filter fun s => x.keyOf s.alloc == some k
    let words := (mine.map GStruct.words).foldl (· + ·) 0
    x.onRun k fun a => { a with hist := pushGrant n words a.hist, idle := if mine.isEmpty then min (a.idle + 1) 256 else 0 }) x
  (m.bursts.filter fun b => b.structs.any GStruct.ploamu).foldl (fun d b =>
    d.onTerm (512 * t + b.slot) fun x => { x with upAt := (d.gs t).maps }) d1

/-- MAP_DEADLINE (R195, R220): a map not complete is abandoned and the frame carries the previous map replayed; a frame for which
a darkening reach began no map has none to replay (R51). The record has START_US as the computation started with it, 0 cycles and 0
waits for a map whose computation never started. -/
def Dev.mapDeadline (d : Dev) (t : Nat) : Dev :=
  let x := d.gs t
  let n := d.sfc t + 1
  if (d.tf t).state ≠ .active ∨ !d.lit t ∨ x.emptyLeft ≠ 0 ∨
      ((d.reach (t / 8)).darkenIn.isSome ∧ (x.lateFor.get? n).isNone) ∨ x.built.any fun m => m.frame == n then d
  else
    let d1 := d.cancelWindows t n
    let m := d1.replay t n (x.sent.head?.getD ⟨n, [], false, 0, 0⟩)
    let d2 := (d1.replayRuns t n m).onGs t fun y => { y with built := y.built ++ [m], lateFor := y.lateFor.erase n }
    let d3 := d2.coopPast t (n + 1)
    let l := (x.lateFor.get? n).getD (d.fld (R .GS_MAP_CFG (t / 8)) 7 0, 0, 0)
    d3.raiseRec (R .GS_FLAGS t) 0 .gs t false [(1, t), (8, n), (1, l.1), (4, l.2.1), (4, l.2.2)]

/-- The map that frame n (the one that starts now) carries (R197): none in the two frames after a change to ACTIVE. -/
def Dev.mapOf (d : Dev) (t n : Nat) : GMap :=
  if (d.gs t).emptyLeft ≠ 0 then ⟨n, [], false, 0, 0⟩ else ((d.gs t).built.find? fun m => m.frame == n).getD ⟨n, [], false, 0, 0⟩

/-- The fields of GS_TREE_STATUS for a map (R226). -/
def Dev.mapStatus (d : Dev) (t : Nat) (m : GMap) : Dev :=
  let ns := (m.bursts.map fun b => b.structs.length).foldl (· + ·) 0
  (((d.setFld (R .GS_TREE_STATUS t) 31 20 (d.gs t).allocs.length).setFld (R .GS_TREE_STATUS t) 19 10 ns).setFld
    (R .GS_TREE_STATUS t) 9 1 m.bursts.length).setFld (R .GS_TREE_STATUS t) 0 0 (b2n m.replayed)

/-- The map of the frame that starts now is sent (R119, R226): it leaves the built maps, and its ranging grants count. -/
def Dev.mapSend (d : Dev) (t : Nat) (m : GMap) : Dev :=
  let d1 := d.onGs t fun x =>
    { x with built := x.built.filter fun b => decide (m.frame < b.frame), sent := (m :: x.sent).take 20
             emptyLeft := x.emptyLeft - 1, wins := x.wins.filter fun w => decide (m.frame < w.frame) || !d.winPast t w }
  let d2 := (m.bursts.filter fun b => b.kind == .ranging).foldl (fun d b =>
    d.onTerm (512 * t + b.slot) fun x => { x with granted := true, tries := min (x.tries + 1) 255 }) d1
  d2.mapStatus t m

/-! ### GS_ALLOC_CMD (R230) -/

/-- The allocation parameters of _DATA (R230). -/
def parOf (a : Accepted) : AllocPar :=
  ⟨a.db 0 13 0, a.db 0 24 16, a.db 0 27 25, a.db 0 29 28, a.db 4 15 0, bit (a.dat 0) 15, bit (a.dat 0) 30, a.db 1 23 0, a.db 2 23 0,
    a.db 3 23 0, a.db 4 23 16, a.db 5 18 0, bit (a.dat 5) 19, a.db 5 31 20⟩

/-- The words of _DATA of parameters (R230). -/
def outPar (p : AllocPar) : List (Nat × Nat) :=
  [(0, p.id + 2 ^ 15 * b2n p.dbru + 2 ^ 16 * p.slot + 2 ^ 25 * p.prio + 2 ^ 28 * p.elig + 2 ^ 30 * b2n p.pred), (1, p.fixed),
    (2, p.assured), (3, p.maximum), (4, p.weight + 2 ^ 16 * p.poll),
    (5, p.congQueue + 2 ^ 19 * b2n p.congEn + 2 ^ 20 * p.congKib)]

/-- Parameters out of range (R230). -/
def Dev.parBad (d : Dev) (t : Nat) (p : AllocPar) : Bool :=
  decide (p.id < 1024) || p.elig == 3 || p.weight == 0 || decide (p.maximum < p.fixed + p.assured) ||
    decide (d.lineRate t < p.maximum) || d.sliceOfQueue p.congQueue ≠ some (d.sliceOfTree t)

/-- The tree's sum of FIXED + ASSURED without an entry, counting the defaults of all 512 slots (R230). -/
def Dev.sumRates (d : Dev) (t except : Nat) : Nat :=
  512 * (d.fld (R .GS_DEFAULT_FIXED t) 23 0 + d.fld (R .GS_DEFAULT_ASSURED t) 23 0) +
    (((d.gs t).allocs.filter fun kv => kv.1 ≠ except).map fun kv => kv.2.par.fixed + kv.2.par.assured).foldl (· + ·) 0

/-- The state of the allocation entry that a command of GS_ALLOC_CMD[t] names: whether it is in use. -/
def Dev.allocState (d : Dev) (t : Nat) (a : Accepted) : Nat := b2n ((d.gs t).allocs.get? (bits a.obj 10 0)).isSome

/-- The common checks of GS_ALLOC_CMD[t] (R230, R571): the slice, then the tree, then what a mate's copy rules (R469). -/
def Dev.gsGuard (d : Dev) (t : Nat) (a : Accepted) (change : Bool) (k : CmdRes) : CmdRes :=
  if !d.treeOpen a.src t then .refuse .denied (d.allocState t a)
  else if !d.treeExists t then .refuse .badArgument 0
  else if change && bit a.obj 16 then .refuse .badArgument 0
  else if change && d.copyTree t then .refuse .notInState (d.tf t).state.code
  else k

/-- ALLOC_ADD (R230). -/
def opAllocAdd (t : Nat) (a : Accepted) (d : Dev) : CmdRes :=
  let i := bits a.obj 10 0
  let p := parOf a
  if !d.treeOpen a.src t then .refuse .denied (d.allocState t a)
  else if !d.treeExists t ∨ bit a.obj 16 ∨ d.parBad t p then .refuse .badArgument 0
  else d.gsGuard t a true <|
    if ((d.gs t).allocs.get? i).isSome ∨ ((d.gs t).keyOf p.id).isSome then .refuse .notInState 1
    else if d.lineRate t * 9 / 10 < d.sumRates t i + p.fixed + p.assured then .done d .tableFull []
    else .done ((d.onGs t fun x => { x with allocs := x.allocs.set i ⟨p, AllocRun.reset (d.sfc t)⟩ }).pxEvent t (.alloc t i)) .ok []

/-- ALLOC_MODIFY (R230): a bad argument, another Alloc-ID or slot than the entry's included, comes before the tree's state (R571). -/
def opAllocModify (t : Nat) (a : Accepted) (d : Dev) : CmdRes :=
  let i := bits a.obj 10 0
  let p := parOf a
  let other := ((d.gs t).allocs.get? i).any fun e => e.par.id ≠ p.id || e.par.slot ≠ p.slot
  if !d.treeOpen a.src t then .refuse .denied (d.allocState t a)
  else if !d.treeExists t ∨ bit a.obj 16 ∨ d.parBad t p ∨ other then .refuse .badArgument 0
  else d.gsGuard t a true <|
    match (d.gs t).allocs.get? i with
    | none => .done d .notFound []
    | some e =>
      if d.lineRate t * 9 / 10 < d.sumRates t i + p.fixed + p.assured then .done d .tableFull []
      else
        let run := { e.run with cf := min e.run.cf (8 * p.fixed), ca := min e.run.ca (8 * p.assured)
                                cm := min e.run.cm (2 * p.maximum : Nat)
                                pred := if p.pred && !e.par.pred then Pred.reset (d.sfc t) else e.run.pred }
        .done ((d.onGs t fun x => { x with allocs := x.allocs.set i ⟨p, run⟩ }).pxEvent t (.alloc t i)) .ok []

/-- ALLOC_DEL (R230). -/
def opAllocDel (t : Nat) (a : Accepted) (d : Dev) : CmdRes :=
  d.gsGuard t a true <|
    if ((d.gs t).allocs.get? (bits a.obj 10 0)).isNone then .done d .notFound []
    else .done (((d.onRx fun x => { x with days := x.keepDays fun u i => u == t && i == bits a.obj 10 0 }).onGs t fun x =>
      { x with allocs := x.allocs.erase (bits a.obj 10 0) }).pxEvent t (.alloc t (bits a.obj 10 0))) .ok []

/-- ALLOC_READ (R230). -/
def opAllocRead (t : Nat) (a : Accepted) (d : Dev) : CmdRes :=
  d.gsGuard t a false <|
    if bit a.obj 16 then
      let s := bits a.obj 8 0
      let run := (d.gs t).runOf s
      .done d .ok (outPar (d.defaultPar t s) ++ [(6, run.cf), (7, run.ca)])
    else
      match (d.gs t).allocs.get? (bits a.obj 10 0) with
      | none => .done d .notFound []
      | some e => .done d .ok (outPar e.par ++ [(6, e.run.cf), (7, e.run.ca)])

/-- PRED_READ (R230). -/
def opPredRead (t : Nat) (a : Accepted) (d : Dev) : CmdRes :=
  d.gsGuard t { a with obj := a.obj } false <|
    if bit a.obj 16 then .refuse .badArgument 0
    else
      match (d.gs t).allocs.get? (bits a.obj 10 0) with
      | none => .done d .notFound []
      | some e =>
        if !e.par.pred then .done d .notFound []
        else
          let q := e.run.pred
          .done d .ok ([(0, q.rateQ), (1, q.prevB), (2, q.prevF), (3, q.mDay)] ++
            outBytes 4 4 (q.mSec.map fun m => BitVec.ofNat 8 m))

/-- PRED_RESET (R230). -/
def opPredReset (t : Nat) (a : Accepted) (d : Dev) : CmdRes :=
  d.gsGuard t a true <|
    match (d.gs t).allocs.get? (bits a.obj 10 0) with
    | none => .done d .notFound []
    | some e =>
      if !e.par.pred then .done d .notFound []
      else .done (d.onGs t fun x =>
        { x with allocs := x.allocs.set (bits a.obj 10 0) { e with run := { e.run with pred := Pred.reset (d.sfc t) } } }) .ok []

/-- The structures of a map in map order, each with its burst. -/
def GMap.structs (m : GMap) : List (GStruct × GBurst) := m.bursts.flatMap fun b => b.structs.map fun s => (s, b)

/-- MAP_READ (R230). -/
def opMapRead (t : Nat) (a : Accepted) (d : Dev) : CmdRes :=
  d.gsGuard t a false <|
    match (d.gs t).sent.head? with
    | none => .done d .notFound []
    | some m =>
      match m.structs[a.db 0 8 0]? with
      | none => .done d .notFound []
      | some (s, b) =>
        .done d .ok [(0, s.alloc + 2 ^ 16 * b2n s.dbru + 2 ^ 17 * b2n s.ploamu + 2 ^ 18 * s.prof), (1, s.start + 2 ^ 16 * s.size),
          (2, unsigned 21 (b.a % (d.frameBits t : Int)) + 2 ^ 31 * b2n b.stamp.isNone), (3, b.stamp.getD 0), (4, m.frame % 2 ^ 32)]

end Sys2Proof.Machine
end

