-- ==== Sys2Proof/Machine/Lanes.lean ====
section
/-! DEFINITION. Line-side lanes (spec/03): roles and service, transmitters, profile slots and set-ups, detectors, eye scans,
PRBS, and the checks of lane register writes. -/

namespace Sys2Proof.Machine

/-! ### Lane registers -/

/-- LX_k_CTL of a lane. -/
def laneCtl : LaneKind → Nat → Reg
  | .pt, i => R .LX_PT_CTL i
  | .pb, i => R .LX_PB_CTL i
  | .ul, i => R .LX_UL_CTL i
  | .ml, i => R .LX_ML_CTL i
/-- LX_k_STATUS of a lane. -/
def laneStatus : LaneKind → Nat → Reg
  | .pt, i => R .LX_PT_STATUS i
  | .pb, i => R .LX_PB_STATUS i
  | .ul, i => R .LX_UL_STATUS i
  | .ml, i => R .LX_ML_STATUS i
/-- LX_k_FLAGS of a lane. -/
def laneFlags : LaneKind → Nat → Reg
  | .pt, i => R .LX_PT_FLAGS i
  | .pb, i => R .LX_PB_FLAGS i
  | .ul, i => R .LX_UL_FLAGS i
  | .ml, i => R .LX_ML_FLAGS i
/-- LX_k_PRBS_CTL of a lane. -/
def lanePrbsCtl : LaneKind → Nat → Reg
  | .pt, i => R .LX_PT_PRBS_CTL i
  | .pb, i => R .LX_PB_PRBS_CTL i
  | .ul, i => R .LX_UL_PRBS_CTL i
  | .ml, i => R .LX_ML_PRBS_CTL i
/-- LX_k_PRBS_ERR; PT lanes have none. -/
def lanePrbsErr : LaneKind → Nat → Option Reg
  | .pt, _ => none
  | .pb, i => some (R .LX_PB_PRBS_ERR i)
  | .ul, i => some (R .LX_UL_PRBS_ERR i)
  | .ml, i => some (R .LX_ML_PRBS_ERR i)
/-- LX_k_PRBS_BLOCKS; PT lanes have none. -/
def lanePrbsBlocks : LaneKind → Nat → Option Reg
  | .pt, _ => none
  | .pb, i => some (R .LX_PB_PRBS_BLOCKS i)
  | .ul, i => some (R .LX_UL_PRBS_BLOCKS i)
  | .ml, i => some (R .LX_ML_PRBS_BLOCKS i)
/-- LX_k_EYE_CFG; PT lanes have none. -/
def laneEyeCfg : LaneKind → Nat → Option Reg
  | .pt, _ => none
  | .pb, i => some (R .LX_PB_EYE_CFG i)
  | .ul, i => some (R .LX_UL_EYE_CFG i)
  | .ml, i => some (R .LX_ML_EYE_CFG i)
/-- LX_k_EYE_RESULT; PT lanes have none. -/
def laneEyeResult : LaneKind → Nat → Option Reg
  | .pt, _ => none
  | .pb, i => some (R .LX_PB_EYE_RESULT i)
  | .ul, i => some (R .LX_UL_EYE_RESULT i)
  | .ml, i => some (R .LX_ML_EYE_RESULT i)

/-- The lanes of a kind (R72). -/
def laneCount : LaneKind → Nat
  | .pt => 64
  | .pb => 64
  | .ul => 12
  | .ml => 4

/-- ROLE of a lane (R72), from the image: derived from its reaches, ports and protection, since the spec gives the LANES payload no
layout (log entry 85). -/
def Dev.laneRole (d : Dev) (k : LaneKind) (i : Nat) : Nat :=
  match k with
  | .pt => if d.treeExists i then 1 else 0
  | .pb => if d.treeExists i then (if d.xg i then 3 else 2) else 0
  | .ul => if (d.portOfLane i).isSome then 4 else 0
  | .ml => if d.im.str.mateLanes && decide (i < 4) then 5 else 0

/-- A lane is in service (R99). -/
def Dev.inService (d : Dev) (k : LaneKind) (i : Nat) : Bool :=
  match k with
  | .ul => match d.portOfLane i with
    | some p => d.flag (R .UL_PORT_CFG p.lane) 31
    | none => false
  | .ml => d.lx.mateUp && d.laneRole .ml i == 5
  | _ => d.lit i && decide ((d.tf i).state ≠ .off)

/-- GROUP_POS of a lane (R102). -/
def Dev.groupPos (d : Dev) (k : LaneKind) (i : Nat) : Nat :=
  match k with
  | .ul => match d.portOfLane i with
    | some p => i - p.lane
    | none => 0
  | .ml => i
  | _ => 0

/-- The key of a lane in the tables of generators and checkers. -/
def laneKey : LaneKind → Nat → Nat
  | .pt, i => i
  | .pb, i => 64 + i
  | .ul, i => 128 + i
  | .ml, i => 140 + i

/-! ### Transmitters (R75, R76) -/

/-- The PT lane's transmitter may drive: reach LIT, the device not FAILED, TX_FORCE_OFF = 0, POWER_DOWN = 0 and PLL locked (R49,
R75). -/
def Dev.ptCan (d : Dev) (t : Nat) : Bool :=
  d.im.state != .failed && d.lit t && !d.flag (R .LX_PT_CTL t) 3 && !d.flag (R .LX_PT_CTL t) 0 && d.flag (R .LX_PT_STATUS t) 4

/-- The PT lane may drive data: it may drive, and data has resumed since the PLL last lost lock (R75, R76). -/
def Dev.ptReady (d : Dev) (t : Nat) : Bool := d.ptCan t && (d.lx.ptFault.get? t).isNone

/-- A UL or ML lane's transmitter is squelched, or the lane is off (R101). -/
def Dev.txOff (d : Dev) (k : LaneKind) (i : Nat) : Bool := d.flag (laneCtl k i) 3 || d.flag (laneCtl k i) 0

/-- A lane's receiver is off: POWER_DOWN reads 1 (R101). What a lane that is off receives counts as nothing (log entry 125). -/
def Dev.rxOff (d : Dev) (k : LaneKind) (i : Nat) : Bool := d.flag (laneCtl k i) 0

/-- PT t drives data (R75). -/
def Dev.ptData (d : Dev) (t : Nat) : Bool := d.ptReady t && (d.tf t).state == .active && !d.flag (R .LX_PT_PRBS_CTL t) 4

/-- PT t drives its pattern (R75). -/
def Dev.ptPattern (d : Dev) (t : Nat) : Bool := d.ptCan t && d.flag (R .LX_PT_PRBS_CTL t) 4

/-- The transmit-disable output PT_TXDIS[t] (R75): high while the lane drives neither data nor pattern. -/
def Dev.ptTxdis (d : Dev) (t : Nat) : Bool := !(d.ptData t || d.ptPattern t)

/-- PLL_UNLOCK (R76): the lane PLL has lost lock; a PT lane squelches and its transmit fault begins. -/
def Dev.pllUnlock (d : Dev) (k : LaneKind) (i : Nat) : Dev :=
  if d.laneRole k i = 0 ∨ !d.flag (laneStatus k i) 4 then d
  else
    let d := (d.setFld (laneStatus k i) 4 4 0).raise (laneFlags k i) 4
    if k = .pt then
      (d.onLx fun x => { x with ptFault := x.ptFault.set i none }).onTf i fun x =>
        { x with txFault := true, declared := if x.state = .off then x.declared else putBits x.declared 1 1 1 }
    else d

/-- PLL_RELOCK (R76): PLL_LOCK sets, and a PT lane's 10 µs wait starts. -/
def Dev.pllRelock (d : Dev) (k : LaneKind) (i : Nat) : Dev :=
  if d.laneRole k i = 0 ∨ d.flag (laneStatus k i) 4 then d
  else
    let d := d.setFld (laneStatus k i) 4 4 1
    if k = .pt && (d.lx.ptFault.get? i).isSome then d.onLx fun x => { x with ptFault := x.ptFault.set i (some d.tb.ticks) } else d

/-- At a frame boundary a PT lane whose PLL has been locked again for 10 µs (7,812.5 ticks) resumes data (R76). -/
def Dev.ptResume (d : Dev) (t : Nat) : Dev :=
  match d.lx.ptFault.get? t with
  | some (some at_) =>
    if at_ + 7813 ≤ d.tb.ticks then
      (d.onLx fun x => { x with ptFault := x.ptFault.erase t }).onTf t fun x =>
        { x with txFault := false, declared := putBits x.declared 1 1 0 }
    else d
  | _ => d

/-- Power-up of a lane with a role: POWER_DOWN clears, precoding is set on UL lanes and reads 1 on ML lanes, its PLL is taken as
locked, and the precoder starts from 0 (R85, R101; log entry 15). A mate lane sends cells from its start. -/
def Dev.laneUp (d : Dev) (k : LaneKind) (i : Nat) : Dev :=
  let d := (d.setFld (laneCtl k i) 0 0 0).setFld (laneStatus k i) 4 4 1
  let d := d.onLx fun x =>
    { x with txPrev := if k = .ml then x.txPrev.set (laneKey k i) none else x.txPrev.erase (laneKey k i) }
  if k = .ul ∨ k = .ml then d.setFld (laneCtl k i) 5 4 3 else d

/-! ### Profile slots (R77 to R79, R84) -/

/-- PROFILE_REFILL (R78, R79): the next stamped burst takes a free slot with a copy of its profile; an uncorrectable read (`ue` says
that this one meets it) invalidates the profile. -/
def Dev.refill (d : Dev) (t : Nat) (ue : Bool) : Dev :=
  let slots := d.lx.pbSlots.getD t []
  match d.lx.pbQueue.getD t [] with
  | [] => d
  | b :: q =>
    if 4 ≤ slots.length then d
    else
      let put (d : Dev) (s : PbSlot) : Dev :=
        d.onLx fun x => { x with pbQueue := x.pbQueue.put [] t q, pbSlots := x.pbSlots.put [] t (slots ++ [s]) }
      match b.stamp with
      | none => put d ⟨b, [], false, false⟩
      | some i =>
        let g := 4096 * (t / 8) + i
        if ue ∨ (d.prof g).ue then ((put d ⟨b, [], false, true⟩).onProf g fun p => { p with ue := true }).invalidate g 4
        else put d ⟨b, (d.prof g).bytes, (d.prof g).valid, false⟩

/-- The neutral set-up (R77): mid-scale amplitude, no DC offset, the tree's default taps, the CDR in free acquisition. -/
def Dev.neutralSetup (d : Dev) (t : Nat) : RxSetup :=
  ⟨Config.midScale t, 0, ((d.im.str.trees.get? t).map TreeDef.taps).getD [], none⟩

/-- The set-up that a profile's 32 bytes give (R77, R169). -/
def profileSetup (b : List Byte) : RxSetup :=
  ⟨leAt b 2 2, signed 16 (leAt b 4 2), (List.range 8).map fun i => signed 8 (leAt b (8 + i) 1), some (leAt b 6 1 % 64)⟩

/-- SWAP_BIT (R77, R79, R84, R142): the set-up of the next burst comes into force and its slot frees; the PB_RST pulse starts. -/
def Dev.swapBit (d : Dev) (t : Nat) : Dev :=
  let d := if (d.lx.pbSlots.getD t []).isEmpty then d.refill t false else d
  match d.lx.pbSlots.getD t [] with
  | [] => d
  | s :: rest =>
    let cfg := d.reg (R .LX_PB_BURST_CFG t)
    let use := s.burst.stamp.isSome && s.valid
    let su : PbSetup := ⟨s.burst, if use then some s.profile else none, s.burst.stamp.isSome && !s.valid,
      if use then profileSetup s.profile else d.neutralSetup t, d.reg (R .TF_US_CFG t)⟩
    let d := d.onLx fun x => { x with pbSlots := x.pbSlots.put [] t rest, pbSetup := x.pbSetup.set t su }
    if bit cfg 30 then
      d.onLx fun x => { x with rstPulse := x.rstPulse.set t (s.burst.a - 32 - (bits cfg 15 8 : Nat), atLeast1 (bits cfg 23 20)) }
    else d

/-! ### Detectors (R89 to R93) -/

/-- A UL or ML lane. -/
def pam4 : LaneKind → Bool
  | .ul => true
  | .ml => true
  | _ => false

/-- The number of a UL or ML lane in `lolHold`. -/
def holdKey : LaneKind → Nat → Nat
  | .ml, i => 12 + i
  | _, i => i

/-- A lane's detectors work: a UL or ML lane with a role. -/
def Dev.detects (d : Dev) (k : LaneKind) (i : Nat) : Bool := pam4 k && decide (d.laneRole k i ≠ 0)

/-- LX_k_LOS_CFG, LX_k_LOL_CFG and LX_k_SKEW of a UL or ML lane (R104, R105, R107). -/
def laneLosCfg : LaneKind → Nat → Reg
  | .ml, i => R .LX_ML_LOS_CFG i
  | _, i => R .LX_UL_LOS_CFG i
def laneLolCfg : LaneKind → Nat → Reg
  | .ml, i => R .LX_ML_LOL_CFG i
  | _, i => R .LX_UL_LOL_CFG i
def laneSkew : LaneKind → Nat → Reg
  | .ml, i => R .LX_ML_SKEW i
  | _, i => R .LX_UL_SKEW i

/-- LOS asserts on a lane (R89, R90): LOL reads 1 with it. -/
def Dev.losSet (d : Dev) (k : LaneKind) (i : Nat) : Dev :=
  if !d.detects k i || d.flag (laneStatus k i) 0 then d
  else (d.setFld (laneStatus k i) 1 0 3).raise (laneFlags k i) 0

/-- LOS clears on a lane (R89, R90): LOL keeps reading 1 until its own clear time. -/
def Dev.losClear (d : Dev) (k : LaneKind) (i : Nat) : Dev :=
  if !d.detects k i || !d.flag (laneStatus k i) 0 then d
  else
    ((d.setFld (laneStatus k i) 0 0 0).raise (laneFlags k i) 1).onLx fun x => { x with lolHold := holdKey k i :: x.lolHold }

/-- LOL asserts on a lane (R89, R90): not raised while LOS stands or its clear time runs. -/
def Dev.lolSet (d : Dev) (k : LaneKind) (i : Nat) : Dev :=
  if !d.detects k i || d.flag (laneStatus k i) 1 then d
  else (d.setFld (laneStatus k i) 1 1 1).raise (laneFlags k i) 2

/-- LOL clears on a lane (R89, R90). -/
def Dev.lolClear (d : Dev) (k : LaneKind) (i : Nat) : Dev :=
  if !d.detects k i || !d.flag (laneStatus k i) 1 || d.flag (laneStatus k i) 0 then d
  else
    ((d.setFld (laneStatus k i) 1 1 0).raise (laneFlags k i) 3).onLx fun x =>
      { x with lolHold := x.lolHold.filter fun y => y ≠ holdKey k i }

/-- The raw LOS condition at an amplitude in mV (R89, R104). -/
def losRaw (cfg : Nat) (raw : Bool) (mv : Nat) : Bool :=
  let a := bits cfg 31 24
  if mv < 5 * a then true else if 5 * max (bits cfg 23 16) a < mv then false else raw

/-- The raw LOL condition at a frequency deviation in ppm (R89, R105). -/
def lolRaw (cfg : Nat) (raw : Bool) (ppm : Nat) : Bool :=
  let p := 50 * atLeast1 (bits cfg 23 16)
  if p < ppm then true else if 2 * ppm < p then false else raw

/-- The samples of 100 ns over which a condition must hold (R89, R104, R105): a time of T takes the sample at its start and those up to
its end, so a time of 0 is one sample (log entry 90). -/
def detTime (cfg : Nat) (assert : Bool) : Nat := if assert then bits cfg 15 8 + 1 else 100 * bits cfg 7 0 + 1

/-- The run of a detector after n samples in a row with the same raw condition, and whether it has run its time (R89). -/
def detRun (cfg : Nat) (shown raw : Bool) (run n : Nat) : Nat × Bool :=
  if raw = shown then (0, false) else if detTime cfg raw ≤ run + n then (0, true) else (run + n, false)

/-- The detectors of a lane. -/
def Dev.laneDet (d : Dev) (k : LaneKind) (i : Nat) : LaneDet := d.lx.det.getD (holdKey k i) LaneDet.rest
/-- The detectors of a lane changed by f. -/
def Dev.onDet (d : Dev) (k : LaneKind) (i : Nat) (f : LaneDet → LaneDet) : Dev :=
  d.onLx fun x => { x with det := x.det.put LaneDet.rest (holdKey k i) (f (x.det.getD (holdKey k i) LaneDet.rest)) }

/-- n samples of 100 ns in a row at an amplitude in mV, none while the receiver is off (R89, R101): LANE_LOS_SET and LANE_LOS_CLEAR happen
where a run ends. -/
def Dev.losSamples (d : Dev) (k : LaneKind) (i mv n : Nat) : Dev :=
  if !d.detects k i || n == 0 then d
  else
    let cfg := d.reg (laneLosCfg k i)
    let x := d.laneDet k i
    let raw := losRaw cfg x.losRaw (if d.rxOff k i then 0 else mv)
    let r := detRun cfg (d.flag (laneStatus k i) 0) raw x.losRun n
    let d1 := d.onDet k i fun y => { y with losRaw := raw, losRun := r.1 }
    if !r.2 then d1
    else if raw then (d1.losSet k i).onDet k i fun y => { y with lolRun := 0 }
    else (d1.losClear k i).onDet k i fun y => { y with lolRun := 0 }

/-- n samples of 100 ns in a row at a frequency deviation in ppm (R89, R90): LANE_LOL_SET and LANE_LOL_CLEAR; while LOS is asserted
the clear time does not run, and while REFCLK_ETH is lost the condition stands (R552). -/
def Dev.lolSamples (d : Dev) (k : LaneKind) (i ppm n : Nat) : Dev :=
  if !d.detects k i || n == 0 then d
  else
    let cfg := d.reg (laneLolCfg k i)
    let x := d.laneDet k i
    let raw := lolRaw cfg x.lolRaw ppm || !d.pins.refEth
    let r := if d.flag (laneStatus k i) 0 then (0, false) else detRun cfg (d.flag (laneStatus k i) 1) raw x.lolRun n
    let d1 := d.onDet k i fun y => { y with lolRaw := raw, lolRun := r.1 }
    if !r.2 then d1 else if raw then d1.lolSet k i else d1.lolClear k i

/-! ### Deskew (R87, R88, R107) -/

/-- The UI of 180 ns on a lane of a kind: 18.824 ps on UL, 37.647 ps on ML, whole UI within the tolerance (R88, R107). -/
def skewLimit : LaneKind → Nat
  | .ml => 4781
  | _ => 9562

/-- A group's lanes, each with the identity that its markers carry and its delay in UI, are within the tolerance and name different
lanes: the group aligns (R87, R88). -/
def groupAligns (k : LaneKind) (g : List (Nat × Nat × Nat)) : Bool :=
  let ds := g.map fun x => x.2.2
  decide ((g.map fun x => x.2.1).Nodup) && !g.isEmpty && ds.all fun a => decide (a ≤ ds.foldl min a + skewLimit k)

/-- The measured delays of a group are written (R87, R88, R107): SKEW_UI of each lane relative to the earliest, VALID where the group
aligns, and the lanes beyond the tolerance. -/
def Dev.writeSkew (d : Dev) (k : LaneKind) (g : List (Nat × Nat × Nat)) : Dev :=
  let ok := groupAligns k g
  let lo := g.foldl (fun a x => min a x.2.2) ((g.head?.map fun x => x.2.2).getD 0)
  let d1 := g.foldl (fun d x => d.setReg (laneSkew k x.1) (2 ^ 15 * b2n ok + min (x.2.2 - lo) 16383)) d
  g.foldl (fun d x =>
    let beyond := decide (skewLimit k < x.2.2 - lo)
    let was := d.lx.skewed.contains (holdKey k x.1)
    let d1 := d.onLx fun y =>
      { y with skewed := (y.skewed.filter fun z => z ≠ holdKey k x.1) ++ if beyond then [holdKey k x.1] else [] }
    if beyond ∧ !was then d1.raise (laneFlags k x.1) 5 else d1) d1

/-- A lane's measured delay is no longer current (R107). -/
def Dev.skewLost (d : Dev) (k : LaneKind) (i : Nat) : Dev :=
  (d.setFld (laneSkew k i) 15 15 0).onLx fun x => { x with skewed := x.skewed.filter fun z => z ≠ holdKey k i }

/-- A mate lane that asserts LOS or LOL or has lost marker lock drops from the mate link, and leaves any wait for its boundary
(R92, R93). -/
def Dev.mateDrop (d : Dev) (m : Nat) : Dev :=
  let bad := d.fld (R .LX_ML_STATUS m) 1 0 ≠ 0 ∨ !d.flag (R .LX_ML_STATUS m) 6
  if d.laneRole .ml m = 5 ∧ bad then
    let d1 := (d.onLx fun x => { x with rejoin := x.rejoin.filter fun i => i ≠ m, clean := x.clean.erase m }).skewLost .ml m
    if d1.flag (R .LX_ML_STATUS m) 7 then d1 else (d1.setFld (R .LX_ML_STATUS m) 7 7 1).raise (R .LX_ML_FLAGS m) 6
  else d

/-- The time in which a mate lane has been clear of LOS and LOL with marker lock starts when the last of them comes (R93). -/
def Dev.mateClean (d : Dev) (m : Nat) : Dev :=
  if d.laneRole .ml m = 5 ∧ d.fld (R .LX_ML_STATUS m) 1 0 = 0 ∧ d.flag (R .LX_ML_STATUS m) 6 ∧ (d.lx.clean.get? m).isNone then
    d.onLx fun x => { x with clean := x.clean.set m d.tb.ticks }
  else d

/-- A dropped mate lane has been clear and locked for REJOIN_MS (R93, R113). -/
def Dev.mateReady (d : Dev) (m : Nat) : Bool :=
  match d.lx.clean.get? m with
  | some t => decide (t + 781250 * atLeast1 (d.fld (R .LX_ML_LINK_CFG m) 7 0) ≤ d.tb.ticks)
  | none => false

/-- MATE_LANE_REJOIN (R93): the lane waits for the next frame boundary. -/
def Dev.mateRejoin (d : Dev) (m : Nat) : Dev :=
  let s := d.reg (R .LX_ML_STATUS m)
  if d.laneRole .ml m = 5 ∧ bit s 7 ∧ bits s 1 0 = 0 ∧ bit s 6 ∧ d.mateReady m ∧ !d.lx.rejoin.contains m then
    d.onLx fun x => { x with rejoin := x.rejoin ++ [m] }
  else d

/-- The waiting mate lanes rejoin at a frame boundary (R93). -/
def Dev.mateRejoins (d : Dev) : Dev :=
  (d.lx.rejoin.foldl (fun d m => (d.setFld (R .LX_ML_STATUS m) 7 7 0).raise (R .LX_ML_FLAGS m) 7) d).onLx fun x => { x with rejoin := [] }

/-- A mate lane's marker lock comes (R447). -/
def Dev.markerLock (d : Dev) (m : Nat) : Dev :=
  if d.laneRole .ml m = 5 then (d.setFld (R .LX_ML_STATUS m) 6 6 1).mateClean m else d

/-- The good lanes of the mate link: those with marker lock that are not dropped. -/
def Dev.goodMateLanes (d : Dev) : List Nat :=
  (List.range 4).filter fun m => d.laneRole .ml m == 5 && d.flag (R .LX_ML_STATUS m) 6 && !d.flag (R .LX_ML_STATUS m) 7

/-- The good lanes of the mate link with what their markers carry (R87). -/
def Dev.mateGroup (d : Dev) : List (Nat × Nat × Nat) :=
  d.goodMateLanes.filterMap fun m => (d.lx.delays.get? m).map fun x => (m, x.1, x.2)

/-- The mate link's group aligns (R87, R88): every good lane has shown its markers, within the tolerance. -/
def Dev.mateAligns (d : Dev) : Bool := d.mateGroup.length == d.goodMateLanes.length && groupAligns .ml d.mateGroup

/-! ### Line coding (R85) -/

/-- The Gray symbol of a bit pair, the earlier bit first, and the pair of a symbol (R85). -/
def grayOf (a b : Bool) : Nat := if a then (if b then 2 else 3) else if b then 1 else 0
def grayBits (g : Nat) : List Bool :=
  match g % 4 with
  | 0 => [false, false]
  | 1 => [false, true]
  | 2 => [true, true]
  | _ => [true, false]

/-- The levels that the 1/(1+D) precoder sends for Gray symbols after the level `prev` (R85). -/
def precode (prev : Nat) : List Nat → List Nat
  | [] => []
  | g :: gs => let p := (g + 4 - prev % 4) % 4; p :: precode p gs

/-- The Gray symbols of received levels after the level `prev` (R85). -/
def deprecode (prev : Nat) : List Nat → List Nat
  | [] => []
  | v :: vs => (v + prev) % 4 :: deprecode v vs

/-! ### Eye scans (R95, R96) -/

/-- What a point examined on a lane (R96): on PB lanes only the payload of bursts with outcome OK, of all terminals with PB_ALL = 1
and of PB_SLOT's otherwise: its bits and disagreements. -/
def pointSeen (k : LaneKind) (cfg : Nat) (p : EyePoint) : Nat × Nat :=
  (p.parts.filter fun x => k != .pb || (x.2.1 && (bit cfg 30 || x.1 == bits cfg 29 21))).foldl
    (fun a x => (a.1 + x.2.2.1, a.2 + x.2.2.2)) (0, 0)

/-- A point that collected its 2^20 bits within 10 s (R96). -/
def pointComplete (k : LaneKind) (cfg : Nat) (p : EyePoint) : Bool := decide (2 ^ 20 ≤ (pointSeen k cfg p).1 ∧ p.ms ≤ 10000)

/-- The distance from the centre to the first closed point of a side, at steps from `i`; a skipped point is neither open nor closed,
and with no closed point it is the last distance there is (R95, R96; log entry 91). -/
def eyeSide (k : LaneKind) (cfg : Nat) (i : Nat) : List EyePoint → Nat
  | [] => i - 1
  | p :: ps => if pointComplete k cfg p && decide (1 < (pointSeen k cfg p).2) then i else eyeSide k cfg (i + 1) ps

/-- The margins of an eye (R95). -/
def eyeMargins (k : LaneKind) (cfg : Nat) (e : EyeSweep) : Nat × Nat :=
  (min 63 (min (eyeSide k cfg 1 e.left) (eyeSide k cfg 1 e.right)), min 255 (min (eyeSide k cfg 1 e.down) (eyeSide k cfg 1 e.up)))

/-- Every point of an eye completed (R96). -/
def eyeValid (k : LaneKind) (cfg : Nat) (e : EyeSweep) : Bool := (e.left ++ e.right ++ e.down ++ e.up).all (pointComplete k cfg)

/-- The worst of the eyes and its number (R95): the one of the smallest vertical margin, then of the smallest horizontal one, then the
lower (log entry 91). -/
def worstEye (ms : List (Nat × Nat)) : Nat × Nat × Nat :=
  ((ms.zip (List.range ms.length)).foldl (fun (b : Option (Nat × Nat × Nat)) x =>
    match b with
    | none => some (x.2, x.1)
    | some y => if x.1.2 < y.2.2 ∨ (x.1.2 = y.2.2 ∧ x.1.1 < y.2.1) then some (x.2, x.1) else b) none).getD (0, 0, 0)


/-- The sweeps of a lane's eyes, from those to each of the four sides. -/
def eyeSweeps (left right down up : List (List EyePoint)) : List EyeSweep :=
  (List.range left.length).map fun i => ⟨left.getD i [], right.getD i [], down.getD i [], up.getD i []⟩

/-- EYE_SCAN_DONE (R95, R96): the results in one word, SEQ, EYE_DONE, and EYE_LOW below a threshold; three eyes on a PAM4 lane, one
on a PB lane. -/
def Dev.eyeDone (d : Dev) (k : LaneKind) (i : Nat) (eyes : List EyeSweep) : Dev :=
  match laneEyeCfg k i, laneEyeResult k i with
  | some cfg, some res =>
    if d.laneRole k i = 0 ∨ !d.flag cfg 31 then d
    else
      let c := d.reg cfg
      let es := eyes.take (if k = .pb then 1 else 3)
      let w := worstEye (es.map (eyeMargins k c))
      let seq := (d.fld res 31 24 + 1) % 256
      let d1 := (d.setReg res (seq * 2 ^ 24 + w.1 * 2 ^ 22 + b2n (es.all (eyeValid k c)) * 2 ^ 21 + w.2.1 * 2 ^ 14 + w.2.2)).raise
        (laneFlags k i) 9
      d1.raiseIf (decide (w.2.1 < bits c 15 8 ∨ w.2.2 < bits c 7 0)) (laneFlags k i) 10
  | _, _ => d

/-! ### PRBS (R97, R98, R110, R111) -/

/-- The length of a PRBS register and its second tap (R97); PRBS31Q is PRBS31, bit by bit, and PRBS13Q takes x^13 + x^12 + x^2 + x + 1
(log entry 92). -/
def prbsTaps (pattern : Nat) : Option (Nat × List Nat) :=
  match pattern with
  | 0 => some (7, [7, 6])
  | 1 => some (9, [9, 5])
  | 2 => some (15, [15, 14])
  | 3 => some (23, [23, 18])
  | 4 => some (31, [31, 28])
  | 8 => some (13, [13, 12, 2, 1])
  | 9 => some (31, [31, 28])
  | _ => none

/-- The next bit of a PRBS whose last bits are those of `x`, the latest in bit 0 (R97). -/
def prbsNext (taps : List Nat) (x : Nat) : Bool := taps.foldl (fun b t => b != bit x (t - 1)) false

/-- The register with one more bit. -/
def prbsShift (n x : Nat) (b : Bool) : Nat := (2 * x + b2n b) % 2 ^ n

/-- The register after k more bits of its own sequence. -/
def prbsRun (n : Nat) (taps : List Nat) : Nat → Nat → Nat
  | 0, x => x
  | k + 1, x => prbsRun n taps k (prbsShift n x (prbsNext taps x))

/-- The pattern that a checker follows (R97): a PRBS by the length and taps of its register, or SSPRQ; the square wave has no checker. -/
inductive ChkPattern where
  | prbs (len : Nat) (taps : List Nat)
  | ssprq
  deriving DecidableEq, Repr

/-- The pattern of a PATTERN value for a checker (R97, R98). -/
def chkPattern (pattern : Nat) : Option ChkPattern :=
  if pattern = 10 then some .ssprq else (prbsTaps pattern).map fun x => .prbs x.1 x.2

/-- Bit p of SSPRQ after Gray decoding; the pattern has 65,535 symbols (R97; log entry 92). -/
def ssprqBit (p : Nat) : Bool := (grayBits (Config.ssprq (p / 2 % 65535))).getD (p % 2) false

/-- The last bits that a searching SSPRQ checker has received, at most 64, below a leading 1, with one more. -/
def ssprqSeen (x : Nat) (b : Bool) : Nat :=
  let y := 2 * (max 1 x) + b2n b
  if y < 2 ^ 65 then y else 2 ^ 64 + y % 2 ^ 64

/-- The place in SSPRQ after 64 received bits that are those of the pattern there (R98; log entry 92). -/
def ssprqPlace (x : Nat) : Option Nat :=
  if x < 2 ^ 64 then none
  else ((List.range 131070).find? fun p => (List.range 64).all fun j => bit x (63 - j) == ssprqBit (p + j)).map (· + 64)

/-- The bit that a checker expects next, its reference after n bits of the pattern, and after a received bit while it searches. -/
def ChkPattern.next : ChkPattern → Nat → Bool
  | .prbs _ taps, x => prbsNext taps x
  | .ssprq, x => ssprqBit x
def ChkPattern.go : ChkPattern → Nat → Nat → Nat
  | .prbs len taps, n, x => prbsRun len taps n (if x = 0 then 2 ^ len - 1 else x)
  | .ssprq, n, x => (x + n) % 131070
def ChkPattern.seek : ChkPattern → Nat → Bool → Nat
  | .prbs len _, x, b => prbsShift len x b
  | .ssprq, x, b => ssprqSeen x b

/-- Generated bits from number p on, the register full of ones before bit 0 (R97; log entry 92). -/
def prbsBits (n : Nat) (taps : List Nat) (x : Nat) : Nat → List Bool
  | 0 => []
  | k + 1 => let b := prbsNext taps x; b :: prbsBits n taps (prbsShift n x b) k

/-- The bits that the bits in a UI carry: 1 on PT and PB lanes, 2 on PAM4 lanes. -/
def uiBits (k : LaneKind) : Nat := if pam4 k then 2 else 1

/-- UI of a lane in n timebase ticks: 9.95328 Gbit/s on PT, 53.125 GBd on UL, 26.5625 GBd on ML (R72). -/
def uiIn (k : LaneKind) (n : Nat) : Nat :=
  match k with
  | .ul => 68 * n
  | .ml => 34 * n
  | _ => 995328 * n / 78125

/-- The UI that a lane's generator has sent since it started. -/
def Dev.genUi (d : Dev) (k : LaneKind) (i : Nat) : Nat :=
  match d.lx.gens.get? (laneKey k i) with
  | some t => uiIn k (d.tb.ticks - t)
  | none => 0

/-- Bit pairs as Gray symbols. -/
def graySymbols : List Bool → List Nat
  | a :: b :: r => grayOf a b :: graySymbols r
  | _ => []

/-- The Gray symbols (PAM4) or bits (NRZ) of a lane's generator over n UI from UI u on, injected errors in place (R97, R110). -/
def Dev.genSymbols (d : Dev) (k : LaneKind) (i u n : Nat) : List Nat :=
  let p := d.fld (lanePrbsCtl k i) 27 24
  match prbsTaps p with
  | some (len, taps) =>
    let w := uiBits k
    let bs := prbsBits len taps (prbsRun len taps (w * u) (2 ^ len - 1)) (w * n)
    let es := (bs.zip (List.range (w * n))).map fun x => x.1 != d.lx.injected.contains (k, i, w * u + x.2)
    if pam4 k then graySymbols es else es.map b2n
  | none =>
    let top := if pam4 k then 3 else 1
    (List.range n).map fun j => if p = 10 then Config.ssprq ((u + j) % 65535) % 4 else if (u + j) / 8 % 2 = 0 then 0 else top

/-- A lane's precoding of a direction (R85, R101): UL by its bit, ML always. -/
def Dev.precodes (d : Dev) (k : LaneKind) (i b : Nat) : Bool := k == .ml || (k == .ul && d.flag (laneCtl k i) b)

/-- A level with its polarity inverted. -/
def flipLevel (k : LaneKind) (v : Nat) : Nat := if pam4 k then 3 - v % 4 else 1 - v % 2

/-- The levels that a lane's generator puts on the wire over n UI from UI u on (R85, R97, R101): the precoder goes on from the level sent
before the generator started; the square wave is levels already. -/
def Dev.genLevels (d : Dev) (k : LaneKind) (i u n : Nat) : List Nat :=
  let lv := if d.precodes k i 4 && d.fld (lanePrbsCtl k i) 27 24 != 11 then (precode (d.lx.genPrev.getD (laneKey k i) 0) (d.genSymbols k i 0 (u + n))).drop u
    else d.genSymbols k i u n
  if d.flag (laneCtl k i) 8 then lv.map (flipLevel k) else lv

/-- The lane whose serial output near-end loopback feeds to a lane (R101): its own, PT t for PB t. -/
def lpbkKind : LaneKind → LaneKind
  | .pb => .pt
  | k => k

/-- The levels at a lane's receiver (R101): those of the wire, or with LPBK = 1 those of a generator that drives the looped
transmitter; RX_INVERT applies. -/
def Dev.rxLevels (d : Dev) (k : LaneKind) (i : Nat) (rx : List Nat) : List Nat :=
  let src := lpbkKind k
  let drives := if src = .pt then d.ptPattern i else d.flag (lanePrbsCtl src i) 4 && !d.txOff src i
  let looped := d.fld (laneCtl k i) 11 10 == 1 && drives
  let lv := if looped then d.genLevels src i (d.genUi src i) rx.length else rx
  if d.flag (laneCtl k i) 9 then lv.map (flipLevel k) else lv

/-- The received bits of levels (R85, R98): PAM4 bits stand after Gray decoding. -/
def Dev.rxBits (d : Dev) (k : LaneKind) (i prev : Nat) (lv : List Nat) : List Bool :=
  if pam4 k then ((if d.precodes k i 5 then deprecode prev lv else lv).flatMap grayBits) else lv.map fun v => v % 2 == 1

/-- A checker's counts grow, saturating (R98, R111). -/
def Dev.prbsCount (d : Dev) (k : LaneKind) (i errs blocks : Nat) : Dev :=
  match lanePrbsErr k i, lanePrbsBlocks k i with
  | some e, some b => (d.setReg e (min (d.reg e + errs) 0xFFFFFFFF)).setReg b (min (d.reg b + blocks) 0xFFFFFFFF)
  | _, _ => d

/-- The checker of a lane, and it changed by f. -/
def Dev.chk (d : Dev) (k : LaneKind) (i : Nat) : PrbsChk := d.lx.chks.getD (laneKey k i) PrbsChk.rest
def Dev.onChk (d : Dev) (k : LaneKind) (i : Nat) (f : PrbsChk → PrbsChk) : Dev :=
  d.onLx fun x => { x with chks := x.chks.put PrbsChk.rest (laneKey k i) (f (x.chks.getD (laneKey k i) PrbsChk.rest)) }

/-- The checker locks (R98, PRBS_CHECKER_LOCK). -/
def Dev.prbsLock (d : Dev) (k : LaneKind) (i : Nat) : Dev :=
  (d.setFld (laneStatus k i) 5 5 1).onChk k i fun c => { c with pos := 0, errs := 0 }

/-- The checker loses lock and searches anew (R98, PRBS_LOCK_LOSS). -/
def Dev.prbsLoss (d : Dev) (k : LaneKind) (i : Nat) : Dev :=
  ((d.setFld (laneStatus k i) 5 5 0).onChk k i fun c => { c with run := 0, pos := 0, errs := 0 }).raise (laneFlags k i) 8

/-- n bits in a row as the checker expects them (R98): 64 of them lock a checker that searches; the 1,024-bit block and the 2^20-bit
blocks go on from there. -/
def Dev.prbsClean (d : Dev) (k : LaneKind) (i : Nat) (p : ChkPattern) (n : Nat) : Dev :=
  let c := d.chk k i
  let locked := d.flag (laneStatus k i) 5
  let d1 := d.onChk k i fun c => { c with ref := p.go n (if locked || p != .ssprq then c.ref else 0) }
  let go (d : Dev) (pos m : Nat) : Dev :=
    (d.prbsCount k i 0 ((pos + m) / 2 ^ 20 - pos / 2 ^ 20)).onChk k i fun c =>
      { c with pos := pos + m, errs := if (pos + m) / 1024 = pos / 1024 then c.errs else 0 }
  if locked then go d1 c.pos n
  else if 64 ≤ c.run + n then go (d1.prbsLock k i) 0 (c.run + n - 64)
  else
    let seen := (List.range n).foldl (fun x j => ssprqSeen x (ssprqBit j)) c.ref
    d1.onChk k i fun y => { y with run := c.run + n, ref := if p = .ssprq then seen else y.ref }

/-- One received bit at a checker (R98). A locked checker counts and goes on along its pattern. A searching one of a PRBS compares the bit
with what the bits before it give; one of SSPRQ looks for the last 64 bits in the pattern. -/
def Dev.prbsBit (d : Dev) (k : LaneKind) (i : Nat) (p : ChkPattern) (b : Bool) : Dev :=
  let c := d.chk k i
  let locked := d.flag (laneStatus k i) 5
  let good := b == p.next c.ref && (p == .ssprq || c.ref != 0) && (locked || p != .ssprq)
  if good then d.prbsClean k i p 1
  else if locked then
    let errs := (if c.pos % 1024 = 0 then 0 else c.errs) + 1
    let pos := c.pos + 1
    let d1 := (d.prbsCount k i 1 (pos / 2 ^ 20 - c.pos / 2 ^ 20)).onChk k i fun c => { c with ref := p.go 1 c.ref, pos := pos, errs := errs }
    if 16 ≤ errs then (d1.prbsLoss k i).onChk k i fun c => { c with ref := if p = .ssprq then 0 else c.ref } else d1
  else
    let x := p.seek c.ref b
    match (if p = .ssprq then ssprqPlace x else none) with
    | some place => (d.prbsLock k i).onChk k i fun c => { c with ref := place }
    | none => d.onChk k i fun c => { c with ref := x, run := 0 }

/-- What a lane receives while its checker is on (R97, R98): `same` bits that follow the checker's pattern without an error, then the
levels `rx`, one for each UI. Where the lane precodes and the level before the first of `rx` has not been seen, the first only sets
prev_rx (R85). With LPBK = 2 the levels go back on the lane; a receiver that is off receives nothing (R101). -/
def Dev.prbsRx (d : Dev) (k : LaneKind) (i same : Nat) (rx : List Nat) : Dev :=
  if k = .pt ∨ d.laneRole k i = 0 ∨ d.rxOff k i then d
  else
    let d0 := if d.fld (laneCtl k i) 11 10 = 2 then d.onLx fun x => { x with echo := x.echo.set (laneKey k i) rx } else d
    match chkPattern (d.fld (lanePrbsCtl k i) 27 24) with
    | some p =>
      if !d.flag (lanePrbsCtl k i) 5 then d0
      else
        let lv := d.rxLevels k i rx
        let d1 := if same = 0 then d0 else d0.prbsClean k i p same
        let known := if same = 0 then (d.chk k i).prev else none
        let bits := match known, lv with
          | none, v :: vs => if d.precodes k i 5 then d.rxBits k i v vs else d.rxBits k i 0 lv
          | q, _ => d.rxBits k i (q.getD 0) lv
        let d2 := bits.foldl (fun d b => d.prbsBit k i p b) d1
        d2.onChk k i fun c => { c with prev := match lv.getLast? with | some v => some v | none => known }
    | none => d0

/-- CHK_CLR (R98, R110); an error in the same cycle leaves PRBS_ERR at 1. -/
def Dev.chkClr (d : Dev) (k : LaneKind) (i : Nat) (errNow : Bool) : Dev :=
  match lanePrbsErr k i, lanePrbsBlocks k i with
  | some e, some b =>
    if d.laneRole k i = 0 then d
    else ((d.setReg e (b2n (errNow && d.flag (laneStatus k i) 5))).setReg b 0).onChk k i fun c => { c with pos := c.pos % 1024 }
  | _, _ => d

/-- The number of the bit that a lane's generator sends next. -/
def Dev.genNext (d : Dev) (k : LaneKind) (i : Nat) : Nat := uiBits k * d.genUi k i

/-- ERR_INJECT (R110): the next generated bit is inverted. -/
def Dev.errInject (d : Dev) (k : LaneKind) (i : Nat) : Dev :=
  let e := (k, i, d.genNext k i)
  if k = .pb ∨ d.laneRole k i = 0 ∨ d.lx.injected.contains e then d else d.onLx fun x => { x with injected := x.injected ++ [e] }

/-- The precoder's prev_tx on a lane as its generator starts (R85): 0 since the lane started, the last level of the pattern before, or a
level that this model does not hold. -/
def Dev.prevTx (d : Dev) (k : LaneKind) (i : Nat) : Nat :=
  ((d.lx.txPrev.getD (laneKey k i) (some 0)).getD (Config.lineLevel (laneKey k i) d.tb.ticks)) % 4

/-- prev_tx after what a lane's generator has sent so far (R85). -/
def Dev.genLast (d : Dev) (k : LaneKind) (i : Nat) : Nat :=
  let p := d.lx.genPrev.getD (laneKey k i) 0
  if d.precodes k i 4 then ((precode p (d.genSymbols k i 0 (d.genUi k i))).getLast?).getD p else p

/-- A generator starts or stops with GEN_EN (R85, R97, R110): its bits are numbered from its start, bits still to be inverted go with a
generator that stops, and the precoder's state stays with the lane. -/
def Dev.genFollow (d : Dev) (k : LaneKind) (i : Nat) : Dev :=
  let key := laneKey k i
  let on := d.flag (lanePrbsCtl k i) 4
  if on ∧ (d.lx.gens.get? key).isNone then
    let p := d.prevTx k i
    d.onLx fun x => { x with gens := x.gens.set key d.tb.ticks, genPrev := x.genPrev.set key p }
  else if !on ∧ (d.lx.gens.get? key).isSome then
    let p := d.genLast k i
    d.onLx fun x => { x with gens := x.gens.erase key, genPrev := x.genPrev.erase key, txPrev := x.txPrev.set key (some p)
                             injected := x.injected.filter fun e => e.1 ≠ k ∨ e.2.1 ≠ i }
  else d

/-! ### Checked writes (R99) -/

/-- A refused write of a lane register (R99): CFG_REFUSED, the count, and the record with address, value and source port. -/
def Dev.laneRefused (d : Dev) (k : LaneKind) (i : Nat) (reg : Reg) (v : Nat) (src : Src) : Dev :=
  let e := match k with
    | .ul => 0x800 + 16 * i + 12
    | .ml => 0x800 + 16 * (12 + i) + 12
    | _ => 0x900 + 4 * i + 1
  (d.raise (laneFlags k i) 12).record e .lx i false [(4, reg.addr), (4, v), (1, portOf src)]

/-- The bits of LX_k_CTL that a write to a lane of a kind changes (R101); the precoding of ML lanes reads 1 and stays. -/
def ctlMask : LaneKind → Nat
  | .pt => 0xD09
  | .pb => 0xE01
  | .ul => 0xF39
  | .ml => 0xF09

/-- The LPBK values that a lane supports (R101). -/
def lpbkOk (k : LaneKind) (v : Nat) : Bool :=
  match k with
  | .pt => v == 0
  | .pb => decide (v ≤ 1)
  | _ => decide (v ≤ 2)

/-- A write of LX_k_CTL (R99, R101). DESIGN CHOICE: on an in-service lane a write that repeats the value of a kept field is not refused
(log entry 128). -/
def Dev.laneCtlWrite (d : Dev) (k : LaneKind) (i v : Nat) (src : Src) : Dev :=
  let reg := laneCtl k i
  let old := d.reg reg
  if !lpbkOk k (bits v 11 10) then d.laneRefused k i reg v src
  else
    let new := v &&& ctlMask k
    let old' := old &&& ctlMask k
    let keepLpbk := bits new 11 10 ≠ 0 ∧ bits new 11 10 ≠ bits old' 11 10
    let keepPd := bit new 0 ∧ !bit old' 0
    let hold := d.inService k i
    let bad := hold && (decide keepLpbk || decide keepPd || decide (bits new 9 8 ≠ bits old' 9 8) || decide (bits new 5 4 ≠ bits old' 5 4))
    let a := if hold ∧ keepLpbk then putBits new 11 10 (bits old' 11 10) else new
    let b := if hold ∧ keepPd then putBits a 0 0 0 else a
    let c := if hold then putBits (putBits b 9 8 (bits old' 9 8)) 5 4 (bits old' 5 4) else b
    let d1 := d.setReg reg (if k = .ml then putBits c 5 4 (bits old 5 4) else c)
    if bad then d1.laneRefused k i reg v src else d1

/-- The sum of coefficient magnitudes of LX_k_TXEQ (R99, R106). -/
def txeqSum (v : Nat) : Nat :=
  bits v 30 24 + (signed 6 (bits v 23 18)).natAbs + (signed 6 (bits v 17 12)).natAbs + (signed 6 (bits v 11 6)).natAbs +
    (signed 6 (bits v 5 0)).natAbs

/-- A write of LX_k_TXEQ (R99, R106). -/
def Dev.txeqWrite (d : Dev) (k : LaneKind) (i : Nat) (reg : Reg) (v : Nat) (src : Src) : Dev :=
  let v' := if k = .pt then bits v 30 12 * 2 ^ 12 else bits v 30 0
  if 64 < txeqSum v' then d.laneRefused k i reg v src else d.setReg reg v'

/-- The patterns that a lane supports (R97). -/
def patternOk (k : LaneKind) (p : Nat) : Bool :=
  decide (p ≤ 4) || (decide (8 ≤ p ∧ p ≤ 10) && pam4 k) || (p == 11 && k ≠ .pb)

/-- A write of LX_k_PRBS_CTL (R98, R99, R110). -/
def Dev.prbsCtlWrite (d : Dev) (k : LaneKind) (i v : Nat) (src : Src) : Dev :=
  let reg := lanePrbsCtl k i
  if !patternOk k (bits v 27 24) then d.laneRefused k i reg v src
  else
    let old := d.reg reg
    let gen := bit v 4 && k ≠ .pb
    let badGen := gen && !bit old 4 && d.inService k i
    let chk := bit v 5 && k ≠ .pt
    let d1 := d.setReg reg (bits v 27 24 * 2 ^ 24 + 32 * b2n chk + 16 * b2n (if badGen then false else gen))
    let d1 := d1.genFollow k i
    let d2 := if chk then d1 else (d1.setFld (laneStatus k i) 5 5 0).onChk k i fun _ => PrbsChk.rest
    let d3 := if bit v 16 then d2.chkClr k i false else d2
    let d4 := if bit v 8 then d3.errInject k i else d3
    if badGen then d4.laneRefused k i reg v src else d4

/-- A write of LX_k_EYE_CFG (R108): PB_ALL and PB_SLOT belong to PB lanes. -/
def Dev.eyeCfgWrite (d : Dev) (k : LaneKind) (reg : Reg) (v : Nat) : Dev :=
  if k = .pb then d.setReg reg (bits v 31 21 * 2 ^ 21 + bits v 15 0)
  else d.setReg reg (bits v 31 31 * 2 ^ 31 + bits v 15 0)

end Sys2Proof.Machine
end

