-- ==== Sys2Proof/Machine/Framing.lean ====
section
/-! DEFINITION. Tree framing (spec/04): tree states, burst delineation and processing, reassembly, defects and their actions, the
downstream frame, and the opcodes of TF_CMD (R149). -/

namespace Sys2Proof.Machine

/-! ### Upstream frames under way -/

/-- The account of an upstream frame changed by f. -/
def Dev.onAcc (d : Dev) (t frame : Nat) (f : FrameAcc → FrameAcc) : Dev :=
  d.onTf t fun x => { x with accs := x.accs.map fun a => if a.frame = frame then f a else a }

/-- A terminal count of an upstream frame (R133, R134). -/
def FrameAcc.addTerm (a : FrameAcc) (slot i n : Nat) : FrameAcc :=
  let l := a.pmTerm.getD slot (List.replicate 12 0)
  if n = 0 then a else { a with pmTerm := a.pmTerm.set slot (l.set i (l.getD i 0 + n)) }

/-- A tree count of an upstream frame. -/
def FrameAcc.addTree (a : FrameAcc) (i n : Nat) : FrameAcc := { a with pmTree := a.pmTree.set i (a.pmTree.getD i 0 + n) }

/-- The framer's origin for an upstream frame, in bits at 9.95328 Gbit/s after the boundary of its number (R151): DS + TEQ + US + 16.075 ns,
rounded to the nearest bit. One ps is 0.00995328 bits. -/
def Dev.upOrigin (d : Dev) (t : Nat) : Nat :=
  let ps := 10 * (d.fld (R .RG_BOARD_DLY t) 31 16 + d.fld (R .RG_BOARD_DLY t) 15 0) + 16075
  d.teq t + (2 * ps * 995328 + 10 ^ 8) / (2 * 10 ^ 8)

/-- The boundaries until the evaluation point of a frame whose last granted burst ends at word `fin` (spec/04, Defects). -/
def Dev.evalDelay (d : Dev) (t fin : Nat) : Nat := (d.upOrigin t + 32 * fin * if d.xg t then 4 else 1) / 1244160 + 1

/-- The account of the frame whose map has just been sent or copied (R126): its last granted burst window ends with its last
burst, or with the quiet interval of a window granted in it. A listening unit's short-profile bursts without a valid profile count for nothing
(R456). -/
def Dev.openAcc (d : Dev) (t : Nat) (m : GMap) : Dev :=
  if m.bursts.isEmpty then d
  else
    let seen := m.bursts.filter fun b => !((d.tf t).state == .standby && b.prof == d.shortIdx t && b.stamp.isNone)
    let data := seen.filter fun b => b.kind == .data
    let counted := data.any fun b => (d.term (512 * t + b.slot)).state.ranged
    let ends := ((d.gs t).wins.filter fun w => w.frame == m.frame).map fun w => w.quietEnd / 32 - m.frame * d.frameWords t
    let fin := (ends ++ m.bursts.map fun b => max b.fin (b.start + 16)).foldl max 0
    let acc : FrameAcc := ⟨m.frame, d.evalDelay t fin, (m.bursts.filter fun b => b.kind == .ranging).map GBurst.slot, counted, false,
      [], (List.replicate 14 0).set 3 seen.length, [], [], []⟩
    let burst (b : GBurst) : Burst := ⟨m.frame, b.start, b.slot, b.a, b.stamp⟩
    let q := (sortBy (fun a b => decide (a.a ≤ b.a)) m.bursts).map burst
    (d.onTf t fun x => { x with accs := x.accs ++ [acc] }).onLx fun x => { x with pbQueue := x.pbQueue.put [] t (x.pbQueue.getD t [] ++ q) }

/-! ### Delineation (R80, R81, R121, R122) -/

/-- The delimiter bits that may differ (R121, R142), by TF_US_CFG as the burst took it. -/
def delimErrs (us dlen : Nat) : Nat := min 8 (bits us 7 4) * dlen / 32

/-- Sixteen transitions in a row stay within 1/16 UI, the last of them before preamble bit `limit` (R80); `run` counts those just passed.
DESIGN CHOICE: a 16th transition at the limit bit itself comes too late (log entry 127). -/
def cdrQualifies (limit : Nat) (run : Nat) : List (Nat × Nat) → Bool
  | [] => false
  | e :: es =>
    if limit ≤ e.1 then false
    else if e.2 ≤ 4 then decide (16 ≤ run + 1) || cdrQualifies limit (run + 1) es
    else cdrQualifies limit 0 es

/-- The preamble bit by which the CDR must qualify (R80): 48 with a profile, the end of the standard preamble with NONE. -/
def GBurst.cdrLimit (b : GBurst) : Nat := if b.stamp.isSome then 48 else 8 * b.bp.pre

/-- TF_US_CFG as a burst takes it (R142): as it stood at the burst's swap bit. -/
def Dev.usCfg (d : Dev) (t frame start : Nat) : Nat :=
  (((d.lx.pbSetup.get? t).filter fun s => s.burst.frame == frame && s.burst.start == start).map PbSetup.usCfg).getD (d.reg (R .TF_US_CFG t))

/-- The best of the matching positions of a normal search (R121): fewest differing bits, then nearest the centre, then the
earlier. -/
def delimBest (cands : List (Int × Nat)) (centre : Int) (win errs : Nat) : Option (Int × Nat) :=
  let ok := sortBy (fun a b => decide (a.1 ≤ b.1)) (cands.filter fun c => decide ((c.1 - centre).natAbs ≤ win ∧ c.2 ≤ errs))
  ok.foldl (fun (best : Option (Int × Nat)) c =>
    match best with
    | none => some c
    | some b =>
      if c.2 < b.2 ∨ (c.2 = b.2 ∧ (c.1 - centre).natAbs < (b.1 - centre).natAbs) then some c else best) none

/-- The first matching position of a wide search (R122). -/
def delimFirst (cands : List (Int × Nat)) (lo hi : Int) (errs : Nat) : Option (Int × Nat) :=
  (sortBy (fun a b => decide (a.1 ≤ b.1)) (cands.filter fun c => decide (lo ≤ c.1 ∧ c.1 ≤ hi ∧ c.2 ≤ errs))).head?

/-- The delimiter position of a burst as an offset from the expected one (R121, R122, R159, R163, R167, R224), under TF_US_CFG `us`. In a
discovery window the search starts at `from_`, the bit after the end of the response before. -/
def Dev.delimit (d : Dev) (t : Nat) (b : GBurst) (us : Nat) (from_ : Option Int) (cands : List (Int × Nat)) : Option (Int × Nat) :=
  let errs := delimErrs us (8 * b.bp.delim)
  let x := d.term (512 * t + b.slot)
  let win := bits us 3 0
  match b.kind with
  | .data =>
    match x.adj with
    | none => delimBest cands x.o win errs
    | some a => delimFirst cands (min x.o (x.o - a.delta) - win) (max x.o (x.o - a.delta) + win) errs
  | k => let sp := d.winSpan t k b.slot; delimFirst cands (max sp.1 (from_.getD sp.1)) sp.2 errs

/-- The account of an upstream frame. -/
def Dev.accOf (d : Dev) (t frame : Nat) : Option FrameAcc := (d.tf t).accs.find? fun a => a.frame == frame

/-- How many responses a discovery grant has had, and the bit after the end of the last one as an offset from e (R159). -/
def Dev.respOf (d : Dev) (t frame start : Nat) : Option (Nat × Int) := (d.accOf t frame).bind fun a => a.resp.get? start

/-- The bit after the end of a response to a serial-number or ranging grant whose delimiter lies at an offset from e, as an offset from e
(R159): a response has 14 data words and their parity after its delimiter (R213). -/
def GBurst.endFrom (b : GBurst) (off : Int) : Int := off + 8 * b.bp.delim + 32 * (14 + b.bp.parity 14 : Nat)

/-- The expected delimiter position e of a burst in upstream bit numbering (R152, R159). -/
def Dev.expected (d : Dev) (t frame : Nat) (b : GBurst) : Int := ((frame * d.frameBits t + 32 * b.start : Nat) : Int) - 8 * b.bp.delim

/-- The outcome of a burst (R80, R81) and its arrival offset. -/
def Dev.outcome (d : Dev) (b : GBurst) (i : BurstIn) : BurstEnd × Int :=
  if i.amp < 50 * d.fld (R .LX_PB_BURST_CFG i.tree) 7 0 then (.noSignal, 0)
  else if !cdrQualifies b.cdrLimit 0 i.edges then (.noLock, 0)
  else
    match d.delimit i.tree b (d.usCfg i.tree i.frame i.start) ((d.respOf i.tree i.frame i.start).map Prod.snd) i.cands with
    | none => (.noDelimiter, 0)
    | some c => (if i.held then .ok else .lostLock, c.1)

/-- The offset of an outcome in the lane's event numbers (R528). -/
def burstCode : BurstEnd → Nat
  | .ok => 0
  | .noSignal => 1
  | .noLock => 2
  | .noDelimiter => 3
  | .lostLock => 4

/-! ### Reassembly (R124, R125) -/

/-- A terminal's complete packet waits to enter its pipeline (R124, R231). -/
def Dev.arrive (d : Dev) (t slot port : Nat) (bytes : List Byte) : Dev :=
  d.seamIn { Pkt.of t bytes with term := 512 * t + slot, port := port }

/-- An XGEM discard of an upstream frame (R124, R134). -/
def Dev.xgemDiscard (d : Dev) (t frame : Nat) : Dev := d.onAcc t frame fun a => a.addTree 10 1

/-- The payload of an upstream XGEM frame in clear (R354): under key index 1 or 2, decrypted with the counter block of the granting
frame's SFC and the payload's position. -/
def Dev.xgemPlain (d : Dev) (t slot frame : Nat) (x : XgemIn) : List Byte :=
  if x.key % 4 = 1 ∨ x.key % 4 = 2 then
    ponCrypt (d.key (pairSlot (uniPair (512 * t + slot)) (x.key % 4))).key (frame % 2 ^ 51) x.pos x.bytes
  else x.bytes

/-- One XGEM frame of a burst of slot `slot` (R123, R124, R354). DEDUCED: a frame that an uncorrectable FEC codeword discards is counted with
the FEC codewords and not as an XGEM discard (log entry 94). -/
def Dev.xgem (d : Dev) (t frame slot : Nat) (x : XgemIn) : Dev :=
  if x.fecBad then d
  else
    match (d.tf t).ports.get? x.port with
    | some p =>
      if p.slot ≠ slot then (d.xgemDiscard t frame).raise (R .TF_FLAGS t) 8
      else if d.im.state = .quiesced then d.xgemDiscard t frame
      else
        let (d0, pass) := d.keyUp (512 * t + slot) x.key x.bytes.length frame x.ecc
        if !pass then d0.xgemDiscard t frame else
        let d1 := d0.onAcc t frame fun a => (a.addTerm slot 8 1).addTree 9 1
        let bytes := (((d1.tf t).openPkts.get? x.port).map OpenPkt.bytes).getD [] ++ d.xgemPlain t slot frame x
        if x.last then
          (d1.onTf t fun y => { y with openPkts := y.openPkts.erase x.port }).arrive t slot x.port bytes
        else d1.onTf t fun y => { y with openPkts := y.openPkts.set x.port ⟨bytes, 0⟩ }
    | none => (d.xgemDiscard t frame).raise (R .TF_FLAGS t) 8

/-- The fragments that a burst which lost lock leaves open on its terminal's ports are discarded (R34; log entry 114). -/
def Dev.dropOpen (d : Dev) (t slot : Nat) : Dev :=
  d.onTf t fun y => { y with openPkts := y.openPkts.filter fun kv => ((y.ports.get? kv.1).map XPort.slot) != some slot }

/-- REASM_TIMEOUT (R124): an open packet without continuation for REASM_FRAMES upstream frames is discarded and counted. -/
def Dev.reasmTimeout (d : Dev) (t port : Nat) : Dev :=
  match (d.tf t).openPkts.get? port with
  | some p =>
    if atLeast1 (bits (d.usCfgNow t) 15 8) ≤ p.age then
      (d.onTf t fun y => { y with openPkts := y.openPkts.erase port }).pmTree t 10 1
    else d
  | none => d

/-! ### Profiles from bursts (R170, R171, R173) -/

/-- An OK burst on the neutral set-up of a terminal without a valid profile (R170). -/
def Dev.learn (d : Dev) (g : Nat) (b : BurstIn) (off : Int) : Dev :=
  let cfg := d.reg (R .RG_PROFILE_CFG (g / 512))
  let pos := 64 * off + (b.phase % 64 : Nat)
  d.onProf g fun p =>
    let agrees := decide (p.count ≠ 0 ∧ (pos - p.prevPos).natAbs ≤ bits cfg 27 24 ∧ 8 * ((b.amp : Int) - p.prevAmp).natAbs ≤ p.prevAmp)
    let n := if agrees then p.count + 1 else 1
    let p := { p with learning := true, count := min n 15, prevPos := pos, prevAmp := b.amp }
    if atLeast1 (bits cfg 19 16) ≤ n then
      { p with valid := true, learning := false, ue := false, okBursts := 0, amp := b.amp, dc := b.dc, phase := b.phase % 64, taps := b.taps
               arr := off, lastSfc := b.frame % 2 ^ 32 }
    else p

/-- An OK burst on a valid profile writes its measured values back (R171). -/
def Dev.writeBack (d : Dev) (g : Nat) (b : BurstIn) (off : Int) : Dev :=
  d.onProf g fun p =>
    if p.valid then
      { p with amp := b.amp, dc := b.dc, phase := b.phase % 64, taps := b.taps, arr := off, lastSfc := b.frame % 2 ^ 32
               okBursts := min (p.okBursts + 1) 0xFFFFFFFF }
    else p

/-- What a burst of a terminal does to its profile (R170, R171, R173); `carried` says that the profile was in force. -/
def Dev.profileBurst (d : Dev) (g : Nat) (b : BurstIn) (o : BurstEnd) (ok carried : Bool) (off : Int) : Dev :=
  if carried then
    if ok then d.writeBack g b off
    else if (o == .noLock || o == .noDelimiter || o == .lostLock) && d.flag (R .RG_TREE_CFG (g / 512)) 29 then d.invalidate g 1
    else d
  else if (d.prof g).valid then d
  else if ok then d.learn g b off
  else d.onProf g fun p => { p with count := 0 }

/-! ### Defect counts of a burst (R126, R129) -/

/-- Whether a count has reached its threshold (a count of 0 is treated as 1; R145). -/
def reached (n th : Nat) : Bool := decide (atLeast1 th ≤ n)

/-- Defects 2 to 5 whose counts have reached the present thresholds are declared (R126, R145); only a burst clears one. -/
def Dev.declare (d : Dev) (t : Nat) (x : TermDef) : TermDef :=
  let a := d.reg (R .TF_DEFECT_CFG t)
  let b := d.reg (R .TF_DRIFT_CFG t)
  let s (v i : Nat) (c : Bool) : Nat := if c then putBits v i i 1 else v
  { x with declared := s (s (s (s x.declared 2 (reached x.nLos (bits a 15 8))) 3 (reached x.nLob (bits a 23 16))) 4
      (reached x.nLof (bits a 31 24))) 5 (reached x.nLcdg (bits b 23 16)) }

/-- The counts and declared states after one granted burst (R126). An OK burst is one with the lane's outcome OK (R81), whatever its
header (log entry 58). DESIGN CHOICE: a LOST_LOCK burst whose header passes clears LOFi and its count (log entry 129). The drift states
are those of a data burst, whose offset R121 measures from the tracked place (log entry 94). -/
def Dev.defectBurst (d : Dev) (t : Nat) (x : TermDef) (b : BurstRes) : TermDef :=
  let ok := b.out == .ok
  let deline := b.out == .ok || b.out == .lostLock
  let off (v i : Nat) (c : Bool) : Nat := if c then putBits v i i 0 else v
  let x1 := { x with
    nLos := if ok then 0 else if b.out = .noSignal then x.nLos + 1 else x.nLos
    nLob := if ok then 0 else if b.out = .noLock ∨ b.out = .noDelimiter then x.nLob + 1 else x.nLob
    nLof := if deline then (if b.hdr then 0 else x.nLof + 1) else x.nLof
    nLcdg := if ok && !b.lost then 0 else if deline && (b.out == .lostLock || b.lost) then x.nLcdg + 1 else x.nLcdg
    declared := off (off (off (off x.declared 2 ok) 3 ok) 4 (deline && b.hdr)) 5 (ok && !b.lost)
    dying := x.dying || (b.dying && b.hdr && deline) }
  let th := d.reg (R .TF_DRIFT_CFG t)
  let x2 := if ok && b.data then
      let dow := decide (bits th 7 0 ≤ b.off.natAbs)
      let tiw := if bits th 15 8 ≤ b.off.natAbs then true else if dow then bit x1.declared 7 else false
      { x1 with offset := b.off, declared := putBits (putBits x1.declared 6 6 (b2n dow)) 7 7 (b2n tiw) }
    else x1
  d.declare t x2

/-! ### BURST_OUTCOME (R77 to R81, R121 to R124) -/

/-- The burst of a sent or copied map with a frame and StartTime. -/
def Dev.findBurst (d : Dev) (t frame start : Nat) : Option GBurst :=
  match (d.gs t).sent.find? fun m => m.frame == frame with
  | some m => m.bursts.find? fun b => b.start == start
  | none => none

/-- The payload words that a burst grants an Alloc-ID. -/
def GBurst.wordsOf (b : GBurst) (id : Nat) : Nat := ((b.structs.filter fun s => s.alloc == id).map GStruct.words).foldl (· + ·) 0

/-- The allocations of a burst whose header passed, on an ACTIVE tree (R123): reports, or what R202 puts in their place, then frames. -/
def Dev.allocsIn (d : Dev) (t frame : Nat) (b : GBurst) (as : List AllocIn) : Dev :=
  as.foldl (fun d a =>
    let d1 := match a.dbru with
      | some (occ, crc) => d.report t a.alloc occ crc frame
      | none => d.implied t a.alloc (b.wordsOf a.alloc) a.used frame
    let d2 := a.frames.foldl (fun d x => d.xgem t frame b.slot x) d1
    if a.lost then d2.onAcc t frame fun x => x.addTerm b.slot 7 1 else d2) d

/-- Whether a burst advances the defect counts of its terminal (R126, R212): a data burst of a ranged terminal, or a ranging burst of one
that is in activation or ranged. -/
def Dev.countsDefects (d : Dev) (g : Nat) (k : GrantKind) : Bool :=
  match k with
  | .data => (d.term g).state.ranged
  | .ranging => (d.term g).state == .assigned || (d.term g).state.ranged
  | .discovery => false

/-- The performance counts of a burst (R123, R133, R134); a burst whose header fails is processed no further. -/
def FrameAcc.countBurst (a : FrameAcc) (b : GBurst) (i : BurstIn) (o : BurstEnd) (hdr : Bool) : FrameAcc :=
  let go := (o == .ok || o == .lostLock) && hdr
  let a := a.addTree (if o = .ok then 4 else 5) 1
  let a := if go then ((a.addTree 6 i.fecCorr).addTree 7 i.fecBad).addTree 8 i.bip else a
  if b.kind = .discovery then a
  else
    let a := a.addTerm b.slot (match o with | .ok => 0 | .noSignal => 1 | .lostLock => 3 | _ => 2) 1
    if go then ((a.addTerm b.slot 4 i.fecCorr).addTerm b.slot 5 i.fecBad).addTerm b.slot 6 i.bip else a

/-- BURST_OUTCOME. A burst of no map, or of a frame already evaluated, is none the framer knows. -/
def Dev.burst (d : Dev) (i : BurstIn) : Dev :=
  let t := i.tree
  match d.findBurst t i.frame i.start, d.accOf t i.frame with
  | some b, some acc =>
    let st := (d.tf t).state
    let resp := (acc.resp.get? i.start).getD (0, (d.winSpan t .discovery 0).1)
    if st = .off ∨ !d.lit t ∨ (b.kind = .discovery ∧ 8 ≤ resp.1) then d
    else
      let g := 512 * t + b.slot
      let mine := (d.lx.pbSetup.get? t).filter fun s => s.burst.frame == i.frame && s.burst.start == i.start
      let carried := mine.any fun s => s.profile.isSome
      let (o, off) := d.outcome b i
      let hdr := i.headerOk && (b.kind == .discovery || i.onu == b.slot)
      let deline := o == .ok || o == .lostLock
      let ok := o == .ok
      let ranged := (d.term g).state.ranged && b.kind == .data
      let silent := st == .standby && b.prof == d.shortIdx t && !carried
      let lost := hdr && i.allocs.any AllocIn.lost
      let d1 := (d.count (0x340 + 6 * t + burstCode o)).raiseIf (mine.any PbSetup.late) (R .LX_PB_FLAGS t) 11
      let d2 := if silent then d1 else d1.onAcc t i.frame fun a =>
        let a := a.countBurst b i o hdr
        { a with okRanged := a.okRanged || (ok && ranged)
                 resp := if b.kind = .discovery then a.resp.set i.start (resp.1 + 1, if deline then b.endFrom off else resp.2) else a.resp
                 res := if d.countsDefects g b.kind then a.res ++ [⟨b.slot, o, hdr, lost, off, i.dying, b.kind == .data⟩] else a.res }
      let d2 := if deline ∧ b.kind ≠ .data then d2.onTf t fun x =>
          { x with winEnd := some ((d.expected t i.frame b + b.endFrom off).toNat, if b.kind = .ranging then b.slot else 512) } else d2
      let d4 := if b.kind ≠ .discovery then d2.profileBurst g i o ok carried off else d2
      let d5 := if ok && ranged && st == .active then d4.track g off else d4
      let d6 := if deline && hdr && st == .active && b.kind == .data then d5.allocsIn t i.frame b i.allocs else d5
      if o == .lostLock && b.kind == .data then d6.dropOpen t b.slot else d6
  | _, _ => d

/-- Ungranted energy as the lane's detector reports it (R82): above SIG_THRESH for 32 bits in a row between the end of a granted burst
and the next swap bit; the amplitude is in 0.1 mV. -/
def Dev.strongEnergy (d : Dev) (t frame pos amp len : Nat) : Bool :=
  let bursts (n : Nat) : List GBurst := (((d.gs t).sent.find? fun m => m.frame == n).map GMap.bursts).getD []
  let clear (b : GBurst) (p : Int) : Bool := b.kind != .data || decide (32 * (b.fin : Int) ≤ p ∨ p + 32 ≤ b.a - 32)
  decide (50 * d.fld (R .LX_PB_BURST_CFG t) 7 0 < amp ∧ 32 ≤ len) && (bursts frame).all (fun b => clear b pos) &&
    (bursts (frame + 1)).all fun b => clear b ((pos : Int) - d.frameBits t)

/-- The expected delimiter positions of the serial-number grants that sent maps and the mate's maps carry (R159, R456). -/
def Dev.discExpected (d : Dev) (t : Nat) : List Int :=
  let sent := (d.gs t).sent.flatMap fun m => (m.bursts.filter fun b => b.kind == .discovery).map fun b =>
    ((m.frame * d.frameBits t : Nat) : Int) + b.a + (8 * b.bp.pre : Nat)
  let copied := (d.px.mapsIn.filter fun m => m.tree == t).flatMap fun m => (m.got.flatMap Prod.snd).filterMap fun s =>
    if s.alloc = 1023 ∧ s.start ≠ 0xFFFF then some ((m.frame * d.frameBits t + 32 * s.start : Nat) - (8 * (d.bprof t s.prof).delim : Nat) : Int) else none
  sent ++ copied

/-- Bit u lies in the span of a discovery window (R159). -/
def Dev.inDiscSpan (d : Dev) (t u : Nat) : Bool :=
  let sp := d.winSpan t .discovery 0
  ((d.gs t).wins.any fun w => w.kind == .discovery && decide (w.lo ≤ u ∧ u ≤ w.hi)) ||
    (d.discExpected t).any fun e => decide (e + sp.1 ≤ u ∧ (u : Int) ≤ e + sp.2)

/-- The slot of the granted burst that ended last before bit u, if it ended no more than ROGUE_ADJ bits before (R176); 512 for none. A data
burst ends as granted; a response to a window's grant ends where it was delineated, and one to a serial-number grant names no slot
(log entry 135). -/
def Dev.attributed (d : Dev) (t u : Nat) : Nat :=
  let data := (d.gs t).sent.flatMap fun m => (m.bursts.filter fun b => b.kind == .data).map fun b => (m.frame * d.frameBits t + 32 * b.fin, b.slot)
  let ends := data ++ (d.tf t).winEnd.toList
  let last := (ends.filter fun e => decide (e.1 ≤ u)).foldl (fun (x : Option (Nat × Nat)) e =>
    match x with
    | none => some e
    | some y => if y.1 < e.1 then some e else x) none
  match last with
  | some e => if u - e.1 ≤ d.fld (R .RG_ROGUE_CFG t) 23 8 then e.2 else 512
  | none => 512

/-- UNGRANTED_ENERGY (R82, R159, R175, R176): the report at bit `pos` of upstream frame `frame`. It counts with its frame; where the frame has
no evaluation point, or has had it, it counts at once and joins what is kept of a counted frame. -/
def Dev.energy (d : Dev) (t frame pos : Nat) : Dev :=
  let u := frame * d.frameBits t + pos
  if (d.tf t).state = .off ∨ !d.lit t ∨ d.inDiscSpan t u then d
  else
    let name := d.attributed t u
    let d1 := (d.countRx t 63).setFld (R .RG_ROGUE_STATUS t) 20 0 pos
    if (d1.accOf t frame).isSome then d1.onAcc t frame fun a => { (a.addTree 12 1) with energy := a.energy ++ [name] }
    else (d1.pmTree t 12 1).onRg t fun x => { x with rogueRun := x.rogueRun.map fun f => if f.1 = frame then (f.1, f.2 ++ [name]) else f }

/-! ### Reporting and consequent actions (R127 to R132) -/

/-- Suppressed by a declared defect of a higher rank (R127). -/
def suppressed (treeLos : Bool) (declared code : Nat) : Bool :=
  treeLos || (bit declared 2 && decide (3 ≤ code ∧ code ≤ 8)) || (code == 6 && bit declared 7)

/-- The action set of a defect code (R131, R146). -/
def Dev.actions (d : Dev) (t code : Nat) : Nat := d.fld (R .TF_ACTION_CFG t) (3 * code + 2) (3 * code)

/-- A defect event and its record (R132): the queue of 64, the flags of R140, the record with tree, slot, code, SFC and offset. -/
def Dev.defectEvent (d : Dev) (t slot code : Nat) (set : Bool) (off : Int) : Dev :=
  let full := decide (64 ≤ (d.tf t).events.length)
  let flag := if code = 0 then (if set then 0 else 1) else if code = 1 then 2 else 3
  let d1 := if full then d.raise (R .TF_FLAGS t) 4
    else d.onTf t fun x => { x with events := x.events ++ [⟨set, code, slot, d.sfc t % 65536⟩] }
  let d2 := if (code = 1 ∧ !set) ∨ (2 ≤ code ∧ full) then d1 else d1.raise (R .TF_FLAGS t) flag
  d2.record (0x140 + 64 * (t / 8) + flag) .tf t (decide (code ≤ 1) && set)
    [(1, t), (2, slot), (1, code), (8, d.sfc t), (2, unsigned 16 off)]

/-- A protection switch request of a tree (R131): without protection it is counted and recorded. -/
def Dev.pswRequest (d : Dev) (t : Nat) (slot : Option Nat) (code : Nat) : Dev :=
  if bit d.im.str.protTrees t ∧ d.im.str.mode ≠ 0 then d.onRx fun x => { x with psw := x.psw ++ [(t, slot, code)] }
  else (d.countRx t 60).record (0x140 + 64 * (t / 8) + 60) .tf t false [(1, t)]

/-- The consequent actions of a reported declaration (R130, R131), in the order INVAL, DEACT, PSW. `done` lists the slots already
deactivated at this evaluation point (R158). -/
def Dev.act (d : Dev) (t : Nat) (slot : Option Nat) (code : Nat) (done : List Nat) : Dev × List Nat :=
  let a := d.actions t code
  let act := (d.tf t).state == .active
  let slots : List Nat := match slot with
    | some s => [s]
    | none => (d.rx.terms.filter fun kv => kv.1 / 512 == t && kv.2.state.ranged).map fun kv => kv.1 % 512
  let profs : List Nat := match slot with
    | some s => [s]
    | none => (d.rx.profs.filter fun kv => kv.1 / 512 == t).map fun kv => kv.1 % 512
  let d1 := if bit a 1 && act then profs.foldl (fun d s => d.invalidate (512 * t + s) 2) d else d
  let (d2, done2) := if bit a 0 && act then
      slots.foldl (fun (x : Dev × List Nat) s =>
        if x.2.contains s then x else (x.1.deactivate (512 * t + s), s :: x.2)) (d1, done)
    else (d1, done)
  (if bit a 2 then d2.pswRequest t slot code else d2, done2)

/-- One difference reported (R128, R132): the event, what the slot state machine takes from LOSi, and the actions of a new
declaration. -/
def Dev.reportOne (d : Dev) (t : Nat) (slot : Option Nat) (code : Nat) (set : Bool) (off : Int) (done : List Nat) : Dev × List Nat :=
  let d1 := d.defectEvent t (slot.getD 0) code set off
  let d2 := match slot with
    | some s => d1.onTf t fun x => { x with terms := x.terms.upd TermDef.rest s fun y => { y with reported := putBits y.reported code code (b2n set) } }
    | none => d1.onTf t fun x => { x with reported := putBits x.reported code code (b2n set) }
  let d3 := match slot with
    | some s => if code = 2 ∧ (d2.tf t).state = .active then d2.losReported (512 * t + s) set else d2
    | none => d2
  if set then d3.act t slot code done else (d3, done)

/-- The tree-level reports of an evaluation point (R129): those of `codes` whose declared and reported states differ. -/
def Dev.reportTree (d : Dev) (t : Nat) (codes : List Nat) : Dev × List Nat :=
  let d0 := d.onTf t fun x => { x with declared := putBits x.declared 1 1 (b2n x.txFault) }
  codes.foldl (fun (x : Dev × List Nat) code =>
    let y := x.1.tf t
    if bit y.declared code ≠ bit y.reported code then x.1.reportOne t none code (bit y.declared code) 0 x.2 else x) (d0, [])

/-- The failure counts that have reached N_SUFI declare SUFi at an evaluation point (R126, R145, R165). DESIGN CHOICE: the count, which only
R156 zeroes, survives the tree's OFF, so SUFi is declared again at the first evaluation point after it (log entry 130). -/
def Dev.sufDeclare (d : Dev) (t : Nat) : Dev :=
  (d.rx.terms.filter fun kv => kv.1 / 512 == t && reached kv.2.fails (d.fld (R .TF_DRIFT_CFG t) 31 24)).foldl (fun d kv =>
    d.onTf t fun x => { x with terms := x.terms.upd TermDef.rest (kv.1 % 512) fun y => { y with declared := putBits y.declared 8 8 1 } }) d

/-- The reports of an evaluation point (R127 to R129): tree-level defects, then terminals in ascending slot, ascending code. DGi is
reported at the evaluation point of each frame with an indication (log entry 94). -/
def Dev.reportDefects (d : Dev) (t : Nat) : Dev :=
  let d0 := (d.sufDeclare t).onTf t fun x => { x with terms := x.terms.mapVal fun _ y => d.declare t y }
  let p := d0.reportTree t [0, 1]
  let los := bit (p.1.tf t).declared 0
  let q := (p.1.tf t).terms.foldl (fun (x : Dev × List Nat) kv =>
    let s := kv.1
    let x1 := [2, 3, 4, 5, 6, 7, 8].foldl (fun (x : Dev × List Nat) code =>
      match (x.1.tf t).terms.get? s with
      | none => x
      | some y =>
        if bit y.declared code = bit y.reported code ∨ suppressed los y.declared code then x
        else x.1.reportOne t (some s) code (bit y.declared code) y.offset x.2) x
    match (x1.1.tf t).terms.get? s with
    | none => x1
    | some y =>
      if y.dying then
        ((x1.1.defectEvent t s 9 true y.offset).onTf t fun z => { z with terms := z.terms.upd TermDef.rest s fun y =>
          { y with dying := false, declared := putBits y.declared 9 9 1, reported := putBits y.reported 9 9 1 } }, x1.2)
      else x1) p
  q.1

/-- Defect seconds (R133): a second in which a defect of the object stands declared and reported counts once. -/
def Dev.defectSeconds (d : Dev) (t : Nat) : Dev :=
  let s := d.todS + 1
  let d1 := (d.tf t).terms.foldl (fun d kv =>
    if (kv.2.declared &&& kv.2.reported) % 512 ≠ 0 ∧ (d.tf t).dsec.getD kv.1 0 ≠ s then
      (d.pmTerm (512 * t + kv.1) 9 1).onTf t fun x => { x with dsec := x.dsec.set kv.1 s }
    else d) d
  if bit (d1.tf t).declared 0 && bit (d1.tf t).reported 0 && (d1.tf t).dsec.getD 512 0 ≠ s then
    (d1.pmTree t 11 1).onTf t fun x => { x with dsec := x.dsec.set 512 s }
  else d1

/-- One upstream frame at its evaluation point (R126, R129, R133, R163, R165, R175): its bursts in order, TREE_LOS, its counts. -/
def Dev.evalAcc (d : Dev) (t : Nat) (a : FrameAcc) : Dev :=
  let d0 := a.res.foldl (fun d b => d.onTf t fun x => { x with terms := x.terms.upd TermDef.rest b.slot fun y => d.defectBurst t y b }) d
  let d1 := a.pmTerm.foldl (fun d kv => upTo 12 d fun i d => d.pmTerm (512 * t + kv.1) i (kv.2.getD i 0)) d0
  let d2 := upTo 14 d1 fun i d => d.pmTree t i (a.pmTree.getD i 0)
  let d3 := if a.counted then
      let n := if a.okRanged then 0 else (d2.tf t).losCount + 1
      (d2.onTf t fun x => { x with losCount := n }).rogueFrame t a.frame a.energy
    else d2
  let d4 := d3.onTf t fun x =>
    if a.counted && a.okRanged then { x with declared := putBits x.declared 0 0 0 }
    else if reached x.losCount (d3.fld (R .TF_DEFECT_CFG t) 7 0) then { x with declared := putBits x.declared 0 0 1 }
    else x
  a.ranging.foldl (fun d s =>
    let g := 512 * t + s
    let x := d.term g
    if x.state = .assigned ∧ x.rangedEqd = none then
      if x.tries < d.rangeTries t then (d.onTerm g fun y => { y with since := 0, granted := false }).rangeRequest g
      else d.onTerm g fun y => { y with tries := d.rangeTries t + 1 }
    else d) d4

/-- The evaluation points that fall on this boundary (R126 to R133), one frame after the other; with none, TX_FAULT alone is reported,
which no frame brings about (log entry 59). -/
def Dev.evaluate (d : Dev) (t : Nat) : Dev :=
  if (d.tf t).state = .off then d
  else
    let d1 := d.onTf t fun x => { x with accs := x.accs.map fun a => { a with evalIn := a.evalIn - 1 } }
    let due := (d1.tf t).accs.filter fun a => a.evalIn == 0
    let d2 := d1.onTf t fun x => { x with accs := x.accs.filter fun a => a.evalIn ≠ 0 }
    if due.isEmpty then (d2.reportTree t [1]).1.defectSeconds t
    else due.foldl (fun d a => ((d.evalAcc t a).reportDefects t).defectSeconds t) d2

/-! ### Tree states (R115) -/

/-- Entry to OFF (R115): every declared defect clears with a report, without action, as does one whose clear is still to be reported, and the
terminals are handled (R156). -/
def Dev.enterOff (d : Dev) (t : Nat) : Dev :=
  let x := d.tf t
  let d1 := [0, 1].foldl (fun d c => if bit x.declared c || bit x.reported c then d.defectEvent t 0 c false 0 else d) d
  let d2 := x.terms.foldl (fun d kv =>
    [2, 3, 4, 5, 6, 7, 8].foldl (fun d c =>
      if bit kv.2.declared c || bit kv.2.reported c then d.defectEvent t kv.1 c false kv.2.offset else d) d) d1
  let d3 := d2.onTf t fun y =>
    { y with declared := 0, reported := 0, losCount := 0, accs := [], openPkts := []
             terms := y.terms.mapVal fun _ _ => TermDef.rest }
  d3.treeOffSlots t

/-- A tree enters a state at a boundary (R75, R115, R197). -/
def Dev.treeTo (d : Dev) (t : Nat) (new : TreeState) : Dev :=
  let old := (d.tf t).state
  if old = new then d
  else
    let d1 := if new = .off then d.enterOff t else d
    let d2 := (d1.onTf t fun x => { x with state := new }).raise (R .TF_FLAGS t) 9
    let d3 := if old = .active then
        (d2.onTf t fun x => { x with frame := none, last := none, room := 0, contd := none, wait := [], feed := [] }).onGs t fun x => { x with built := [], wins := [], lateFor := [] }
      else d2
    let d4 := if new = .off then d3 else (d3.setFld (R .LX_PT_PRBS_CTL t) 4 4 0).genFollow .pt t
    if new = .active then d4.onGs t fun x => { x with emptyLeft := 2, discAge := 65536, secBin := secBinOf d4.todNs, dayBin := dayBinOf d4.todS } else d4

/-! ### The downstream frame (R117 to R120) -/

/-- One packet against the room left (R120): the room after it, the bytes sent, whether it is complete, and idle bytes. -/
def fillPkt (frag : Bool) (room left : Nat) : Nat × Nat × Bool × Nat :=
  let w := (left + 3) / 4 * 4
  let need := 8 + w
  if room < 16 then (0, 0, false, room)
  else if need = room ∨ (need < room ∧ 8 ≤ room - need) then (room - need, left, true, 0)
  else if need + 4 = room ∧ frag ∧ 12 ≤ w then (0, w - 4, false, 8)
  else if room < need ∧ frag then (0, room - 8, false, 0)
  else (0, 0, false, room)

/-- The downstream XGEM frame count of a packet's tree and terminal (R134). -/
def Dev.xgemSent (d : Dev) (t port : Nat) : Dev :=
  let d1 := d.pmTree t 1 1
  match (d.tf t).ports.get? port with
  | some p => d1.pmTerm (512 * t + p.slot) 11 1
  | none => d1

/-- Why a packet's XGEM frame is replaced by an idle one (R353): 1 its port is not its terminal's, 2 its key is VOID or EMPTY. -/
def Dev.idleFor (d : Dev) (t : Nat) (p : DsPkt) : Nat :=
  if p.sel = 0 then 0
  else if p.sel = 1 ∧ ((d.tf t).ports.get? p.port).map XPort.slot ≠ some (p.term % 512) then 1
  else if (d.key p.slot).state = .void ∨ (d.key p.slot).state = .empty then 2
  else 0

/-- Bytes of the FS frame already fixed: its size less the room (R120). -/
def Dev.fsUsed (d : Dev) (t : Nat) : Nat := fsBody (((d.tf t).frame.map DsFrame.fec).getD false) - (d.tf t).room

/-- The XGEM frame of the next bytes of a packet (R120, R352): the payload is encrypted under the packet's slot at the position that the
frame takes, its key index in the header. -/
def Dev.xgemPiece (d : Dev) (t : Nat) (b : List Byte) (p : DsPkt) (last : Bool) : XPiece :=
  if p.sel = 0 then .frame p.port 0 last b.length (padded b)
  else .frame p.port (p.slot % 2 + 1) last b.length (ponCrypt (d.key p.slot).key (d.sfc t) (d.fsUsed t + 8) (padded b))

/-- An XGEM frame with the next bytes of a packet leaves, or an idle frame of its length in its place (R134, R352, R353). A whole packet is
listed as sent without its FCS. -/
def Dev.xgemOut (d : Dev) (t : Nat) (b : List Byte) (p : DsPkt) (last : Bool) : Dev :=
  match d.idleFor t p with
  | 0 =>
    let d0 := d.emit t (d.xgemPiece t b p last)
    let d1 := d0.xgemSent t p.port
    let d2 := if p.sel = 0 then d1 else d1.keyMark p.slot (d.sfc t)
    if last then d2.onUl fun u => { u with sent := (⟨t, 0, (p.out ++ b).take (p.len - 4)⟩ :: u.sent).take 64 } else d2
  | k =>
    let len := 8 + (b.length + 3) / 4 * 4
    (((d.emit t (.stand len)).pmTree t 2 len).count (0x4C0 + 48 * p.slice + 41)).raiseRec (R .CE_FLAGS) (if k = 1 then 6 else 7) .ce 0 false
      [(1, b2n (slotBcast p.slot)), (2, slotNo p.slot), (2, p.port)]

/-- Idle XGEM frames of n bytes take their part of the room (R120). -/
def Dev.idleOut (d : Dev) (t n : Nat) : Dev := (d.emit t (.idle n)).pmTree t 2 n

/-- Bytes in flight between the traffic manager and the framer (R25). -/
def TfTree.inFlight (x : TfTree) : Nat :=
  (x.wait.map fun p => p.bytes.length).foldl (· + ·) 0 + (x.contd.map fun p => p.bytes.length).getD 0

/-- Bytes of a packet that the last one of the tree gets (R25). -/
def DsPkt.gain (p : DsPkt) (b : List Byte) : DsPkt := { p with bytes := p.bytes ++ b }

/-- The traffic manager hands over what the credit of 4 KiB allows of the packet that it dequeues (R25). -/
def TfTree.pull (x : TfTree) : TfTree :=
  let b := x.feed.take (4096 - x.inFlight)
  let x1 := { x with feed := x.feed.drop (4096 - x.inFlight) }
  if x.wait.isEmpty then { x1 with contd := x.contd.map fun p => p.gain b }
  else { x1 with wait := x.wait.dropLast ++ (x.wait.getLast?.toList.map fun p => p.gain b) }

/-- The next n bytes of the continued packet (`cont`) or of the first waiting one: those that have come, and for the last packet those that
follow them as its bytes leave and credit returns (R25). -/
def TfTree.supply (x : TfTree) (p : DsPkt) (cont : Bool) (n : Nat) : List Byte × DsPkt × List Byte :=
  let last := if cont then x.wait.isEmpty else decide (x.wait.length = 1)
  let b := (p.bytes ++ if last then x.feed else []).take n
  (b, { p with left := p.left - n, bytes := p.bytes.drop n, out := p.out ++ b },
    if last then x.feed.drop (n - p.bytes.length) else x.feed)

/-- The continued packet and the waiting packets placed into the room of the frame (R120). -/
def Dev.fill (d : Dev) (t : Nat) : Nat → Dev
  | 0 => d
  | k + 1 =>
    let x := d.tf t
    let next := match x.contd with
      | some p => some (p, true)
      | none => x.wait.head?.map fun p => (p, false)
    match next with
    | none => d
    | some (p, cont) =>
      if x.room = 0 then d
      else
        let r := fillPkt (d.flag (R .TF_DS_CFG t) 1) x.room p.left
        let (b, p1, feed) := x.supply p cont r.2.1
        let d1 := if r.2.1 = 0 then d else d.xgemOut t b p r.2.2.1
        let d2 := d1.idleOut t r.2.2.2
        let d3 := d2.onTf t fun y =>
          let rest : Option DsPkt := if r.2.2.1 ∨ (r.2.1 = 0 ∧ !cont) then none else some p1
          TfTree.pull { y with
            room := r.1, contd := rest, feed := feed
            wait := if cont ∨ (r.2.1 = 0 ∧ !r.2.2.1) then y.wait else y.wait.drop 1 }
        d3.fill t k

/-- The bytes of the FS frame that have left when a packet comes, by the time since the boundary (R120; a frame takes 97,656.25 ticks). -/
def Dev.fsElapsed (d : Dev) (t : Nat) : Nat :=
  fsBody (((d.tf t).frame.map DsFrame.fec).getD false) * ((d.tb.ticks - d.rx.bndAt) * 4) / 390625

/-- While no packet is ready the framer sends idle frames of 64 bytes (R120): those that have begun before the present byte take their
room, all of it where fewer than 80 bytes are left for one of them. -/
def Dev.idleGap (d : Dev) (t : Nat) : Dev :=
  let x := d.tf t
  let p := d.fsUsed t
  let e := d.fsElapsed t
  if x.contd.isSome || !x.wait.isEmpty || decide (e ≤ p ∨ x.room = 0) then d
  else
    let n := 64 * ((e - p + 63) / 64)
    let n := if x.room < n + 16 then x.room else n
    (d.idleOut t n).onTf t fun y => { y with room := x.room - n }

/-- The bytes that the framers of a reach have taken over the seam and not sent (R24). -/
def Dev.reachSeam (d : Dev) (r : Nat) : Nat := ((treesOf r).map fun t => (d.tf t).inFlight).foldl (· + ·) 0

/-- A packet handed to the framer (R25, R120): discarded where its port is not active or it is longer than 16,383 bytes; its bytes cross
the seam as far as there is credit, and the rest follows as they leave. -/
def Dev.dsAccept (d : Dev) (t : Nat) (p : DsPkt) : Dev :=
  if ((d.tf t).ports.get? p.port).isNone ∨ 16383 < p.len then d.pmTree t 10 1
  else
    let d1 := (d.idleGap t).onTf t fun x => TfTree.pull { x with wait := x.wait ++ [{ p with bytes := [] }], feed := p.bytes }
    let d2 := d1.fill t 2
    d2.seamStall (0x7C8 + t / 8) (d.reachSeam (t / 8)) (d2.reachSeam (t / 8))

/-- What the framer has placed in the frame and not sent yet, by the time since the boundary (R25). -/
def Dev.dsAhead (d : Dev) (t : Nat) : Nat :=
  match (d.tf t).frame with
  | some f => d.fsUsed t - max (d.fsElapsed t) f.head
  | none => 0

/-- The frame of a tree ends at a boundary: idle frames take the rest of its room, which count in the bin that ends there (R120, R134). -/
def Dev.frameEnd (d : Dev) (t : Nat) : Dev :=
  if (d.tf t).room = 0 then d else (d.idleOut t (d.tf t).room).onTf t fun x => { x with room := 0 }

/-- The FS frame that starts now (R117, R119): the map, PLOAMd messages, and the room. -/
def Dev.dsFrame (d : Dev) (t : Nat) (m : GMap) : Dev :=
  let d0 := d.onTf t fun x => { x with last := x.frame, frame := none, room := 0 }
  if !d0.ptData t then d0
  else
    let p := d0.takePloam t
    let map := m.bursts.flatMap fun b => b.structs.map GStruct.wire
    let ponid := d0.fld (R .TF_PONID_HI t) 18 0 * 2 ^ 32 + d0.reg (R .TF_PONID_LO t)
    let f : DsFrame := ⟨d0.sfc t, ponid, d0.flag (R .TF_DS_CFG t) 0, map, p.2, []⟩
    let d1 := p.1.pmTree t 0 1
    (d1.onTf t fun x => { x with frame := some f, room := fsBody f.fec - f.head }).fill t (2 + (d1.tf t).wait.length)

/-! ### Frame boundary of one tree -/

/-- The SFC at a boundary of a LIT reach (R116): the loaded value, or +1; a load voids keys (R359). -/
def Dev.sfcStep (d : Dev) (t : Nat) : Dev :=
  let old := d.sfc t
  let load := (d.tf t).sfcLoad
  let d1 := d.onTf t fun x => { x with sfc := (x.sfcLoad.getD (x.sfc + 1)) % 2 ^ 51, sfcLoad := none }
  if load.isSome then d1.keysVoid t old (d1.sfc t) else d1

/-- The committed PON-ID comes into force (R118). -/
def Dev.ponidStep (d : Dev) (t : Nat) : Dev :=
  match (d.tf t).ponidPending with
  | some (lo, hi) =>
    ((d.setReg (R .TF_PONID_LO t) lo).setReg (R .TF_PONID_HI t) hi).onTf t fun x => { x with ponidPending := none }
  | none => d

/-- The tree-state command that waits for this boundary takes effect and completes (R115, R116, R149). -/
def Dev.tfCmdStep (d : Dev) (r : Nat) : Dev :=
  let go (d : Dev) (op : Nat) (f : Dev → Nat → Dev) : Dev :=
    match d.waitingCmd (.tf r) op with
    | some a =>
      let t := bits a.obj 15 0
      (if t / 8 = r then f d t else d).completeWaiting (.tf r) op .ok []
    | none => d
  let d1 := go d 1 fun d t => d.treeTo t .off
  let d2 := go d1 2 fun d t => d.treeTo t .standby
  let d3 := go d2 3 fun d t => d.treeTo t .active
  go d3 4 fun d _ => d

/-- The SFC that a waiting SET_SFC loads at this boundary (R116). -/
def Dev.sfcLoadStep (d : Dev) (r : Nat) : Dev :=
  match d.waitingCmd (.tf r) 4 with
  | some a =>
    let t := bits a.obj 15 0
    if t / 8 = r then d.onTf t fun x => { x with sfcLoad := some (a.dat 0 % 2 ^ 32 + 2 ^ 32 * a.db 1 18 0) } else d
  | none => d

/-- What a LIT tree does at a boundary before its state changes: SFC, PON-ID, PT lane, evaluation (R116, R118, R76, R126). The SFC
holds where the reach becomes DARK (log entry 56). -/
def Dev.treeBefore (d : Dev) (t : Nat) (hold : Bool) : Dev :=
  (((if hold then d else d.sfcStep t).ponidStep t).ptResume t).evaluate t

/-- What a LIT tree does at a boundary after its state changes: ages, retries, the map sent, the frame started, the predictor's
bins (R119, R124, R179, R197, R205, R226). -/
def Dev.treeAfter (d : Dev) (t : Nat) : Dev :=
  let d1 := (d.onTf t fun x => { x with openPkts := x.openPkts.mapVal fun _ p => { p with age := p.age + 1 } }).slotFrames t
  if (d1.tf t).state ≠ .active then d1
  else
    let d2 := d1.hwRetries t
    let n := d2.sfc t
    let d3 := if (d2.gs t).emptyLeft ≠ 0 ∨ (d2.gs t).built.any fun m => m.frame == n then d2
      else (d2.onTf t fun x => { x with sfc := n - 1 }).mapDeadline t |>.onTf t fun x => { x with sfc := n }
    let m := d3.mapOf t n
    let d4 := ((d3.mapSend t m).openAcc t m).pmTree t 13 (b2n m.replayed)
    (d4.dsFrame t m).binsMove t

/-! ### Register reads and writes of TF -/

/-- PONID_HI_WRITE (R118, R570): the held low word, or the low word in force where none is held, commits with the new high word at
the next boundary. -/
def Dev.ponidHiWrite (d : Dev) (t v : Nat) : Dev :=
  d.onTf t fun x =>
    { x with ponidPending := some (x.ponidHeld.getD (d.reg (R .TF_PONID_LO t)), bits v 18 0), ponidHeld := none }

/-- A write of TF_DS_CFG (R118, R141): FEC_EN stays while the tree is not OFF. DESIGN CHOICE: a write that repeats its value is not refused
(log entry 128). -/
def Dev.dsCfgWrite (d : Dev) (t v : Nat) : Dev :=
  let r := R .TF_DS_CFG t
  let old := d.flag r 0
  let bad := bit v 0 ≠ old ∧ (d.tf t).state ≠ .off
  let d1 := d.setReg r (bits v 7 4 * 16 + bits v 1 1 * 2 + if bad then b2n old else bits v 0 0)
  if bad then d1.cfgRefused (R .TF_FLAGS t) 7 else d1

/-- TF_TREE_STATUS.FEC_DS (R139): FEC is in use downstream while the tree transmits; DEDUCED for STANDBY, where it sends nothing (log
entry 94). -/
def Dev.fecDs (d : Dev) (t : Nat) : Bool := (d.tf t).state == .active && d.flag (R .TF_DS_CFG t) 0

/-- SFC_LO_READ (R144). -/
def Dev.sfcLoRead (d : Dev) (t : Nat) : Dev :=
  (d.onTf t fun x => { x with sfcShadow := x.sfc / 2 ^ 32 }).respond (.data (d.sfc t % 2 ^ 32))

/-- DEFECT_POP (R132, R147). -/
def Dev.defectPop (d : Dev) (t : Nat) : Dev := d.onTf t fun x => { x with events := x.events.drop 1 }

/-! ### TF_CMD (R149) -/

/-- The tree that an opcode of TF_CMD[r] names, with the checks of R149 in the order of R571. -/
def Dev.tfTree (d : Dev) (r : Nat) (a : Accepted) (k : Nat → CmdRes) : CmdRes :=
  let t := bits a.obj 15 0
  if !d.treeOpen a.src t then .refuse .denied (d.tf t).state.code
  else if t / 8 ≠ r ∨ !d.reachExists r then .refuse .badArgument (d.tf t).state.code
  else k t

/-- A tree-state opcode (R115, R149): legal from the states of `from_`; it completes at the boundary of the change. -/
def opTreeState (r : Nat) (from_ : List TreeState) (prot : Bool) (a : Accepted) (d : Dev) : CmdRes :=
  d.tfTree r a fun t =>
    if !d.lit t || !from_.contains (d.tf t).state || (prot && (d.tf t).protCtrl) then .refuse .notInState (d.tf t).state.code
    else .wait d

/-- TREE_OFF (R115). -/
def opTreeOff (r : Nat) (a : Accepted) (d : Dev) : CmdRes := opTreeState r [.standby, .active] false a d
/-- TREE_STANDBY (R115). -/
def opTreeStandby (r : Nat) (a : Accepted) (d : Dev) : CmdRes := opTreeState r [.off, .active] true a d
/-- TREE_ACTIVE (R115). -/
def opTreeActive (r : Nat) (a : Accepted) (d : Dev) : CmdRes := opTreeState r [.off, .standby] true a d

/-- SET_SFC (R116): legal in OFF, and in STANDBY on a tree not under protection control. -/
def opSetSfc (r : Nat) (a : Accepted) (d : Dev) : CmdRes :=
  d.tfTree r a fun t =>
    if d.lit t && ((d.tf t).state == .off || ((d.tf t).state == .standby && !(d.tf t).protCtrl)) then .wait d
    else .refuse .notInState (d.tf t).state.code

/-- The terminal of an opcode of TF_CMD[r]. -/
def Dev.tfTerm (d : Dev) (r : Nat) (a : Accepted) (k : Nat → CmdRes) : CmdRes :=
  let g := bits a.obj 15 0
  if !d.treeOpen a.src (g / 512) then .refuse .denied (d.term g).state.code
  else if g / 4096 ≠ r ∨ !d.reachExists r then .refuse .badArgument 0
  else k g

/-- TERM_DEFECTS (R149). -/
def opTermDefects (r : Nat) (a : Accepted) (d : Dev) : CmdRes :=
  d.tfTerm r a fun g =>
    let x := (d.tf (g / 512)).terms.getD (g % 512) TermDef.rest
    .done d .ok [(0, x.declared % 1024), (1, x.reported % 1024), (2, unsigned 32 (d.term g).o)]

/-- The bin object of a PM opcode: its key within the reach (R149). -/
def Dev.pmObj (d : Dev) (r : Nat) (a : Accepted) (k : Nat → CmdRes) : CmdRes :=
  if bit a.obj 16 then d.tfTree r a fun t => k (pmTreeKey t) else d.tfTerm r a fun g => k (pmTermKey g)

/-- PM_READ (R149). DESIGN CHOICE: while the reach is LOADING a current bin reads as the discarded one, OK, as while it is DARK
(log entry 132). -/
def opPmRead (r : Nat) (a : Accepted) (d : Dev) : CmdRes :=
  d.pmObj r a fun key =>
    let bin := a.db 0 5 0
    let part := a.db 0 9 8
    if 34 < bin ∨ (key < 4096 ∧ 1 < part) then .refuse .badArgument 0
    else if 2 ≤ bin ∧ (d.reach r).state = .loading then .refuse .notInState 1
    else
      match d.pmRead r key bin with
      | none => .refuse .busy 0
      | some b =>
        match d.pmCell r key bin with
        | some c =>
          match d.resRead c 5 with
          | (d1, true) => .done d1 .memoryFault []
          | (d1, false) => .done d1 .ok (outBytes 0 8 (b.drop (32 * part)))
        | none => .done d .ok (outBytes 0 8 (b.drop (32 * part)))

/-- PM_RESET_CURRENT (R137). -/
def opPmResetCurrent (r : Nat) (a : Accepted) (d : Dev) : CmdRes := d.pmObj r a fun key => .done (d.pmReset r key) .ok []

/-- XGEM_PORT_ADD (R125). -/
def opXgemPortAdd (r : Nat) (a : Accepted) (d : Dev) : CmdRes :=
  d.tfTree r a fun t =>
    let port := a.db 0 15 0
    let slot := a.db 0 24 16
    let omcc := bit (a.dat 0) 28
    let ports := (d.tf t).ports
    if port = 0xFFFF then .refuse .badArgument (d.tf t).state.code
    else if d.copyTree t ∨ (ports.get? port).isSome ∨ (omcc ∧ ports.any fun p => p.2.omcc && p.2.slot == slot) then
      .refuse .notInState (d.tf t).state.code
    else if 8192 ≤ ports.length then .done d .tableFull []
    else .done ((d.onTf t fun x => { x with ports := x.ports.set port ⟨slot, omcc⟩ }).pxEvent t (.port t port)) .ok []

/-- XGEM_PORT_DEL (R125). -/
def opXgemPortDel (r : Nat) (a : Accepted) (d : Dev) : CmdRes :=
  d.tfTree r a fun t =>
    let port := a.db 0 15 0
    if d.copyTree t then .refuse .notInState (d.tf t).state.code
    else if ((d.tf t).ports.get? port).isNone then .done d .notFound []
    else .done ((d.onTf t fun x => { x with ports := x.ports.erase port, openPkts := x.openPkts.erase port }).pxEvent t (.port t port)) .ok []

/-- XGEM_PORT_READ (R149). -/
def opXgemPortRead (r : Nat) (a : Accepted) (d : Dev) : CmdRes :=
  d.tfTree r a fun t =>
    let port := a.db 0 15 0
    match (d.tf t).ports.get? port with
    | none => .done d .notFound []
    | some p => .done d .ok [(0, port + 2 ^ 16 * p.slot + 2 ^ 28 * b2n p.omcc + 2 ^ 31)]

end Sys2Proof.Machine
end

