-- ==== Sys2Proof/Machine/Rings.lean ====
section
/-! DEFINITION. The packet rings (spec/15, R479 to R483, R489, R490): 21 rings and the management ring, whose indices, receive
descriptors and injection descriptors this file gives. Ring n is 0 to 3 for the cores, 4 for PF0, 5 + s for VF s; 21 names the
management ring. -/

namespace Sys2Proof.Machine

/-! ### Memories that descriptors name -/

/-- Bytes of the scratchpad or of host memory. -/
def Dev.rdMem (d : Dev) (sp : Bool) (a n : Nat) : List Byte :=
  if sp then d.mc.scratch.readN (spOff a) n else d.mc.hostMem.readN a n

/-- Bytes written by a port to the scratchpad, or to host memory. -/
def Dev.wrMem (d : Dev) (port : Nat) (sp : Bool) (a : Nat) (bs : List Byte) : Dev :=
  if sp then d.spWrite port a bs else d.onMc fun m => { m with hostMem := m.hostMem.writeL a bs }

/-- A device read of the scratchpad meets an uncorrectable word: reported with its port (R477). -/
def Dev.rdFault (d : Dev) (sp : Bool) (a n port : Nat) : Dev × Bool :=
  if sp ∧ d.spFault (spOff a) n then (d.spUe (d.spBad (spOff a) n) port, true) else (d, false)

/-! ### Ring registers (R506, R512) -/

/-- The registers of one half of a ring. -/
inductive RingReg where
  | baseLo | baseHi | cfg | pi | ci
  deriving DecidableEq, Repr

/-- A register of ring n, receive or injection half. -/
def ringReg (n : Nat) (tx : Bool) (k : RingReg) : Reg :=
  if n = 21 then
    match k, tx with
    | .baseLo, false => R .MC_MGMT_RING_RX_BASE_LO
    | .baseHi, false => R .MC_MGMT_RING_RX_BASE_HI
    | .cfg, false => R .MC_MGMT_RING_RX_CFG
    | .pi, false => R .MC_MGMT_RING_RX_PI
    | .ci, false => R .MC_MGMT_RING_RX_CI
    | .baseLo, true => R .MC_MGMT_RING_TX_BASE_LO
    | .baseHi, true => R .MC_MGMT_RING_TX_BASE_HI
    | .cfg, true => R .MC_MGMT_RING_TX_CFG
    | .pi, true => R .MC_MGMT_RING_TX_PI
    | .ci, true => R .MC_MGMT_RING_TX_CI
  else if n < 5 then
    match k, tx with
    | .baseLo, false => R .MC_RING_RX_BASE_LO n
    | .baseHi, false => R .MC_RING_RX_BASE_HI n
    | .cfg, false => R .MC_RING_RX_CFG n
    | .pi, false => R .MC_RING_RX_PI n
    | .ci, false => R .MC_RING_RX_CI n
    | .baseLo, true => R .MC_RING_TX_BASE_LO n
    | .baseHi, true => R .MC_RING_TX_BASE_HI n
    | .cfg, true => R .MC_RING_TX_CFG n
    | .pi, true => R .MC_RING_TX_PI n
    | .ci, true => R .MC_RING_TX_CI n
  else
    match k, tx with
    | .baseLo, false => R .VF_RING_RX_BASE_LO (n - 5)
    | .baseHi, false => R .VF_RING_RX_BASE_HI (n - 5)
    | .cfg, false => R .VF_RING_RX_CFG (n - 5)
    | .pi, false => R .VF_RING_RX_PI (n - 5)
    | .ci, false => R .VF_RING_RX_CI (n - 5)
    | .baseLo, true => R .VF_RING_TX_BASE_LO (n - 5)
    | .baseHi, true => R .VF_RING_TX_BASE_HI (n - 5)
    | .cfg, true => R .VF_RING_TX_CFG (n - 5)
    | .pi, true => R .VF_RING_TX_PI (n - 5)
    | .ci, true => R .VF_RING_TX_CI (n - 5)

/-- The ring lies in the scratchpad (R479, R489). -/
def ringSp (n : Nat) : Bool := decide (n < 4) || n == 21

/-- The scratchpad port under which a ring's accesses are reported (R473; log entry 22). -/
def ringPort (n : Nat) : Nat := if n < 4 then n else 4

/-- EN of a half. -/
def Dev.ringEn (d : Dev) (n : Nat) (tx : Bool) : Bool := d.flag (ringReg n tx .cfg) 31

/-- Entries between CI and PI (R479). -/
def Dev.ringFill (d : Dev) (n : Nat) (tx : Bool) : Nat :=
  (d.reg (ringReg n tx .pi) + 65536 - d.reg (ringReg n tx .ci) % 65536) % 65536

/-- The half is enabled and holds an entry. -/
def Dev.ringReady (d : Dev) (n : Nat) (tx : Bool) : Bool := d.ringEn n tx && d.ringFill n tx ≠ 0

/-- The address of the descriptor at CI (R479). -/
def Dev.ringDesc (d : Dev) (n : Nat) (tx : Bool) : Nat :=
  let base := d.fld (ringReg n tx .baseLo) 31 6 * 64 + if ringSp n then 0 else 2 ^ 32 * d.reg (ringReg n tx .baseHi)
  base + 64 * (d.reg (ringReg n tx .ci) % 2 ^ d.fld (ringReg n tx .cfg) 3 0)

/-- The flag of a completed descriptor (R490, R508, R509). -/
def Dev.ringDone (d : Dev) (n : Nat) (tx : Bool) : Dev :=
  if n = 21 then d.raise (R .MC_MGMT_FLAGS) (if tx then 3 else 2)
  else if n < 5 then d.raise (R .MC_RING_FLAGS) (if tx then 8 + n else n)
  else d.raise (R .VF_FLAGS (n - 5)) (if tx then 1 else 0)

/-- CI advances over a completed descriptor. -/
def Dev.ringNext (d : Dev) (n : Nat) (tx : Bool) : Dev :=
  (d.setReg (ringReg n tx .ci) ((d.reg (ringReg n tx .ci) + 1) % 65536)).ringDone n tx

/-- RING_PI_WRITE (R479): a producer index more than 2^LOG2 entries beyond CI leaves PI unchanged and sets PI_BAD. -/
def Dev.ringPi (d : Dev) (n : Nat) (tx : Bool) (v : Nat) : Dev :=
  let pi := v % 65536
  let ahead := (pi + 65536 - d.reg (ringReg n tx .ci) % 65536) % 65536
  if ahead ≤ 2 ^ d.fld (ringReg n tx .cfg) 3 0 then d.setReg (ringReg n tx .pi) pi
  else if n = 21 then d.raise (R .MC_MGMT_FLAGS) 4
  else if n < 5 then d.raise (R .MC_RING_FLAGS) (16 + n)
  else d.raise (R .VF_FLAGS (n - 5)) 2

/-- The configuration refusal of a ring (R512): of the MGMT flags for the management ring. -/
def Dev.ringRefused (d : Dev) (n : Nat) : Dev :=
  if n = 21 then d.cfgRefused (R .MC_MGMT_FLAGS) 6 else d.cfgRefused (R .MC_FLAGS) 20

/-- A write of a half's EN and LOG2 (R479, R512): the word writes LOG2 (log entry 128), which is refused while EN = 1 and outside 4 to 14; EN
takes effect, and from 0 to 1 sets CI to PI. -/
def Dev.ringCfgWrite (d : Dev) (n : Nat) (tx : Bool) (v : Nat) : Dev :=
  let r := ringReg n tx .cfg
  let old := d.reg r
  let l := bits v 3 0
  let bad := bit old 31 || decide (l < 4 ∨ 14 < l)
  let d1 := d.setReg r (2 ^ 31 * b2n (bit v 31) + if bad then bits old 3 0 else l)
  let d2 := if bit v 31 ∧ !bit old 31 then d1.setReg (ringReg n tx .ci) (d1.reg (ringReg n tx .pi)) else d1
  if bad then d2.ringRefused n else d2

/-- A write of a half's base address (R512): refused while EN = 1. -/
def Dev.ringBaseWrite (d : Dev) (n : Nat) (tx hi : Bool) (v : Nat) : Dev :=
  let r := ringReg n tx (if hi then .baseHi else .baseLo)
  let v := if hi then v else v / 64 * 64
  if d.ringEn n tx then d.ringRefused n else d.setReg r v

/-! ### Receive descriptors (R480, R481) -/

/-- What a receive descriptor says of a packet. -/
structure RxInfo where
  kind : Nat
  reason : Nat
  source : Nat
  slice : Nat
  bank : Nat
  term : Nat
  port : Nat
  queue : Nat
  hash : Nat
  metaVal : Nat
  epoch : Nat
  rx : Option Nat
  deriving DecidableEq, Repr

/-- A packet written into the descriptor at CI (R481): the buffer, bytes 16 to 63, then the word with DONE. A descriptor that
the scratchpad cannot give loses the packet (log entry 22). -/
def Dev.rxFill (d : Dev) (n : Nat) (i : RxInfo) (bytes : List Byte) : Dev :=
  let sp := ringSp n
  let a := d.ringDesc n false
  let (d1, bad) := d.rdFault sp a 16 (ringPort n)
  if bad then d1.ringNext n false
  else
    let h := d1.rdMem sp a 16
    let bufLen := leAt h 8 2
    let trunc := decide (bufLen < bytes.length)
    let flags := 1 + 2 * b2n trunc + 4 * b2n i.rx.isSome + 16 * i.kind + 256 * i.reason
    let ts := i.rx.getD 0
    let tail := leBytes 2 i.term ++ leBytes 2 i.port ++ leBytes 4 i.queue ++ leBytes 4 i.hash ++ leBytes 2 i.metaVal ++
      leBytes 2 i.epoch ++ leBytes 6 (ts / 1000000000) ++ leBytes 4 (ts % 1000000000) ++ List.replicate 22 0
    let word := leBytes 2 bufLen ++ leBytes 2 flags ++ leBytes 2 bytes.length ++ leBytes 1 i.source ++
      leBytes 1 (i.slice % 16 + 16 * i.bank)
    let p := ringPort n
    (((d1.wrMem p sp (leAt h 0 8) (bytes.take bufLen)).wrMem p sp (a + 16) tail).wrMem p sp (a + 8) word).ringNext n false

/-! ### Injection descriptors (R482, R483) -/

/-- An injection descriptor as read. -/
structure TxDesc where
  src : Nat
  len : Nat
  flags : Nat
  queue : Nat
  tsId : Nat
  launch : Nat
  clean : Bool
  deriving DecidableEq, Repr

/-- The fields of 64 bytes (R482); `clean` says that every reserved bit and byte is zero. -/
def txDesc (b : List Byte) : TxDesc :=
  ⟨leAt b 0 8, leAt b 8 2, leAt b 10 2, leAt b 12 4 % 2 ^ 19, leAt b 16 2, leAt b 24 8,
    leAt b 10 2 < 64 ∧ leAt b 12 4 < 2 ^ 19 ∧ leAt b 18 6 = 0 ∧ leAt b 32 16 = 0⟩

def TxDesc.bypass (t : TxDesc) : Bool := bit t.flags 0
def TxDesc.clearSend (t : TxDesc) : Bool := bit t.flags 1
def TxDesc.tsReq (t : TxDesc) : Bool := bit t.flags 2
def TxDesc.launched (t : TxDesc) : Bool := bit t.flags 3
def TxDesc.chained (t : TxDesc) : Bool := bit t.flags 4
def TxDesc.tier (t : TxDesc) : Nat := bits t.flags 5 5

/-- A descriptor completes: DONE, STATUS and zeros, then CI (R482, R483). -/
def Dev.txComplete (d : Dev) (n : Nat) (st : Status) : Dev :=
  (d.wrMem (ringPort n) (ringSp n) (d.ringDesc n true + 48) (leBytes 1 1 ++ leBytes 1 st.code ++ List.replicate 14 0)).ringNext n true

/-- The cells of a chain from its first cell to EOP, at most as many as a packet of its length takes (R482, R316). -/
def Dev.chainOf (d : Dev) (tier : Nat) : Nat → Nat → List Nat
  | 0, _ => []
  | k + 1, c =>
    let x := d.cell tier c
    if x.eop then [c]
    else
      match x.next with
      | some c' => c :: d.chainOf tier k c'
      | none => [c]

/-- The pool that a queue names (R314). -/
def Dev.queuePool (d : Dev) (q : Nat) : Nat := bits (d.tm.queues.getD q Queue.rest).w0 24 19

/-- A chain that may not be handed over (R483): a cell that is free, retired, or not of the queue's pool. -/
def Dev.chainBad (d : Dev) (tier pool : Nat) (cs : List Nat) : Bool :=
  cs.any fun c => reservedCell tier c || !(d.cell tier c).used || (d.cell tier c).retired || (d.cell tier c).owner ≠ pool

/-- The packet of a descriptor of ring n: source 76 (R231), with what the descriptor gives it. -/
def TxDesc.pkt (t : TxDesc) (n : Nat) (bytes : List Byte) : Pkt :=
  { Pkt.of 76 bytes with
    slice := if 5 ≤ n then n - 5 else 0
    clearSend := t.clearSend
    tsId := if t.tsReq then some t.tsId else none
    launch := if t.launched then some t.launch else none }

/-- The packet of a descriptor is handed to the parser, or with BYPASS to enqueue commit (R231, R482); a packet that no parser
sees has no hash, so a free value stands for it (log entry 22). -/
def Dev.inject (d : Dev) (t : TxDesc) (n : Nat) (bytes : List Byte) (chain : Option (Nat × List Nat)) : Dev :=
  let p := t.pkt n bytes
  if t.bypass then
    let s := (d.sliceOfQueue t.queue).getD 0
    let p := { p with slice := s, pipe := d.im.str.pipeInject, tick := d.tb.ticks, c := d.now,
                      hash := Config.freeValue d.free % 2 ^ 32 }
    (d.takeFree 1).onPc fun x => { x with flights := x.flights ++ [⟨p.pipe, p, [⟨t.queue, p⟩], chain⟩] }
  else d.onPc fun x => { x with arrivals := x.arrivals ++ [p] }

/-- INJECTION_DESCRIPTOR (R483): the descriptor at CI of ring n completes; `fault` says that the host read of SRC faults. -/
def Dev.injection (d : Dev) (n : Nat) (fault : Bool) : Dev :=
  if 20 < n ∨ !d.ringReady n true then d
  else
    let sp := ringSp n
    let (d1, bad) := d.rdFault sp (d.ringDesc n true) 64 (ringPort n)
    if bad then d1.txComplete n .memoryFault
    else
      let t := txDesc (d1.rdMem sp (d1.ringDesc n true) 64)
      let cs := if t.chained then d1.chainOf t.tier (cellsFor t.tier (t.len + 4)) (t.src % 2 ^ 27) else []
      if 5 ≤ n ∧ (!t.bypass ∨ t.chained ∨ d1.sliceOfQueue t.queue ≠ some (n - 5)) then d1.txComplete n .denied
      else if !t.clean ∨ t.len = 0 ∨ 16383 < t.len ∨ (t.chained ∧ !t.bypass) ∨ d1.chainBad t.tier (d1.queuePool t.queue) cs then
        d1.txComplete n .badArgument
      else if t.chained then
        (d1.inject t n (sub ((cs.map fun c => (d1.cell t.tier c).data).flatten) 32 t.len) (some (t.tier, cs))).txComplete n .ok
      else
        let (d2, bad) := d1.rdFault sp t.src t.len (ringPort n)
        if bad ∨ (fault ∧ !sp) then d2.txComplete n .memoryFault
        else (d2.inject t n (d2.rdMem sp t.src t.len) none).txComplete n .ok

/-! ### The management port (R488 to R490) -/

/-- A statistic of the MGMT port grown by n (R490: 64 bits). -/
def Dev.mgmtStat (d : Dev) (i n : Nat) : Dev :=
  d.onMc fun m => { m with mgmtStat := m.mgmtStat.put 0 i ((m.mgmtStat.getD i 0 + n) % 2 ^ 64) }

/-- MGMT_STAT_LO_READ (R490). -/
def Dev.mgmtStatLoRead (d : Dev) (i : Nat) : Dev :=
  let v := d.mc.mgmtStat.getD i 0
  (d.setReg (R .MC_MGMT_STAT_HI i) (v / 2 ^ 32)).respond (.data (v % 2 ^ 32))

/-- Timebase ticks of a number of quanta of 512 bit times at the port's rate (R489): 512 ns, or 204.8 ns at 2.5 Gbit/s. -/
def Dev.mgmtQuanta (d : Dev) (q : Nat) : Nat :=
  q * if d.flag (R .MC_MGMT_CFG) 30 then 160 else 400

/-- The port's PAUSE timer runs. -/
def Dev.mgmtPaused (d : Dev) : Bool := decide (d.tb.ticks < d.mc.mgmtPause)

/-- MGMT_FRAME_RECEIVE (R489, R490): a frame's bytes without FCS, whether its FCS is good, whether it holds a code error, C in ns at
its first bit. The frames and octets delivered are those that a descriptor took, without the FCS. -/
def Dev.mgmtReceive (d : Dev) (bytes : List Byte) (fcsOk codeErr : Bool) (at_ : Nat) : Dev :=
  let len := bytes.length + 4
  if !d.flag (R .MC_MGMT_CFG) 31 then d
  else if !fcsOk ∨ codeErr ∨ len < 64 ∨ d.fld (R .MC_MGMT_CFG) 13 0 < len then d.mgmtStat 2 1
  else if beAt bytes 12 2 = 0x8808 ∧ beAt bytes 14 2 = 1 then
    let d1 := d.mgmtStat 4 1
    if d1.flag (R .MC_MGMT_CFG) 28 then d1.onMc fun m => { m with mgmtPause := d1.tb.ticks + d1.mgmtQuanta (beAt bytes 16 2) } else d1
  else if !d.ringReady 21 false then (d.mgmtStat 3 1).raise (R .MC_MGMT_FLAGS) 5
  else
    let d1 := d.rxFill 21 ⟨5, 0, 0xFF, 0, 0, 0xFFFF, 0, 0, 0, 0, 0, some at_⟩ bytes
    if d.spFault (spOff (d.ringDesc 21 false)) 16 then d1 else (d1.mgmtStat 0 1).mgmtStat 1 bytes.length

/-- MGMT_TRANSMIT (R489): the injection descriptor at CI of the management ring completes. While the PAUSE timer runs, no frame is
sent. -/
def Dev.mgmtTransmit (d : Dev) : Dev :=
  if !d.ringReady 21 true then d
  else
    let (d1, bad) := d.rdFault true (d.ringDesc 21 true) 64 4
    if bad then d1.txComplete 21 .memoryFault
    else
      let t := txDesc (d1.rdMem true (d1.ringDesc 21 true) 64)
      if t.flags ≠ 0 ∨ t.len < 60 ∨ d1.fld (R .MC_MGMT_CFG) 13 0 - 4 < t.len then d1.txComplete 21 .badArgument
      else if !d1.flag (R .MC_MGMT_CFG) 31 ∨ !d1.flag (R .MC_MGMT_STATUS) 31 then d1.txComplete 21 .notInState
      else
        let (d2, bad) := d1.rdFault true t.src t.len 4
        if bad then d2.txComplete 21 .memoryFault
        else if d2.mgmtPaused then d2
        else
          let b := d2.rdMem true t.src t.len
          (((d2.onMc fun m => { m with mgmtTx := b }).mgmtStat 5 1).mgmtStat 6 (max 64 (t.len + 4))).txComplete 21 .ok

/-- The port's LINK_UP follows synchronisation and auto-negotiation (R488). -/
def Dev.mgmtLink (d : Dev) : Dev :=
  let r := R .MC_MGMT_STATUS
  let c := d.reg (R .MC_MGMT_CFG)
  let up := d.flag r 29 && (bit c 30 || !bit c 29 || d.flag r 30)
  let was := d.flag r 31
  let d1 := d.setFld r 31 31 (b2n up)
  if up = was then d1
  else if up then d1.raise (R .MC_MGMT_FLAGS) 0
  else (d1.raise (R .MC_MGMT_FLAGS) 1).mgmtStat 7 1

/-- MGMT_LINK_CHANGE (R488, R490): synchronisation, auto-negotiation complete, and the partner's symmetric PAUSE. -/
def Dev.mgmtLinkChange (d : Dev) (sync anDone pause : Bool) : Dev :=
  ((((d.setFld (R .MC_MGMT_STATUS) 29 29 (b2n sync)).setFld (R .MC_MGMT_STATUS) 30 30 (b2n anDone))).setFld (R .MC_MGMT_STATUS) 27 27
    (b2n pause)).mgmtLink

/-- A write of MC_MGMT_CFG (R490): RATE is refused while EN = 1, MAX_FRAME outside 64 to 9,216. -/
def Dev.mgmtCfgWrite (d : Dev) (v : Nat) : Dev :=
  let r := R .MC_MGMT_CFG
  let old := d.reg r
  let badRate := bit old 31 && bit v 30 != bit old 30
  let m := bits v 13 0
  let badMax := decide (m < 64 ∨ 9216 < m)
  let w := putBits (putBits (bits v 31 26 * 2 ^ 26) 30 30 (bits (if badRate then old else v) 30 30)) 13 0 (if badMax then bits old 13 0 else m)
  let d1 := (d.setReg r w).mgmtLink
  if badRate ∨ badMax then d1.cfgRefused (R .MC_MGMT_FLAGS) 6 else d1

end Sys2Proof.Machine
end

