-- ==== Sys2Proof/Machine/Parse.lean ====
section
/-! DEFINITION. The parser (spec/07, R232 to R242): the headers of the first 64 bytes, the parse flags, the length checks, and
what the key, the hash and a decapsulation take from them. -/

namespace Sys2Proof.Machine

/-- The fields of one layer (R237, R243). `ipVer` is 0, 4 or 6; `l4` is 0 for none, 1 for TCP or UDP, 2 for ICMP or ICMPv6. -/
structure Flds where
  da : Nat
  sa : Nat
  etype : Nat
  ovid : Nat
  opcp : Nat
  dei : Bool
  ivid : Nat
  tags : Nat
  label0 : Nat
  label1 : Nat
  session : Nat
  proto : Nat
  dscp : Nat
  v4sa : Nat
  v4da : Nat
  v6sa : Nat
  v6da : Nat
  flow : Nat
  sport : Nat
  dport : Nat
  tcpFlags : Nat
  ipVer : Nat
  l4 : Nat
  deriving DecidableEq, Repr

/-- Nothing parsed. -/
def Flds.none : Flds := ⟨0, 0, 0, 0, 0, false, 0, 0, 0, 0, 0, 0, 0, 0, 0, 0, 0, 0, 0, 0, 0, 0, 0⟩

/-- The tunnel forms that a decapsulation tells apart (R255): none removable, an inner Ethernet frame, an inner IP packet. -/
inductive TunnelKind where
  | none | ethernet | ip | gre4 | gre6
  deriving DecidableEq, Repr

/-- The result of a parse (R238, R239). `reason` is the LENCONFLICT code, 0 for none; `tagEnd` the offset after the outer
EtherType, `tunEnd` that after the tunnel header. -/
structure Parsed where
  outer : Flds
  inner : Flds
  tunnelId : Nat
  reason : Nat
  deep : Bool
  frag : Bool
  fragFirst : Bool
  tunnel : Bool
  mpls : Bool
  pppoe : Bool
  unknown : Bool
  options : Bool
  ttlLow : Bool
  tagEnd : Nat
  tun : TunnelKind
  tunEnd : Nat
  deriving DecidableEq, Repr

/-- A parse before its first header. -/
def Parsed.start : Parsed :=
  ⟨Flds.none, Flds.none, 0, 0, false, false, false, false, false, false, false, false, false, 0, .none, 0⟩

/-- PARSE_FLAGS (R238), with L4_VALID of the chosen layer (R243). -/
def Parsed.flags (p : Parsed) (second innerL4 : Bool) : Nat :=
  let l4 := if innerL4 then p.inner.l4 else p.outer.l4
  b2n p.deep + 2 * b2n (p.reason ≠ 0) + 4 * b2n p.frag + 8 * b2n p.fragFirst + 16 * b2n (p.outer.ipVer == 4) +
    32 * b2n (p.outer.ipVer == 6) + 64 * b2n p.tunnel + 128 * b2n p.mpls + 256 * b2n p.pppoe + 512 * b2n (l4 ≠ 0) +
    1024 * b2n p.unknown + 2048 * b2n second + 4096 * b2n (bit p.outer.da 40) + 8192 * b2n p.options + 16384 * b2n p.ttlLow +
    32768 * b2n (p.inner.ipVer ≠ 0)

/-- The settings that parsing reads (R234, R259). -/
structure ParseCfg where
  vxlanPort : Nat
  gtpuPort : Nat
  extraTpid : Option Nat
  deriving DecidableEq, Repr

/-- The parser's place: the frame's bytes within the window and its length, the layer, the IP payload left, the end of the IPv6
payload and the extension headers so far. -/
structure PState where
  p : Parsed
  inn : Bool
  pay : Nat
  v6end : Nat
  ext : Nat
  deriving DecidableEq, Repr

/-- The header to be parsed next (R234). -/
inductive Hdr where
  | eth | etype | pppoe | mpls (n : Nat) | nibble | ip4 | ip6 | ext | frag6 | udp | tcp | icmp | gre | vxlan | gtpu | stop
  deriving DecidableEq, Repr

/-- The fields of the layer at hand. -/
def PState.f (s : PState) : Flds := if s.inn then s.p.inner else s.p.outer

/-- The fields of the layer at hand changed. -/
def PState.onF (s : PState) (g : Flds → Flds) : PState :=
  if s.inn then { s with p := { s.p with inner := g s.p.inner } } else { s with p := { s.p with outer := g s.p.outer } }

/-- Parsing ends DEEP, UNKNOWN, or with a length conflict (R233, R236, R239). -/
def PState.deepEnd (s : PState) : Hdr × Nat × PState := (.stop, 0, { s with p := { s.p with deep := true } })
def PState.unknownEnd (s : PState) : Hdr × Nat × PState := (.stop, 0, { s with p := { s.p with unknown := true } })
def PState.conflict (s : PState) (code : Nat) : Hdr × Nat × PState := (.stop, 0, { s with p := { s.p with reason := code } })

/-- R233: a header of `len` bytes at `off` fits the frame and the window, or parsing ends. -/
def PState.fit (s : PState) (L off len : Nat) (k : Hdr × Nat × PState) : Hdr × Nat × PState :=
  if L < off + len then s.conflict 1 else if 64 < off + len then s.deepEnd else k

/-- The header after an IPv4 protocol or an IPv6 next-header value (R234, R236). -/
def PState.l4Next (s : PState) (v6 : Bool) (proto off : Nat) : Hdr × Nat × PState :=
  if proto = 6 then (.tcp, off, s)
  else if proto = 17 then (.udp, off, s)
  else if proto = 47 then (.gre, off, s)
  else if !v6 ∧ proto = 1 then (.icmp, off, s)
  else if v6 ∧ proto = 58 then (.icmp, off, s)
  else if v6 ∧ (proto = 0 ∨ proto = 43 ∨ proto = 60) then (.ext, off, s)
  else if v6 ∧ proto = 44 then (.frag6, off, s)
  else s.unknownEnd

/-- The inner layer begins after a tunnel header (R235 to R237). -/
def PState.enter (s : PState) (kind : TunnelKind) (fin : Nat) : PState :=
  { s with inn := true, p := { s.p with tunnel := true, tun := kind, tunEnd := fin } }

/-- One header (R233 to R242). `L` is L_f; `b` the window. -/
def parseStep (cfg : ParseCfg) (b : List Byte) (L : Nat) (h : Hdr) (off : Nat) (s : PState) : Hdr × Nat × PState :=
  let u (o n : Nat) : Nat := beAt b o n
  match h with
  | .stop => (.stop, off, s)
  | .eth => s.fit L off 14 <| (.etype, off + 12, s.onF fun f => { f with da := u off 6, sa := u (off + 6) 6 })
  | .etype =>
    let t := u off 2
    let s := s.onF fun f => { f with etype := t }
    if t = 0x8100 ∨ t = 0x88A8 ∨ cfg.extraTpid = some t then
      if s.f.tags = 3 then s.deepEnd
      else
        let tci := u (off + 2) 2
        let s1 := s.onF fun f =>
          if f.tags = 0 then { f with ovid := tci % 4096, opcp := tci / 8192, dei := bit tci 12, tags := 1 }
          else if f.tags = 1 then { f with ivid := tci % 4096, tags := 2 } else { f with tags := f.tags + 1 }
        s.fit L off 6 (.etype, off + 4, s1)
    else
      let s := if s.inn then s else { s with p := { s.p with tagEnd := off + 2 } }
      if t = 0x0800 then (.ip4, off + 2, s)
      else if t = 0x86DD then (.ip6, off + 2, s)
      else if t = 0x8864 then (.pppoe, off + 2, s)
      else if t = 0x8847 ∨ t = 0x8848 then (.mpls 0, off + 2, s)
      else s.unknownEnd
  | .pppoe => s.fit L off 8 <|
    if u off 1 ≠ 0x11 then s.unknownEnd
    else if L - off - 6 < u (off + 4) 2 then s.conflict 7
    else
      let s := (s.onF fun f => { f with session := u (off + 2) 2 })
      let s := { s with p := { s.p with pppoe := true } }
      let pr := u (off + 6) 2
      if pr = 0x21 then (.ip4, off + 8, s) else if pr = 0x57 then (.ip6, off + 8, s) else s.unknownEnd
  | .mpls n =>
    if n = 3 then s.deepEnd
    else s.fit L off 4 <|
      let w := u off 4
      let s := s.onF fun f => if n = 0 then { f with label0 := w / 4096 } else if n = 1 then { f with label1 := w / 4096 } else f
      let s := { s with p := { s.p with mpls := true } }
      (if bit w 8 then .nibble else .mpls (n + 1), off + 4, s)
  | .nibble => s.fit L off 1 <|
    let v := u off 1 / 16
    if v = 4 then (.ip4, off, s) else if v = 6 then (.ip6, off, s)
    else
      -- an inner packet that is neither IPv4 nor IPv6 leaves nothing to decapsulate (R236, R255)
      let s := if s.p.tun = .ip then { s with p := { s.p with tun := .none } } else s
      s.unknownEnd
  | .ip4 => s.fit L off 20 <|
    let ihl := u off 1 % 16
    let tot := u (off + 2) 2
    if u off 1 / 16 ≠ 4 then s.unknownEnd
    else if ihl < 5 then s.conflict 2
    else if L - off < tot then s.conflict 3
    else if tot < 4 * ihl then s.conflict 4
    else
      let s := s.onF fun f => { f with dscp := u (off + 1) 1 / 4, proto := u (off + 9) 1, v4sa := u (off + 12) 4, v4da := u (off + 16) 4, ipVer := 4 }
      let s := if s.inn then s else { s with p := { s.p with options := decide (5 < ihl), ttlLow := decide (u (off + 8) 1 ≤ 1) } }
      let fl := u (off + 6) 2
      if fl % 0x4000 ≠ 0 then
        (.stop, off, { s with p := { s.p with frag := true, fragFirst := fl % 0x2000 == 0 } })
      else ({ s with pay := tot - 4 * ihl }).l4Next false (u (off + 9) 1) (off + 4 * ihl)
  | .ip6 => s.fit L off 40 <|
    let pl := u (off + 4) 2
    if u off 1 / 16 ≠ 6 then s.unknownEnd
    else if pl = 0 ∨ L - off - 40 < pl then s.conflict 5
    else
      let w := u off 4
      let s := s.onF fun f => { f with dscp := bits w 27 22, flow := w % 2 ^ 20, proto := u (off + 6) 1, v6sa := u (off + 8) 16, v6da := u (off + 24) 16, ipVer := 6 }
      let s := if s.inn then s else { s with p := { s.p with ttlLow := decide (u (off + 7) 1 ≤ 1) } }
      ({ s with pay := pl, v6end := off + 40 + pl, ext := 0 }).l4Next true (u (off + 6) 1) (off + 40)
  | .ext =>
    if s.ext = 2 then s.deepEnd
    else s.fit L off 8 <|
      let len := (u (off + 1) 1 + 1) * 8
      if s.v6end < off + len then s.conflict 6
      else
        let s := s.onF fun f => { f with proto := u off 1 }
        let s := if s.inn then s else { s with p := { s.p with options := true } }
        ({ s with ext := s.ext + 1, pay := s.pay - len }).l4Next true (u off 1) (off + len)
  | .frag6 =>
    if s.ext = 2 then s.deepEnd
    else s.fit L off 8 <|
      if s.v6end < off + 8 then s.conflict 6
      else
        let s := s.onF fun f => { f with proto := u off 1 }
        let p := { s.p with frag := true, fragFirst := u (off + 2) 2 / 8 == 0, options := s.p.options || !s.inn }
        (.stop, off, { s with p := p })
  | .udp => s.fit L off 8 <|
    let len := u (off + 4) 2
    if len < 8 ∨ len ≠ s.pay then s.conflict 8
    else
      let dp := u (off + 2) 2
      let s := s.onF fun f => { f with sport := u off 2, dport := dp, l4 := 1 }
      if dp ≠ cfg.vxlanPort ∧ dp ≠ cfg.gtpuPort then (.stop, off, s)
      else if s.inn then s.deepEnd
      else (if dp = cfg.vxlanPort then .vxlan else .gtpu, off + 8, s)
  | .tcp => s.fit L off 14 <|
    let o := u (off + 12) 1 / 16
    if o < 5 ∨ s.pay < 4 * o then s.conflict 9
    else (.stop, off, s.onF fun f => { f with sport := u off 2, dport := u (off + 2) 2, tcpFlags := u (off + 13) 1, l4 := 1 })
  | .icmp => s.fit L off 4 (.stop, off, s.onF fun f => { f with sport := u off 2, dport := 0, l4 := 2 })
  | .gre =>
    if s.inn then s.deepEnd
    else s.fit L off 4 <|
      let b0 := u off 1
      let len := 4 + 4 * (bits b0 7 7 + bits b0 5 5 + bits b0 4 4)
      s.fit L off len <|
        if u (off + 1) 1 % 8 ≠ 0 ∨ bit b0 6 ∨ b0 % 8 ≠ 0 then s.unknownEnd
        else
          let id := if bit b0 5 then u (off + 4 + 4 * bits b0 7 7) 4 else 0
          let pr := u (off + 2) 2
          let s := { s with p := { s.p with tunnelId := id, tunnel := true } }
          if pr = 0x6558 then (.eth, off + len, s.enter .ethernet (off + len))
          else if pr = 0x0800 then (.ip4, off + len, s.enter .gre4 (off + len))
          else if pr = 0x86DD then (.ip6, off + len, s.enter .gre6 (off + len))
          else s.unknownEnd
  | .vxlan => s.fit L off 8 <|
    if !bit (u off 1) 3 then s.unknownEnd
    else (.eth, off + 8, ({ s with p := { s.p with tunnelId := u (off + 4) 3 } }).enter .ethernet (off + 8))
  | .gtpu => s.fit L off 8 <|
    let b0 := u off 1
    let len := 8 + if b0 % 8 ≠ 0 then 4 else 0
    s.fit L off len <|
      -- with E = 1 the length byte of the extension header belongs to the frame before it is read (R233)
      s.fit L off (if bit b0 2 then len + 1 else len) <|
      let len' := if bit b0 2 then len + 4 * u (off + 12) 1 else len
      s.fit L off len' <|
        if b0 / 32 ≠ 1 ∨ !bit b0 4 then s.unknownEnd
        else
          let s := { s with p := { s.p with tunnelId := u (off + 4) 4 } }
          if u (off + 1) 1 ≠ 0xFF then s.unknownEnd
          else if bit b0 2 ∧ u (off + len' - 1) 1 ≠ 0 then s.deepEnd
          else (.nibble, off + len', s.enter .ip (off + len'))

/-- The headers one after another, at most k. -/
def parseRun (cfg : ParseCfg) (b : List Byte) (L : Nat) : Nat → Hdr → Nat → PState → Parsed
  | 0, _, _, s => s.p
  | k + 1, h, off, s =>
    if h = .stop then s.p
    else
      let r := parseStep cfg b L h off s
      parseRun cfg b L k r.1 r.2.1 r.2.2

/-- The parse of a frame (R232 to R242). No frame has more than 40 headers within the window. -/
def parse (cfg : ParseCfg) (frame : List Byte) : Parsed :=
  parseRun cfg (frame.take 64) frame.length 40 .eth 0 ⟨Parsed.start, false, 0, 0, 0⟩

/-- A fragment's L4 fields and TUNNEL_ID read 0 (R242): a tunnel's own fields stand when the fragment is the inner packet. -/
def Parsed.fields (p : Parsed) (inner : Bool) : Flds := if inner then p.inner else p.outer

/-- DECAP (R255): the frame without its tunnel, or none where nothing is removed. After a GRE header the
inner IP version is the one its protocol names (log 100). -/
def decap (frame : List Byte) (p : Parsed) : Option (List Byte) :=
  if !p.tunnel || decide (63 < p.tunEnd) then none
  else
    match p.tun with
    | .none => none
    | .ethernet => some (frame.drop p.tunEnd)
    | .gre4 => some (frame.take (p.tagEnd - 2) ++ beBytes 2 0x0800 ++ frame.drop p.tunEnd)
    | .gre6 => some (frame.take (p.tagEnd - 2) ++ beBytes 2 0x86DD ++ frame.drop p.tunEnd)
    | .ip =>
      let v := beAt frame p.tunEnd 1 / 16
      if v = 4 ∨ v = 6 then some (frame.take (p.tagEnd - 2) ++ beBytes 2 (if v = 4 then 0x0800 else 0x86DD) ++ frame.drop p.tunEnd)
      else none

/-- The symmetric hash (R252). -/
def symHash (p : Parsed) (seed : Nat) (innerOn : Bool) : Nat :=
  let f := p.fields (innerOn && p.inner.ipVer ≠ 0)
  let blk : List Byte :=
    if f.ipVer ≠ 0 then
      let a := if f.ipVer = 4 then f.v4sa else f.v6sa
      let b := if f.ipVer = 4 then f.v4da else f.v6da
      -- a fragment of either layer makes the packet one (R232, R252)
      let ported := f.l4 = 1 ∧ p.frag = false
      let sp := if ported then f.sport else 0
      let dp := if ported then f.dport else 0
      beBytes 16 (min a b) ++ beBytes 16 (max a b) ++ beBytes 2 (min sp dp) ++ beBytes 2 (max sp dp) ++
        beBytes 1 f.proto ++ beBytes 1 f.ipVer ++ [0, 0]
    else
      let o := p.outer
      beBytes 16 (min o.sa o.da) ++ beBytes 16 (max o.sa o.da) ++ beBytes 2 o.etype ++ [0, 0, 0, 0, 0, 0]
  (crcRun 0x82F63B78 (BitVec.ofNat 32 seed) blk ^^^ 0xFFFFFFFF).toNat

/-- The width of a key field (R243); an ID above 0x1C is unknown. -/
def fieldWidth (id : Nat) : Option Nat :=
  [0, 7, 15, 16, 48, 48, 16, 12, 3, 12, 2, 20, 20, 16, 8, 6, 32, 32, 128, 128, 64, 64, 20, 16, 16, 8, 32, 16, 16][id]?

end Sys2Proof.Machine
end

