-- ==== Sys2Proof/Machine/FlowStore.lean ====
section
/-! DEFINITION. The flow store and the policers (spec/08): buckets, lookup, the displacement search, the in-service rebuild, the
two-rate meters, and the opcodes of FS_CMD (R282). -/

namespace Sys2Proof.Machine

/-! ### Layout and candidates (R262, R271) -/

/-- The layouts by which keys find their buckets: the working one and, while `moving`, the new one with the pointer P. -/
structure FsLay where
  seed : Nat
  log2 : Nat
  newSeed : Nat
  newLog2 : Nat
  moving : Bool
  p : Nat
  deriving DecidableEq, Repr

/-- The layout in force. -/
def Dev.lay (d : Dev) : FsLay :=
  ⟨d.reg (R .FS_SEED), d.fld (R .FS_STATUS) 28 24, d.reg (R .FS_NEW_SEED), d.fld (R .FS_STATUS) 20 16,
   d.flag (R .FS_STATUS) 31, d.fld (R .FS_MIG_PTR) 18 0⟩

/-- crc(init) of R262 over the 22 bytes of a key. -/
def keyCrc (key init : Nat) : Nat := (crcRun 0x82F63B78 (BitVec.ofNat 32 init) (beBytes 22 key) ^^^ 0xFFFFFFFF).toNat

/-- h1 of a key under a seed (R262). -/
def keyH1 (key seed : Nat) : Nat := keyCrc key seed

/-- The candidate buckets of a key under a seed and a size (R262). -/
def keyBuckets (key seed log2 : Nat) : Nat × Nat :=
  let nb := 2 ^ (log2 - 2)
  let b1 := keyCrc key seed % nb
  let b2 := keyCrc key (seed ^^^ 0x9E3779B9) % nb
  (b1, if b2 = b1 then b1 ^^^ 1 else b2)

/-- The owning bucket of each candidate, with the generation under which it is read (R262, R271). -/
def owners (l : FsLay) (gen : Bool) (key : Nat) : List (Nat × Bool) :=
  let o := keyBuckets key l.seed l.log2
  if l.moving then
    let n := keyBuckets key l.newSeed l.newLog2
    [if l.p ≤ o.1 then (o.1, gen) else (n.1, !gen), if l.p ≤ o.2 then (o.2, gen) else (n.2, !gen)]
  else [(o.1, gen), (o.2, gen)]

/-- A slot of the store. -/
def FsState.slot (s : FsState) (i : Nat) : FsSlot := s.slots.getD i FsSlot.rest

/-- The slots of a bucket in ascending order. -/
def bucketSlots (b : Nat) : List Nat := [4 * b, 4 * b + 1, 4 * b + 2, 4 * b + 3]

/-- A location as commands return it (R282): a slot index, or a stash index with bit 31. -/
def stashLoc (i : Nat) : Nat := 2 ^ 31 + i

/-- The uncorrectable errors that a read of a bucket under a generation meets: tags of all slots, entries of VALID slots of that
generation (R265). -/
def FsState.bucketErrs (s : FsState) (b : Nat × Bool) : List Nat :=
  (bucketSlots b.1).filter fun i => let x := s.slot i; x.tag == 2 || (x.ent == 2 && x.valid && x.gen == b.2)

/-- The uncorrectable errors that the search meets in a bucket, whose entries of either generation it may move (R266, log 101). -/
def FsState.searchErrs (s : FsState) (b : Nat) : List Nat :=
  (bucketSlots b).filter fun i => let x := s.slot i; x.tag == 2 || (x.ent == 2 && x.valid)

/-- An uncorrectable error in a slot, entry or tag. -/
def FsSlot.failed (x : FsSlot) : Bool := x.ent == 2 || x.tag == 2

/-- The uncorrectable errors of stash entries in use. -/
def FsState.stashErrs (s : FsState) : List Nat := (s.stash.filter fun kv => kv.2.failed).map fun kv => stashLoc kv.1

/-- The errors that a lookup of a key meets (R265). -/
def FsState.errs (s : FsState) (l : FsLay) (key : Nat) : List Nat := (owners l s.gen key).flatMap s.bucketErrs ++ s.stashErrs

/-- The place that holds a key (R263): a slot of an owning bucket, or the stash. -/
def FsState.find (s : FsState) (l : FsLay) (key : Nat) : Option Nat :=
  let slots := (owners l s.gen key).flatMap fun b => (bucketSlots b.1).filter fun i =>
    let x := s.slot i; x.valid && x.gen == b.2 && x.key == key
  match slots with
  | i :: _ => some i
  | [] => (s.stash.find? fun kv => kv.2.key == key).map fun kv => stashLoc kv.1

/-- The entry at a location. -/
def FsState.entry (s : FsState) (loc : Nat) : FsSlot :=
  if bit loc 31 then s.stash.getD (loc % 256) FsSlot.rest else s.slot loc

/-- A slot whose tag was read, and whose entry was read where `e` says so: a single-bit error is corrected and written back (R265). -/
def FsSlot.mend (x : FsSlot) (e : Bool) : FsSlot :=
  { x with tag := if x.tag = 1 then 0 else x.tag, ent := if e ∧ x.ent = 1 then 0 else x.ent }

/-- The single-bit errors that a read of a slot corrects. -/
def FsSlot.mends (x : FsSlot) (e : Bool) : Nat := b2n (x.tag = 1) + b2n (e && x.ent == 1)

/-- Slot i read, its entry where `e` of it says so. -/
def FsState.mendSlot (e : FsSlot → Bool) (s : FsState) (i : Nat) : FsState :=
  let x := s.slot i
  if x.mends (e x) = 0 then s
  else { s with slots := s.slots.put FsSlot.rest i (x.mend (e x)), mended := s.mended + x.mends (e x) }

/-- A bucket read under a generation (R263, R265). -/
def FsState.mendBucket (s : FsState) (b : Nat × Bool) : FsState :=
  (bucketSlots b.1).foldl (FsState.mendSlot fun x => x.valid && x.gen == b.2) s

/-- A bucket read by the search (R266). -/
def FsState.mendSearch (s : FsState) (b : Nat) : FsState := (bucketSlots b).foldl (FsState.mendSlot FsSlot.valid) s

/-- The stash read: every entry in use. -/
def FsState.mendStash (s : FsState) : FsState :=
  s.stash.foldl (fun s kv =>
    let n := kv.2.mends true
    if n = 0 then s else { s with stash := s.stash.put FsSlot.rest kv.1 (kv.2.mend true), mended := s.mended + n }) s

/-- What a lookup of a key reads: the owning bucket of each candidate and the stash (R263). -/
def FsState.mendKey (s : FsState) (l : FsLay) (key : Nat) : FsState :=
  ((owners l s.gen key).foldl FsState.mendBucket s).mendStash

/-- An entry written at a location with a correct code. -/
def FsState.write (s : FsState) (loc : Nat) (x : FsSlot) : FsState :=
  if bit loc 31 then { s with stash := s.stash.put FsSlot.rest (loc % 256) x }
  else { s with slots := s.slots.put FsSlot.rest loc x }

/-- A location freed: the slot written to zero, its tag cleared (R265, R268). -/
def FsState.free (s : FsState) (loc : Nat) : FsState := s.write loc FsSlot.rest

/-! ### The displacement search (R266) -/

/-- The outcome of a placement: done at a location, no room, or an uncorrectable error met. -/
inductive Placed where
  | at (s : FsState) (loc : Nat)
  | full (s : FsState)
  | error (s : FsState) (loc : Nat)
  deriving DecidableEq, Repr

/-- The lowest free slot of a bucket. -/
def FsState.freeSlot (s : FsState) (b : Nat) : Option Nat := (bucketSlots b).find? fun i => !(s.slot i).valid

/-- The owning bucket of the candidate that does not own bucket x (R266). -/
def otherBucket (l : FsLay) (gen : Bool) (key x : Nat) : Nat × Bool :=
  match owners l gen key with
  | [a, b] => if a.1 = x then b else a
  | _ => (x, gen)

/-- The pointer and layout that lookups use while a migration step places its entries (R271, R272). -/
def FsLay.now (l : FsLay) (step : Bool) : FsLay := if step then { l with p := l.p - 1 } else l

/-- The first usable victim of a bucket from slot place v, within four places, and where it can go (R266). In a migration step
(`step`, the layout l being the advanced one) a victim may only go where lookups find it under the pointer still in force, for a
kept displacement is valid under both (R264, R272, log 102). -/
def FsState.victim (s : FsState) (l : FsLay) (step : Bool) (forbid path : List Nat) (x : Nat) :
    Nat → Nat → Option (Nat × (Nat × Bool))
  | 0, _ => none
  | k + 1, v =>
    let i := 4 * x + v % 4
    let y := otherBucket l s.gen (s.slot i).key x
    if !path.contains i && !forbid.contains i && y.1 ≠ x && (owners (l.now step) s.gen (s.slot i).key).contains y then some (i, y)
    else s.victim l step forbid path x k (v + 1)

/-- The entries of a path moved, the last one first, into the slot `dest` read under generation g (R266, R264). `path` holds the
slots from the last to the first, each with the generation of the bucket it is moved to. -/
def FsState.moveReverse (s : FsState) : List (Nat × Bool) → Nat → FsState
  | [], _ => s
  | (i, g) :: rest, dest =>
    let x := s.slot i
    FsState.moveReverse { s with slots := s.slots.put FsSlot.rest dest { x with gen := g, ent := 0, tag := 0 } } rest i

/-- The search from bucket x (R266): at most `fuel` moves more; `path` from the last move to the first. -/
def FsState.search (l : FsLay) (step : Bool) (forbid : List Nat) (h1 : Nat) (new : FsSlot) :
    Nat → FsState → Nat → Nat → List (Nat × Bool) → Placed
  | 0, s, _, _, _ => .full s
  | fuel + 1, s, n, x, path =>
    match s.victim l step forbid (path.map Prod.fst) x 4 (n + h1 / 2 ^ 30) with
    | none => .full s
    | some (i, y) =>
      let path' := (i, y.2) :: path
      let s := s.mendSearch y.1
      match s.searchErrs y.1 with
      | e :: _ => .error s e
      | [] =>
        match s.freeSlot y.1 with
        | some f =>
          let s' := s.moveReverse path' f
          let first := (path'.getLast?.map Prod.fst).getD i
          .at { s' with slots := s'.slots.put FsSlot.rest first new } first
        | none => FsState.search l step forbid h1 new fuel s (n + 1) y.1 path'

/-- The placement procedure of R266 for a key that is not present: owning buckets, displacement, stash. -/
def FsState.place (s0 : FsState) (l : FsLay) (step : Bool) (forbid : List Nat) (stashOk : Bool) (key act : Nat) : Placed :=
  let c := owners l s0.gen key
  let s := c.foldl FsState.mendBucket s0
  match c.flatMap s.bucketErrs with
  | e :: _ => .error s e
  | [] =>
    match c with
    | [a, b] =>
      match s.freeSlot a.1, s.freeSlot b.1 with
      | some i, _ => .at (s.write i ⟨true, a.2, key, act, 0, 0⟩) i
      | none, some i => .at (s.write i ⟨true, b.2, key, act, 0, 0⟩) i
      | none, none =>
        let s := s.mendSearch a.1
        match s.searchErrs a.1 with
        | e :: _ => .error s e
        | [] =>
          let h1 := keyH1 key (if l.moving ∧ !(a.2 == s.gen) then l.newSeed else l.seed)
          match FsState.search l step forbid h1 ⟨true, a.2, key, act, 0, 0⟩ 32 s 0 a.1 [] with
          | .full s =>
            match (List.range 256).find? fun i => !(s.stash.getD i FsSlot.rest).valid with
            | some i => if stashOk then .at (s.write (stashLoc i) ⟨true, s.gen, key, act, 0, 0⟩) (stashLoc i) else .full s
            | none => .full s
          | r => r
    | _ => .full s

/-! ### Status and errors -/

/-- ECC_CORR tells of each correction that the reads just made (R265). -/
def Dev.fsMended (d : Dev) : Dev :=
  (List.range d.fs.mended).foldl (fun d _ => d.raise (R .FS_FLAGS) 4) (d.onFs fun s => { s with mended := 0 })

/-- A read of the store: what it corrects is written back and reported (R265). -/
def Dev.fsRead (d : Dev) (f : FsState → FsState) : Dev := (d.onFs f).fsMended

/-- The read of a key's owning buckets and of the stash (R263, R265). -/
def Dev.fsReadKey (d : Dev) (key : Nat) : Dev := d.fsRead fun s => s.mendKey d.lay key

/-- FS_COUNT, FS_STATUS.STASH and STASH_HIGH follow the table and the stash (R268, R281). -/
def Dev.fsSync (d0 : Dev) : Dev :=
  let d := d0.fsMended
  let n := (d.fs.slots.filter fun kv => kv.2.valid).length
  let k := d.fs.stash.length
  let old := d.fld (R .FS_STATUS) 8 0
  let warn := min 256 (d.fld (R .FS_CFG) 24 16)
  let d1 := (d.setFld (R .FS_COUNT) 21 0 n).setFld (R .FS_STATUS) 8 0 k
  if warn ≤ k then d1.raiseLevel (R .FS_FLAGS) 2 (decide (old < warn)) else d1

/-- An uncorrectable error is logged: ECC_UNCORR and FS_UE_ADDR (R265, R281). -/
def Dev.fsUe (d : Dev) (loc : Nat) : Dev :=
  (d.setReg (R .FS_UE_ADDR) (2 ^ 31 + (if bit loc 31 then 2 ^ 22 + loc % 256 else loc % 2 ^ 22))).raise (R .FS_FLAGS) 5

/-! ### Commands on entries (R265 to R268, R282) -/

/-- The key of a command's DATA (R282). -/
def Accepted.fsKey (a : Accepted) : Nat := leNat ((a.data.take 6).flatMap fun w => leBytes 4 w) % 2 ^ 176

/-- The action word of a command's DATA (R261). -/
def Accepted.fsAct (a : Accepted) : Nat := leNat (a.data.flatMap fun w => leBytes 4 w) / 2 ^ 176 % 2 ^ 80

/-- A VF issuer and a slice that is not its own (R53, R267). -/
def foreignSlice (src : Src) (s : Nat) : Bool :=
  match sliceOf? src with
  | some v => v ≠ s
  | none => false

/-- The queue check of an action word for a slice (R267). -/
def Dev.actQueueOk (d : Dev) (act s : Nat) : Bool :=
  bits act 79 78 ≠ 1 || (decide (bits act 51 33 < d.nQueues) && d.sliceOfQueue (bits act 51 33) == some s)

/-- The policer check of an action word for a slice (R267). -/
def Dev.actPolicerOk (d : Dev) (act s : Nat) : Bool :=
  !bit act 72 || (decide (bits act 71 52 < d.nPolicers) && d.sliceOfPolicer (bits act 71 52) == some s)

/-- The checks of R267 that come before any read of the table. -/
def Dev.fsCheck (d : Dev) (a : Accepted) (act : Option Nat) : Option Status :=
  let s := bits a.fsKey 175 172
  if foreignSlice a.src s then some .denied
  else
    match act with
    | none => none
    | some w =>
      if !d.actQueueOk w s || !d.actPolicerOk w s || (bits w 79 78 == 3 && bits w 50 33 ≠ 0) then some .badArgument else none

/-- INSERT (R266, R267). -/
def opInsert (a : Accepted) (d : Dev) : CmdRes :=
  match d.fsCheck a (some a.fsAct) with
  | some st => .refuse st 0
  | none =>
    let d := d.fsReadKey a.fsKey
    match d.fs.errs d.lay a.fsKey with
    | e :: _ => .done (d.fsUe e) .memoryFault []
    | [] =>
      if (d.fs.find d.lay a.fsKey).isSome then .refuseAt d .notInState 1
      else
        match d.fs.place d.lay false [] true a.fsKey a.fsAct with
        | .at s loc => .done (d.onFs fun _ => s).fsSync .ok [(0, loc)]
        | .full s => .done ((d.onFs fun _ => s).fsSync.raise (R .FS_FLAGS) 3) .tableFull []
        | .error s e => .done ((d.onFs fun _ => s).fsSync.fsUe e) .memoryFault []

/-- The failed slots of the table that UPDATE and DELETE of a key rewrite, and a failed stash entry that they do not (R265). -/
def Dev.fsFailed (d : Dev) (key : Nat) : List Nat × Option Nat :=
  let es := d.fs.errs d.lay key
  let loc := d.fs.find d.lay key
  (es.filter fun e => !bit e 31, es.find? fun e => bit e 31 && loc ≠ some e)

/-- Slots freed (R265). -/
def FsState.freeAll (s : FsState) (locs : List Nat) : FsState := locs.foldl FsState.free s

/-- UPDATE (R265, R268). -/
def opUpdate (a : Accepted) (d : Dev) : CmdRes :=
  match d.fsCheck a (some a.fsAct) with
  | some st => .refuse st 0
  | none =>
    let key := a.fsKey
    let d := d.fsReadKey key
    match d.fsFailed key with
    | (_, some e) => .done (d.fsUe e) .memoryFault []
    | (failed, none) =>
      let readable := (d.fs.find d.lay key).filter fun l => !failed.contains l
      match readable, failed with
      | some loc, _ =>
        .done (d.onFs fun s => (s.freeAll failed).write loc { s.entry loc with act := a.fsAct, ent := 0, tag := 0 }).fsSync .ok [(0, loc)]
      | none, f :: rest =>
        let g := ((owners d.lay d.fs.gen key).find? fun b => b.1 == f / 4).map Prod.snd
        .done (d.onFs fun s => (s.freeAll rest).write f ⟨true, g.getD s.gen, key, a.fsAct, 0, 0⟩).fsSync .ok [(0, f)]
      | none, [] => .done d .notFound []

/-- DELETE (R265, R268). -/
def opDelete (a : Accepted) (d : Dev) : CmdRes :=
  match d.fsCheck a none with
  | some st => .refuse st 0
  | none =>
    let d := d.fsReadKey a.fsKey
    match d.fsFailed a.fsKey with
    | (_, some e) => .done (d.fsUe e) .memoryFault []
    | (failed, none) =>
      match d.fs.find d.lay a.fsKey, failed with
      | none, [] => .done d .notFound []
      | loc, _ => .done (d.onFs fun s => s.freeAll (failed ++ loc.toList)).fsSync .ok []

/-- LOOKUP (R282). -/
def opLookup (a : Accepted) (d : Dev) : CmdRes :=
  match d.fsCheck a none with
  | some st => .refuse st 0
  | none =>
    let d := d.fsReadKey a.fsKey
    match d.fs.errs d.lay a.fsKey with
    | e :: _ => .done (d.fsUe e) .memoryFault []
    | [] =>
      match d.fs.find d.lay a.fsKey with
      | none => .done d .notFound []
      | some loc => .done d .ok ((0, loc) :: outWords 1 3 (d.fs.entry loc).act)

/-- The slot at a location read: its tag, and its entry where the tag is VALID (R265). -/
def FsState.mendLoc (s : FsState) (loc : Nat) : FsState := if bit loc 31 then s.mendStash else FsState.mendSlot FsSlot.valid s loc

/-- SLOT_READ (R282). A slot whose tag is not VALID is free, and its entry is not read (R261, R265). -/
def opSlotRead (a : Accepted) (d : Dev) : CmdRes :=
  if !trusted a.src then .refuse .denied (b2n (d.fs.entry (if bit a.obj 31 then stashLoc (a.obj % 256) else bits a.obj 21 0)).valid)
  else
    let loc := if bit a.obj 31 then stashLoc (a.obj % 256) else bits a.obj 21 0
    if !bit a.obj 31 ∧ 2097152 * d.units 0 / 256 ≤ loc then .refuse .badArgument 0
    else
      let d := d.fsRead fun s => s.mendLoc loc
      let x := d.fs.entry loc
      if x.tag = 2 ∨ (x.valid = true ∧ x.ent = 2) then .done (d.fsUe loc) .memoryFault []
      else if !x.valid then .done d .notFound []
      else .done d .ok (outWords 0 8 (x.key + x.act * 2 ^ 176))

/-- log2 of the carved size of table 0 (R262, R43). -/
def Dev.fsCarved (d : Dev) : Nat := Nat.log2 (2097152 * d.units 0 / 256)

/-- REBUILD (R270). It reads old bucket 0, the first that migrates, and the stash, and an uncorrectable error there ends it with
MEMORY_FAULT (R265, log 101). -/
def opRebuild (a : Accepted) (d : Dev) : CmdRes :=
  let n := a.db 1 4 0
  if !trusted a.src then .refuse .denied (b2n (d.flag (R .FS_STATUS) 31))
  else if n < 17 ∨ d.fsCarved < n then .refuse .badArgument (b2n (d.flag (R .FS_STATUS) 31))
  else if d.flag (R .FS_STATUS) 31 then .refuse .notInState 1
  else if 15 * 2 ^ n < 16 * (d.fld (R .FS_COUNT) 21 0 + d.fld (R .FS_STATUS) 8 0) then .done d .tableFull []
  else
    let d := d.fsRead fun s => (s.mendBucket (0, s.gen)).mendStash
    match d.fs.bucketErrs (0, d.fs.gen) ++ d.fs.stashErrs with
    | e :: _ => .done (d.fsUe e) .memoryFault []
    | [] =>
    let d1 := (((d.setReg (R .FS_NEW_SEED) (a.dat 0)).setFld (R .FS_STATUS) 20 16 n).setFld (R .FS_STATUS) 31 31 1).setReg (R .FS_MIG_PTR) 0
    .done (d1.onFs fun s => { s with rebuildAt := d.tb.ticks, stalls := 0 }) .ok []

/-! ### Migration (R272 to R274) -/

/-- The entries of a list placed one after another (R272): none when one finds neither room nor a stash place; the flag tells
an uncorrectable error. -/
def FsState.placeAll (l : FsLay) (forbid : List Nat) : FsState → List FsSlot → FsState × Bool × Option Nat
  | s, [] => (s, true, none)
  | s, x :: xs =>
    match s.place l true forbid true x.key x.act with
    | .at s' _ => FsState.placeAll l forbid s' xs
    | .full s' => (s', false, none)
    | .error s' e => (s', false, some e)

/-- The stash offered back to the table in ascending index (R274). -/
def FsState.unstash (l : FsLay) (s : FsState) : FsState :=
  s.stash.foldl (fun s kv =>
    if kv.2.failed then s
    else
      match s.place l false [] false kv.2.key kv.2.act with
      | .at s' _ => { s' with stash := s'.stash.erase kv.1 }
      | .full s' => s'
      | .error s' _ => s') s.mendStash

/-- The new layout becomes the only one (R274): registers, generation, stash pass, REBUILD_DONE and its record. -/
def Dev.rebuildEnd (d : Dev) : Dev :=
  let n := d.fld (R .FS_STATUS) 20 16
  let d1 := (((d.setReg (R .FS_SEED) (d.reg (R .FS_NEW_SEED))).setFld (R .FS_STATUS) 28 24 n).setFld (R .FS_STATUS) 31 30 0).setReg (R .FS_MIG_PTR) 0
  let d2 := (d1.onFs fun s => { s with gen := !s.gen })
  let l := d2.lay
  let d3 := (d2.onFs fun s => s.unstash l).fsSync
  d3.raiseRec (R .FS_FLAGS) 0 .fs 0 false [(8, d.tb.ticks - d.fs.rebuildAt), (4, d.fs.stalls), (2, d3.fs.stash.length)]

/-- MIGRATION_STEP: old bucket P moves to the new layout (R272). -/
def Dev.migrationStep (d0 : Dev) : Dev :=
  let l := d0.lay
  if !l.moving then d0
  else
    let d := d0.fsRead fun s => s.mendBucket (l.p, s.gen)
    let next := { l with p := l.p + 1 }
    let old := (bucketSlots l.p).filter fun i => (d.fs.slot i).valid && (d.fs.slot i).gen == d.fs.gen
    match d.fs.bucketErrs (l.p, d.fs.gen) with
    | e :: _ => d.fsUe e
    | [] =>
      let moved := old.map d.fs.slot
      match FsState.placeAll next old d.fs moved with
      | (s, true, _) =>
        let d1 := ((d.onFs fun _ => s.freeAll old).setFld (R .FS_MIG_PTR) 18 0 (l.p + 1)).setFld (R .FS_STATUS) 30 30 0
        if l.p + 1 = 2 ^ (l.log2 - 2) then d1.rebuildEnd else d1.fsSync
      | (s, false, err) =>
        let keys := moved.map FsSlot.key
        let mine (i : Nat) (x : FsSlot) : Bool := x.valid && keys.contains x.key && !old.contains i
        let s1 := { s with slots := s.slots.keep fun i x => !mine i x, stash := s.stash.keep fun _ x => !keys.contains x.key }
        let d1 := (d.onFs fun _ => s1).fsSync
        match err with
        | some e => d1.fsUe e
        | none =>
          ((d1.onFs fun s => { s with stalls := s.stalls + 1 }).setFld (R .FS_STATUS) 30 30 1).raiseRec (R .FS_FLAGS) 1 .fs 0 false [(4, l.p)]

/-- An error that arises in a word of the store: kind 1 or 2 in the entry, 3 or 4 in its tag, the odd ones a single-bit error, the
even ones an uncorrectable one. It never makes a word better, and it strikes a stash entry only while that is in use. -/
def FsState.upset (s : FsState) (x : Nat × Nat) : FsState :=
  let y := s.entry x.1
  if bit x.1 31 ∧ y.valid = false then s
  else if x.2 = 1 ∨ x.2 = 2 then s.write x.1 { y with ent := max y.ent x.2 }
  else if x.2 = 3 ∨ x.2 = 4 then s.write x.1 { y with tag := max y.tag (x.2 - 2) }
  else s

/-- FLOW_STORE_SCRUB (R265): `ups` are the errors that have arisen in the store since the last scrub, of which a slot beyond the carved
array is none (log 101); then the scrub reads every word of bucket b, corrects the single-bit errors and logs the others. An error
elsewhere stays until something reads it. -/
def Dev.fsScrub (d : Dev) (b : Nat) (ups : List (Nat × Nat)) : Dev :=
  let here := ups.filter fun x => bit x.1 31 || decide (x.1 < 2097152 * d.units 0 / 256)
  let d1 := (d.onFs fun s => here.foldl FsState.upset s).fsRead fun s => (bucketSlots b).foldl (FsState.mendSlot fun _ => true) s
  ((bucketSlots b).filter fun i => (d1.fs.slot i).failed).foldl (fun d i => (d.fsUe i).record 0xC5 .fs 0 true [(4, i)]) d1

/-! ### Policers (R275 to R280) -/

/-- The increment of a rate (R276, R294). -/
def rateInc (kbps : Nat) : Nat := (kbps * 8589934592 + 500000) / 1000000

/-- A policer. -/
def Dev.policer (d : Dev) (n : Nat) : Policer := d.fs.policers.getD n Policer.rest
/-- A policer changed. -/
def Dev.setPolicer (d : Dev) (n : Nat) (p : Policer) : Dev := d.onFs fun s => { s with policers := s.policers.put Policer.rest n p }
/-- A policer profile. -/
def Dev.polProf (d : Dev) (n : Nat) : PolProf := d.fs.profs.getD n PolProf.rest

/-- The refill of a policer at a tick under a profile (R277), its u40 sums modulo 2^40 (R15). -/
def Policer.refill (q : Policer) (pr : PolProf) (now : Nat) : Policer :=
  let dt := (now + 2 ^ 32 - q.last) % 2 ^ 32
  { q with tc := min ((q.tc + dt * rateInc pr.cir / 2 ^ 20) % 2 ^ 40) (pr.cbs * 4096)
           tp := min ((q.tp + dt * rateInc pr.pir / 2 ^ 20) % 2 ^ 40) (pr.pbs * 4096), last := now }

/-- B of R277: L_f plus LEN_ADJ, not below 0. -/
def meterLen (len adj : Nat) : Nat := ((len : Int) + signed 8 adj).toNat

/-- The meter of R277: the policer after a packet of B bytes, and its colour (0 green, 1 yellow, 2 red). -/
def Policer.meter (q : Policer) (pr : PolProf) (now len : Nat) (yellowIn : Bool) : Policer × Nat :=
  let r := q.refill pr now
  let b := len * 4096
  if pr.alg then
    if !yellowIn ∧ b ≤ r.tc then ({ r with tc := r.tc - b }, 0)
    else if b ≤ r.tp then ({ r with tp := r.tp - b }, 1)
    else (r, 2)
  else if r.tp < b then (r, 2)
  else if yellowIn ∨ r.tc < b then ({ r with tp := r.tp - b }, 1)
  else ({ r with tp := r.tp - b, tc := r.tc - b }, 0)

/-- The 32-bit tick of R275. -/
def Dev.tick32 (d : Dev) : Nat := d.tick16 % 2 ^ 32

/-- POLICER_REFRESH (R279). -/
def Dev.policerRefresh (d : Dev) (n : Nat) : Dev :=
  if n < d.nPolicers then d.setPolicer n ((d.policer n).refill (d.polProf (d.policer n).prof) d.tick32) else d

/-- A policer named by a command: the checks of R282, slice first. -/
def Dev.polArg (d : Dev) (a : Accepted) (k : Nat → CmdRes) : CmdRes :=
  let n := bits a.obj 19 0
  let own := match sliceOf? a.src with
    | some s => d.sliceOfPolicer n == some s
    | none => true
  if !own then .refuse .denied 0 else if d.nPolicers ≤ n then .refuse .badArgument 0 else k n

/-- POLICER_WRITE (R280). -/
def opPolicerWrite (a : Accepted) (d : Dev) : CmdRes :=
  d.polArg a fun n =>
    let prof := a.db 0 12 0
    match d.sliceOfPolicer n with
    | some s => if prof / 512 ≠ s then .refuse .badArgument 0 else .done (write n prof) .ok []
    | none => .done (write n prof) .ok []
where
  /-- The policer under its new profile. -/
  write (n prof : Nat) : Dev :=
    let pr := d.polProf prof
    let now := d.tick32
    if bit (a.dat 0) 16 then
      let q := (d.policer n).refill (d.polProf (d.policer n).prof) now
      d.setPolicer n ⟨prof, min q.tc (pr.cbs * 4096), min q.tp (pr.pbs * 4096), now⟩
    else d.setPolicer n ⟨prof, pr.cbs * 4096, pr.pbs * 4096, now⟩

/-- POLICER_READ (R280). -/
def opPolicerRead (a : Accepted) (d : Dev) : CmdRes :=
  d.polArg a fun n =>
    let q := d.policer n
    .done d .ok [(0, q.prof), (1, q.tc % 2 ^ 32), (2, q.tc / 2 ^ 32), (3, q.tp % 2 ^ 32), (4, q.tp / 2 ^ 32), (5, q.last), (6, d.tick32)]

/-- PROF_WRITE (R276). -/
def opProfWrite (a : Accepted) (d : Dev) : CmdRes :=
  let n := bits a.obj 12 0
  let adj := signed 8 (a.db 4 15 8)
  if foreignSlice a.src (n / 512) then .refuse .denied 0
  else if 1600000000 < a.dat 0 ∨ 1600000000 < a.dat 1 ∨ 0x0FFFFFFF < a.dat 2 ∨ 0x0FFFFFFF < a.dat 3 ∨ adj < -32 ∨ 63 < adj ∨
      (!bit (a.dat 4) 0 ∧ a.dat 1 < a.dat 0) then .refuse .badArgument 0
  else
    let p : PolProf := ⟨a.dat 0, a.dat 1, a.dat 2, a.dat 3, bit (a.dat 4) 0, bit (a.dat 4) 1, bit (a.dat 4) 2, a.db 4 15 8⟩
    .done (d.onFs fun s => { s with profs := s.profs.put PolProf.rest n p }) .ok []

/-- PROF_READ (R282). -/
def opProfRead (a : Accepted) (d : Dev) : CmdRes :=
  let n := bits a.obj 12 0
  if foreignSlice a.src (n / 512) then .refuse .denied 0
  else
    let p := d.polProf n
    .done d .ok [(0, p.cir), (1, p.pir), (2, p.cbs), (3, p.pbs), (4, b2n p.alg + 2 * b2n p.aware + 4 * b2n p.redDrop + 256 * p.adj)]

end Sys2Proof.Machine
end

