-- ==== Sys2Proof/Machine/Classify.lean ====
section
/-! DEFINITION. Classification (spec/07, R231, R243 to R260): keys, rules, the action word, the hash's core choice, recirculation,
banks, the writes of the PC registers and the opcodes of PC_CMD. -/

namespace Sys2Proof.Machine

/-! ### Banks (R256 to R258) -/

/-- Bank n: 0 A, 1 B. -/
def Dev.bank (d : Dev) (n : Nat) : PcBank := if n = 0 then d.pc.bankA else d.pc.bankB

/-- Bank n changed by f. -/
def Dev.onBank (d : Dev) (n : Nat) (f : PcBank → PcBank) : Dev :=
  d.onPc fun x => if n = 0 then { x with bankA := f x.bankA } else { x with bankB := f x.bankB }

/-- The active bank (R256). -/
def Dev.activeBank (d : Dev) : Nat := d.fld (R .PC_STATUS) 0 0

/-- EPOCH (R258). -/
def Dev.epoch (d : Dev) : Nat := d.fld (R .PC_STATUS) 31 16

/-- A packet stamped with bank n enters (R258). -/
def Dev.inflightUp (d : Dev) (n : Nat) : Dev := d.setReg (R .PC_INFLIGHT n) ((d.reg (R .PC_INFLIGHT n) + 1) % 2 ^ 27)

/-- A packet stamped with bank n is done (R258): OLD_BANK_IDLE sets when the inactive bank's count reaches 0. -/
def Dev.inflightDown (d : Dev) (n : Nat) : Dev :=
  let c := d.reg (R .PC_INFLIGHT n) - 1
  (d.setReg (R .PC_INFLIGHT n) c).raiseIf (decide (c = 0 ∧ n ≠ d.activeBank ∧ d.reg (R .PC_INFLIGHT n) ≠ 0)) (R .PC_FLAGS) 1

/-- A packet that waits for recirculation is discarded (R258). -/
def Dev.dropRecirc (d : Dev) (p : Pkt) : Dev := if p.recirc then d.inflightDown p.bank else d

/-! ### Sources (R29, R231, R247) -/

/-- The pipeline of a source (R29). -/
def Dev.pipeOf (d : Dev) (src : Nat) : Nat :=
  if src < 64 then d.im.str.pipeReach.getD (src / 8) 0
  else if src < 76 then d.im.str.pipePort.getD (src - 64) 0
  else d.im.str.pipeInject

/-- The slice that the image gives a source (R247). -/
def Dev.sourceSlice (d : Dev) (src : Nat) : Nat :=
  if src < 64 then d.sliceOfTree src
  else if src < 76 then
    match d.slicesOfPort (src - 64) with
    | [s] => s
    | _ => 0
  else 0

/-! ### Keys (R243 to R245) -/

/-- The value of a key field (R243, R244). -/
def fieldValue (p : Pkt) (ps : Parsed) (scope : Bool) (id : Nat) : Nat :=
  let f := ps.fields scope
  match id with
  | 0x01 => p.src
  | 0x02 => if p.src < 64 then p.term else 0
  | 0x03 => p.port
  | 0x04 => f.da | 0x05 => f.sa | 0x06 => f.etype | 0x07 => f.ovid | 0x08 => f.opcp | 0x09 => f.ivid | 0x0A => f.tags
  | 0x0B => f.label0 | 0x0C => f.label1 | 0x0D => f.session | 0x0E => f.proto | 0x0F => f.dscp
  | 0x10 => f.v4sa | 0x11 => f.v4da | 0x12 => f.v6sa | 0x13 => f.v6da | 0x14 => f.v6sa / 2 ^ 64 | 0x15 => f.v6da / 2 ^ 64
  | 0x16 => f.flow | 0x17 => f.sport | 0x18 => f.dport | 0x19 => f.tcpFlags
  | 0x1A => ps.tunnelId
  | 0x1B => ps.flags p.second scope
  | 0x1C => p.metaVal
  | _ => 0

/-- The fields packed from bit 168 downward (R245). -/
def packFields (p : Pkt) (ps : Parsed) (scope : Bool) : List Nat → Nat → Nat → Nat
  | [], _, k => k
  | id :: ids, pos, k =>
    let w := (fieldWidth id).getD 0
    packFields p ps scope ids (pos - w) (k + fieldValue p ps scope id % 2 ^ w * 2 ^ (pos - w))

/-- The key of a packet under profile n (R245). -/
def flowKey (p : Pkt) (ps : Parsed) (slice n : Nat) (pr : KeyProf) : Nat :=
  packFields p ps pr.scope pr.ids 168 (slice * 2 ^ 172 + n * 2 ^ 168)

/-! ### Rules (R246, R247) -/

/-- Word n of a rule (R260). -/
def ruleWord (r : List Nat) (n : Nat) : Nat := r.getD n 0

/-- A rule matches a packet (R246). -/
def ruleMatch (r : List Nat) (p : Pkt) (ps : Parsed) : Bool :=
  let w0 := ruleWord r 0
  let w1 := ruleWord r 1
  let w2 := ruleWord r 2
  let fl := ps.flags p.second false
  bit w0 31 && ((p.src ^^^ bits w0 6 0) &&& bits w0 14 8) == 0 && ((fl ^^^ bits w1 15 0) &&& bits w1 31 16) == 0 &&
    ((ps.outer.ovid ^^^ bits w2 11 0) &&& bits w2 27 16) == 0 && bit w0 (if p.second then 17 else 16)

/-- The lowest-numbered matching rule of a bank (R246). -/
def PcBank.pick (b : PcBank) (p : Pkt) (ps : Parsed) : Option (List Nat) := (b.rules.find? fun kv => ruleMatch kv.2 p ps).map Prod.snd

/-- The action word of a rule (R260). -/
def ruleAct (r : List Nat) : Nat := ruleWord r 4 + 2 ^ 32 * ruleWord r 5 + 2 ^ 64 * (ruleWord r 6 % 2 ^ 16)

/-- The slice of a packet (R247). -/
def Dev.sliceFor (d : Dev) (p : Pkt) (r : List Nat) : Nat :=
  if p.second then p.slice
  else if p.src < 64 then d.sliceOfTree p.src
  else if bit (ruleWord r 3) 8 then bits (ruleWord r 3) 7 4
  else d.sourceSlice p.src

/-! ### The hash and its core (R252, R253) -/

/-- The core of a hash (R253): the j-th set bit of CORE_MASK. -/
def Dev.coreFor (d : Dev) (h : Nat) : Nat :=
  let cs := (List.range 4).filter fun c => d.flag (R .PC_CFG) c
  cs.getD (h % 65536 * cs.length / 65536) 0

/-- The queue of a packet for the cores (R253). -/
def Dev.cpuQueue (d : Dev) (h : Nat) : Nat := d.fld (R .PC_CPU_QUEUE (d.coreFor h)) 18 0

/-! ### VLAN edits (R251) -/

/-- A VLAN edit of a frame with `tags` tags: the frame, and whether it was a no-op. -/
def vlanEdit (bytes : List Byte) (tags op vid pcp tpid : Nat) : List Byte × Bool :=
  match op with
  | 1 => (bytes.take 12 ++ beBytes 2 tpid ++ beBytes 2 (pcp * 8192 + vid) ++ bytes.drop 12, false)
  | 2 => if tags = 0 then (bytes, true) else (bytes.take 12 ++ bytes.drop 16, false)
  | 3 =>
    if tags = 0 then (bytes, true)
    else (bytes.take 14 ++ beBytes 2 (beAt bytes 14 2 / 4096 * 4096 + vid) ++ bytes.drop 16, false)
  | _ => (bytes, false)

/-! ### Applying the action word (R249 to R251, R254, R255) -/

/-- Flow-store lookup of a packet (R263, R265): hit, miss, or dropped for an uncorrectable error. -/
inductive FsAnswer where
  | hit (act : Nat)
  | miss
  | error (d : Dev)

/-- FLOW_STORE_LOOKUP through the port of a pipeline (R263, R265), after `Dev.fsReadKey`. -/
def Dev.fsLookup (d : Dev) (key pipe : Nat) : FsAnswer :=
  match d.fs.errs d.lay key with
  | e :: _ => .error (((d.fsUe e).count 0xC8).record 0xC5 .fs 0 true [(4, e % 2 ^ 31), (1, pipe)])
  | [] =>
    match d.fs.find d.lay key with
    | some loc => .hit (d.fs.entry loc).act
    | none => .miss

/-- POLICER_UPDATE of a packet (R277, R278): its colour, and whether it is dropped. -/
def Dev.police (d : Dev) (p : Pkt) (ps : Parsed) (n : Nat) : Dev × Nat × Bool :=
  let q := d.policer n
  let pr := d.polProf q.prof
  let len := meterLen p.bytes.length pr.adj
  let (q', colour) := q.meter pr d.tick32 len (pr.aware && decide (0 < ps.outer.tags) && ps.outer.dei)
  let base := 0x4C0 + 48 * p.slice
  let d1 := ((d.setPolicer n q').count (base + 27 + colour)).countBytes (base + 30 + colour) len
  if colour = 2 ∧ pr.redDrop then (d1.count (base + 33), colour, true) else (d1, colour, false)

/-- The end of a packet's action (R258): it no longer counts. -/
def Dev.decided (d : Dev) (p : Pkt) : Dev := d.inflightDown p.bank

/-- A packet without what its tail check needs: the check is made once, of the frame as it arrived (R363). -/
def Pkt.checked (p : Pkt) : Pkt := { p with sa := none, pn := 0, icvBad := false, twin := false }

/-- A packet and its destinations wait for enqueue commit. A packet with none is kept only for its tail check (R363). -/
def Dev.takeFlight (d : Dev) (p : Pkt) (outs : List Out) : Dev :=
  let outs := outs.map fun o => { o with pkt := o.pkt.checked }
  if outs.isEmpty ∧ p.sa.isNone then d else d.onPc fun x => { x with flights := x.flights ++ [⟨p.pipe, p, outs, none⟩] }

/-- The copy of a packet for a core, unedited (R250, R253). -/
def Dev.cpuOut (d : Dev) (p : Pkt) (kind reason : Nat) : Out :=
  ⟨d.cpuQueue p.hash, { p with kind := kind, reason := reason, recirc := false, dsPort := 0 }⟩

/-- RECIRC (R254, R255). -/
def Dev.actRecirc (d : Dev) (p : Pkt) (ps : Parsed) (act : Nat) : Dev :=
  if p.second then (((d.raise (R .PC_FLAGS) 4).decided p).takeFlight p [])
  else if !d.flag (R .PC_RECIRC_QUEUE p.slice) 31 then (((d.count 0xB7).decided p).takeFlight p [])
  else
    let (bytes, d1) :=
      if bit act 51 then
        match decap p.bytes ps with
        | some b => (b, d)
        | none => (p.bytes, d.count 0xB6)
      else (p.bytes, d)
    d1.takeFlight p [⟨d1.fld (R .PC_RECIRC_QUEUE p.slice) 18 0, { p with bytes := bytes, metaVal := bits act 15 0, recirc := true }⟩]

/-- FORWARD (R250, R251): copy, mirror and the edited packet. -/
def Dev.actForward (d : Dev) (p : Pkt) (ps : Parsed) (act : Nat) : Dev :=
  let tpid := if d.flag (R .PC_TPID_CFG) 0 then 0x88A8 else 0x8100
  let (bytes, noop) := vlanEdit p.bytes ps.outer.tags (bits act 32 31) (bits act 30 19) (bits act 18 16) tpid
  let d1 := if noop then d.count 0xB3 else d
  let fwd : Out := ⟨bits act 51 33, { p with bytes := bytes, kind := 0, dsPort := bits act 15 0 }⟩
  let copy := if bit act 77 then [d1.cpuOut p 2 0] else []
  let m := (d1.bank p.bank).mirrors.getD (8 * p.slice + bits act 75 73) 0
  let mirror : List Out := if bit act 76 ∧ bit m 31 then [⟨bits m 18 0, { p with kind := 3, dsPort := 0 }⟩] else []
  let d2 := if bit act 76 ∧ !bit m 31 then d1.count 0xB4 else d1
  (d2.decided p).takeFlight p (fwd :: (copy ++ mirror))

/-- The action word applied (R248 step 5, R298: without POLICE a packet keeps the colour of its first pass, green at first); `rule` says
that it comes from a rule, whose QUEUE and POLICER are checked against the packet's slice (R250). -/
def Dev.applyAct (d : Dev) (p : Pkt) (ps : Parsed) (act : Nat) (rule : Bool) : Dev :=
  if rule ∧ (!d.actQueueOk act p.slice ∨ !d.actPolicerOk act p.slice) then ((d.count 0xB5).decided p).takeFlight p []
  else
    let (d1, colour, dropped) := if bit act 72 then d.police p ps (bits act 71 52) else (d, p.colour, false)
    let p := { p with colour := colour }
    if dropped then (d1.decided p).takeFlight p []
    else
      match bits act 79 78 with
      | 1 => d1.actForward p ps act
      | 2 => (d1.decided p).takeFlight p [d1.cpuOut p 1 0]
      | 3 => d1.actRecirc p ps act
      | _ => (d1.decided p).takeFlight p []

/-- The settings by which a packet is parsed (R234, R259). -/
def Dev.parseCfg (d : Dev) : ParseCfg :=
  ⟨d.fld (R .PC_TUNNEL_PORTS) 15 0, d.fld (R .PC_TUNNEL_PORTS) 31 16,
   if d.flag (R .PC_TPID_CFG) 1 then some (d.fld (R .PC_TPID_CFG) 31 16) else none⟩

/-- Classification of a packet in its pipeline (R248): parse, length conflict, rules, lookup, action. -/
def Dev.classify (d : Dev) (p0 : Pkt) : Dev :=
  let ps := parse d.parseCfg p0.bytes
  let h := symHash ps (d.reg (R .PC_HASH_SEED)) (d.flag (R .PC_CFG) 9)
  let p := { p0 with hash := h, slice := if p0.second then p0.slice else d.sourceSlice p0.src }
  let d := if ps.deep then d.count 0xB1 else d
  if ps.reason ≠ 0 then
    let d1 := (d.raise (R .PC_FLAGS) 2).count (0xA7 + ps.reason)
    if d1.flag (R .PC_CFG) 8 then (d1.decided p).takeFlight p [d1.cpuOut p 4 ps.reason] else (d1.decided p).takeFlight p []
  else
    let b := d.bank p.bank
    match b.pick p ps with
    | none => ((d.raise (R .PC_FLAGS) 3).decided p).takeFlight p []
    | some r =>
      let p := { p with slice := d.sliceFor p r }
      let w3 := ruleWord r 3
      if bit w3 9 then
        let n := bits w3 3 0
        let d := d.fsReadKey (flowKey p ps p.slice n (b.profs.getD n KeyProf.rest))
        match d.fsLookup (flowKey p ps p.slice n (b.profs.getD n KeyProf.rest)) p.pipe with
        | .hit act => d.applyAct p ps act false
        | .miss => if bit w3 10 then (d.count 0xB8).applyAct p ps (ruleAct r) true else ((d.count 0xB2).decided p).takeFlight p []
        | .error d1 => (d1.decided p).takeFlight p []
      else d.applyAct p ps (ruleAct r) true

/-- The list without its first element that satisfies f, and that element. -/
def takeFirst {α : Type} (f : α → Bool) : List α → Option (α × List α)
  | [] => none
  | x :: xs =>
    if f x then some (x, xs)
    else
      match takeFirst f xs with
      | some (y, ys) => some (y, x :: ys)
      | none => none

/-- The pipeline that an arriving packet enters (R29, R254). -/
def Dev.pktPipe (d : Dev) (p : Pkt) : Nat := if p.second then d.im.str.pipeRecirc else d.pipeOf p.src

/-- PACKET_INGRESS (R24, R30, R248, R257, R258): the first packet that waits for a pipeline enters it, unless a full seam to a memory stalls
the pipeline. R30 leaves the order of packets of different sources open; the model takes them in the order of their arrival (log entry
123). -/
def Dev.ingress (d : Dev) (pipe : Nat) : Dev :=
  if d.pipeStalled pipe then d else
  match takeFirst (fun p => d.pktPipe p == pipe) d.pc.arrivals with
  | none => d
  | some (p, rest) =>
    let d1 := d.onPc fun x => { x with arrivals := rest }
    if p.second then (if p.recirc then d1 else d1.inflightUp p.bank).classify { p with pipe := pipe, recirc := false, tick := d.tb.ticks, c := d.now }
    else
      let b := d.activeBank
      (d1.inflightUp b).classify { p with pipe := pipe, bank := b, epoch := d.epoch, tick := d.tb.ticks, c := d.now }

/-! ### Register writes (R259) -/

/-- A write of PC_CFG (R259). -/
def Dev.pcCfgWrite (d : Dev) (v : Nat) : Dev :=
  let r := R .PC_CFG
  let bad := bits v 3 0 == 0
  let d1 := d.setReg r (bits v 9 8 * 256 + if bad then d.fld r 3 0 else bits v 3 0)
  if bad then d1.cfgRefused (R .PC_FLAGS) 5 else d1

/-- A write of PC_TPID_CFG (R259). -/
def Dev.tpidWrite (d : Dev) (v : Nat) : Dev :=
  let r := R .PC_TPID_CFG
  let t := bits v 31 16
  let bad := [0x0800, 0x86DD, 0x8864, 0x8847, 0x8848].contains t
  let d1 := d.setReg r ((if bad then d.fld r 31 16 else t) * 65536 + bits v 1 0)
  if bad then d1.cfgRefused (R .PC_FLAGS) 5 else d1

/-! ### PC_CMD (R260) -/

/-- Only PF0 and the cores issue the opcodes of PC_CMD (R260). -/
def pcOnly (a : Accepted) (d : Dev) (k : CmdRes) : CmdRes := if !trusted a.src then .refuse .denied d.activeBank else k

/-- A bank write is refused on the active bank, and while packets stamped with the bank are in flight (R256). -/
def Dev.bankBusy (d : Dev) (n : Nat) : Bool := n == d.activeBank || d.reg (R .PC_INFLIGHT n) ≠ 0

/-- Reserved bits of a rule are zero (R260). -/
def ruleClean (w : List Nat) : Bool :=
  let g (n : Nat) : Nat := w.getD n 0
  !bit (g 0) 7 && !bit (g 0) 15 && bits (g 0) 30 18 == 0 && bits (g 2) 15 12 == 0 && bits (g 2) 31 28 == 0 &&
    bits (g 3) 31 11 == 0 && bits (g 6) 31 16 == 0

/-- RULE_WRITE (R260). -/
def opRuleWrite (a : Accepted) (d : Dev) : CmdRes :=
  pcOnly a d <|
    let act := ruleAct (a.data.drop 0)
    let bk := bits a.obj 16 16
    if !ruleClean a.data ∨ (bits act 79 78 = 1 ∧ d.nQueues ≤ bits act 51 33) then .refuse .badArgument d.activeBank
    else if d.bankBusy bk then .refuse .notInState d.activeBank
    else
      let w := a.data.take 7
      .done (d.onBank bk fun b => { b with rules := b.rules.put (List.replicate 7 0) (a.obj % 64) w }) .ok []

/-- RULE_READ (R260). -/
def opRuleRead (a : Accepted) (d : Dev) : CmdRes :=
  pcOnly a d <|
    let w := (d.bank (bits a.obj 16 16)).rules.getD (a.obj % 64) []
    .done d .ok ((List.range 7).map fun i => (i, w.getD i 0))

/-- KEY_PROFILE_WRITE, PROFILE_WRITE of PC_CMD (R244, R260). -/
def opKeyProfileWrite (a : Accepted) (d : Dev) : CmdRes :=
  pcOnly a d <|
    let ids := ((a.data.take 3).flatMap fun w => leBytes 4 w).map BitVec.toNat
    let ws := ids.map fieldWidth
    let bk := bits a.obj 16 16
    if ws.any Option.isNone ∨ 168 < (ws.map fun w => w.getD 0).foldl (· + ·) 0 then .refuse .badArgument d.activeBank
    else if d.bankBusy bk then .refuse .notInState d.activeBank
    else
      let pr : KeyProf := ⟨if ids.all (· == 0) then [] else ids, bit (a.dat 3) 0⟩
      .done (d.onBank bk fun b => { b with profs := b.profs.put KeyProf.rest (a.obj % 16) pr }) .ok []

/-- KEY_PROFILE_READ, PROFILE_READ of PC_CMD (R260). -/
def opKeyProfileRead (a : Accepted) (d : Dev) : CmdRes :=
  pcOnly a d <|
    let p := (d.bank (bits a.obj 16 16)).profs.getD (a.obj % 16) KeyProf.rest
    .done d .ok ((3, b2n p.scope) :: outBytes 0 3 (p.ids.map fun x => BitVec.ofNat 8 x))

/-- MIRROR_WRITE (R260). -/
def opMirrorWrite (a : Accepted) (d : Dev) : CmdRes :=
  pcOnly a d <|
    let k := a.obj % 128
    let q := a.db 0 18 0
    let bk := bits a.obj 16 16
    if bit (a.dat 0) 31 ∧ !(decide (q < d.nQueues) && d.sliceOfQueue q == some (k / 8)) then .refuse .badArgument d.activeBank
    else if d.bankBusy bk then .refuse .notInState d.activeBank
    else .done (d.onBank bk fun b => { b with mirrors := b.mirrors.put 0 k (q + 2 ^ 31 * b2n (bit (a.dat 0) 31)) }) .ok []

/-- MIRROR_READ (R260). -/
def opMirrorRead (a : Accepted) (d : Dev) : CmdRes :=
  pcOnly a d <| .done d .ok [(0, (d.bank (bits a.obj 16 16)).mirrors.getD (a.obj % 128) 0)]

/-- BANK_COPY (R260). -/
def opBankCopy (a : Accepted) (d : Dev) : CmdRes :=
  pcOnly a d <|
    let bk := bits a.obj 16 16
    if d.bankBusy bk then .refuse .notInState d.activeBank
    else .done (d.onBank bk fun _ => d.bank d.activeBank) .ok []

/-- BANK_CLEAR (R260): VALID cleared in every rule and mirror session, NONE in every profile. -/
def opBankClear (a : Accepted) (d : Dev) : CmdRes :=
  pcOnly a d <|
    let bk := bits a.obj 16 16
    if d.bankBusy bk then .refuse .notInState d.activeBank
    else
      .done (d.onBank bk fun b =>
        { rules := b.rules.mapPut (List.replicate 7 0) fun _ w => w.set 0 (putBits (w.getD 0 0) 31 31 0)
          profs := []
          mirrors := b.mirrors.mapPut 0 fun _ w => putBits w 31 31 0 }) .ok []

/-- BANK_SWAP (R258). -/
def opBankSwap (a : Accepted) (d : Dev) : CmdRes :=
  pcOnly a d <|
    let old := d.activeBank
    if d.reg (R .PC_INFLIGHT (1 - old)) ≠ 0 then .refuse .notInState old
    else
      let e := (d.epoch + 1) % 65536
      let d1 := d.setReg (R .PC_STATUS) (e * 65536 + (1 - old))
      let d2 := d1.raiseRec (R .PC_FLAGS) 0 .pc 0 false [(2, e)]
      .done (d2.raiseIf (d2.reg (R .PC_INFLIGHT old) == 0) (R .PC_FLAGS) 1) .ok [(0, e)]

end Sys2Proof.Machine
end

