-- ==== Sys2Proof/Machine/Macsec.lean ====
section
/-! DEFINITION. Uplink MACsec (spec/11, R361 to R366): SecTAG, reception up to the parser and at the tail, transmission, and the MS
opcodes of CE_CMD (R378). The SecTAG, the formed SCI, packet-number recovery and the IV follow the IEEE 802.1AE that R361 cites
(log entry 20). -/

namespace Sys2Proof.Machine

/-! ### SA slots (R362) -/

/-- SA slot n. -/
def Dev.sa (d : Dev) (n : Nat) : SaSlot := d.ce.sas.getD n SaSlot.rest

/-- SA slot n changed by f. -/
def Dev.onSa (d : Dev) (n : Nat) (f : SaSlot → SaSlot) : Dev :=
  d.onCe fun c => { c with sas := c.sas.put SaSlot.rest n (f (c.sas.getD n SaSlot.rest)) }

/-- The fields of a slot's parameter word (R378): port, AN, direction, suite, confidentiality. -/
def SaSlot.port (s : SaSlot) : Nat := bits s.w0 3 0
def SaSlot.an (s : SaSlot) : Nat := bits s.w0 5 4
def SaSlot.tx (s : SaSlot) : Bool := bit s.w0 8
def SaSlot.long (s : SaSlot) : Bool := bit s.w0 9
def SaSlot.conf (s : SaSlot) : Bool := bit s.w0 10

/-- The AES block under a slot's key: XPN-128 takes key bytes 0 to 15, XPN-256 all 32. -/
def SaSlot.cipher (s : SaSlot) (b : Nat) : Nat := aes s.long (if s.long then s.key else s.key / 2 ^ 128) b

/-- The 96-bit IV of a packet number under a slot's SSCI and salt. -/
def SaSlot.iv (s : SaSlot) (pn : Nat) : Nat := (s.ssci * 2 ^ 64 + pn) ^^^ s.salt

/-- The ENABLED receive slot of a port that satisfies f. -/
def Dev.rxSa (d : Dev) (u : Nat) (f : SaSlot → Bool) : Option Nat :=
  (d.ce.sas.find? fun kv => kv.2.state == 2 && !kv.2.tx && kv.2.port == u && f kv.2).map Prod.fst

/-- The current transmit SA of a port. -/
def Dev.txSa (d : Dev) (u : Nat) : Option Nat := d.ce.curTx.get? u

/-- MACsec runs on the port (R361). -/
def Dev.msOn (d : Dev) (u : Nat) : Bool := d.flag (R .CE_MS_PORT_CFG u) 31

/-- Bytes of user data that stay in clear at their start: the confidentiality offset (R376). -/
def Dev.confOffset (d : Dev) (u : Nat) : Nat :=
  match d.fld (R .CE_MS_PORT_CFG u) 28 27 with
  | 1 => 30
  | 2 => 50
  | _ => 0

/-- A MACsec event of a port: its flag and its count (R373, R528). -/
def Dev.msFlag (d : Dev) (u bit' off : Nat) : Dev := (d.raise (R .CE_FLAGS) bit').count (0xA00 + 16 * u + off)

/-- MS_NO_SA (R363 to R365). -/
def Dev.msNoSa (d : Dev) (u : Nat) : Dev := d.msFlag u 10 12

/-- MS_CLEAR_REFUSED (R364, R365). -/
def Dev.msClearRefused (d : Dev) (u : Nat) : Dev := d.msFlag u 13 13

/-- A failure of an SA counted (R363, R378: saturating). -/
def Dev.saFail (d : Dev) (n : Nat) : Dev := d.onSa n fun s => { s with fail := min (s.fail + 1) 0xFFFFFFFF }

/-- The port's current SA is no longer slot n. -/
def Dev.dropCurrent (d : Dev) (u n : Nat) : Dev :=
  if d.txSa u = some n then d.onCe fun c => { c with curTx := c.curTx.erase u } else d

/-- A read of an SA slot by the data path (R351): `ecc` = 1 is an error corrected, 2 one that disables the slot and is recorded. -/
def Dev.saRead (d : Dev) (n ecc : Nat) : Dev :=
  if ecc = 1 then d.keyCorrected
  else if ecc = 2 then ((d.dropCurrent (d.sa n).port n).onSa n fun s => { s with state := 1 }).keyStoreRec n
  else d

/-! ### The SecTAG -/

/-- A SecTAG as it stands behind SA: its length, the TCI bits, AN, SL, the 32 bits of PN, and the SCI where it carries one. -/
structure SecTag where
  len : Nat
  es : Bool
  scb : Bool
  enc : Bool
  changed : Bool
  version : Bool
  an : Nat
  sl : Nat
  pn : Nat
  sci : Option Nat
  deriving DecidableEq, Repr

/-- The SecTAG of a frame, if its EtherType is 0x88E5. -/
def secTag (b : List Byte) : Option SecTag :=
  if beAt b 12 2 ≠ 0x88E5 then none
  else
    let t := beAt b 14 1
    let sc := bit t 5
    some ⟨if sc then 16 else 8, bit t 6, bit t 4, bit t 3, bit t 2, bit t 7, bits t 1 0, beAt b 15 1, beAt b 16 4,
      if sc then some (beAt b 20 8) else none⟩

/-- A SecTAG that IEEE 802.1AE does not accept: version 1, an SCI together with ES or SCB, encrypted but unchanged text, a short
length above 47, or a frame without room for it and the ICV. -/
def SecTag.malformed (t : SecTag) (n : Nat) : Bool :=
  t.version || (t.sci.isSome && (t.es || t.scb)) || (t.enc && !t.changed) || decide (48 ≤ t.sl) ||
    decide (n < 12 + t.len + t.sl + 16)

/-- Whether a receive slot serves a SecTAG (R362): AN, and SCI as carried or formed from SA where ES or SCB is set; a SecTAG with
none of the three leaves the port's only peer. -/
def SecTag.serves (t : SecTag) (sa : Nat) (s : SaSlot) : Bool :=
  s.an == t.an &&
    match t.sci with
    | some i => s.sci == i
    | none => if t.scb then s.sci == sa * 65536 else if t.es then s.sci == sa * 65536 + 1 else true

/-- The 64-bit packet number that 32 received bits stand for, above the lowest acceptable one. -/
def recoverPn (low pn : Nat) : Nat :=
  let hi := low / 2 ^ 32
  (if bit low 31 ∧ !bit pn 31 then hi + 1 else hi) * 2 ^ 32 + pn

/-- Reception under a slot: the frame without SecTAG and ICV, and whether its ICV fails. -/
def msOpen (s : SaSlot) (t : SecTag) (off pn : Nat) (b : List Byte) : List Byte × Bool :=
  let body := b.drop (12 + t.len)
  let n := if t.sl = 0 then body.length - 16 else t.sl
  let data := body.take n
  let icv := beAt body n 16
  let clear := if t.enc then min off n else n
  let aad := b.take (12 + t.len) ++ data.take clear
  let plain := data.take clear ++ gcmCrypt s.cipher (s.iv pn) (data.drop clear)
  (b.take 12 ++ plain, decide (gcmTag s.cipher (s.iv pn) aad (data.drop clear) ≠ icv))

/-- A frame at the SecTAG check of a port (R351, R363, R364): what goes on to the parser, or the discard; `ecc` is what the SA store
reports. -/
def Dev.msReceive (d : Dev) (u : Nat) (b : List Byte) (ecc : Nat) : Dev × Option Pkt :=
  if !d.msOn u then (d, some (Pkt.of (64 + u) b))
  else
    match secTag b with
    | none =>
      if beAt b 12 2 = 0x888E ∧ d.flag (R .CE_MS_PORT_CFG u) 26 then (d, some { Pkt.of (64 + u) b with eapol := true })
      else (d.msNoSa u, none)
    | some t =>
      if t.malformed b.length then (d, none)
      else
        match d.rxSa u (t.serves (beAt b 6 6)) with
        | none => (d.msNoSa u, none)
        | some n =>
          let d := d.saRead n ecc
          let s := d.sa n
          let pn := recoverPn s.pn t.pn
          if s.state ≠ 2 then (d.msNoSa u, none)
          else if d.flag (R .CE_MS_PORT_CFG u) 29 ∧ pn < s.pn then ((d.msFlag u 9 11).saFail n, none)
          else
            let r := msOpen s t (d.confOffset u) pn b
            (d, some { Pkt.of (64 + u) r.1 with sa := some n, pn := pn, icvBad := r.2 })

/-- Every frame in flight under slot n with a PN that has just passed its tail fails the second replay check (R363). -/
def Dev.markTwins (d : Dev) (n pn : Nat) : Dev :=
  let mark (p : Pkt) : Pkt := if p.sa = some n ∧ p.pn = pn then { p with twin := true } else p
  d.onPc fun x => { x with arrivals := x.arrivals.map mark, flights := x.flights.map fun f => { f with pkt := mark f.pkt } }

/-- The tail checks of a packet (R363): whether it fails. The window advances on a frame that passes both. -/
def Dev.msTail (d : Dev) (p : Pkt) : Dev × Bool :=
  match p.sa with
  | none => (d, false)
  | some n =>
    let u := p.src - 64
    let s := d.sa n
    if p.icvBad then ((d.msFlag u 8 10).saFail n, true)
    else if d.flag (R .CE_MS_PORT_CFG u) 29 ∧ (p.pn < s.pn ∨ p.twin) then ((d.msFlag u 9 11).saFail n, true)
    else if s.state ≠ 2 then (d, false)
    else
      let low := max s.pn (p.pn + 1 - d.reg (R .CE_MS_REPLAY_WIN u))
      ((d.onSa n fun s => { s with pn := low, ok := min (s.ok + 1) 0xFFFFFFFF }).markTwins n p.pn, false)

/-! ### Transmission (R365, R366) -/

/-- What a frame is on the wire after the MACsec stage of a port. -/
inductive MsTx where
  | send (b : List Byte)
  | drop
  deriving DecidableEq, Repr

/-- A frame protected under a slot with its next PN: SecTAG after SA, ICV at the tail (R365). -/
def msSeal (s : SaSlot) (includeSci : Bool) (off : Nat) (b : List Byte) : List Byte :=
  let data := b.drop 12
  let tci := 32 * b2n includeSci + 12 * b2n s.conf + s.an
  let sl := if data.length < 48 then data.length else 0
  let tag := beBytes 2 0x88E5 ++ beBytes 1 tci ++ beBytes 1 sl ++ beBytes 4 (s.pn % 2 ^ 32) ++
    (if includeSci then beBytes 8 s.sci else [])
  let clear := if s.conf then min off data.length else data.length
  let aad := b.take 12 ++ tag ++ data.take clear
  let ct := gcmCrypt s.cipher (s.iv s.pn) (data.drop clear)
  aad ++ ct ++ beBytes 16 (gcmTag s.cipher (s.iv s.pn) aad ct)

/-- CE_MS_PN_THRESH (R366, R376). -/
def Dev.pnThresh (d : Dev) : Nat := d.reg (R .CE_MS_PN_THRESH_LO) + 2 ^ 32 * d.reg (R .CE_MS_PN_THRESH_HI)

/-- The next PN of a slot after one is used (R366): exhausted behind 2^64 - 1; MS_REKEY once at the threshold. -/
def Dev.pnUsed (d : Dev) (u n : Nat) : Dev :=
  let s := d.sa n
  let d1 := d.onSa n fun s => { s with ok := min (s.ok + 1) 0xFFFFFFFF
                                       pn := if s.pn = 2 ^ 64 - 1 then s.pn else s.pn + 1, exhausted := decide (s.pn = 2 ^ 64 - 1) }
  if !s.rekeyed ∧ d.pnThresh ≤ s.pn + 1 then
    (d1.onSa n fun s => { s with rekeyed := true }).raiseRec (R .CE_FLAGS) 11 .ce 0 false [(1, u), (2, n)]
  else d1

/-- The MACsec stage of a frame that port u sends (R351, R365, R366); `ecc` is what the SA store reports. -/
def Dev.msTransmit (d : Dev) (u : Nat) (p : Pkt) (b : List Byte) (ecc : Nat) : Dev × MsTx :=
  if !d.msOn u then (d, .send b)
  else if p.clearSend then
    if beAt b 12 2 = 0x888E then (d, .send b) else (d.msClearRefused u, .drop)
  else
    match d.txSa u with
    | none => (d.msNoSa u, .drop)
    | some n =>
      let d := d.saRead n ecc
      let s := d.sa n
      if s.state ≠ 2 then (d.msNoSa u, .drop)
      else if s.exhausted then ((d.raise (R .CE_FLAGS) 12).saFail n, .drop)
      else (d.pnUsed u n, .send (msSeal s (d.flag (R .CE_MS_PORT_CFG u) 30) (d.confOffset u) b))

/-! ### Commands (R378) -/

/-- MS opcodes are open only to PF0 and the cores (R378); k gets the slot number. -/
def msOnly (a : Accepted) (d : Dev) (k : Nat → CmdRes) : CmdRes :=
  if !trusted a.src then .refuse .denied (d.sa (bits a.obj 11 0)).state else k (bits a.obj 11 0)

/-- The big-endian number that the bytes of _DATA words spell, byte 0 in bits [7:0] of the first. -/
def Accepted.bytesBe (a : Accepted) (n k : Nat) : Nat := beNat ((List.range k).flatMap fun i => leBytes 4 (a.dat (n + i)))

/-- MS_SA_KEY (R378). -/
def opMsSaKey (a : Accepted) (d : Dev) : CmdRes :=
  msOnly a d fun n =>
    if (d.sa n).state = 2 then .refuse .notInState 2
    else .done (d.onSa n fun s => { s with state := 1, key := a.bytesBe 0 8 }) .ok []

/-- MS_SA_PARAM (R378). -/
def opMsSaParam (a : Accepted) (d : Dev) : CmdRes :=
  msOnly a d fun n =>
    let s := d.sa n
    let w := a.dat 0
    if (d.portDef (bits w 3 0)).isNone ∨ (!bit w 9 ∧ s.key % 2 ^ 128 ≠ 0) then .refuse .badArgument s.state
    else if s.state ≠ 1 then .refuse .notInState s.state
    else
      let w0 := bits w 5 0 + 256 * bits w 10 8
      .done (d.onSa n fun s => { s with w0 := w0, sci := a.dat64 1, ssci := a.dat 3, salt := a.bytesBe 4 3 }) .ok []

/-- MS_SA_PN (R378). -/
def opMsSaPn (a : Accepted) (d : Dev) : CmdRes :=
  msOnly a d fun n =>
    let s := d.sa n
    if a.dat64 0 = 0 then .refuse .badArgument s.state
    else if s.state ≠ 1 then .refuse .notInState s.state
    else .done (d.onSa n fun s => { s with pn := a.dat64 0, rekeyed := false, exhausted := false }) .ok []

/-- A transmit slot becomes its port's current SA, and the previous one returns to LOADED (R362). -/
def Dev.makeCurrent (d : Dev) (u n : Nat) : Dev :=
  let d1 := match d.txSa u with
    | some m => d.onSa m fun s => { s with state := 1 }
    | none => d
  d1.onCe fun c => { c with curTx := c.curTx.set u n }

/-- MS_SA_ENABLE (R362, R378). -/
def opMsSaEnable (a : Accepted) (d : Dev) : CmdRes :=
  msOnly a d fun n =>
    let s := d.sa n
    if s.state ≠ 1 then .refuse .notInState s.state
    else if s.tx then .done ((d.makeCurrent s.port n).onSa n fun s => { s with state := 2 }) .ok []
    else if (d.rxSa s.port fun x => x.sci == s.sci && x.an == s.an).isSome then .refuse .notInState s.state
    else .done (d.onSa n fun s => { s with state := 2 }) .ok []

/-- MS_SA_DISABLE (R378). -/
def opMsSaDisable (a : Accepted) (d : Dev) : CmdRes :=
  msOnly a d fun n =>
    let s := d.sa n
    let z := bit (a.dat 0) 0
    if s.state = 0 ∨ (s.state = 1 ∧ !z) then .refuse .notInState s.state
    else .done ((d.dropCurrent s.port n).onSa n fun s => if z then SaSlot.rest else { s with state := 1 }) .ok []

/-- MS_SA_READ (R378). -/
def opMsSaRead (a : Accepted) (d : Dev) : CmdRes :=
  msOnly a d fun n =>
    let s := d.sa n
    .done d .ok ([(0, s.w0 + 2 ^ 31 * b2n (s.state == 2)), (3, s.ssci), (6, s.ok), (7, s.fail)] ++
      outWords 1 2 s.sci ++ outWords 4 2 s.pn)

end Sys2Proof.Machine
end

