-- ==== Sys2Proof/Machine/Queues.lean ====
section
/-! DEFINITION. The scheduling tree of the traffic manager (spec/09): nodes, queues and their attachment, shaper buckets, drops,
discards, holds, aging, and the opcodes of TM_CMD (R314). -/

namespace Sys2Proof.Machine

/-! ### Objects (R283 to R285) -/

/-- Queue q. -/
def Dev.queue (d : Dev) (q : Nat) : Queue := d.tm.queues.getD q Queue.rest

/-- Queue q changed by f. -/
def Dev.onQueue (d : Dev) (q : Nat) (f : Queue → Queue) : Dev :=
  d.onTm fun t => { t with queues := t.queues.put Queue.rest q (f (t.queues.getD q Queue.rest)) }

/-- Node n. -/
def Dev.node (d : Dev) (n : Nat) : Node := d.tm.nodes.getD n Node.rest

/-- Node n changed by f. -/
def Dev.onNode (d : Dev) (n : Nat) (f : Node → Node) : Dev :=
  d.onTm fun t => { t with nodes := t.nodes.put Node.rest n (f (t.nodes.getD n Node.rest)) }

/-- The words of QUEUE_WRITE (R314). -/
def Queue.parent (x : Queue) : Nat := bits x.w0 15 0
def Queue.prio (x : Queue) : Nat := bits x.w0 18 16
def Queue.pool (x : Queue) : Nat := bits x.w0 24 19
def Queue.keySel (x : Queue) : Nat := bits x.w0 27 26
def Queue.launch (x : Queue) : Nat := bits x.w0 29 28
def Queue.weight (x : Queue) : Nat := bits x.w1 15 0
def Queue.pfc (x : Queue) : Nat := bits x.w1 19 16
def Queue.ageMs (x : Queue) : Nat := bits x.w5 15 0
def Queue.term (x : Queue) : Nat := bits x.w5 30 16

/-- TH_c of a queue in KiB (R297, R314). -/
def Queue.th (x : Queue) (c : Nat) : Nat := if c = 0 then x.thG else if c = 1 then x.thY else x.thR

/-- The packets of a queue in enqueue order (R329). -/
def Queue.all (x : Queue) : List Held := x.near ++ x.far

/-- An egress port that can carry traffic (R20, R285). -/
def Dev.portExists (d : Dev) (p : Nat) : Bool :=
  if p < 64 then d.treeExists p
  else if p < 76 then (d.portDef (p - 64)).isSome
  else decide (p < 78)

/-- Node n is VALID (R285, R287). -/
def Dev.nodeValid (d : Dev) (n : Nat) : Bool := if n < 128 then d.portExists n else (d.node n).valid

/-- The level that a node takes from its parent (R283). -/
def Dev.level (d : Dev) (n : Nat) : Nat := if n < 128 then 0 else if (d.node n).parent < 128 then 1 else 2

/-- The port node above a node, if it is attached through every level. -/
def Dev.nodePort (d : Dev) : Nat → Nat → Option Nat
  | 0, _ => none
  | k + 1, n => if !d.nodeValid n then none else if n < 128 then some n else d.nodePort k (d.node n).parent

/-- The egress port of a queue, if it is VALID and attached through every level (R297). -/
def Dev.queuePort (d : Dev) (q : Nat) : Option Nat :=
  if q < d.nQueues ∧ (d.queue q).valid then d.nodePort 3 (d.queue q).parent else none

/-- The level-1 node above a queue (R480). -/
def Dev.sliceNode (d : Dev) (q : Nat) : Nat :=
  let n := (d.queue q).parent
  if d.level n = 2 then (d.node n).parent else n

/-- The slice of a node, none for a device node or a shared port node (R285). -/
def Dev.nodeSlice (d : Dev) (n : Nat) : Option Nat :=
  if n < 64 then some (d.sliceOfTree n)
  else if n < 76 then
    match d.slicesOfPort (n - 64) with
    | [s] => some s
    | _ => none
  else if n < 128 then none
  else d.sliceOfNode n

/-- The slice under which a queue's packets count (R301). -/
def Dev.countSlice (d : Dev) (q : Nat) : Nat := (d.sliceOfQueue q).getD 0

/-! ### Children and rings (R286, R290, R292) -/

/-- The children of a node. -/
def Node.children (x : Node) : List Child := x.rings.flatMap Prod.snd

/-- A child's PRIO, weight and deficit. -/
def Dev.childPrio (d : Dev) : Child → Nat
  | .node n => (d.node n).prio
  | .queue q => (d.queue q).prio
def Dev.childWeight (d : Dev) : Child → Nat
  | .node n => (d.node n).weight
  | .queue q => (d.queue q).weight
def Dev.deficit (d : Dev) : Child → Int
  | .node n => (d.node n).deficit
  | .queue q => (d.queue q).deficit

/-- A child's deficit set. -/
def Dev.setDeficit (d : Dev) (c : Child) (x : Int) : Dev :=
  match c with
  | .node n => d.onNode n fun y => { y with deficit := x }
  | .queue q => d.onQueue q fun y => { y with deficit := x }

/-- A child joins the end of its parent's ring with a deficit of 0 (R286, R290). -/
def Dev.attach (d : Dev) (n : Nat) (c : Child) : Dev :=
  (d.setDeficit c 0).onNode n fun x => { x with rings := x.rings.upd [] (d.childPrio c) (· ++ [c]) }

/-- A child leaves its parent's ring; the pointer stays at the child it named, or returns to the start (log entry 23). -/
def Dev.detach (d : Dev) (n : Nat) (c : Child) : Dev :=
  let k := d.childPrio c
  d.onNode n fun x =>
    let ring := x.rings.getD k []
    let i := ring.idxOf c
    let ring' := ring.erase c
    let p := x.rr.getD k 0
    let p' := if i < p then p - 1 else p
    { x with rings := x.rings.put [] k ring', rr := x.rr.put 0 k (if p' < ring'.length then p' else 0) }

/-- A queue below a node holds a packet (R292). -/
def Dev.busy (d : Dev) : Nat → Child → Bool
  | 0, _ => false
  | _ + 1, .queue q => !(d.queue q).all.isEmpty
  | k + 1, .node n => (d.node n).children.any fun c => d.busy k c

/-- The deficits of a queue and of the nodes above it that are empty become 0 (R292). -/
def Dev.settleEmpty (d : Dev) : Nat → Child → Dev
  | 0, _ => d
  | k + 1, c =>
    if d.busy 4 c then d
    else
      let d1 := d.setDeficit c 0
      match c with
      | .queue q => d1.settleEmpty k (.node (d.queue q).parent)
      | .node n => if n < 128 then d1 else d1.settleEmpty k (.node (d.node n).parent)

/-! ### Buckets (R294 to R296) -/

/-- The increment of a rate (R294): 2^-32 byte per tick. -/
def shaperInc (kbps : Nat) : Nat := (kbps * 8589934592 + 500000) / 1000000

/-- The tick of R294, modulo 2^32. -/
def Dev.tick (d : Dev) : Nat := d.tick16 % 2 ^ 32

/-- An s48 result: wrapped modulo 2^48 into two's complement (R15). -/
def wrap48 (x : Int) : Int := signed 48 (unsigned 48 x)

/-- The level of a bucket at a tick, without storing the refill (R294): the term is cast to s48 and the sum is one (R15). -/
def Bucket.level (b : Bucket) (now : Nat) : Int :=
  let x := (now + 2 ^ 32 - b.last % 2 ^ 32) % 2 ^ 32
  min (wrap48 (b.tok + signed 48 (x * shaperInc b.rate / 2 ^ 20))) ((b.burst * 4096 : Nat) : Int)

/-- A refill (R294). -/
def Bucket.refill (b : Bucket) (now : Nat) : Bucket := { b with tok := b.level now, last := now }

/-- A charge of a counted length (R294). -/
def Bucket.charge (b : Bucket) (now lc : Nat) : Bucket :=
  let r := b.refill now
  { r with tok := wrap48 (r.tok - (lc * 4096 : Nat)) }

/-- The bucket is disabled or holds at least 0 tokens (R289). -/
def Bucket.open_ (b : Bucket) (now : Nat) : Bool := !b.en || decide (0 ≤ b.level now)

/-- The bucket is enabled and holds at least 0 tokens (R289). -/
def Bucket.committed (b : Bucket) (now : Nat) : Bool := b.en && decide (0 ≤ b.level now)

/-- SHAPER_WRITE of a bucket at a tick (R295): FULL, ZERO, KEEP; EN = 0 disables, and the tokens and the
rate are kept. -/
def Bucket.write (b : Bucket) (now rate burst mode : Nat) (en : Bool) : Bucket :=
  if !en then { b with en := false, burst := burst, mode := mode }
  else
    let full : Int := (burst * 4096 : Nat)
    let tok : Int := match mode with
      | 0 => full
      | 1 => 0
      | _ => min (b.level now) full
    ⟨true, rate, burst, mode, tok, now⟩

/-- A child's two buckets: CIR and PIR. -/
def Dev.buckets (d : Dev) : Child → Bucket × Bucket
  | .node n => ((d.node n).cir, (d.node n).pir)
  | .queue q => ((d.queue q).cir, (d.queue q).pir)

/-- A child's bucket changed: 0 CIR, 1 PIR. -/
def Dev.onBucket (d : Dev) (c : Child) (k : Nat) (f : Bucket → Bucket) : Dev :=
  match c with
  | .node n => d.onNode n fun x => if k = 0 then { x with cir := f x.cir } else { x with pir := f x.pir }
  | .queue q => d.onQueue q fun x => if k = 0 then { x with cir := f x.cir } else { x with pir := f x.pir }

/-- SHAPER_REFRESH (R294): an enabled bucket is refilled. -/
def Dev.shaperRefresh (d : Dev) (c : Child) (k : Nat) : Dev :=
  let now := d.tick
  d.onBucket c k fun b => if b.en then b.refill now else b

/-! ### Drops (R297, R298, R301) -/

/-- The 32 bytes of a packet sample (R533). -/
def Dev.sampleBytes (d : Dev) (q : Nat) (p : Pkt) (len reason : Nat) : List Byte :=
  let lat := min 0xFFFFFFFF ((d.tb.ticks - p.tick) * 8 / 5)
  leBytes 2 len ++ leBytes 1 p.src ++ leBytes 1 (p.slice % 16 + 16 * p.colour + 64 * b2n (reason ≠ 0) + 128 * b2n p.second) ++
    leBytes 4 (q % 2 ^ 19 + 2 ^ 24 * reason) ++ leBytes 4 p.hash ++ leBytes 2 p.term ++ leBytes 2 p.port ++ leBytes 4 lat ++
    leBytes 2 p.epoch ++ leBytes 2 p.metaVal ++ leBytes 8 p.c

/-- A packet's reserved sample is written at its departure or its discard (R533). -/
def Dev.sampleDone (d : Dev) (q : Nat) (p : Pkt) (len reason : Nat) : Dev :=
  match p.sample with
  | some k => d.writeSample k (d.sampleBytes q p len reason)
  | none => d

/-- A drop of a packet of a queue with its reason (R297, R301): TM_DROP_LAST, the count by slice, reason and colour, the
statistics set, the flag, the record of the first UNATTACHED or NO_BUFFER, the sample, and the packet's place in flight. -/
def Dev.tmDrop (d : Dev) (q : Nat) (p : Pkt) (len reason : Nat) : Dev :=
  let d1 := d.setReg (R .TM_DROP_LAST) (2 ^ 31 + p.colour * 2 ^ 28 + reason * 2 ^ 24 + q % 2 ^ 19)
  let d2 := d1.count (0x4C0 + 48 * d1.countSlice q + 3 * (reason - 1) + p.colour)
  let d3 := (d2.stat q (4 + p.colour) 1).stat q 7 len
  let b := if reason = 1 then 2 else 3
  let d4 :=
    if reason = 1 ∨ reason = 5 then
      if d3.flag (R .TM_FLAGS) b then d3.raise (R .TM_FLAGS) b
      else d3.raiseRec (R .TM_FLAGS) b .tm 0 false [(4, q), (1, (d3.queue q).pool), (1, p.pipe)]
    else if reason = 6 then d3.raise (R .TM_FLAGS) 4
    else d3
  (d4.sampleDone q p len reason).dropRecirc p

/-! ### Eligibility for prefetch (R330, R331) -/

/-- The bytes of a queue's near list (R329). -/
def Dev.nearBytes (d : Dev) (q : Nat) : Nat := ((d.queue q).near.map Held.len).foldl (· + ·) 0

/-- A queue whose far head may be prefetched (R330). -/
def Dev.prefetchable (d : Dev) (q : Nat) : Bool :=
  !(d.queue q).far.isEmpty && decide (d.nearBytes q < d.fld (R .BP_POOL_SPILL (d.queue q).pool) 11 0 * 1024)

/-- A queue whose lists changed: it joins the prefetch order where it became eligible and leaves it where it is no longer; after its
near list shrank it waits no more (R330). -/
def Dev.fetchSync (d : Dev) (q : Nat) (shrunk : Bool) : Dev :=
  let l := d.bp.fetch
  if d.prefetchable q then
    if l.any fun x => x.1 == q then
      (if shrunk then d.onBp fun b => { b with fetch := l.map fun x => if x.1 = q then (q, false) else x } else d)
    else d.onBp fun b => { b with fetch := l ++ [(q, false)] }
  else if l.any fun x => x.1 == q then d.onBp fun b => { b with fetch := l.filter fun x => x.1 ≠ q }
  else d

/-- The copy of a queue's far head abandoned, its near cells freed by the prefetch engine (R331). -/
def Dev.fetchAbandon (d : Dev) (q : Nat) : Dev :=
  match d.bp.copy with
  | some (k, cs) => if k = q then (d.onBp fun b => { b with copy := none }).freeCells 0 (d.queue q).pool 4 cs else d
  | none => d

/-- A queue that lost packets of its list in tier n (R330, R331). -/
def Dev.fetchLost (d : Dev) (q n : Nat) : Dev := (if n = 1 then d.fetchAbandon q else d).fetchSync q (n == 0)

/-! ### Discards (R304, R305, R337) -/

/-- A list of a queue: 0 near, 1 far. -/
def Queue.list (x : Queue) (n : Nat) : List Held := if n = 0 then x.near else x.far

/-- A list of a queue replaced. -/
def Queue.setList (x : Queue) (n : Nat) (l : List Held) : Queue := if n = 0 then { x with near := l } else { x with far := l }

/-- A list broken at a failed link word of its head packet (R337): the packet and every one behind it in the list are dropped
with MEMORY, their cells stay allocated, QUEUE_BROKEN. -/
def Dev.breakList (d : Dev) (q n c : Nat) : Dev :=
  let l := (d.queue q).list n
  let d1 := (d.onQueue q fun x => x.setList n []).fetchLost q n
  let d2 := l.foldl (fun d h => d.tmDrop q h.pkt h.len 8) d1
  let bytes := (l.map Held.len).foldl (· + ·) 0
  (d2.raiseRec (R .BP_FLAGS) 8 .bp 0 false [(4, q), (1, n), (4, c), (4, l.length), (8, bytes)]).settleEmpty 4 (.queue q)

/-- The head packet of a list discarded with a reason: its link words are read, its cells freed as the discard engine (R325,
R328), and the drop counted; a failed link word breaks the list (R337). -/
def Dev.discardHead (d : Dev) (q n reason : Nat) : Dev :=
  match (d.queue q).list n with
  | [] => d
  | h :: rest =>
    match d.checkLinks n (if n = 0 then 0 else 2) h.cells with
    | (d1, some c) => d1.breakList q n c
    | (d1, none) =>
      let d2 := (d1.onQueue q fun x => x.setList n rest).fetchLost q n
      ((d2.freeCells n (d.queue q).pool 7 h.cells).tmDrop q h.pkt h.len reason).settleEmpty 4 (.queue q)

/-- The tier of a queue's head packet, if it holds one (R329, R331). -/
def Queue.headTier (x : Queue) : Option Nat := if !x.near.isEmpty then some 0 else if !x.far.isEmpty then some 1 else none

/-- The head packet of a queue. -/
def Queue.head? (x : Queue) : Option Held := x.all.head?

/-- Every packet that a queue holds discarded in enqueue order; the fuel is their number. -/
def Dev.discardAll (d : Dev) (q reason : Nat) : Nat → Dev
  | 0 => d
  | k + 1 =>
    match (d.queue q).headTier with
    | some n => (d.discardHead q n reason).discardAll q reason k
    | none => d

/-- A queue flushed with reason FLUSHED (R305). -/
def Dev.flushQueue (d : Dev) (q : Nat) : Dev := d.discardAll q 7 (d.queue q).all.length

/-- The packet has been in its queue for more than AGE_MS (R304): 62,500 ticks of 16 ns each ms. -/
def Dev.aged (d : Dev) (x : Queue) (h : Held) : Bool :=
  x.ageMs ≠ 0 && decide (x.ageMs * 62500 < (d.tick + 2 ^ 32 - h.tick % 2 ^ 32) % 2 ^ 32)

/-- Aged packets discarded from the head until it is younger (R304). -/
def Dev.ageHead (d : Dev) (q : Nat) : Nat → Dev
  | 0 => d
  | k + 1 =>
    match (d.queue q).head?, (d.queue q).headTier with
    | some h, some n => if d.aged (d.queue q) h then (d.discardHead q n 6).ageHead q k else d
    | _, _ => d

/-- AGING_SCAN (R304): one queue with AGE_MS ≠ 0 that has made no decision for 10 ms. -/
def Dev.agingScan (d : Dev) (q : Nat) : Dev :=
  let x := d.queue q
  if x.valid ∧ x.lastDec + 625000 ≤ d.tick16 then d.ageHead q x.all.length else d

/-! ### Holds (R303, R306) -/

/-- The key pair that a queue's KEY_SEL names (R303). -/
def Dev.queuePair (d : Dev) (q : Nat) : Option Nat :=
  let x := d.queue q
  match x.keySel with
  | 1 => some (uniPair x.term)
  | 2 => (d.queuePort q).map bcastPair
  | _ => none

/-- The effective hold of a queue (R306). -/
def Dev.held (d : Dev) (q : Nat) : Bool := (d.queue q).hold || ((d.queuePair q).map d.pairHeld).getD false

/-! ### Commands (R307, R314) -/

/-- A queue that a command names: DENIED outside the VF's slice, BAD_ARGUMENT beyond the structure (R284, R307). -/
def Dev.tmQueue (d : Dev) (a : Accepted) (k : Nat → CmdRes) : CmdRes :=
  let q := bits a.obj 18 0
  let st := b2n (d.queue q).valid
  match sliceOf? a.src with
  | some s => if d.sliceOfQueue q ≠ some s then .refuse .denied st else if d.nQueues ≤ q ∨ bit a.obj 20 then .refuse .badArgument 0 else k q
  | none => if d.nQueues ≤ q ∨ bit a.obj 20 then .refuse .badArgument 0 else k q

/-- A node lies within the structure (R283 to R285). -/
def Dev.nodeExists (d : Dev) (n : Nat) : Bool := if n < 128 then d.portExists n else decide (n < d.nNodes)

/-- A node that a command names. -/
def Dev.tmNode (d : Dev) (a : Accepted) (k : Nat → CmdRes) : CmdRes :=
  let n := bits a.obj 15 0
  let bad := !d.nodeExists n || !bit a.obj 20
  match sliceOf? a.src with
  | some s => if d.nodeSlice n ≠ some s then .refuse .denied (b2n (d.nodeValid n)) else if bad then .refuse .badArgument 0 else k n
  | none => if bad then .refuse .badArgument 0 else k n

/-- The node or queue that a SHAPER opcode names by OBJ[20]. -/
def Dev.tmChild (d : Dev) (a : Accepted) (k : Child → CmdRes) : CmdRes :=
  if bit a.obj 20 then d.tmNode a fun n => k (.node n) else d.tmQueue a fun q => k (.queue q)

/-- A VF names a node as PARENT outside its slice (R307); R285 lets it name a shared port node, and a port node that does not
exist is left to the attachment rule (log entry 24). -/
def Dev.parentDenied (d : Dev) (src : Src) (par : Nat) : Bool :=
  match sliceOf? src with
  | some s => if par < 128 then d.portExists par && (d.nodeSlice par).isSome && d.nodeSlice par ≠ some s else d.sliceOfNode par ≠ some s
  | none => false

/-- The attachment of a node of an owner to PARENT is allowed (R283, R285). -/
def Dev.nodeParentOk (d : Dev) (n par : Nat) : Bool :=
  let own := d.sliceOfNode n
  if par < 128 then d.portExists par && (d.nodeSlice par == own || (d.nodeSlice par).isNone)
  else decide (par < d.nNodes) && decide (par ≠ n) && d.level par == 1 && d.sliceOfNode par == own && d.nodeValid par

/-- The attachment of a queue of an owner to PARENT is allowed (R285). -/
def Dev.queueParentOk (d : Dev) (q par : Nat) : Bool :=
  decide (128 ≤ par ∧ par < d.nNodes) && d.sliceOfNode par == d.sliceOfQueue q && d.nodeValid par

/-- The pool of a queue exists and is its slice's, or a device pool for a device queue (R324). -/
def Dev.queuePoolOk (d : Dev) (q p : Nat) : Bool :=
  d.poolExists p && (match d.sliceOfQueue q with
    | some s => d.poolSlice p == s
    | none => d.poolSlice p == 0xFF)

/-- QUEUE_WRITE: the words that it may not carry (R285, R303, R314, R324). -/
def Dev.queueWordsBad (d : Dev) (a : Accepted) (q : Nat) : Bool :=
  let w0 := a.dat 0
  let par := bits w0 15 0
  let pfc := a.db 1 19 16
  let sel := bits w0 27 26
  let port := d.nodePort 3 par
  let pon := match port with
    | some p => decide (p < 64)
    | none => false
  let up := match port with
    | some p => decide (64 ≤ p ∧ p < 76)
    | none => false
  a.db 1 15 0 == 0 || decide (8 ≤ pfc ∧ pfc ≤ 14) || bits w0 29 28 == 3 || sel == 3 || !d.queuePoolOk q (bits w0 24 19) ||
    (bit w0 31 && (!d.queueParentOk q par || (pfc != 15 && !up) || (sel == 2 && !pon) ||
      (sel == 1 && port != some (a.db 5 30 16 / 512))))

/-- QUEUE_WRITE (R286, R314). -/
def opQueueWrite (a : Accepted) (d : Dev) : CmdRes :=
  d.tmQueue a fun q =>
    let x := d.queue q
    let w0 := a.dat 0
    let st := b2n x.valid
    let on := bit w0 31
    let poolDenied : Bool := match sliceOf? a.src with
      | some s => d.poolSlice (bits w0 24 19) ≠ s
      | none => false
    if poolDenied ∨ (on ∧ d.parentDenied a.src (bits w0 15 0)) then .refuse .denied st
    else if d.queueWordsBad a q then .refuse .badArgument st
    else if !x.all.isEmpty ∧ (!on ∨ bits w0 15 0 ≠ x.parent ∨ bits w0 24 19 ≠ x.pool ∨ bits w0 27 26 ≠ x.keySel ∨
        a.db 5 30 16 ≠ x.term) then .refuse .notInState st
    else
      let y := { x with valid := on, w0 := w0, w1 := a.db 1 19 0, thG := a.db 2 23 0, thY := a.db 3 23 0, thR := a.db 4 23 0,
                        w5 := a.db 5 30 0 }
      let stay := x.valid && on && x.parent == y.parent && x.prio == y.prio
      let d1 := if x.valid ∧ !stay then d.detach x.parent (.queue q) else d
      let d2 := d1.onQueue q fun _ => y
      .done (if on ∧ !stay then d2.attach y.parent (.queue q) else d2) .ok []

/-- QUEUE_READ (R314). -/
def opQueueRead (a : Accepted) (d : Dev) : CmdRes :=
  d.tmQueue a fun q =>
    let x := d.queue q
    let occ := d.queueOcc q
    .done d .ok [(0, x.w0), (1, x.w1), (2, x.thG), (3, x.thY), (4, x.thR), (5, x.w5), (6, occ % 2 ^ 32),
      (7, occ / 2 ^ 32 % 64 + 64 * b2n (d.held q) + 128 * b2n x.hold + 256 * min 0xFFFFFF x.all.length)]

/-- QUEUE_FLUSH (R305): the packets that the queue holds at the commit point go; the command waits until the last is freed, unless
there is none. -/
def opQueueFlush (a : Accepted) (d : Dev) : CmdRes :=
  d.tmQueue a fun q =>
    let x := d.queue q
    if !x.valid then .refuse .notInState 0
    else if x.all.isEmpty then .done (d.raise (R .TM_FLAGS) 5) .ok []
    else .wait (d.flushQueue q)

/-- QUEUE_FLUSH_DONE (R305): the running flush completes. -/
def Dev.flushDone (d : Dev) : Dev :=
  match d.waitingCmd .tm 3 with
  | some _ => (d.raise (R .TM_FLAGS) 5).completeWaiting .tm 3 .ok []
  | none => d

/-- QUEUE_HOLD (R306). -/
def opQueueHold (a : Accepted) (d : Dev) : CmdRes :=
  d.tmQueue a fun q =>
    if !(d.queue q).valid then .refuse .notInState 0
    else .done (d.onQueue q fun x => { x with hold := bit (a.dat 0) 0 }) .ok []

/-- NODE_WRITE (R286, R314). -/
def opNodeWrite (a : Accepted) (d : Dev) : CmdRes :=
  d.tmNode a fun n =>
    let x := d.node n
    let w0 := a.dat 0
    let par := bits w0 15 0
    let on := bit w0 31
    let qs := bits w0 22 19
    let st := b2n (d.nodeValid n)
    if n < 128 then (if 8 < qs then .refuse .badArgument st else .done (d.onNode n fun x => { x with qshift := qs }) .ok [])
    else if on ∧ d.parentDenied a.src par then .refuse .denied st
    else if 8 < qs ∨ a.db 1 15 0 = 0 ∨ (on ∧ !d.nodeParentOk n par) then .refuse .badArgument st
    else if !x.children.isEmpty ∧ (!on ∨ par ≠ x.parent) then .refuse .notInState st
    else
      let y := { x with valid := on, parent := par, prio := bits w0 18 16, qshift := qs, weight := a.db 1 15 0 }
      let stay := x.valid && on && x.parent == y.parent && x.prio == y.prio
      let d1 := if x.valid ∧ !stay then d.detach x.parent (.node n) else d
      let d2 := d1.onNode n fun _ => y
      .done (if on ∧ !stay then d2.attach par (.node n) else d2) .ok []

/-- NODE_READ (R314). -/
def opNodeRead (a : Accepted) (d : Dev) : CmdRes :=
  d.tmNode a fun n =>
    let x := d.node n
    let w0 := x.parent + x.prio * 2 ^ 16 + x.qshift * 2 ^ 19 + 2 ^ 31 * b2n (d.nodeValid n)
    .done d .ok [(0, w0), (1, x.weight), (2, d.level n + 256 * min 0xFFFFFF x.children.length)]

/-- SHAPER_WRITE (R295, R296). -/
def opShaperWrite (a : Accepted) (d : Dev) : CmdRes :=
  d.tmChild a fun c =>
    let k := bits a.obj 21 21
    let rate := a.dat 0
    let mode := a.db 1 29 28
    let en := bit (a.dat 1) 31
    let b := d.buckets c
    let port : Bool := match c with
      | .node n => decide (n < 128)
      | .queue _ => false
    let other := if k = 0 then b.2 else b.1
    let below := en && other.en && (if k = 0 then decide (other.rate < rate) else decide (rate < other.rate))
    if mode = 3 ∨ (en ∧ (rate = 0 ∨ 1600000000 < rate)) ∨ below ∨ (port ∧ k = 0) then .refuse .badArgument 0
    else
      let now := d.tick
      .done (d.onBucket c k fun b => b.write now rate (a.db 1 27 0) mode en) .ok []

/-- SHAPER_READ (R314): the stored state, without a refill. -/
def opShaperRead (a : Accepted) (d : Dev) : CmdRes :=
  d.tmChild a fun c =>
    let b := if bits a.obj 21 21 = 0 then (d.buckets c).1 else (d.buckets c).2
    let t := unsigned 48 b.tok
    .done d .ok [(0, b.rate), (1, b.burst + b.mode * 2 ^ 28 + 2 ^ 31 * b2n b.en), (2, t % 2 ^ 32), (3, t / 2 ^ 32), (4, b.last),
      (5, d.tick)]

/-! ### Registers (R309, R313) -/

/-- A write of TM_PORT_CFG (R309). -/
def Dev.portCfgWrite (d : Dev) (p v : Nat) : Dev :=
  let x := signed 7 v
  if x < -32 ∨ 63 < x then d.cfgRefused (R .TM_FLAGS) 6 else d.setReg (R .TM_PORT_CFG p) (v % 128)

end Sys2Proof.Machine
end

