-- ==== Sys2Proof/Machine/Uplink.lean ====
section
/-! DEFINITION. Uplink ports (spec/12): states and conditions, reception, pause and PFC, statistics, link aggregation, transmission,
and the writes of the UL registers. -/

namespace Sys2Proof.Machine

/-! ### Ports -/

/-- Port u. -/
def Dev.ulPort (d : Dev) (u : Nat) : UlPort := d.ul.ports.getD u UlPort.rest

/-- Port u changed by f. -/
def Dev.onPort (d : Dev) (u : Nat) (f : UlPort → UlPort) : Dev :=
  d.onUl fun x => { x with ports := x.ports.put UlPort.rest u (f (x.ports.getD u UlPort.rest)) }

/-- The lanes of port u; 1 where it is none. -/
def Dev.portLanes (d : Dev) (u : Nat) : Nat := ((d.portDef u).map PortDef.lanes).getD 1

/-- A port that exists and is UP. -/
def Dev.portUp (d : Dev) (u : Nat) : Bool := (d.portDef u).isSome && (d.ulPort u).state == .up

/-- A statistic of a port grown by n (R401). -/
def Dev.ulStat (d : Dev) (u i n : Nat) : Dev :=
  d.onPort u fun p => { p with stats := p.stats.put 0 i ((p.stats.getD i 0 + n) % 2 ^ 64) }

/-- UL_STAT_LO_READ (R401). -/
def Dev.ulStatLoRead (d : Dev) (u i : Nat) : Dev :=
  let v := (d.ulPort u).stats.getD i 0
  (d.onPort u fun p => { p with shadow := p.shadow.put 0 i (v / 2 ^ 32) }).respond (.data (v % 2 ^ 32))

/-- CLR_STATS (R396): every statistic zero; one that increments in the same cycle reads 1. -/
def Dev.clrStats (d : Dev) (u : Nat) (now : List Nat) : Dev :=
  if (d.portDef u).isNone then d
  else d.onPort u fun p => { p with stats := (List.range 22).foldl (fun t i => if now.contains i then t.put 0 i 1 else t) [] }

/-! ### Link aggregation (R391 to R393) -/

/-- Fields of a member's word (R402). -/
def Dev.lagMember (d : Dev) (g m : Nat) : Nat := d.reg (R .UL_LAG_MEMBER g m)

/-- S of a group. -/
def Dev.lagSpan (d : Dev) (g : Nat) : Nat := d.fld (R .UL_LAG_CFG g) 11 0

/-- Member m is distributing (R391). -/
def Dev.lagDistributes (d : Dev) (g m : Nat) : Bool :=
  let w := d.lagMember g m
  bit w 31 && bit w 29 && d.portUp (bits w 22 19)

/-- The distributing set of a group as a mask (R402). -/
def Dev.lagDist (d : Dev) (g : Nat) : Nat := ((List.range 8).map fun m => b2n (d.lagDistributes g m) * 2 ^ m).foldl (· + ·) 0

/-- The queues of the span of a member with BASE b flushed (R393). -/
def Dev.lagFlush (d : Dev) (g b : Nat) : Dev :=
  let qs := (d.tm.queues.filter fun kv => decide (b ≤ kv.1 ∧ kv.1 < b + d.lagSpan g)).map Prod.fst
  qs.foldl (fun d q => d.flushQueue q) d

/-- A change of the distributing sets takes effect: with FLUSH_ON_REMOVE the members that left are flushed at the BASE that they left with
(R393). -/
def Dev.lagSyncAt (d : Dev) (base : Nat → Nat → Nat) : Dev :=
  upTo 8 d fun g d =>
    let old := d.ul.lagDist.getD g 0
    let new := d.lagDist g
    if old = new then d
    else
      let d1 := d.onUl fun x => { x with lagDist := x.lagDist.put 0 g new }
      if d1.flag (R .UL_LAG_CFG g) 30 then upTo 8 d1 fun m d => if bit old m && !bit new m then d.lagFlush g (base g m) else d else d1

/-- The same where no BASE has changed. -/
def Dev.lagSync (d : Dev) : Dev := d.lagSyncAt fun g m => bits (d.lagMember g m) 18 0

/-- What link aggregation makes of a packet's queue (R392). -/
inductive LagRes where
  | queue (q : Nat)
  | noMember (g : Nat)
  | slice (g : Nat)
  deriving DecidableEq, Repr

/-- LAG_REDIRECT (R392). -/
def Dev.lagRedirect (d : Dev) (q h : Nat) : LagRes :=
  let base (g : Nat) : Nat := bits (d.lagMember g 0) 18 0
  match (List.range 8).find? fun g => d.flag (R .UL_LAG_CFG g) 31 && decide (base g ≤ q ∧ q < base g + d.lagSpan g) with
  | none => .queue q
  | some g =>
    let ms := (List.range 8).filter fun m => d.lagDistributes g m
    if ms.isEmpty then .noMember g
    else
      let j := (h / 65536 * ms.length) / 65536
      let q2 := (bits (d.lagMember g (ms.getD j 0)) 18 0 + (q - base g)) % 2 ^ 19
      if d.sliceOfQueue q2 ≠ d.sliceOfQueue q then .slice g else .queue q2

/-- The members that name port u. -/
def Dev.lagOf (d : Dev) (u : Nat) : List (Nat × Nat) :=
  ((List.range 8).flatMap fun g => (List.range 8).map fun m => (g, m)).filter fun x =>
    let w := d.lagMember x.1 x.2
    bit w 31 && bits w 22 19 == u

/-- The refusal of a LAG write (R393). -/
def Dev.lagRefused (d : Dev) (g : Nat) : Dev := d.cfgRefused (R .UL_LAG_FLAGS g) 2

/-- The reference spans of two groups overlap. -/
def spansMeet (a n b m : Nat) : Bool := decide (a < b + m ∧ b < a + n)

/-- A write of UL_LAG_CFG (R393, R402). -/
def Dev.lagCfgWrite (d : Dev) (g v : Nat) : Dev :=
  let r := R .UL_LAG_CFG g
  let old := d.reg r
  let span := bits v 11 0
  let badSpan := decide (span ≠ bits old 11 0) && (bit old 31 || span == 0)
  let span' := if badSpan then bits old 11 0 else span
  let base (k : Nat) : Nat := bits (d.lagMember k 0) 18 0
  let meets := (List.range 8).any fun k => k ≠ g && d.flag (R .UL_LAG_CFG k) 31 && spansMeet (base g) span' (base k) (d.lagSpan k)
  let badEn := bit v 31 && meets
  let en := if badEn then bit old 31 else bit v 31
  let d1 := d.setReg r (2 ^ 31 * b2n en + 2 ^ 30 * b2n (bit v 30) + span')
  if badSpan ∨ badEn then d1.lagRefused g else d1

/-- A write of UL_LAG_MEMBER (R38, R393, R402): VALID, PORT and BASE are refused while EN = 1, VALID and PORT for a port of another
group or a lane that is no port's lowest; a BASE beyond the structure is rejected. -/
def Dev.lagMemberWrite (d : Dev) (g m v : Nat) (src : Src) : Dev :=
  let r := R .UL_LAG_MEMBER g m
  let old := d.reg r
  let en := d.flag (R .UL_LAG_CFG g) 31
  let u := bits v 22 19
  let names := bit v 31 || u != bits old 22 19
  let badPort := names && ((d.portDef u).isNone || ((d.lagOf u).any fun x => x.1 != g))
  let changes := bit v 31 != bit old 31 || u != bits old 22 19 || bits v 18 0 != bits old 18 0
  let w := bits v 31 29 * 2 ^ 29 + u * 2 ^ 19 + bits v 18 0
  let w1 := if en ∨ badPort then putBits (putBits w 31 31 (bits old 31 31)) 22 19 (bits old 22 19) else w
  let beyond := decide (d.nQueues ≤ bits v 18 0)
  let w2 := if en ∨ beyond then putBits w1 18 0 (bits old 18 0) else w1
  let d1 := d.setReg r w2
  let d2 := if (en ∧ changes) ∨ badPort then d1.lagRefused g else d1
  (if beyond ∧ !en then d2.structReject r v src else d2).lagSyncAt fun g m => bits (d.lagMember g m) 18 0

/-! ### States and conditions (R380 to R384) -/

/-- A condition is kept from its report by a higher one (R127, R383). -/
def condHidden (cond code : Nat) : Bool :=
  match code with
  | 2 => bit cond 1
  | 3 => bit cond 2
  | 1 => false
  | _ => bit cond 1 || bit cond 2 || bit cond 3

/-- The reports of a port's conditions (R128, R383): a new declaration sets its flag and is recorded. -/
def Dev.ulReport (d : Dev) (u : Nat) : Dev :=
  [1, 2, 3, 4, 5, 6].foldl (fun d code =>
    let p := d.ulPort u
    if condHidden p.cond code || bit p.cond code == bit p.reported code then d
    else
      let d1 := d.onPort u fun p => { p with reported := putBits p.reported code code (bits p.cond code code) }
      if bit p.cond code then d1.raiseRec (R .UL_FLAGS u) (code + 1) .ul u false [(1, u)] else d1) d

/-- A port's state changes with the condition that caused it (R380, R389): flags, record, statistic, timers, LAG. -/
def Dev.setPort (d : Dev) (u : Nat) (st : PortState) (cause : Nat) : Dev :=
  let old := (d.ulPort u).state
  if old = st then d
  else
    let d1 := d.onPort u fun p => { p with
      state := st, pause := if old = .up then none else p.pause, pfc := if old = .up then [] else p.pfc
      leftAt := if old = .up then some d.now else p.leftAt }
    let d2 := if st = .up then d1.raiseRec (R .UL_FLAGS u) 0 .ul u false [(1, u), (1, cause)]
      else if old = .up then d1.raiseRec (R .UL_FLAGS u) 1 .ul u false [(1, u), (1, cause)]
      else d1
    let d3 := if st = .down then d2.ulStat u 21 1 else d2
    d3.lagSync

/-- None of LOS, LOA, HI_BER, LF and RF is declared (R380). -/
def UlPort.clear (p : UlPort) : Bool := bits p.cond 5 1 == 0

/-- A port's state after a change of its conditions (R380). -/
def Dev.ulEvaluate (d : Dev) (u cause : Nat) : Dev :=
  let p := d.ulPort u
  match p.state with
  | .disabled => d
  | .up => if p.clear then d else (d.onPort u fun p => { p with clearAt := none }).setPort u .down cause
  | .down =>
    if !p.clear then d.onPort u fun p => { p with clearAt := none }
    else if d.fld (R .UL_PORT_CFG u) 15 8 = 0 then d.setPort u .up cause
    else if p.clearAt.isSome then d else d.onPort u fun p => { p with clearAt := some d.tb.ticks, upCause := cause }

/-- PORT_UP (R380): UP_HOLD_MS ms have passed without any of the five conditions. -/
def Dev.ulUp (d : Dev) (u : Nat) : Dev :=
  let p := d.ulPort u
  match p.state, p.clearAt with
  | .down, some t => if p.clear ∧ d.fld (R .UL_PORT_CFG u) 15 8 * 781250 ≤ d.tb.ticks - t then d.setPort u .up p.upCause else d
  | _, _ => d

/-- The frame whose transmission the model has begun is still on the wire (R381), and its entry stands last in the timestamp queue. -/
def Dev.ulSending (d : Dev) (u : Nat) : Option Bool := ((d.ulPort u).tx.filter fun x => decide (d.tb.ticks < x.1)).map Prod.snd

/-- What a port that leaves UP does with the frames under way (R381, R417): the one being sent is aborted, and its timestamp entry goes;
the one being received is discarded. `sending` and `receiving` are what the wire shows beside the frame that the model sends, `stamped`
that the entry of the frame has been made (log entry 111). -/
def Dev.ulAbort (d : Dev) (u : Nat) (sending stamped receiving : Bool) : Dev :=
  let tx := d.ulSending u
  let d1 := if sending || tx.isSome then (d.raise (R .UL_FLAGS u) 8).ulStat u 14 1 else d
  let gone := tx == some true || (sending && stamped && ((d.ulPort u).tx.map Prod.snd).getD false)
  let d2 := if gone then d1.onTb fun b => { b with txts := b.txts.put [] u (b.txts.getD u []).dropLast } else d1
  let d3 := d2.onPort u fun p => { p with tx := none }
  if receiving then d3.ulStat u 5 1 else d3

/-- Any lane of the port has LOS (R383). -/
def Dev.portLos (d : Dev) (u : Nat) : Bool := (List.range (d.portLanes u)).any fun i => d.flag (R .LX_UL_STATUS (u + i)) 0

/-- Any lane of the port has LOS or LOL (R91). -/
def Dev.portBad (d : Dev) (u : Nat) : Bool := (List.range (d.portLanes u)).any fun i => d.fld (R .LX_UL_STATUS (u + i)) 1 0 != 0

/-- The lanes of a port with the identity and the delay in UI that the alignment markers show on each (R87). -/
def Dev.portGroup (d : Dev) (u : Nat) (lanes : List (Nat × Nat)) : List (Nat × Nat × Nat) :=
  ((List.range (d.portLanes u)).zip lanes).map fun x => (u + x.1, x.2.1, x.2.2)

/-- The PCS of a port can align (R87, R88, R91): no lane has LOS or LOL, the markers name each lane once, and the skew is tolerated. -/
def Dev.portAligns (d : Dev) (u : Nat) (lanes : List (Nat × Nat)) : Bool :=
  let g := d.portGroup u lanes
  !d.portBad u && g.length == d.portLanes u && g.all (fun x => decide (x.2.1 < d.portLanes u)) && groupAligns .ul g

/-- Alignment marker lock comes or goes on the lanes of a port (R91, R102, R107). -/
def Dev.portMarkers (d : Dev) (u : Nat) (on : Bool) : Dev :=
  upTo (d.portLanes u) d fun i d =>
    let d1 := d.setFld (R .LX_UL_STATUS (u + i)) 6 6 (b2n on)
    if on then d1 else d1.skewLost .ul (u + i)

/-- A condition of a port is declared or clears, with what follows for the port (R380, R383). -/
def Dev.ulDeclare (d : Dev) (u code : Nat) (on sending stamped receiving : Bool) : Dev :=
  let was := d.portUp u
  let d1 := (d.onPort u fun p => { p with cond := putBits p.cond code code (b2n on) }).ulReport u
  let d2 := d1.ulEvaluate u code
  if was ∧ !d2.portUp u then d2.ulAbort u sending stamped receiving else d2

/-- LOA is declared (R91): every lane of the port loses MARKER_LOCK and SKEW.VALID, the failed one and the others (log entry 120), and the
reconciliation sublayer signals local fault. -/
def Dev.ulUnaligned (d : Dev) (u : Nat) (sending stamped receiving : Bool) : Dev :=
  ((d.portMarkers u false).ulDeclare u 2 true sending stamped receiving).ulDeclare u 4 true false false false

/-- PORT_CONDITION_CHANGE (R87, R88, R91, R107, R383): a condition of an enabled port is declared or clears. LOS stands as the LOS of its
lanes does. LOA clears where the group aligns with the lanes as their markers show them, and local fault with it; a group that stays
unaligned has no valid skew. While LOA is declared local fault stands. -/
def Dev.ulCondition (d : Dev) (u code : Nat) (on sending stamped receiving : Bool) (lanes : List (Nat × Nat)) : Dev :=
  if (d.portDef u).isNone ∨ (d.ulPort u).state = .disabled ∨ code < 1 ∨ 5 < code then d
  else if code = 2 then
    if on then d.ulUnaligned u sending stamped receiving
    else
      let d1 := d.writeSkew .ul (d.portGroup u lanes)
      if d.portAligns u lanes then
        (((d1.portMarkers u true).ulDeclare u 4 false false false false).ulDeclare u 2 false false false false).onPort u fun p =>
          { p with winAt := d.tb.ticks }
      else upTo (d.portLanes u) d1 fun i d => d.skewLost .ul (u + i)
  else if code = 1 then (if bit (d.ulPort u).cond 1 = d.portLos u then d else d.ulDeclare u 1 (d.portLos u) sending stamped receiving)
  else if code = 4 ∧ !on ∧ bit (d.ulPort u).cond 2 then d
  else d.ulDeclare u code on sending stamped receiving

/-- What follows a change of LOS or LOL on an uplink lane (R91, R383, R384): the LOS of its port, and the alignment that its port loses
with any lane. -/
def Dev.ulLaneFollow (d : Dev) (lane : Nat) (sending stamped receiving : Bool) : Dev :=
  match d.portOfLane lane with
  | some p =>
    if (d.ulPort p.lane).state = .disabled then d
    else
      let d1 := if bit (d.ulPort p.lane).cond 1 = d.portLos p.lane then d else
        d.ulDeclare p.lane 1 (d.portLos p.lane) sending stamped receiving
      if d1.portBad p.lane ∧ !bit (d1.ulPort p.lane).cond 2 then d1.ulUnaligned p.lane sending stamped receiving else d1
  | none => d

/-- PORT_EN written (R91, R380): 0 disables at once; 1 takes a DISABLED port to DOWN, whose PCS has no alignment yet, with local fault
(log entry 29); its lanes carry data from there (R85). -/
def Dev.portEnable (d : Dev) (u : Nat) (en : Bool) : Dev :=
  if (d.portDef u).isNone then d
  else if en ∧ (d.ulPort u).state = .disabled then
    let d1 := (d.setPort u .down 0).onLx fun x =>
      { x with txPrev := (List.range (d.portLanes u)).foldl (fun t i => t.set (laneKey .ul (u + i)) none) x.txPrev }
    ((d1.portMarkers u false).onPort u fun p => { p with
      cond := 20 + 2 * b2n (d1.portLos u), reported := 0, clearAt := none, ser := d.reg (R .UL_SER_CFG u), winAt := d.tb.ticks }).ulReport u
  else if !en then
    let d1 := if d.portUp u then (d.setPort u .disabled 0).ulAbort u false false false else d.setPort u .disabled 0
    (d1.portMarkers u false).onPort u fun p => { p with cond := 0, reported := 0, clearAt := none }
  else d

/-- What the MAC and the reconciliation sublayer of a port put on its lanes (R380, R382). -/
inductive UlTx where
  | squelched | prbs | remoteFault | idle | frames
  deriving DecidableEq, Repr

/-- What port u transmits (R380, R382, R97, R101): in DISABLED nothing, or its generators' patterns; in UP frames and idle; in DOWN link
fault signalling and no data: remote fault sequences while its receive side is at fault (LOS, LOA, HI_BER, LF), and idle where it only
receives remote fault or waits for UP_HOLD_MS (IEEE 802.3 clause 81; log entry 121). -/
def Dev.ulTransmits (d : Dev) (u : Nat) : UlTx :=
  let p := d.ulPort u
  match p.state with
  | .disabled => if (List.range (d.portLanes u)).any fun i => d.flag (lanePrbsCtl .ul (u + i)) 4 && !d.txOff .ul (u + i) then .prbs else .squelched
  | .down => if bits p.cond 4 1 ≠ 0 then .remoteFault else .idle
  | .up => .frames

/-- What UL lane i transmits (R380, R101): what its port does, unless TX_FORCE_OFF or POWER_DOWN squelches it; on a DISABLED port the
pattern of its own generator or nothing. -/
def Dev.ulLaneTx (d : Dev) (i : Nat) : UlTx :=
  match d.portOfLane i with
  | none => .squelched
  | some p =>
    if d.txOff .ul i then .squelched
    else if (d.ulPort p.lane).state = .disabled then (if d.flag (lanePrbsCtl .ul i) 4 then .prbs else .squelched)
    else d.ulTransmits p.lane

/-- The codewords of the window under way on port u, by the WIN_LOG2 with which it began (R387, R400). -/
def Dev.winWords (d : Dev) (u : Nat) : Nat := 2 ^ bits (d.ulPort u).ser 31 28 * 1024

/-- The window of a port has ended (R387): the port has been enabled and aligned for its codewords of 5,440 bits at 106.25 Gbit/s a
lane, which are 40 timebase ticks each on one lane. -/
def Dev.winDue (d : Dev) (u : Nat) : Bool := decide ((d.ulPort u).winAt + d.winWords u * 40 / d.portLanes u ≤ d.tb.ticks)

/-- DEGRADED_WINDOW_END (R387): the window's corrected and uncorrectable codewords, no more than it has, and its corrected symbols by
lane, which the statistics show at its end (log entry 111). -/
def Dev.degradedWindow (d : Dev) (u corr uncorr : Nat) (syms : List Nat) : Dev :=
  if (d.portDef u).isNone ∨ (d.ulPort u).state = .disabled ∨ !d.winDue u ∨ d.winWords u < corr + uncorr then d
  else
    let syms := syms.take (d.portLanes u)
    let d1 := (d.ulStat u 15 corr).ulStat u 16 uncorr
    let d2 := (syms.zip (List.range 4)).foldl (fun d x => d.ulStat u (17 + x.2) x.1) d1
    let n := syms.foldl (· + ·) 0
    let ser := (d2.ulPort u).ser
    let p := d2.ulPort u
    let deg := if bits ser 27 14 ≤ n then 1 else if n < bits ser 13 0 then 0 else bits p.cond 6 6
    (d2.onPort u fun p => { p with cond := putBits p.cond 6 6 deg, ser := d2.reg (R .UL_SER_CFG u), winAt := d.tb.ticks }).ulReport u

/-! ### Pause and PFC (R388 to R390) -/

/-- Timebase ticks of quanta on a port (R388): 5.12 ns on one lane, 2.56 on two, 1.28 on four. -/
def Dev.quantaTicks (d : Dev) (u q : Nat) : Nat := q * 4 / d.portLanes u

/-- MODE of a port's flow control. -/
def Dev.fcMode (d : Dev) (u : Nat) : Nat := d.fld (R .UL_FC_CFG u) 25 24

/-- The port is paused as a whole; the PFC timer of a class runs (R389). -/
def Dev.paused (d : Dev) (u : Nat) : Bool := ((d.ulPort u).pause.map fun e => decide (d.tb.ticks < e)).getD false
def Dev.pfcPaused (d : Dev) (u c : Nat) : Bool := (((d.ulPort u).pfc.get? c).map fun e => decide (d.tb.ticks < e)).getD false

/-- PAUSE_FRAME (R388, R389). -/
def Dev.pauseFrame (d : Dev) (u q : Nat) : Dev :=
  if !d.portUp u then d
  else if d.fcMode u ≠ 1 then d.ulStat u 8 1
  else (d.ulStat u 6 1).onPort u fun p => { p with pause := if q = 0 then none else some (d.tb.ticks + d.quantaTicks u q) }

/-- PFC_FRAME (R388, R389): the enable bits and the eight quanta. -/
def Dev.pfcFrame (d : Dev) (u en : Nat) (qs : List Nat) : Dev :=
  if !d.portUp u then d
  else if d.fcMode u ≠ 2 then d.ulStat u 8 1
  else
    (d.ulStat u 7 1).onPort u fun p => { p with
      pfc := (List.range 8).foldl (fun t c =>
        let q := qs.getD c 0
        if !bit en c then t else if q = 0 then t.erase c else t.set c (d.tb.ticks + d.quantaTicks u q)) p.pfc }

/-- PAUSE_TIMER_EXPIRY (R389): the port's timers that have ended are cleared. -/
def Dev.pauseExpiry (d : Dev) (u : Nat) : Dev :=
  d.onPort u fun p => { p with
    pause := p.pause.filter fun e => decide (d.tb.ticks < e)
    pfc := p.pfc.keep fun _ e => decide (d.tb.ticks < e) }

/-- The bytes that every queue of a pool holds (R298). -/
def Dev.poolOcc (d : Dev) (p : Nat) : Nat :=
  ((d.tm.queues.filter fun kv => kv.2.pool == p).map fun kv => d.queueOcc kv.1).foldl (· + ·) 0

/-- A MAC control frame of 64 bytes leaves an UP port (R386, R390). -/
def Dev.sendFc (d : Dev) (f : FcFrame) : Dev :=
  if !d.portUp f.port then d
  else (((d.onUl fun x => { x with fcSent := f :: x.fcSent }).ulStat f.port (if f.pfc then 13 else 12) 1).ulStat f.port 10 1).ulStat f.port 11 64

/-- The state that class c of port u takes (R390): XOFF, XON, or as it was. -/
def Dev.fcWant (d : Dev) (u c : Nat) : Bool :=
  let t := d.reg (R .UL_FC_TH u c)
  let mode := d.fcMode u
  let was := bit (d.ulPort u).xoff c
  if mode = 0 ∨ !bit t 31 ∨ (mode = 1 ∧ c ≠ 0) then false
  else
    let occ := d.poolOcc (bits t 29 24)
    let force := bit (d.fld (R .UL_FC_CFG u) 23 16) c
    if bits t 23 12 * 2 ^ 20 < occ ∨ force then true
    else if occ < bits t 11 0 * 2 ^ 20 then false
    else was

/-- A class for which the port sends flow control. -/
def Dev.fcEnabled (d : Dev) (u c : Nat) : Bool := d.flag (R .UL_FC_TH u c) 31 && d.fcMode u ≠ 0 && (d.fcMode u ≠ 1 || c == 0)

/-- FC_STATE_CHANGE of one port (R390): classes that change share one PFC frame. -/
def Dev.fcPort (d : Dev) (u : Nat) : Dev :=
  let old := (d.ulPort u).xoff
  let want := (List.range 8).map fun c => (c, d.fcWant u c)
  let new := (want.map fun x => b2n x.2 * 2 ^ x.1).foldl (· + ·) 0
  if old = new then d
  else
    let q := d.fld (R .UL_FC_CFG u) 15 0
    let changed := want.filter fun x => x.2 != bit old x.1 && d.fcEnabled u x.1
    let d1 := d.onPort u fun p => { p with xoff := new, fcAt := changed.foldl (fun t x => t.put 0 x.1 d.tb.ticks) p.fcAt }
    if changed.isEmpty then d1
    else d1.sendFc ⟨u, d.fcMode u == 2, changed.map fun x => (x.1, if x.2 then q else 0)⟩

/-- The flow-control state of every class of every port, decided at every cycle (R390); only an UP port sends its frames. -/
def Dev.fcEvaluate (d : Dev) : Dev := (d.im.str.ports.map PortDef.lane).foldl (fun d u => d.fcPort u) d

/-- The repeat of a class is due (R390): QUANTA / 2 quanta have passed since its last frame. -/
def Dev.xoffDue (d : Dev) (u c : Nat) : Bool :=
  decide ((d.ulPort u).fcAt.getD c 0 + d.quantaTicks u (d.fld (R .UL_FC_CFG u) 15 0) / 2 ≤ d.tb.ticks)

/-- XOFF_REPEAT (R390): the frame of a class that stays in XOFF is sent again; QUANTA = 0 sends no repeat. -/
def Dev.xoffRepeat (d : Dev) (u c : Nat) : Dev :=
  let q := d.fld (R .UL_FC_CFG u) 15 0
  if bit (d.ulPort u).xoff c ∧ q ≠ 0 ∧ d.fcEnabled u c ∧ d.xoffDue u c then
    (d.onPort u fun p => { p with fcAt := p.fcAt.put 0 c d.tb.ticks }).sendFc ⟨u, d.fcMode u == 2, [(c, q)]⟩
  else d

/-! ### Reception (R385, R394) -/

/-- A picosecond correction added to an instant in ns (R394). -/
def corrected (at_ ps : Nat) : Nat := ((at_ * 1000 : Int) + signed 32 ps).toNat / 1000

/-- A frame received on a LAG member with COLLECTING = 0 (R385). -/
def Dev.notCollecting (d : Dev) (u : Nat) : Bool := (d.lagOf u).any fun x => !bit (d.lagMember x.1 x.2) 30

/-- The reception of a frame had begun when its port left UP (R381). -/
def Dev.rxCut (d : Dev) (u at_ : Nat) : Bool := (d.portDef u).isSome && ((d.ulPort u).leftAt.any fun t => decide (at_ < t))

/-- UPLINK_FRAME_RECEIVE (R381, R385, R48): the checks in table order, then MACsec, then the parser. A frame whose port left UP after its
start is discarded and counts in RX_CODE_ERR. -/
def Dev.uplinkReceive (d : Dev) (f : FrameIn) : Dev :=
  let u := f.port
  let len := f.bytes.length + 4
  let et := beAt f.bytes 12 2
  if !d.portUp u then (if d.rxCut u f.at_ then d.ulStat u 5 1 else d)
  else if !f.fcsOk then d.ulStat u 2 1
  else if len < 64 then d.ulStat u 3 1
  else if d.fld (R .UL_PORT_CFG u) 29 16 < len then d.ulStat u 4 1
  else if f.codeErr then d.ulStat u 5 1
  else if et = 0x8808 ∧ beAt f.bytes 14 2 = 1 then d.pauseFrame u (beAt f.bytes 16 2)
  else if et = 0x8808 ∧ beAt f.bytes 14 2 = 0x101 then
    d.pfcFrame u (beAt f.bytes 16 2) ((List.range 8).map fun c => beAt f.bytes (18 + 2 * c) 2)
  else if d.notCollecting u ∧ et ≠ 0x8809 then (d.ulStat u 9 1).count (0xA00 + 16 * u + 14)
  else
    let d1 := (d.ulStat u 0 1).ulStat u 1 len
    if d1.im.state ≠ .running then d1
    else
      match d1.msReceive u f.bytes f.ecc with
      | (d2, none) => d2
      | (d2, some p) =>
        d2.seamIn { p with rx := some (corrected f.at_ (d.reg (R .UL_TS_CORR_RX u))) }

/-! ### Transmission (R386, R394, R416) -/

/-- A packet leaves port u (R386): MACsec, padding to 64 bytes with its FCS, statistics, and the timestamp that its descriptor
asks for: C of the device `after` ns behind the decision, when the first bit after the SFD passes; `ecc` is what the SA store reports. The
frame stays on the wire, behind the one before it, for its bytes with preamble at 100 Gbit/s a lane: 16 bytes a tick. -/
def Dev.uplinkSend (d : Dev) (u : Nat) (p : Pkt) (b : List Byte) (after ecc : Nat) (late : Bool) : Dev :=
  match d.msTransmit u p b ecc with
  | (d1, .drop) => d1
  | (d1, .send w) =>
    let w := w ++ List.replicate (60 - w.length) 0
    let d2 := ((d1.ulStat u 10 1).ulStat u 11 (w.length + 4)).onUl fun x => { x with sent := ⟨64 + u, 0, w⟩ :: x.sent }
    let from_ := max d.tb.ticks (((d.ulPort u).tx.map Prod.fst).getD 0)
    let stamp := p.tsId.isSome && decide ((d2.tb.txts.getD u []).length < 64)
    let d2 := d2.onPort u fun p => { p with tx := some (from_ + (w.length + 12 + 16 * d.portLanes u - 1) / (16 * d.portLanes u), stamp) }
    match p.tsId with
    | some id =>
      let t := corrected (d.now + after) (d2.reg (R .UL_TS_CORR_TX u))
      d2.txStamp u ⟨id, t / 1000000000 % 2 ^ 48, t % 1000000000, late, d2.fld (R .TB_STATUS) 31 30⟩
    | none => d2

/-! ### SyncE outputs (R424) -/

/-- SYNCE_REC output k, 0 or 1: the UL lane whose recovered clock it carries and the divider, none while it is held low: not driven,
or with SQUELCH under LOS or LOL on its lane or while the lane's port is not UP. -/
def Dev.synceOut (d : Dev) (k : Nat) : Option (Nat × Nat) :=
  let w := d.reg (R .TB_SYNCE_CFG)
  let lane := bits w (3 + 8 * k) (8 * k)
  let bad := d.fld (R .LX_UL_STATUS lane) 1 0 ≠ 0 || !((d.portOfLane lane).any fun p => d.portUp p.lane)
  if !bit w (7 + 8 * k) ∨ (bit w 30 ∧ bad) then none else some (lane, if bit w (6 + 8 * k) then 2125 else 340)

/-- The UL lane from whose recovered clock every UL transmitter takes its reference with TX_LOOP = 1; none for REFCLK_ETH. -/
def Dev.ulTxReference (d : Dev) : Option Nat :=
  if d.flag (R .TB_SYNCE_CFG) 31 then some (d.fld (R .TB_SYNCE_CFG) 3 0) else none

/-! ### Register writes -/

/-- A write of UL_PORT_CFG (R396); CLR_STATS is written through `clrStats`. -/
def Dev.portCfgWriteUl (d : Dev) (u v : Nat) : Dev :=
  let r := R .UL_PORT_CFG u
  let m := bits v 29 16
  let bad := decide (m < 64)
  let w := 2 ^ 31 * b2n (bit v 31) + 2 ^ 16 * (if bad then d.fld r 29 16 else m) + 256 * bits v 15 8
  let d1 := (d.setReg r w).portEnable u (bit v 31)
  if bad then d1.cfgRefused (R .UL_FLAGS u) 9 else d1

/-- A write of UL_FC_CFG (R388, R399): MODE 3, and any change of MODE while the port is UP, are refused. -/
def Dev.fcCfgWrite (d : Dev) (u v : Nat) : Dev :=
  let r := R .UL_FC_CFG u
  let m := bits v 25 24
  let bad := m == 3 || (d.portUp u && m != d.fld r 25 24)
  let d1 := d.setReg r (2 ^ 24 * (if bad then d.fld r 25 24 else m) + bits v 23 0)
  if bad then d1.cfgRefused (R .UL_FLAGS u) 9 else d1

/-- A write of UL_FC_TH (R38, R399): thresholds in the wrong order are refused, a POOL beyond the layout is rejected. -/
def Dev.fcThWrite (d : Dev) (u c v : Nat) (src : Src) : Dev :=
  let r := R .UL_FC_TH u c
  let old := d.reg r
  let bad := decide (bits v 23 12 < bits v 11 0)
  let beyond := !d.poolExists (bits v 29 24)
  let w := 2 ^ 31 * b2n (bit v 31) + bits (if beyond then old else v) 29 24 * 2 ^ 24 + bits (if bad then old else v) 23 0
  let d1 := d.setReg r w
  let d2 := if bad then d1.cfgRefused (R .UL_FLAGS u) 9 else d1
  if beyond then d2.structReject r v src else d2

/-- A write of UL_SER_CFG (R400): refused with DEG_CLEAR above DEG_SET. -/
def Dev.serCfgWrite (d : Dev) (u v : Nat) : Dev :=
  let r := R .UL_SER_CFG u
  if bits v 27 14 < bits v 13 0 then d.cfgRefused (R .UL_FLAGS u) 9
  else d.setReg r v

/-- A write of CE_MS_PORT_CFG (R376): EN while the port is up, and CONF_OFFSET 3, are refused. -/
def Dev.msCfgWrite (d : Dev) (u v : Nat) : Dev :=
  let r := R .CE_MS_PORT_CFG u
  let old := d.reg r
  let badEn := d.portUp u && bit v 31 != bit old 31
  let badOff := bits v 28 27 == 3
  let w := putBits (putBits (bits v 31 26 * 2 ^ 26) 31 31 (bits (if badEn then old else v) 31 31)) 28 27 (bits (if badOff then old else v) 28 27)
  let d1 := d.setReg r w
  if badEn ∨ badOff then d1.cfgRefused (R .CE_FLAGS) 16 else d1

end Sys2Proof.Machine
end

