-- ==== Sys2Proof/Machine/Schedule.lean ====
section
/-! DEFINITION. Dequeue decisions (spec/09, R288 to R293; R418 to R421; R329 to R332): ports, eligibility, deficit round robin,
charges, and what leaves on each kind of egress port. -/

namespace Sys2Proof.Machine

/-! ### Lengths and times (R293, R418 to R421) -/

/-- The counted length of LEN on port p (R293). -/
def Dev.counted (d : Dev) (p len : Nat) : Nat := (max 1 ((len : Int) + signed 7 (d.reg (R .TM_PORT_CFG p)))).toNat

/-- Nanoseconds that a counted length takes on uplink port u (R421). -/
def Dev.sendNs (d : Dev) (u lc : Nat) : Nat := (lc * 8 + 100 * d.portLanes u - 1) / (100 * d.portLanes u)

/-- C less (L - D) for a launch time on a port (R418). -/
def Dev.sinceLaunch (d : Dev) (p l : Nat) : Int := d.sinceC ((l + 2 ^ 64 - Config.launchLatency p % 2 ^ 64) % 2 ^ 64)

/-- The launch time that counts for a packet of a queue on a port (R418). -/
def Queue.launchOf (x : Queue) (p : Nat) (h : Held) : Option Nat := if p < 76 ∧ (x.launch = 1 ∨ x.launch = 2) then h.pkt.launch else none

/-- The head packet's launch time is reached (R418). -/
def Dev.launched (d : Dev) (p : Nat) (x : Queue) (h : Held) : Bool :=
  match x.launchOf p h with
  | some l => decide (0 ≤ d.sinceLaunch p l)
  | none => true

/-- The head packet is late (R419): more than LATE_TOL units of 64 ns. -/
def Dev.late (d : Dev) (p : Nat) (x : Queue) (h : Held) : Bool :=
  match x.launchOf p h with
  | some l => decide ((64 * d.fld (R .TB_CTL) 8 4 : Int) < d.sinceLaunch p l)
  | none => false

/-- The traffic class of a queue (R420). -/
def Queue.cls (x : Queue) : Nat := if x.pfc = 15 then 0 else x.pfc

/-- For how many ns a packet has stood at its queue's head, within the 16 ns of a tick: since it came, or since the queue's last
decision. -/
def Dev.headNs (d : Dev) (x : Queue) (h : Held) : Nat :=
  16 * min ((d.tick + 2 ^ 32 - h.tick % 2 ^ 32) % 2 ^ 32) (d.tick16 - x.lastDec) + 15

/-- The gates of a queue's class let its head start, and whether it overruns (R420, R421). -/
def Dev.gateFor (d : Dev) (p : Nat) (x : Queue) (h : Held) : Bool × Bool :=
  if 64 ≤ p ∧ p < 76 then d.gateOpen (p - 64) x.cls (d.sendNs (p - 64) (d.counted p h.len)) (d.headNs x h) else (true, false)

/-! ### Eligibility (R288, R289, R480) -/

/-- The ring to which a level-1 node under port 76 is bound (R480); the lowest binding where several name it (log entry 28). -/
def Dev.rxRing (d : Dev) (n : Nat) : Option Nat :=
  ((List.range 32).find? fun k => d.flag (R .MC_RX_NODE k) 31 && d.fld (R .MC_RX_NODE k) 15 0 == n).map fun k =>
    d.fld (R .MC_RX_NODE k) 20 16

/-- A bound node whose ring has a posted descriptor (R480). -/
def Dev.rxReady (d : Dev) (n : Nat) : Bool := ((d.rxRing n).map fun r => d.ringReady r false).getD false

/-- A queue's own condition (R289). -/
def Dev.queueReady (d : Dev) (p q : Nat) : Bool :=
  let x := d.queue q
  match x.head? with
  | none => false
  | some h =>
    x.valid && !d.held q && d.launched p x h && (d.gateFor p x h).1 &&
      !(decide (64 ≤ p ∧ p < 76 ∧ x.pfc < 8) && d.pfcPaused (p - 64) x.pfc)

/-- A child is eligible: `com` in the committed phase, else in the excess phase (R289). The fuel is the depth below. -/
def Dev.eligible (d : Dev) (p : Nat) : Nat → Child → Bool → Bool
  | 0, _, _ => false
  | k + 1, c, com =>
    let b := d.buckets c
    let own := match c with
      | .queue q => d.queueReady p q
      | .node n =>
        (d.node n).valid && ((d.node n).parent != 76 || d.rxReady n) && (d.node n).children.any fun x => d.eligible p k x false
    own && b.2.open_ d.tick && (!com || b.1.committed d.tick)

/-- The port holds framer credit (R25; log entry 25): of its 4 KiB some is neither in flight nor placed in the frame and unsent. -/
def Dev.credit (d : Dev) (t : Nat) : Bool := decide ((d.tf t).inFlight + d.dsAhead t < 4096)

/-- The bytes that uplink port u has taken over its seam and still has to send. -/
def Dev.portSeam (d : Dev) (u : Nat) : Nat := 16 * d.portLanes u * (((d.ulPort u).tx.map Prod.fst).getD 0 - d.tb.ticks)

/-- The seam to an egress port is full, so that the traffic manager stalls (R24). -/
def Dev.egressFull (d : Dev) (p : Nat) : Bool :=
  if p < 64 then seamFull (0x7C8 + p / 8) (d.reachSeam (p / 8))
  else decide (p < 76) && seamFull (0x7DC + (p - 64)) (d.portSeam (p - 64))

/-- The port is down, paused as a whole, or has no gate open (R288, R310). -/
def Dev.portBlocked (d : Dev) (u : Nat) : Bool :=
  !d.portUp u || d.paused u ||
    match (d.gates u).oper with
    | none => false
    | some g =>
      match d.gateNow g with
      | some i => ((g.entries[i]?).map GateEntry.gates).getD 0 == 0
      | none => false

/-- The device is not RUNNING, or the port is stopped under R27, or its reach is not LIT (R288, R310). -/
def Dev.portStopped (d : Dev) (p : Nat) : Bool :=
  d.im.state != .running || (decide (p < 64) && ((d.reach (p / 8)).state != .lit || (d.reach (p / 8)).darkenIn.any fun k => decide (1 ≤ k)))

/-- An egress port takes part in scheduling (R24, R288). -/
def Dev.portOpen (d : Dev) (p : Nat) : Bool :=
  d.portExists p && !d.portStopped p && !d.egressFull p && (!decide (p < 64) || d.credit p) &&
    (!decide (64 ≤ p ∧ p < 76) || !d.portBlocked (p - 64)) && (d.node p).pir.open_ d.tick

/-! ### Choosing (R290) -/

/-- One level of a decision: the node, the ring, the child chosen, and whether in the committed phase. -/
structure Hop where
  parent : Nat
  prio : Nat
  child : Child
  committed : Bool
  deriving DecidableEq, Repr

/-- The pointer of a ring moves on (R290). -/
def Dev.ringOn (d : Dev) (n prio : Nat) : Dev :=
  d.onNode n fun x => { x with rr := x.rr.put 0 prio ((x.rr.getD prio 0 + 1) % (x.rings.getD prio []).length) }

/-- The loop of pick (R290). -/
def Dev.pickLoop (d : Dev) (p n prio depth : Nat) (com : Bool) : Nat → Dev × Option Child
  | 0 => (d, none)
  | k + 1 =>
    let x := d.node n
    match (x.rings.getD prio [])[x.rr.getD prio 0]? with
    | none => (d, none)
    | some c =>
      if d.eligible p depth c com then
        let d1 := if d.deficit c ≤ 0 then d.setDeficit c (d.deficit c + (d.childWeight c * 2 ^ (6 + x.qshift) : Nat)) else d
        if 0 < d1.deficit c then (d1, some c) else (d1.ringOn n prio).pickLoop p n prio depth com k
      else (d.ringOn n prio).pickLoop p n prio depth com k

/-- The phase and the PRIO that a node serves (R290): committed before excess, then PRIO 0 to 7. -/
def Dev.serves (d : Dev) (p n depth : Nat) : Option (Bool × Nat) :=
  let x := d.node n
  let find (com : Bool) : Option (Bool × Nat) :=
    ((List.range 8).find? fun k => (x.rings.getD k []).any fun c => d.eligible p depth c com).map fun k => (com, k)
  find true <|> find false

/-- A decision's walk from a node down to one queue (R288). No deficit lies below -16,446 and no quantum below 64, so 258 turns of
a ring reach the result of pick. -/
def Dev.walk (d : Dev) (p : Nat) : Nat → Nat → List Hop → Dev × Option (Nat × List Hop)
  | 0, _, _ => (d, none)
  | k + 1, n, hops =>
    match d.serves p n (k + 1) with
    | none => (d, none)
    | some (com, prio) =>
      let ring := (d.node n).rings.getD prio []
      match d.pickLoop p n prio (k + 1) com (260 * ring.length) with
      | (d1, none) => (d1, none)
      | (d1, some c) =>
        let hops := ⟨n, prio, c, com⟩ :: hops
        match c with
        | .queue q => (d1, some (q, hops))
        | .node m => d1.walk p k m hops

/-! ### Charging (R291) -/

/-- One level of the path charged with a counted length. -/
def Dev.chargeHop (d : Dev) (lc : Nat) (h : Hop) : Dev :=
  let now := d.tick
  let d1 := d.onBucket h.child 1 fun b => if b.en then b.charge now lc else b
  let d2 := if h.committed then d1.onBucket h.child 0 fun b => if b.en then b.charge now lc else b else d1
  let x := d2.deficit h.child - lc
  let d3 := d2.setDeficit h.child x
  if x ≤ 0 then d3.ringOn h.parent h.prio else d3

/-- The path charged from the queue to the port node (R291). -/
def Dev.chargePath (d : Dev) (p lc : Nat) (hops : List Hop) : Dev :=
  let now := d.tick
  (hops.foldl (fun d h => d.chargeHop lc h) d).onNode p fun x => { x with pir := if x.pir.en then x.pir.charge now lc else x.pir }

/-! ### Sending (R331, R332, R337) -/

/-- A packet whose payload fails (R337): dropped with MEMORY, its other cells freed, the failed cells retired. -/
def Dev.dropBadData (d : Dev) (q n : Nat) (bad : List Nat) (h : Held) (rest : List Held) : Dev :=
  let d1 := (d.onQueue q fun x => x.setList n rest).fetchLost q n
  let d2 := bad.foldl (fun d c => d.retire n c) (d1.freeCells n (d.queue q).pool 7 (h.cells.filter fun x => !bad.contains x))
  (d2.tmDrop q h.pkt h.len 8).settleEmpty 4 (.queue q)

/-- A packet leaves on its egress port: the framer, the uplink, a receive ring, or recirculation (R20, R120, R254, R352, R480). -/
def Dev.egress (d : Dev) (p q : Nat) (h : Held) (b : List Byte) (at_ ecc : Nat) (late : Bool) : Dev :=
  let x := d.queue q
  let k := { h.pkt with bytes := b }
  if p < 64 then
    let (d1, slot) := match d.queuePair q with
      | some pr => d.keyBind pr h.len ecc
      | none => (d, 0)
    d1.dsAccept p ⟨k.dsPort, h.len, h.len, x.keySel, x.term, slot, d.countSlice q, b ++ fcs b, []⟩
  else if p < 76 then
    let d1 := d.uplinkSend (p - 64) k b at_ ecc late
    d1.seamStall (0x7DC + (p - 64)) (d.portSeam (p - 64)) (d1.portSeam (p - 64))
  else if p = 76 then
    match d.rxRing (d.sliceNode q) with
    | some r => d.rxFill r ⟨k.kind, k.reason, k.src, k.slice, k.bank, if k.src < 64 then k.term else 0xFFFF,
        if k.src < 64 then k.port else 0, q, k.hash, k.metaVal, k.epoch, k.rx⟩ b
    | none => d
  else d.onPc fun y => { y with arrivals := y.arrivals ++ [{ k with second := true }] }

/-- The head packet of a queue sent by a decision (R291, R298, R301, R331, R332): read and checked, its cells freed as the dequeue
engine, counted, charged, and handed to egress. -/
def Dev.sendHead (d : Dev) (p q : Nat) (hops : List Hop) (at_ ecc : Nat) : Dev :=
  let x := d.queue q
  match x.headTier with
  | none => d
  | some n =>
    match x.list n with
    | [] => d
    | h :: rest =>
      let lateNow := d.late p x h
      let overrun := (d.gateFor p x h).2
      let d0 := if n = 1 then d.raise (R .BP_FLAGS) 10 else d
      match d0.readPkt n (if n = 0 then 0 else 2) h with
      | (d1, .badLink c) => d1.breakList q n c
      | (d1, .badData cs) => d1.dropBadData q n cs h rest
      | (d1, .bytes b) =>
        let d2 := (d1.onQueue q fun x => { x.setList n rest with lastDec := d.tick16 }).fetchLost q n
        let d3 := d2.freeCells n x.pool 6 h.cells
        let s := 0x4C0 + 48 * d.countSlice q
        let d4 := (((d3.count (s + 36)).countBytes (s + 37) h.len).stat q 2 1).stat q 3 h.len
        let d5 := (d4.chargePath p (d.counted p h.len) hops).settleEmpty 4 (.queue q)
        let d6 := (d5.raiseIf (lateNow && x.launch == 1) (R .TB_FLAGS) 18).raiseIf overrun (R .TB_FLAGS) 22
        (d6.egress p q h b at_ ecc lateNow).sampleDone q { h.pkt with bytes := [] } h.len 0

/-- A decision at its queue (R304, R419): aged and late head packets are discarded, and the next one that may go is sent. The fuel
is the number of packets. -/
def Dev.takeNext (d : Dev) (p q : Nat) (hops : List Hop) (at_ ecc : Nat) : Nat → Dev
  | 0 => d
  | k + 1 =>
    let x := d.queue q
    match x.head?, x.headTier with
    | some h, some n =>
      if d.aged x h then (d.discardHead q n 6).takeNext p q hops at_ ecc k
      else if x.launch = 2 ∧ d.late p x h then
        ((d.raise (R .TB_FLAGS) 18).discardHead q n 9).takeNext p q hops at_ ecc k
      else if d.queueReady p q then d.sendHead p q hops at_ ecc
      else d
    | _, _ => d

/-- DEQUEUE_DECISION of egress port p (R288 to R292). `at_` is how many ns behind the decision the first bit after the SFD passes the ball
(R394); `ecc` is what the key store reports (R353). -/
def Dev.dequeue (d : Dev) (p at_ ecc : Nat) : Dev :=
  if !d.portOpen p then d
  else
    match d.walk p 3 p [] with
    | (d1, some (q, hops)) =>
      let d2 := d1.onQueue q fun x => { x with lastDec := d.tick16 }
      d2.takeNext p q hops at_ ecc (d1.queue q).all.length
    | (d1, none) => d1

/-! ### Registers -/

/-- TM_PORT_STATUS (R310). -/
def Dev.portStatus (d : Dev) (p : Nat) : Nat :=
  b2n (d.portStopped p) + 2 * b2n (decide (p < 64) && !d.credit p) +
    4 * b2n (decide (64 ≤ p ∧ p < 76) && d.portBlocked (p - 64))

/-- A write of MC_RX_NODE (R480): a NODE beyond the structure keeps its value and is rejected (R38); the rest is refused for a node
that is not at level 1 under port 76, and for a VF's ring bound to a node outside its slice. -/
def Dev.rxNodeWrite (d : Dev) (k v : Nat) (src : Src) : Dev :=
  let r := R .MC_RX_NODE k
  let beyond := decide (max 128 d.nNodes ≤ bits v 15 0)
  let n := if beyond then d.fld r 15 0 else bits v 15 0
  let ring := bits v 20 16
  let bad := n < 128 ∨ d.nNodes ≤ n ∨ !(d.node n).valid ∨ (d.node n).parent ≠ 76 ∨ 20 < ring ∨
    (5 ≤ ring ∧ d.sliceOfNode n ≠ some (ring - 5))
  let d1 := if beyond then d.structReject r v src else d
  if bad then d1.cfgRefused (R .MC_FLAGS) 20
  else d1.setReg r (2 ^ 31 * b2n (bit v 31) + ring * 2 ^ 16 + n)

end Sys2Proof.Machine
end

