-- ==== Sys2Proof/Machine/Flow.lean ====
section
/-! DEFINITION. Enqueue commit and the buffer engines (R31, R297 to R301, R325 to R339, R363, R364, R392): admission, tiers, rounds,
prefetch, scrubbing, reclaim, and the opcodes and register writes of BP (R342 to R348). -/

namespace Sys2Proof.Machine

/-! ### Admission (R297, R298) -/

/-- A request of a pipeline for the cells of a packet that passed the checks 1 to 4 of R297 (R325, R326): its queue, LEN and tier. -/
structure Ask where
  pipe : Nat
  queue : Nat
  pkt : Pkt
  len : Nat
  tier : Nat
  deriving DecidableEq, Repr

/-- The bytes of the requests that p names. -/
def askBytes (asks : List Ask) (p : Ask → Bool) : Nat := ((asks.filter p).map Ask.len).foldl (· + ·) 0

/-- The first of checks 1 to 4 of R297 that a packet of a colour fails, after the admissions whose requests wait (R299). -/
def Dev.admission (d : Dev) (asks : List Ask) (q len colour : Nat) : Option Nat :=
  let x := d.queue q
  if (d.queuePort q).isNone then some 1
  else if 16383 < len then some 2
  else if x.th colour * 1024 < d.queueOcc q + askBytes asks (fun a => a.queue == q) + len then some 3
  else if d.reg (R .TM_POOL_TH x.pool colour) * 2 ^ 20 <
      d.poolOcc x.pool + askBytes asks (fun a => (d.queue a.queue).pool == x.pool) + len then some 4
  else none

/-- The tier that a packet of LEN takes, after the admissions whose requests wait (R329). -/
def Dev.tierFor (d : Dev) (asks : List Ask) (q len : Nat) : Nat :=
  let x := d.queue q
  let k := d.fld (R .BP_POOL_SPILL x.pool) 30 12
  if !x.far.isEmpty ∨ asks.any (fun a => a.queue == q && a.tier == 1) ∨
      (k ≠ 0x7FFFF ∧ k * 1024 < d.nearBytes q + askBytes asks (fun a => a.queue == q) + len) then 1 else 0

/-- A packet joins the tail of its queue's list in a tier (R297, R316, R531). -/
def Dev.commitTo (d : Dev) (q n : Nat) (p : Pkt) (len : Nat) (cs : List Nat) : Dev :=
  let x := d.queue q
  let d1 := d.linkTail n (x.list n).getLast? (cs.headD 0) len
  let h : Held := ⟨len, d.tick, cs, { p with bytes := [] }⟩
  let d2 := d1.onQueue q fun x => x.setList n (x.list n ++ [h])
  let s := 0x4C0 + 48 * d.countSlice q
  ((((d2.count (s + 34)).countBytes (s + 35) len).stat q 0 1).stat q 1 len).fetchSync q false

/-- Buffers for a packet (R322, R329): its tier, and with SPILL_ON_FULL the far tier when the near request fails. -/
def Dev.buffersFor (d : Dev) (q len : Nat) : Dev × Option (Nat × List Nat) :=
  let pool := (d.queue q).pool
  let n := d.tierFor [] q len
  match d.allocCells pool n (cellsFor n len) with
  | (d1, some cs) => (d1, some (n, cs))
  | (d1, none) =>
    if n = 0 ∧ d1.flag (R .BP_POOL_SPILL pool) 31 then
      match d1.allocCells pool 1 (cellsFor 1 len) with
      | (d2, some cs) => (d2, some (1, cs))
      | (d2, none) => (d2, none)
    else (d1, none)

/-- The cells of a chain whose packet is dropped are freed (log entry 32). -/
def Dev.freeChain (d : Dev) (q : Nat) (chain : Option (Nat × List Nat)) : Dev :=
  match chain with
  | some (n, cs) => d.freeCells n (d.queue q).pool 7 cs
  | none => d

/-- One packet at its queue up to its buffers (R297, R364, R392, R533): counts, the sample, LAG redirect and the checks 1 to 4. Its
queue and, if it was admitted, the packet. -/
def Dev.commitCheck (d : Dev) (asks : List Ask) (o : Out) : Dev × Nat × Option Pkt :=
  let len := o.pkt.len
  let s := 0x4C0 + 48 * o.pkt.slice
  let d1 := if o.pkt.kind = 3 then d.count (s + 38) else if o.pkt.kind = 2 then d.count (s + 39) else d
  let run := d1.ob.pktRuns
  let (d2, pick) := d1.pickSample o.pkt.slice
  let d3 := if pick then d2.reserveSample run else d2
  let p := if pick then { o.pkt with sample := some run } else { o.pkt with sample := none }
  if p.eapol ∧ d3.queuePort o.queue ≠ some 76 then
    (((d3.msClearRefused (p.src - 64)).sampleDone o.queue p len 1).dropRecirc p, o.queue, none)
  else
    match d3.lagRedirect o.queue p.hash with
    | .noMember g => (((d3.raise (R .UL_LAG_FLAGS g) 0).count (s + 40)).tmDrop o.queue p len 1, o.queue, none)
    | .slice g => (((d3.raise (R .UL_LAG_FLAGS g) 1).count (s + 40)).tmDrop o.queue p len 1, o.queue, none)
    | .queue q =>
      match d3.admission asks q len p.colour with
      | some r => (d3.tmDrop q p len r, q, none)
      | none => (d3, q, some p)

/-- One packet at its queue, alone in its cycle: a handed-over chain joins the list of its own tier and nothing is copied (R482), any
other packet takes its buffers. -/
def Dev.commitOut (d : Dev) (o : Out) (chain : Option (Nat × List Nat)) : Dev :=
  match d.commitCheck [] o, chain with
  | (d1, q, none), _ => d1.freeChain q chain
  | (d1, q, some p), some (n, cs) => d1.commitTo q n p p.len cs
  | (d1, q, some p), none =>
    match d1.buffersFor q p.len with
    | (d2, some (n, cs)) => (d2.writePkt p.pipe n cs p.bytes).commitTo q n p p.len cs
    | (d2, none) => d2.tmDrop q p p.len 5

/-- A near chain for a queue whose far list holds a packet waits in the ingress staging until the list is empty: it may neither be
copied (R482) nor join the near list (R300, R329; log 32). -/
def Dev.chainWaits (d : Dev) (f : Flight) : Bool :=
  match f.chain, f.outs with
  | some (0, _), [o] =>
    match d.lagRedirect o.queue o.pkt.hash with
    | .queue q => !(d.queue q).far.isEmpty && (d.admission [] q o.pkt.len o.pkt.colour).isNone
    | _ => false
  | _, _ => false

/-- ENQUEUE_COMMIT of pipeline k (R31, R363): the first packet that waits there passes its tail checks and goes to its queues; one
that fails them is discarded with its copies and its RECIRC. Nothing is admitted unless the device is RUNNING (R46, R48). -/
def Dev.enqueueCommit (d : Dev) (k : Nat) : Dev :=
  if d.im.state ≠ .running then d
  else
    match takeFirst (fun f => f.pipe == k) d.pc.flights with
    | none => d
    | some (f, rest) =>
      if d.chainWaits f then d
      else
      match (d.onPc fun x => { x with flights := rest }).msTail f.pkt with
      | (d1, true) => f.outs.foldl (fun d o => d.dropRecirc o.pkt) d1
      | (d1, false) => f.outs.foldl (fun d o => d.commitOut o f.chain) d1

/-! ### Prefetch (R330, R331) -/

/-- The copy of queue q's far head into granted near cells ends: moved with its metadata, dropped, or the far list broken
(R330, R337). -/
def Dev.prefetchMove (d : Dev) (q : Nat) (h : Held) (rest : List Held) (cs : List Nat) : Dev :=
  let pool := (d.queue q).pool
  match d.readCells 1 1 h.cells [] [] with
  | (d1, .badLink c) => (d1.freeCells 0 pool 4 cs).breakList q 1 c
  | (d1, .badData bad) => (d1.freeCells 0 pool 4 cs).dropBadData q 1 bad h rest
  | (d1, .bytes b) =>
    let d2 := (d1.chain 0 cs (chunks (cellRoom 0) cs.length (b.take (h.len + 32)))).linkTail 0 (d.queue q).near.getLast? (cs.headD 0) h.len
    let d3 := d2.onQueue q fun x => { x with near := x.near ++ [{ h with cells := cs }], far := rest }
    (d3.freeCells 1 pool 4 h.cells).fetchSync q false

/-- The queues that stand in the prefetch order now: a write of BP_POOL_SPILL takes effect here (R346). -/
def Dev.fetchOrder (d : Dev) : Dev := d.tm.queues.foldl (fun d kv => d.fetchSync kv.1 false) d

/-- The queue that the prefetch engine serves next (R330): the first in the order that does not wait, while no copy is under way. -/
def Dev.fetchNext (d : Dev) : Option Nat :=
  match d.bp.copy with
  | some _ => none
  | none => (d.bp.fetch.find? fun x => !x.2).map Prod.fst

/-- The engine's request for near cells (R325, R330): the copy starts, or the queue waits for its near list to shrink. -/
def Dev.fetchAsk (d : Dev) (q : Nat) : Dev :=
  match (d.queue q).far with
  | [] => d
  | h :: _ =>
    match d.allocCells (d.queue q).pool 0 (cellsFor 0 h.len) with
    | (d1, some cs) => d1.onBp fun b => { b with copy := some (q, cs) }
    | (d1, none) => d1.onBp fun b => { b with fetch := b.fetch.map fun x => if x.1 = q then (q, true) else x }

/-- The copy under way ends (R330). -/
def Dev.fetchEnd (d : Dev) : Dev :=
  match d.bp.copy with
  | none => d
  | some (q, cs) =>
    let d1 := d.onBp fun b => { b with copy := none }
    match (d.queue q).far with
    | h :: rest => d1.prefetchMove q h rest cs
    | [] => d1

/-- PREFETCH (R330): the engine takes its next queue unless a copy is under way, and with `ends` that copy ends. -/
def Dev.prefetch (d : Dev) (ends : Bool) : Dev :=
  let d0 := d.fetchOrder
  let d1 := match d0.fetchNext with
    | some q => d0.fetchAsk q
    | none => d0
  if ends then d1.fetchEnd else d1

/-! ### Allocation rounds (R299, R326, R327) -/

/-- The number of the round now (R326): pipeline cycles since S or the last warm reset. -/
def Dev.round (d : Dev) : Nat := (d.tb.ticks - d.bp.roundBase) * 8 / 5

/-- The requesters in the order of round k (R326). -/
def roundOrder (k : Nat) : List Nat := (List.range 6).map fun i => (k + i) % 6

/-- A free that takes effect at the end of a cycle (R327): its tier, pool, requester and cell. -/
structure CellFree where
  tier : Nat
  pool : Nat
  req : Nat
  cell : Nat
  deriving DecidableEq, Repr

/-- What the rounds of an event work on: the device; the packets of each pipeline that commit, each with its chain; the requests
that wait from an earlier cycle and those raised in this one; what this cycle decides for the packets of a pipeline (the cells of one
that joins its queue, none for a NO_BUFFER); the frees not yet accepted; whether the prefetch engine has a request, and the tier of
one of BP_CMD. -/
structure Rounds where
  dev : Dev
  outs : List (Nat × Out × Option (Nat × List Nat))
  asks : List Ask
  ends : List (Ask × Option (List Nat))
  frees : List CellFree
  fetch : Bool
  five : Option Nat

/-- The frees of a chain whose packet is dropped (log entry 32). -/
def chainFrees (pool : Nat) (chain : Option (Nat × List Nat)) : List CellFree :=
  match chain with
  | some (n, cs) => cs.map fun c => ⟨n, pool, 7, c⟩
  | none => []

/-- The admissions ahead of a packet of the cycle (R299): requests that wait and chains, but for the packets of the pipelines in
`fails`, which this cycle drops for want of buffers. -/
def Rounds.ahead (x : Rounds) (fails : List Nat) : List Ask :=
  (x.asks ++ x.ends.map Prod.fst).filter fun a => !fails.contains a.pipe

/-- Pipeline k's next packet is admitted or dropped (R297), unless a request of the pipeline waits; a chain needs no cells. -/
def Rounds.offer (fails : List Nat) (x : Rounds) (k : Nat) : Rounds :=
  if x.asks.any fun a => a.pipe == k then x
  else
    match takeFirst (fun o => o.1 == k) x.outs with
    | none => x
    | some ((_, o, chain), rest) =>
      let x := { x with outs := rest }
      let ahead := x.ahead fails
      match x.dev.commitCheck ahead o, chain with
      | (d, q, none), _ => { x with dev := d, frees := x.frees ++ chainFrees (d.queue q).pool chain }
      | (d, q, some p), some (n, cs) => { x with dev := d, ends := x.ends ++ [(⟨k, q, p, p.len, n⟩, some cs)] }
      | (d, q, some p), none => { x with dev := d, asks := x.asks ++ [⟨k, q, p, p.len, d.tierFor ahead q p.len⟩] }

/-- A near request that waited turns far where its queue's far list holds a packet by now (R329). -/
def Rounds.retier (x : Rounds) : Rounds :=
  { x with asks := x.asks.map fun a => if a.tier = 0 ∧ !(x.dev.queue a.queue).far.isEmpty then { a with tier := 1 } else a }

/-- Requester k has a request in tier n (R325). -/
def Rounds.wants (x : Rounds) (n k : Nat) : Bool :=
  if k < 4 then x.asks.any fun a => a.pipe == k && a.tier == n
  else if k = 4 then n == 0 && x.fetch
  else x.five == some n

/-- The requesters that the round with number k takes in tier n: in the rotating order, four at most (R326). -/
def Rounds.taken (x : Rounds) (n k : Nat) : List Nat := ((roundOrder k).filter (x.wants n)).take 4

/-- One request decided (R322, R323, R329): a pipeline's packet gets its cells, turns to the far tier with SPILL_ON_FULL, or gets
none; `cmd` is what a request of BP_CMD does. -/
def Rounds.serve (cmd : Dev → Dev) (n : Nat) (x : Rounds) (k : Nat) : Rounds :=
  if k < 4 then
    match takeFirst (fun a => a.pipe == k && a.tier == n) x.asks with
    | none => x
    | some (a, rest) =>
      let pool := (x.dev.queue a.queue).pool
      match x.dev.allocCells pool n (cellsFor n a.len) with
      | (d, some cs) => { x with dev := d.writePkt k n cs a.pkt.bytes, asks := rest, ends := x.ends ++ [(a, some cs)] }
      | (d, none) =>
        if n = 0 ∧ d.flag (R .BP_POOL_SPILL pool) 31 then { x with dev := d, asks := rest ++ [{ a with tier := 1 }] }
        else { x with dev := d, asks := rest, ends := x.ends ++ [(a, none)] }
  else if k = 4 then
    match x.dev.fetchNext with
    | some q => { x with dev := x.dev.fetchAsk q, fetch := false }
    | none => { x with fetch := false }
  else { x with dev := cmd x.dev, five := none }

/-- The admissions of a cycle and its two rounds, where the packets of the pipelines in `fails` count nothing for the others. -/
def Rounds.attempt (cmd : Dev → Dev) (k : Nat) (x : Rounds) (fails : List Nat) : Rounds :=
  let x := (List.range 4).foldl (Rounds.offer fails) x
  let near := x.taken 0 k
  let far := x.taken 1 k
  far.foldl (Rounds.serve cmd 1) (near.foldl (Rounds.serve cmd 0) x)

/-- The cycle decided (R299, R326): a packet that gets no buffers was never admitted, so the admissions after it are checked without
it; each attempt can only add to such packets, so five suffice (log entry 119). -/
def Rounds.settle (cmd : Dev → Dev) (k : Nat) (x : Rounds) : Nat → List Nat → Rounds
  | 0, fails => x.attempt cmd k fails
  | f + 1, fails =>
    let y := x.attempt cmd k fails
    let more := (y.ends.filter fun e => e.2.isNone && !fails.contains e.1.pipe).map fun e => e.1.pipe
    if more.isEmpty then y else x.settle cmd k f (fails ++ more)

/-- The packets of pipeline k that the cycle decided join their queue or are dropped (R297, R300). -/
def Rounds.finish (x : Rounds) (k : Nat) : Rounds :=
  { x with
    dev := (x.ends.filter fun e => e.1.pipe == k).foldl (fun d e => match e.2 with
      | some cs => d.commitTo e.1.queue e.1.tier e.1.pkt e.1.len cs
      | none => d.tmDrop e.1.queue e.1.pkt e.1.len 5) x.dev
    ends := x.ends.filter fun e => e.1.pipe != k }

/-- Frees of a tier accepted at the end of a cycle: at most eight, by ascending requester, each checked against the cells as they
stood at its start, `d0`; a second free of a cell is a double free (R327, R328). -/
def Rounds.accept (d0 : Dev) (x : Rounds) (n : Nat) : Rounds :=
  let l := (List.range 16).flatMap fun r => x.frees.filter fun f => f.tier == n && f.req == r
  let one (y : Dev × List Nat) (f : CellFree) : Dev × List Nat :=
    let fault := if y.2.contains f.cell then some 0 else d0.freeFault n f.cell f.pool
    (y.1.freeDecided n f.pool f.req f.cell fault, if fault.isNone then y.2 ++ [f.cell] else y.2)
  { x with dev := ((l.take 8).foldl one (x.dev, [])).1, frees := (x.frees.filter fun f => f.tier ≠ n) ++ l.drop 8 }

/-- The pipeline cycle of round k (R299, R326, R327): admissions in ascending pipeline number, the near round, the far round, the
packets join their queues in ascending pipeline number, then the frees. -/
def Rounds.cycle (cmd : Dev → Dev) (x : Rounds) (k : Nat) : Rounds :=
  let y := (List.range 4).foldl Rounds.finish (x.retier.settle cmd k 5 [])
  (y.accept x.dev 0).accept x.dev 1

/-- Cycles from that of round k on until nothing waits; the fuel bounds their number. -/
def Rounds.run (cmd : Dev → Dev) : Nat → Rounds → Nat → Rounds
  | 0, x, _ => x
  | f + 1, x, k =>
    if x.outs.isEmpty && x.asks.isEmpty && x.frees.isEmpty && !x.fetch && x.five.isNone then x
    else Rounds.run cmd f (x.cycle cmd k) (k + 1)

/-- The packets of the pipelines that commit in one cycle (R31, R363): each pipeline's first packet passes its tail checks. -/
def Dev.commitsOf (d : Dev) (pipes : List Nat) : Rounds :=
  (List.range 4).foldl (fun (x : Rounds) k =>
    if !pipes.contains k || x.dev.im.state != .running then x
    else
      match takeFirst (fun f => f.pipe == k) x.dev.pc.flights with
      | none => x
      | some (f, rest) =>
        if x.dev.chainWaits f then x
        else
          match (x.dev.onPc fun y => { y with flights := rest }).msTail f.pkt with
          | (d1, true) => { x with dev := f.outs.foldl (fun d o => d.dropRecirc o.pkt) d1 }
          | (d1, false) => { x with dev := d1, outs := x.outs ++ f.outs.map fun o => (k, o, f.chain) })
    ⟨d, [], [], [], [], false, none⟩

/-- ALLOCATION_ROUND (R299, R326, R327): pipelines whose packets commit in one cycle, with `fetch` a request of the prefetch engine,
and with `five` one of BP_CMD in that tier, whose effect is `cmd`. What the round cannot take follows in the next ones. -/
def Dev.allocationRound (d : Dev) (pipes : List Nat) (fetch : Bool) (five : Option Nat) (cmd : Dev → Dev) : Dev :=
  let x := d.commitsOf pipes
  let d0 := if fetch then x.dev.fetchOrder else x.dev
  let fuel := 3 * x.outs.length + ((x.outs.map fun o => ((o.2.2.map fun c => c.2.length).getD 0)).foldl (· + ·) 0) + 6
  (Rounds.run cmd fuel { x with dev := d0, fetch := fetch, five := five } d.round).dev

/-! ### Scrubbing (R336, R337) -/

/-- The cells of a tier with the reserved region (R315): the scrubber's range. -/
def Dev.scrubEnd (d : Dev) (n : Nat) : Nat := d.tierCells n

/-- MEMORY_SCRUB (R336, R337): the scrubber reads the next cell of a tier; `err` is what the memory itself shows there (1 corrected, 2
uncorrectable), `link` whether in its link word. -/
def Dev.memoryScrub (d : Dev) (n err : Nat) (link : Bool) : Dev :=
  if !d.flag (R .BP_SCRUB_CFG) 31 ∨ d.scrubEnd n = 0 then d
  else
    let c := d.bp.scrub.getD n 0
    let d0 := d.onBp fun b => { b with scrub := b.scrub.put 0 n ((c + 1) % d.scrubEnd n) }
    if reservedCell n c then
      let bad := decide (2 ≤ err) || d.bp.resBad.contains c
      if bad then (d0.onBp fun b => { b with resBad := if b.resBad.contains c then b.resBad else b.resBad ++ [c] }).eccEvent n c true false 3
      else if err = 1 ∨ d.bp.resSoft.contains c then
        ((d0.onBp fun b => { b with resSoft := b.resSoft.filter fun x => x ≠ c }).eccEvent n c false false 3).resWrite fun x => x == c
      else d0
    else
      let x := d.cell n c
      let le := max x.linkErr (if link then min err 2 else 0)
      let de := max x.dataErr (if link then 0 else min err 2)
      let d1 := if le = 0 then d0 else d0.eccEvent n c (le == 2) true 3
      let d2 := if de = 0 then d1 else d1.eccEvent n c (de == 2) false 3
      let keep (e : Nat) : Nat := if e = 2 then 2 else 0
      let d3 := if le = 1 ∨ de = 1 then d2.cellPut n c fun y => { y with linkErr := keep le, dataErr := keep de }
        else if le = 0 ∧ de = 0 then d2 else d2.onCell n c fun y => { y with linkErr := keep le, dataErr := keep de }
      if (le = 2 ∨ de = 2) ∧ !x.used then d3.retire n c else d3

/-! ### Reclaim (R339) -/

/-- The cells of a tier that the lists of queues reach. -/
def Dev.reached (d : Dev) (n : Nat) : List Nat := d.tm.queues.flatMap fun kv => (kv.2.list n).flatMap Held.cells

/-- RECLAIM_DONE (R339): every allocated cell that no list reaches is freed as requester 8, a copy of the prefetch engine among
them, and the command completes. -/
def Dev.reclaimDone (d : Dev) : Dev :=
  match d.waitingCmd .bp 0x20 with
  | none => d
  | some _ =>
    let lost (n : Nat) : List Nat :=
      let r := d.reached n
      ((d.cells n).filter fun kv => kv.2.used && !kv.2.retired && !reservedCell n kv.1 && !r.contains kv.1).map Prod.fst
    let free (d : Dev) (n : Nat) : Dev := (lost n).foldl (fun d c => d.freeCell n (d.cell n c).owner 8 c) d
    let d := d.onBp fun b => { b with copy := none }
    ((free (free d 0) 1).raise (R .BP_FLAGS) 12).completeWaiting .bp 0x20 .ok [(0, (lost 0).length), (1, (lost 1).length)]

/-! ### The reserved region (R318, R135, R205) -/

/-- One byte of the reserved region at a byte offset of the far tier. -/
def Dev.reservedByte (d : Dev) (off : Nat) : Byte :=
  let bin (r key h i : Nat) (tree : Bool) : Byte :=
    let p := d.pm r
    let c := if h = 32 then p.histDay else p.hist.find? fun c => c.hdr.seq % 32 == h
    match c with
    | some c => (pmBytes c.hdr (c.objs.getD key PmObj.rest) tree true).getD i 0
    | none => 0
  if off < 69206016 then
    let k := off / 64
    bin (k / 33 / 4096) (k / 33 % 4096) (k % 33) (off % 64) false
  else if off < 69476352 then
    let o := off - 69206016
    let k := o / 128
    bin (k / 33 / 8) (4096 + k / 33 % 8) (k % 33) (o % 128) true
  else if off < 71303168 then 0
  else
    let o := off - 71303168
    let k := o / 96
    match (d.gs (k / 2048)).allocs.get? (k % 2048), d.rx.days.get? k with
    | some a, _ => BitVec.ofNat 8 (a.run.pred.day.getD (o % 96) 64)
    | none, some t => BitVec.ofNat 8 (t.getD (o % 96) 64)
    | none, none => 0

/-- A link word as it lies in a cell of tier n (R316): NEXT_TIER is the cell's own tier once a link word has been written. -/
def Cell.link (x : Cell) (n : Nat) : Nat :=
  x.next.getD 0 + 2 ^ 26 * (if x.next.isSome ∨ x.eop then n else 0) + 2 ^ 27 * b2n x.eop + 2 ^ 28 * x.nextLen + 2 ^ 58 * x.owner

/-- Thirty-two bytes of a cell (R348). -/
def Dev.cellPart (d : Dev) (n c part : Nat) : List Byte :=
  if reservedCell n c then (List.range 32).map fun i => d.reservedByte (2048 * c + 32 * part + i)
  else sub (leBytes 8 ((d.cell n c).link n) ++ (d.cell n c).data) (32 * part) 32

/-! ### BP_CMD (R348) -/

/-- Only PF0 and the cores issue BP_CMD opcodes; a cell beyond the tier is a bad argument (R348). -/
def bpOnly (a : Accepted) (st : Nat) (k : CmdRes) : CmdRes := if !trusted a.src then .refuse .denied st else k

/-- The state of a cell: its state bit and, above it, whether it is retired (R328, R338). -/
def Dev.cellState (d : Dev) (n c : Nat) : Nat := b2n (d.cell n c).used + 2 * b2n (d.cell n c).retired

/-- The cell that an opcode of BP_CMD names. -/
def Dev.bpCell (d : Dev) (a : Accepted) (k : Nat → Nat → CmdRes) : CmdRes :=
  let n := bits a.obj 27 27
  let c := bits a.obj 26 0
  bpOnly a (d.cellState n c) <|
    if d.tierCells n ≤ c then .refuse .badArgument 0 else k n c

/-- BUF_ALLOC (R348): cells chained by NEXT with EOP on the last, payload as it was. -/
def opBufAlloc (a : Accepted) (d : Dev) : CmdRes :=
  bpOnly a (b2n (d.poolExists (bits a.obj 5 0))) <|
    let n := bits a.obj 27 27
    let p := bits a.obj 5 0
    let k := a.db 0 6 0
    if !d.poolExists p ∨ k = 0 ∨ (if n = 0 then 67 else 9) < k then .refuse .badArgument 0
    else
      match d.allocCells p n k with
      | (d1, none) => .done d1 .tableFull []
      | (d1, some cs) => .done (d1.chain n cs (cs.map fun c => (d1.cell n c).data)) .ok [(0, cs.headD 0)]

/-- The cells from a named one to EOP (R348), up to the first that is no cell of a chain, their link words read and checked; a
link word that fails ends the walk. -/
def Dev.freeWalk (d : Dev) (n : Nat) : Nat → Nat → List Nat → Dev × Option (List Nat)
  | 0, _, acc => (d, some acc)
  | k + 1, c, acc =>
    let x := d.cell n c
    if reservedCell n c ∨ !x.used then (d, some (acc ++ [c]))
    else
      let (d1, bad) := d.cellCheck n c true 4
      if bad then (d1, none)
      else
        match (if x.eop then none else x.next) with
        | some c' => d1.freeWalk n k c' (acc ++ [c])
        | none => (d1, some (acc ++ [c]))

/-- BUF_FREE (R328, R348): every cell is checked before any is freed; a link word that fails gives MEMORY_FAULT (R57), nothing freed. -/
def opBufFree (a : Accepted) (d : Dev) : CmdRes :=
  d.bpCell a fun n c =>
    let p := a.db 0 5 0
    match d.freeWalk n (if bit (a.dat 0) 8 then 16384 else 1) c [] with
    | (d1, none) => .done d1 .memoryFault []
    | (d1, some cs) =>
      match cs.find? fun c => (d1.freeFault n c p).isSome with
      | some c =>
        match d1.freeFault n c p with
        | some 0 => .refuseAt (d1.freeReject n c p 5 0) .notInState (d1.cellState n c)
        | _ => .refuseAt (d1.freeReject n c p 5 1) .denied (d1.cellState n c)
      | none => .done (d1.freeCells n p 5 cs) .ok []

/-- CELL_READ (R348). -/
def opCellRead (a : Accepted) (d : Dev) : CmdRes :=
  d.bpCell a fun n c =>
    let part := a.db 0 5 0
    if n = 0 ∧ 7 < part then .refuse .badArgument 0
    else if reservedCell n c then
      match d.resRead c 4 with
      | (d1, true) => .done d1 .memoryFault []
      | (d1, false) => .done d1 .ok (outBytes 0 8 (d.cellPart n c part))
    else
      let (d1, l) := d.cellCheck n c true 4
      let (d2, p) := d1.cellCheck n c false 4
      if l ∨ p then .done d2 .memoryFault [] else .done d2 .ok (outBytes 0 8 (d.cellPart n c part))

/-- CELL_WRITE (R348): sixteen bytes of a cell; the link word is never written, and the codes of the rest stay (log entry 103). -/
def opCellWrite (a : Accepted) (d : Dev) : CmdRes :=
  d.bpCell a fun n c =>
    let part := a.db 0 6 0
    let x := d.cell n c
    if n = 0 ∧ 15 < part then .refuse .badArgument 0
    else if reservedCell n c ∨ !x.used ∨ x.retired then .refuse .notInState (d.cellState n c)
    else
      let bs := (List.range 4).flatMap fun i => leBytes 4 (a.dat (1 + i))
      let full := sub x.data 0 (cellRoom n)
      let data := if part = 0 then bs.drop 8 ++ full.drop 8 else full.take (16 * part - 8) ++ bs ++ full.drop (16 * part + 8)
      .done (d.cellPut n c fun y => { y with data := data }) .ok []

/-- CELL_RETIRE (R338, R348). -/
def opCellRetire (a : Accepted) (d : Dev) : CmdRes :=
  d.bpCell a fun n c =>
    let x := d.cell n c
    if reservedCell n c then .refuse .badArgument 0
    else if x.retired then .done d .ok []
    else if x.used then .refuse .notInState 1
    else if 4096 ≤ (d.retList n).length then .done (d.retire n c) .tableFull []
    else .done (d.retire n c) .ok []

/-- RETIRE_READ (R348). -/
def opRetireRead (a : Accepted) (d : Dev) : CmdRes :=
  bpOnly a 0 <|
    match (d.retList (a.db 0 0 0))[a.db 0 27 16]? with
    | some c => .done d .ok [(0, c)]
    | none => .done d .notFound []

/-- RECLAIM (R339): only in QUIESCED; it waits for the end of its walk. -/
def opReclaim (a : Accepted) (d : Dev) : CmdRes :=
  bpOnly a d.im.state.code <| if d.im.state ≠ .quiesced then .refuse .notInState d.im.state.code else .wait d

/-- ECC_INJECT (R348): armed for the next write of the cell. -/
def opEccInject (a : Accepted) (d : Dev) : CmdRes :=
  d.bpCell a fun n c =>
    if (d.bp.armed.get? n).isSome then .refuse .busy 0
    else .done (d.onBp fun b => { b with armed := b.armed.set n (c, bit (a.dat 0) 0, bit (a.dat 0) 1) }) .ok []

/-- ECC_POP (R345). -/
def Dev.eccPop (d : Dev) : Dev := d.onBp fun b => { b with log := b.log.drop 1 }

/-- BP_ECC_LOG and BP_ECC_LOG_CELL (R345). -/
def Dev.eccLog (d : Dev) : Nat :=
  match d.bp.log with
  | [] => 0
  | e :: _ => 2 ^ 31 + 2 ^ 30 * b2n e.ue + 2 ^ 29 * e.tier + 2 ^ 28 * b2n e.reserved + 2 ^ 27 * b2n e.link +
      2 ^ 20 * cellChannel e.tier e.cell + 2 ^ 16 * e.source + d.bp.log.length
def Dev.eccLogCell (d : Dev) : Nat := (d.bp.log.head?.map EccEvt.cell).getD 0

/-- A write of a pool's cap in a tier (R324, R346): a value below MIN is refused. -/
def Dev.capWrite (d : Dev) (p n v : Nat) : Dev :=
  let r := if n = 0 then R .BP_POOL_NEAR_CAP p else R .BP_POOL_FAR_CAP p
  if v % 2 ^ 27 < d.poolMin p n then d.cfgRefused (R .BP_FLAGS) 13 else d.setReg r (v % 2 ^ 27)

/-- MEMORY_TEMPERATURE_HOT (R320, R347): memory 0 is the HBM2E stack, 1 + ch a DDR5 channel; HOT stands while the temperature it
reports, in °C and tenths, lies above 85 °C. -/
def Dev.memoryHot (d : Dev) (mem tempC tenths : Nat) : Dev :=
  let hot := decide (850 < 10 * tempC + tenths)
  if mem = 0 then (d.setFld (R .BP_HBM_STATUS) 29 29 (b2n hot)).setFld (R .BP_HBM_STATUS) 23 16 (min 255 tempC)
  else if mem ≤ 4 then d.setFld (R .BP_DDR_STATUS (mem - 1)) 30 30 (b2n hot)
  else d

end Sys2Proof.Machine
end

