-- ==== Sys2Proof/Machine/LookAside.lean ====
section
/-! DEFINITION. The look-aside service (spec/11, R367 to R371, R377): rings, descriptors, modes, and the LA opcodes of CE_CMD. -/

namespace Sys2Proof.Machine

/-! ### Rings (R367, R377) -/

/-- The slice that owns ring n, none for PF0 and the cores. -/
def Dev.laSlice (d : Dev) (n : Nat) : Option Nat :=
  let o := d.fld (R .CE_LA_OWNER n) 4 0
  if o < 16 then some o else none

/-- Entries between CI and PI of ring n, modulo 8,192. -/
def Dev.laFill (d : Dev) (n : Nat) : Nat := (d.reg (R .CE_LA_PI n) + 8192 - d.reg (R .CE_LA_CI n)) % 8192

/-- The scratchpad offset of the descriptor at CI. -/
def Dev.laDesc (d : Dev) (n : Nat) : Nat :=
  d.fld (R .CE_LA_BASE n) 21 6 * 64 + 64 * (d.reg (R .CE_LA_CI n) % 2 ^ d.fld (R .CE_LA_SIZE n) 3 0)

/-- LA_PI_WRITE (R367): a producer index more than the ring's size beyond CI leaves PI unchanged and sets LA_PI_BAD. -/
def Dev.laPi (d : Dev) (n v : Nat) : Dev :=
  let pi := v % 8192
  let ahead := (pi + 8192 - d.reg (R .CE_LA_CI n)) % 8192
  if ahead ≤ 2 ^ d.fld (R .CE_LA_SIZE n) 3 0 then d.setReg (R .CE_LA_PI n) pi else d.raise (R .CE_FLAGS) 15

/-- The configuration refusal of CE (R376, R377). -/
def Dev.ceRefused (d : Dev) : Dev := d.cfgRefused (R .CE_FLAGS) 16

/-- A write of CE_LA_BASE (R377). -/
def Dev.laBaseWrite (d : Dev) (n v : Nat) : Dev :=
  let r := R .CE_LA_BASE n
  if d.flag (R .CE_LA_SIZE n) 31 then d.ceRefused else d.setReg r (bits v 21 6 * 64)

/-- A write of CE_LA_SIZE (R371, R377): EN from 0 to 1 sets CI to PI. The word writes LOG2 (log
entry 128), which is refused while EN = 1; EN takes effect. -/
def Dev.laSizeWrite (d : Dev) (n v : Nat) : Dev :=
  let r := R .CE_LA_SIZE n
  let old := d.reg r
  let l := bits v 3 0
  let bad := bit old 31 || decide (l < 4 ∨ 12 < l)
  let d1 := d.setReg r (2 ^ 31 * b2n (bit v 31) + if bad then bits old 3 0 else l)
  let d2 := if bit v 31 ∧ !bit old 31 then d1.setReg (R .CE_LA_CI n) (d1.reg (R .CE_LA_PI n)) else d1
  if bad then d2.ceRefused else d2

/-- A write of CE_LA_OWNER (R377): refused while EN = 1, from a VF, and for other values. -/
def Dev.laOwnerWrite (d : Dev) (n v : Nat) (src : Src) : Dev :=
  let r := R .CE_LA_OWNER n
  let o := bits v 4 0
  if d.flag (R .CE_LA_SIZE n) 31 ∨ !trusted src ∨ 20 < o then d.ceRefused else d.setReg r o

/-! ### Descriptors (R368) -/

/-- A look-aside descriptor as read. -/
structure LaDesc where
  mode : Nat
  flags : Nat
  key : Nat
  len : Nat
  aad : Nat
  tagLen : Nat
  pad : Nat
  src : Nat
  dst : Nat
  iv : Nat
  ivPad : Nat
  tag : Nat
  deriving DecidableEq, Repr

/-- The fields of 64 bytes; the IV as a big-endian string of 16 bytes, of 12 for GCM. -/
def laParse (b : List Byte) : LaDesc :=
  let mode := leAt b 0 1
  let gcm := mode == 2 || mode == 3
  ⟨mode, leAt b 1 1, leAt b 2 2, leAt b 4 4, leAt b 8 2, leAt b 10 1, leAt b 11 5, leAt b 16 8, leAt b 24 8,
    if gcm then beAt b 32 12 else beAt b 32 16, if gcm then leAt b 44 4 else 0, leAt b 48 8⟩

def LaDesc.gcm (x : LaDesc) : Bool := x.mode == 2 || x.mode == 3
def LaDesc.mac (x : LaDesc) : Bool := x.mode == 4 || x.mode == 5
/-- The mode verifies a tag. -/
def LaDesc.verifies (x : LaDesc) : Bool := x.mode == 3 || x.mode == 5
/-- The mode writes data at DST. -/
def LaDesc.writes (x : LaDesc) : Bool := !x.mac
/-- The mode has a tag. -/
def LaDesc.tagged (x : LaDesc) : Bool := x.gcm || x.mac
def LaDesc.srcSp (x : LaDesc) : Bool := !bit x.flags 0
def LaDesc.dstSp (x : LaDesc) : Bool := !bit x.flags 1
def LaDesc.tagSp (x : LaDesc) : Bool := !bit x.flags 2
/-- The bytes read at SRC. -/
def LaDesc.srcLen (x : LaDesc) : Nat := x.aad + x.len

/-- The scratchpad ranges that a descriptor names. -/
def LaDesc.ranges (x : LaDesc) : List (Nat × Nat) :=
  (if x.srcSp then [(x.src, x.srcLen)] else []) ++ (if x.writes && x.dstSp then [(x.dst, x.len)] else []) ++
    if x.tagged && x.tagSp then [(x.tag, x.tagLen)] else []

/-- BAD_ARGUMENT of R369 and R371. -/
def LaDesc.bad (x : LaDesc) : Bool :=
  decide (x.mode < 1 ∨ 5 < x.mode) || decide (8 ≤ x.flags) || decide (1023 < x.key) || decide (2 ^ 24 ≤ x.len) ||
    (!x.gcm && x.aad ≠ 0) || (x.gcm && decide (x.tagLen < 12 ∨ 16 < x.tagLen)) ||
    (x.mac && decide (x.tagLen < 4 ∨ 16 < x.tagLen)) || x.pad ≠ 0 || x.ivPad ≠ 0 ||
    (x.writes && x.srcSp == x.dstSp && x.dst ≠ x.src && x.len ≠ 0 && decide (x.dst < x.src + x.srcLen ∧ x.src < x.dst + x.len)) ||
    x.ranges.any fun r => decide (2 ^ 22 < r.1 + r.2)

/-- A slice ring's descriptor names a scratchpad range outside the aperture (R485). -/
def Dev.laOutside (d : Dev) (x : LaDesc) (s : Nat) : Bool := x.ranges.any fun r => !d.inAperture s r.1 r.2

/-- The descriptor at CI completes (R367, R368): bytes 56 to 63 as one word, CI, LA_DONE. -/
def Dev.laComplete (d : Dev) (n : Nat) (st : Status) (verify : Nat) : Dev :=
  let d1 := d.spWrite 13 (d.laDesc n + 56) (leBytes 1 1 ++ leBytes 1 st.code ++ leBytes 1 verify ++ List.replicate 5 0)
  (d1.setReg (R .CE_LA_CI n) ((d1.reg (R .CE_LA_CI n) + 1) % 8192)).raise (R .CE_FLAGS) 14

/-- The first byte of n at a scratchpad address whose word has an uncorrectable error. -/
def Dev.spFirst (d : Dev) (a n : Nat) : Option Nat := (List.range n).find? fun i => d.spFault (spOff a + i) 1

/-- The AES block under a look-aside key. -/
def LaKey.cipher (k : LaKey) (b : Nat) : Nat := aes k.long (if k.long then k.key else k.key / 2 ^ 128) b

/-- The output of a mode: its data at DST and its tag (R369). -/
def laRun (k : LaKey) (x : LaDesc) (bs : List Byte) : List Byte × Nat :=
  let aad := bs.take x.aad
  let data := bs.drop x.aad
  match x.mode with
  | 1 => (ctrCrypt k.cipher x.iv data, 0)
  | 2 => let ct := gcmCrypt k.cipher x.iv data; (ct, gcmTag k.cipher x.iv aad ct)
  | 3 => (gcmCrypt k.cipher x.iv data, gcmTag k.cipher x.iv aad data)
  | _ => ([], cmac k.cipher data)

/-- A descriptor that may run (R370, R371): `fault` is the offset of a host read fault at SRC, `tagFault` one at TAG_ADDR. -/
def Dev.laExec (d : Dev) (n : Nat) (x : LaDesc) (k : LaKey) (fault : Option Nat) (tagFault : Bool) : Dev :=
  let bad := if x.srcSp then d.spFirst x.src x.srcLen else fault.filter fun f => decide (f < x.srcLen)
  let r := laRun k x (d.rdMem x.srcSp x.src x.srcLen)
  match bad with
  | some f =>
    let d1 := if x.srcSp then d.spUe ((spOff x.src + f) / 8 * 8) 13 else d
    let done := (x.src + f) / 64 * 64 - (x.src + x.aad)
    let d2 := if x.verifies ∨ !x.writes then d1 else d1.wrMem 13 x.dstSp x.dst (r.1.take done)
    d2.laComplete n .memoryFault 0
  | none =>
    let tag := blockTake r.2 x.tagLen
    if x.verifies then
      let (d1, tf) := d.rdFault x.tagSp x.tag x.tagLen 13
      if tf ∨ (tagFault ∧ !x.tagSp) then d1.laComplete n .memoryFault 0
      else if d1.rdMem x.tagSp x.tag x.tagLen = tag then
        (if x.writes then d1.wrMem 13 x.dstSp x.dst r.1 else d1).laComplete n .ok 1
      else d1.laComplete n .ok 2
    else
      let d1 := if x.writes then d.wrMem 13 x.dstSp x.dst r.1 else d
      (if x.tagged then d1.wrMem 13 x.tagSp x.tag tag else d1).laComplete n .ok 0

/-- LA_DESCRIPTOR (R351, R367 to R371, R485): the descriptor at CI of ring n; `ecc` is what the key store reports (1 corrected, 2
uncorrectable). -/
def Dev.laDescriptor (d : Dev) (n : Nat) (fault : Option Nat) (tagFault : Bool) (ecc : Nat) : Dev :=
  let a := d.laDesc n
  let served : Bool := match d.laSlice n with
    | some s => d.inAperture s a 64
    | none => true
  if !d.flag (R .CE_LA_SIZE n) 31 ∨ d.laFill n = 0 ∨ !served then d
  else
    let (d1, ue) := d.rdFault true a 64 13
    if ue then d1.laComplete n .memoryFault 0
    else
      let x := laParse (d1.rdMem true a 64)
      let key := d1.ce.la.get? x.key
      let denied : Bool := match d1.laSlice n with
        | some s => d1.laOutside x s || ((key.map fun k => k.owner != s).getD false)
        | none => false
      if denied then d1.laComplete n .denied 0
      else if x.bad then d1.laComplete n .badArgument 0
      else
        match key with
        | none => d1.laComplete n .notInState 0
        | some k =>
          if ecc = 2 then (d1.keyStoreRec x.key).laComplete n .memoryFault 0
          else (if ecc = 1 then d1.keyCorrected else d1).laExec n x k fault tagFault

/-! ### LA opcodes (R378) -/

/-- LA opcodes are open to a VF only for key slots of its slice; an empty slot is no other slice's (R378; log entry 21). -/
def Dev.laOpen (d : Dev) (a : Accepted) (k : Nat → CmdRes) : CmdRes :=
  let n := bits a.obj 9 0
  match sliceOf? a.src, d.ce.la.get? n with
  | some s, some x => if x.owner ≠ s then .refuse .denied 1 else k n
  | _, _ => k n

/-- LA_KEY_WRITE (R378). -/
def opLaKeyWrite (a : Accepted) (d : Dev) : CmdRes :=
  d.laOpen a fun n =>
    let long := bit a.obj 16
    let key := a.bytesBe 0 8
    let owner := (sliceOf? a.src).getD (bits a.obj 24 20)
    if 16 < owner ∨ (!long ∧ key % 2 ^ 128 ≠ 0) then .refuse .badArgument 0
    else .done (d.onCe fun c => { c with la := c.la.set n ⟨long, owner, key⟩ }) .ok []

/-- LA_KEY_CLEAR (R378). -/
def opLaKeyClear (a : Accepted) (d : Dev) : CmdRes :=
  d.laOpen a fun n => .done (d.onCe fun c => { c with la := c.la.erase n }) .ok []

/-- LA_KEY_READ (R378). -/
def opLaKeyRead (a : Accepted) (d : Dev) : CmdRes :=
  d.laOpen a fun n =>
    match d.ce.la.get? n with
    | some k => .done d .ok [(0, 1 + 2 * b2n k.long + 16 * k.owner)]
    | none => .done d .ok [(0, 0)]

end Sys2Proof.Machine
end

