-- ==== Sys2Proof/Machine/Protect.lean ====
section
/-! DEFINITION. Protection pairs and the mate link (spec/14): cells, the copy stream and its bytes, the tree protection states,
switches, takeovers, cold mode, and the opcodes of PX_CMD (R469). -/

namespace Sys2Proof.Machine

/-! ### Access -/

/-- A protected tree. -/
def Dev.pt (d : Dev) (t : Nat) : PxTree := d.px.trees.getD t PxTree.rest

/-- A protected tree changed by f. -/
def Dev.onPt (d : Dev) (t : Nat) (f : PxTree → PxTree) : Dev :=
  d.onPx fun x => { x with trees := x.trees.put PxTree.rest t (f (x.trees.getD t PxTree.rest)) }

/-- Tree t is protected (R435). -/
def Dev.isProt (d : Dev) (t : Nat) : Bool := decide (d.im.str.mode ≠ 0 ∧ t < 64) && bit d.im.str.protTrees t

/-- The protected trees. -/
def Dev.protTrees (d : Dev) : List Nat := (List.range 64).filter d.isProt

/-- Hot mode and cold mode (R435). -/
def Dev.hot (d : Dev) : Bool := d.im.str.mode == 1
def Dev.cold (d : Dev) : Bool := d.im.str.mode == 2

/-- The link is up and the pair is matched: what every rule but HELLO takes for a link (R436). -/
def Dev.linkUp (d : Dev) : Bool := d.hot && d.lx.mateUp && d.px.matched

/-- The lanes in the good-lane mask of both ends (R447, R448). -/
def Dev.goodLanes (d : Dev) : List Nat := d.goodMateLanes.filter fun m => bit d.px.mateMask m

/-- A tree is FIT (R437). -/
def Dev.fit (d : Dev) (t : Nat) : Bool :=
  let x := d.tf t
  !bit x.declared 1 && !(d.pt t).lockout && !((d.pt t).state == .standby && bit x.declared 0)

/-- The trees that this unit drives. -/
def Dev.driven (d : Dev) : List Nat := d.protTrees.filter fun t => (d.pt t).state == .active

/-- The running STRUCTURE_ID (R65). -/
def Dev.structId (d : Dev) : List Byte := (List.range 4).flatMap fun i => leBytes 4 (d.reg (R .IM_STRUCTURE_ID i))

/-- The check value of a pair key: the first 4 bytes of AES-256 of a zero block under it (R449). -/
def pairCheck (k : Nat) : Nat := Config.aes256 k 0 % 2 ^ 128 / 2 ^ 96

/-- The copy state of this unit (R455): 0 NONE, 1 RESYNCING, 2 CURRENT, 3 STALE. -/
def Dev.copyState (d : Dev) : Nat := d.fld (R .PX_STATUS) 19 18
/-- The copy state set. -/
def Dev.setCopyState (d : Dev) (s : Nat) : Dev := d.setFld (R .PX_STATUS) 19 18 s
/-- COPY_AGE (R453). -/
def Dev.copyAge (d : Dev) : Nat := d.fld (R .PX_STATUS) 15 8

/-- HOLDOFF_FRAMES, COPY_AGE_MAX, FOREIGN_N, STARTUP_P and _S, SFC_JUMP and WTR_S in force (R466). -/
def Dev.holdoff (d : Dev) : Nat := atLeast1 (bits d.px.cfg 21 14)
def Dev.copyAgeMax (d : Dev) : Nat := bits d.px.cfg 13 6
def Dev.foreignN (d : Dev) : Nat := atLeast1 (bits d.px.cfg 5 2)
def Dev.wtrS (d : Dev) : Nat := bits d.px.cfg 31 22
def Dev.startup (d : Dev) : Nat := if d.im.str.role = 1 then bits d.px.cfg2 31 24 else bits d.px.cfg2 23 16
def Dev.sfcJump (d : Dev) : Nat := bits d.px.cfg2 15 0

/-- The whole seconds of Datum time that a tree's wait-to-restore timer has run, where it runs (R445). -/
def Dev.wtrRun (d : Dev) (t : Nat) : Option Nat := (d.pt t).wtr.map fun c => (d.now - c) / 1000000000

/-- C in picoseconds. -/
def Dev.cPs (d : Dev) : Nat := d.tb.c * 1000 / 2 ^ 40

/-- Microseconds, at least, since the last boundary: `sinceBnd n` says that no more than n have passed (a tick is 1.28 ns). -/
def Dev.sinceBnd (d : Dev) (us : Nat) : Bool := decide ((d.tb.ticks - d.px.bndTick) * 128 ≤ us * 100000)

/-- A cell of the mate link: its 16-byte header, whose CRC-32C covers all but itself, and 624 bytes of data (R447). -/
def cellBytes (typ lane seq : Nat) (data : List Byte) : List Byte :=
  let head := leBytes 1 typ ++ leBytes 1 lane ++ leBytes 2 data.length ++ leBytes 4 seq ++ leBytes 4 0
  let body := data ++ List.replicate (624 - data.length) 0
  head ++ leBytes 4 (crc32c (head ++ body)) ++ body

/-- The data of a control cell (R449). -/
def CtlCell.data (x : CtlCell) : List Byte :=
  leBytes 1 x.kind ++ leBytes 1 x.tree ++ leBytes 1 x.part ++ leBytes 1 x.parts ++ leBytes 4 x.sfc ++ x.content

/-- The bytes of a cell that has left (R447). -/
def CellOut.bytes (x : CellOut) : List Byte := cellBytes (if x.control then 2 else 3) x.lane x.seq x.data

/-- The bytes of an idle cell on a lane (R447). -/
def idleCell (lane : Nat) : List Byte := cellBytes 0 lane 0 []

/-! ### Codewords of a mate lane (R446) -/

/-- The product in GF(2^10) under x^10 + x^3 + 1. -/
def gf10Mul (a b : Nat) : Nat :=
  (List.range 10).foldl (fun r i =>
    let s := 2 * r
    (if bit s 10 then s ^^^ 0x409 else s) ^^^ (if bit b (9 - i) then a else 0)) 0

/-- The powers of the primitive element 2 from exponent 0 on. -/
def gf10Powers : Nat → Nat → List Nat
  | 0, _ => []
  | n + 1, a => a :: gf10Powers n (gf10Mul a 2)

/-- The coefficients behind the leading one of the generator polynomial with roots 2^0 to 2^31, highest power first. -/
def mateGenerator : List Nat :=
  ((gf10Powers 32 1).foldl (fun g a => List.zipWith (· ^^^ ·) (g ++ [0]) (0 :: g.map (gf10Mul a))) [1]).drop 1

/-- The 32 check symbols of RS(544,512) over message symbols. -/
def mateParity (msg : List Nat) : List Nat :=
  msg.foldl (fun s m =>
    let f := m ^^^ s.headD 0
    List.zipWith (· ^^^ ·) (s.drop 1 ++ [0]) (mateGenerator.map (gf10Mul f))) (List.replicate 32 0)

/-- The bits of bytes as a lane sends them, the least significant one of each byte first (log entry 104). -/
def wireBits (bs : List Byte) : List Bool := bs.flatMap fun b => (List.range 8).map fun i => bit b.toNat i

/-- Ten-bit symbols of a run of bits, the first bit least significant. -/
def symbolsOf : Nat → List Bool → List Nat
  | 0, _ => []
  | n + 1, bs => (bs.take 10).foldr (fun x v => 2 * v + b2n x) 0 :: symbolsOf n (bs.drop 10)

/-- The self-synchronising scrambler of clause 49, 1 + x^39 + x^58, over bits: its last 58 output bits, the newest in bit 0, and the
output. -/
def mateScramble (st : Nat) (bs : List Bool) : Nat × List Bool :=
  let r := bs.foldl (fun (x : Nat × List Bool) b =>
    let o := xor b (xor (bit x.1 38) (bit x.1 57))
    ((2 * x.1 + b2n o) % 2 ^ 58, o :: x.2)) (st, [])
  (r.1, r.2.reverse)

/-- The 544 symbols of the codeword that carries a cell on a lane, and the scrambler's state behind it; a marker cell is not
scrambled (R446). -/
def mateCodeword (st : Nat) (marker : Bool) (cell : List Byte) : Nat × List Nat :=
  let bs := wireBits cell
  let x := if marker then (st, bs) else mateScramble st bs
  let msg := symbolsOf 512 x.2
  (x.1, msg ++ mateParity msg)

/-! ### Cells sent -/

/-- The good-lane mask that this unit sends (R447, R448). -/
def Dev.goodMask (d : Dev) : Nat := (d.goodMateLanes.map fun m => 2 ^ m).foldl (· + ·) 0

/-- The bytes of the marker cell that this unit sends on a lane (R447): its good-lane mask, its ROLE, and the next SEQ. -/
def Dev.markerOut (d : Dev) (lane : Nat) : List Byte :=
  cellBytes 1 lane 0 (leBytes 1 d.goodMask ++ leBytes 1 d.im.str.role ++ leBytes 2 0 ++ leBytes 4 d.px.txSeq)

/-- The lane of the cell with a SEQ: cells are dealt out in ascending order over the good lanes (R448; log 104). -/
def Dev.laneOf (d : Dev) (seq : Nat) : Nat := d.goodLanes.getD (seq % max 1 d.goodLanes.length) 0

/-- The codewords of a lane from number 1 to w that are no marker cells: those whose number is no multiple of 1,024 (R446). -/
def cellWords (w : Nat) : Nat := w - w / 1024
/-- The number of the n-th codeword that is no marker cell. -/
def cellWord (n : Nat) : Nat := n + (n - 1) / 1023

/-- The lanes send on (R446, R448): a codeword of 5,440 bits takes 80 timebase ticks on every lane, every 1,024th is a marker cell, and
each other one takes the next waiting cell, CONTROL cells before COPY cells, which then gets its SEQ and its lane; with none waiting it is
an idle cell. -/
def Dev.mateAdvance (d : Dev) : Dev :=
  let w := d.tb.ticks / 80
  let x := d.px
  let n := d.goodLanes.length
  if !d.hot || decide (w ≤ x.word) then d
  else
    let k := (cellWords w - cellWords x.word) * n
    let nc := min k x.ctlQ.length
    let np := min (k - nc) x.copyQ.length
    let cells := (x.ctlQ.take nc).map (fun c => (true, c.data)) ++ (x.copyQ.take np).map fun b => (false, b)
    let left := (cells.zip (List.range cells.length)).map fun y =>
      let seq := (x.txSeq + y.2) % 2 ^ 32
      (⟨cellWord (cellWords x.word + 1 + y.2 / max 1 n), d.laneOf seq, seq, y.1.1, y.1.2⟩ : CellOut)
    d.onPx fun x =>
      { x with word := w, ctlQ := x.ctlQ.drop nc, copyQ := x.copyQ.drop np, out := left.reverse ++ x.out
               cells := x.cells + nc + np, txSeq := (x.txSeq + nc + np) % 2 ^ 32 }

/-- The cell in codeword w of a mate lane, of those of the frame under way (R446, R447): a marker, a cell that has left, or idle. -/
def Dev.laneCell (d : Dev) (m w : Nat) : List Byte :=
  if w % 1024 = 0 then d.markerOut m
  else ((d.px.out.find? fun c => c.word == w && c.lane == m).map CellOut.bytes).getD (idleCell m)

/-- The symbols of codeword w on a mate lane (R446); a lane that is squelched or off sends none (R101). -/
def Dev.laneWord (d : Dev) (m w : Nat) : Option (List Nat) :=
  if d.laneRole .ml m ≠ 5 ∨ d.txOff .ml m then none
  else some (mateCodeword (Config.mateScrambler m w) (w % 1024 == 0) (d.laneCell m w)).2

/-- A part of a control message waits to be sent as a cell (R448, R449). With no good lane nothing is sent, and of what waits the last 512
stay (log entry 104). -/
def Dev.cellPartOut (d : Dev) (kind t sfc part parts : Nat) (content : List Byte) : Dev :=
  if d.hot then
    d.mateAdvance.onPx fun x =>
      let q := x.ctlQ ++ [⟨kind, t, sfc % 2 ^ 32, part, parts, content⟩]
      { x with ctlQ := q.drop (q.length - 512) }
  else d

/-- A control cell of one part sent. -/
def Dev.cellOut (d : Dev) (kind t sfc : Nat) (content : List Byte) : Dev := d.cellPartOut kind t sfc 0 1 content

/-- A control message sent in as many cells as its content takes, of n bytes each (R449). -/
def Dev.cellsOut (d : Dev) (kind t sfc flags n : Nat) (content : List Byte) : Dev :=
  let parts := max 1 ((content.length + n - 1) / n)
  upTo parts d fun i d => d.cellPartOut kind t sfc i (parts + flags) (sub content (n * i) (min n (content.length - n * i)))

/-- A RESYNC_REQ sent by a listening unit whose copy is not CURRENT (R449, R453). -/
def Dev.resyncReq (d : Dev) : Dev := if d.linkUp && d.copyState ≠ 2 then d.cellOut 4 0 0 [] else d

/-- The records that a failed recorder has for the mate go out in RECORD cells at the boundary (R449, R524; log entry 116); without
a link they do not. -/
def Dev.recordsOut (d : Dev) : Dev :=
  let l := d.ob.toMate
  let d1 := d.onOb fun o => { o with toMate := [] }
  if d.linkUp then l.foldl (fun d b => d.cellsOut 5 0 0 0 616 b) d1 else d1

/-! ### Bytes of the copy stream (R450, R451) -/

/-- The steps of RFC 3394 key wrap of two 8-byte blocks under a 32-byte key: (A, R1, R2) after step t. -/
def kwStep (k : Nat) (s : Nat × Nat × Nat) (t : Nat) : Nat × Nat × Nat :=
  let r := if t % 2 = 1 then s.2.1 else s.2.2
  let b := Config.aes256 k (s.1 * 2 ^ 64 + r) % 2 ^ 128
  let a := b / 2 ^ 64 ^^^ t
  if t % 2 = 1 then (a, b % 2 ^ 64, s.2.2) else (a, s.2.1, b % 2 ^ 64)

/-- A 16-byte key wrapped with the default initial value: 24 bytes (R451). -/
def keyWrap (k : Nat) (key : List Byte) : List Byte :=
  let s := (List.range 12).foldl (fun s i => kwStep k s (i + 1)) (0xA6A6A6A6A6A6A6A6, beAt key 0 8, beAt key 8 8)
  beBytes 8 s.1 ++ beBytes 8 s.2.1 ++ beBytes 8 s.2.2

/-- A step of the unwrap. -/
def kuStep (k : Nat) (s : Nat × Nat × Nat) (t : Nat) : Nat × Nat × Nat :=
  let r := if t % 2 = 1 then s.2.1 else s.2.2
  let b := Config.aes256Inv k ((s.1 ^^^ t) * 2 ^ 64 + r) % 2 ^ 128
  if t % 2 = 1 then (b / 2 ^ 64, b % 2 ^ 64, s.2.2) else (b / 2 ^ 64, s.2.1, b % 2 ^ 64)

/-- The 16 bytes that 24 wrapped bytes hold. -/
def keyUnwrap (k : Nat) (w : List Byte) : List Byte :=
  let s := (List.range 12).foldl (fun s i => kuStep k s (12 - i)) (beAt w 0 8, beAt w 8 8, beAt w 16 8)
  beBytes 8 s.2.1 ++ beBytes 8 s.2.2

/-- The slot field of KEY_USAGE and KEY (R451): bit 15 says broadcast (log entry 36). -/
def slotField (n : Nat) : Nat := if 65536 ≤ n then 0x8000 + (n - 65536) % 128 else n
/-- The slot of a slot field. -/
def fieldSlot (v : Nat) : Nat := if 0x8000 ≤ v ∧ v < 0x8080 then 65536 + (v - 0x8000) else v

/-- The type and content of a record (R451), keys wrapped under k. -/
def CopyRec.content (k : Nat) : CopyRec → Nat × List Byte
  | .tree t st seq sfc => (1, leBytes 1 t ++ leBytes 1 st ++ leBytes 1 seq ++ leBytes 1 0 ++ leBytes 8 sfc)
  | .terminal g st fails eqd seq off =>
    (2, leBytes 2 g ++ leBytes 1 st ++ leBytes 1 fails ++ leBytes 3 eqd ++ leBytes 1 seq ++ leBytes 2 off ++ leBytes 2 0)
  | .keyUsage n c => (3, leBytes 2 (slotField n) ++ leBytes 6 c)
  | .key n st fl c w lim life fr at_ hwm ky =>
    (0x10, leBytes 2 (slotField n) ++ leBytes 1 st ++ leBytes 1 fl ++ leBytes 6 c ++ leBytes 1 w ++ leBytes 1 0 ++ leBytes 6 lim ++
      leBytes 2 0 ++ leBytes 4 life ++ leBytes 4 fr ++ leBytes 4 at_ ++ leBytes 8 hwm ++
      if st % 128 = 0 then List.replicate 24 0 else keyWrap k (beBytes 16 ky))
  | .alloc t del i data =>
    (0x11, leBytes 1 t ++ leBytes 1 del ++ leBytes 2 i ++ (List.range 6).flatMap fun j => leBytes 4 (data.getD j 0))
  | .xgemPort t del w => (0x12, leBytes 1 t ++ leBytes 1 del ++ leBytes 2 0 ++ leBytes 4 w)
  | .termSn g sn => (0x13, leBytes 2 g ++ leBytes 2 0 ++ leBytes 8 sn)
  | .ik g p ky => (0x14, leBytes 2 g ++ leBytes 1 p ++ leBytes 1 0 ++ keyWrap k (leBytes 16 ky))

/-- The bytes of a record (R451). -/
def CopyRec.encode (k : Nat) (r : CopyRec) : List Byte :=
  let c := r.content k
  leBytes 1 c.1 ++ [0] ++ leBytes 2 (c.2.length + 4) ++ c.2

/-- A record read from its bytes; none for a type that R451 does not give. -/
def CopyRec.decode (k : Nat) (b : List Byte) : Option CopyRec :=
  match leAt b 0 1 with
  | 0x01 => some (.tree (leAt b 4 1) (leAt b 5 1) (leAt b 6 1) (leAt b 8 8))
  | 0x02 => some (.terminal (leAt b 4 2) (leAt b 6 1) (leAt b 7 1) (leAt b 8 3) (leAt b 11 1) (leAt b 12 2))
  | 0x03 => some (.keyUsage (fieldSlot (leAt b 4 2)) (leAt b 6 6))
  | 0x10 => some (.key (fieldSlot (leAt b 4 2)) (leAt b 6 1) (leAt b 7 1) (leAt b 8 6) (leAt b 14 1) (leAt b 16 6) (leAt b 24 4)
      (leAt b 28 4) (leAt b 32 4) (leAt b 36 8) (if leAt b 6 1 % 128 = 0 then 0 else beNat (keyUnwrap k (sub b 44 24))))
  | 0x11 => some (.alloc (leAt b 4 1) (leAt b 5 1) (leAt b 6 2) ((List.range 6).map fun j => leAt b (8 + 4 * j) 4))
  | 0x12 => some (.xgemPort (leAt b 4 1) (leAt b 5 1) (leAt b 8 4))
  | 0x13 => some (.termSn (leAt b 4 2) (leAt b 8 8))
  | 0x14 => some (.ik (leAt b 4 2) (leAt b 6 1) (leNat (keyUnwrap k (sub b 8 24))))
  | _ => none

/-- "CEND". -/
def copyEnd : List Byte := [0x43, 0x45, 0x4E, 0x44]

/-- The bytes of a copy frame (R450). -/
def CopyFrame.bytes (k : Nat) (f : CopyFrame) : List Byte :=
  let h := [0x43, 0x4F, 0x50, 0x59] ++ leBytes 2 1 ++ leBytes 1 f.cadence ++ leBytes 1 f.flags ++ leBytes 8 f.frameNo ++
    f.structId ++ leBytes 8 f.boundaryC ++ List.replicate 20 0
  let rs := f.records.flatMap (CopyRec.encode k)
  h ++ leBytes 4 (crc32c h) ++ rs ++ copyEnd ++ leBytes 4 rs.length ++ leBytes 4 f.records.length ++ leBytes 4 (crc32c rs)

/-- The records of a stream up to END: the records read, how many there were, and the bytes from END on. -/
def copyRecs (k : Nat) : Nat → List Byte → Option (List CopyRec × Nat × List Byte)
  | 0, _ => none
  | n + 1, b =>
    if b.take 4 = copyEnd then some ([], 0, b)
    else
      let len := leAt b 2 2
      if len < 8 ∨ b.length < len then none
      else
        match copyRecs k n (b.drop len) with
        | some (rs, c, tail) => some ((CopyRec.decode k (b.take len)).toList ++ rs, c + 1, tail)
        | none => none

/-- A copy frame read and checked (R450, R453): MAGIC, FORMAT, HEADER_CRC, END, RECORD_BYTES, RECORD_COUNT, CRC. -/
def parseCopy (k : Nat) (b : List Byte) : Option CopyFrame :=
  if b.take 4 ≠ [0x43, 0x4F, 0x50, 0x59] ∨ leAt b 4 2 ≠ 1 ∨ leAt b 60 4 ≠ crc32c (b.take 60) then none
  else
    let body := b.drop 64
    match copyRecs k (body.length + 1) body with
    | none => none
    | some (rs, c, tail) =>
      let n := body.length - tail.length
      if leAt tail 4 4 ≠ n ∨ leAt tail 8 4 ≠ c ∨ leAt tail 12 4 ≠ crc32c (body.take n) then none
      else some ⟨leAt b 6 1, leAt b 7 1, leAt b 8 8, sub b 16 16, leAt b 32 8, rs⟩

/-! ### What the copy says (R451, R455) -/

/-- The TREE record of a tree. -/
def Dev.treeRec (d : Dev) (t : Nat) : CopyRec := .tree t (d.pt t).state.code (d.rg t).bcastSeq (d.sfc t)
/-- The TERMINAL record of a slot. -/
def termRecOf (g : Nat) (x : Term) : CopyRec := .terminal g x.state.code x.fails x.eqd x.seq (unsigned 16 x.o)
def Dev.termRec (d : Dev) (g : Nat) : CopyRec := termRecOf g (d.term g)
/-- The words of an allocation's parameters. -/
def parWords (p : AllocPar) : List Nat := (List.range 6).map fun i => (((outPar p).find? fun kv => kv.1 == i).map Prod.snd).getD 0

/-- The record of an object, where it still exists. -/
def Dev.objRec (d : Dev) : CopyObj → Option CopyRec
  | .term g => some (d.termRec g)
  | .key n => some (d.keyRec n)
  | .alloc t i => ((d.gs t).allocs.get? i).map fun a => .alloc t 0 i (parWords a.par)
  | .port t p => ((d.tf t).ports.get? p).map fun x => .xgemPort t 0 (p + 2 ^ 16 * x.slot + 2 ^ 28 * b2n x.omcc)
  | .sn g => some (.termSn g (d.term g).sn)
  | .ik g => some (.ik g (b2n (d.term g).ik.isSome) ((d.term g).ik.getD 0))

/-- The objects of a tree in the order of a full pass (R455). -/
def Dev.passOf (d : Dev) (t : Nat) : List CopyObj :=
  let gs := (List.range 512).map fun s => 512 * t + s
  gs.map .term ++ (List.range 1024).map (fun i => .key (1024 * t + i)) ++ [.key (65536 + 2 * t), .key (65536 + 2 * t + 1)] ++
    (d.gs t).allocs.map (fun kv => .alloc t kv.1) ++ (d.tf t).ports.map (fun kv => .port t kv.1) ++ gs.map .sn ++ gs.map .ik

/-- The image of an event's object when it is sent (R451): what an object that is gone says is its deletion. -/
def Dev.eventRec (d : Dev) (o : CopyObj) : Option CopyRec :=
  match d.objRec o, o with
  | some r, _ => some r
  | none, .alloc t i => some (.alloc t 1 i [])
  | none, .port t p => some (.xgemPort t 1 p)
  | none, _ => none

/-- Objects sent by their images while they fit a number of bytes, and those left; one without an image is passed over. -/
def takeObjs (image : CopyObj → Option CopyRec) : Nat → List CopyObj → List CopyRec × List CopyObj
  | _, [] => ([], [])
  | cap, o :: os =>
    match image o with
    | none => takeObjs image cap os
    | some r => if r.bytes ≤ cap then let p := takeObjs image (cap - r.bytes) os; (r :: p.1, p.2) else ([], o :: os)

/-- The ACTIVE slots of a tree's keys. -/
def Dev.activeKeys (d : Dev) (t : Nat) : List Nat := (d.ce.keys.filter fun kv => slotTree kv.1 == t && kv.2.state == .active).map Prod.fst

/-- The content of HELLO (R449), its fields in the order of the table (log 104): STRUCTURE_ID; ROLE, MODE, TREES; two bits of state and
the FIT bit of each tree; C at the boundary in ps, with the last C received and its arrival, 16 bytes each; the check value of the pair
key, its bytes in the order in which AES gives them. -/
def Dev.helloContent (d : Dev) : List Byte :=
  let s := d.im.str
  let sum (f : Nat → Nat) : Nat := ((List.range 64).map f).foldl (· + ·) 0
  let echo := d.px.lastRx.getD (0, 0)
  d.structId ++ leBytes 1 s.role ++ leBytes 1 s.mode ++ leBytes 8 s.protTrees ++
    leBytes 16 (sum fun t => if d.isProt t then (d.pt t).state.code * 4 ^ t else 0) ++
    leBytes 8 (sum fun t => if d.isProt t ∧ d.fit t then 2 ^ t else 0) ++
    leBytes 16 d.px.bndC ++ leBytes 16 echo.1 ++ leBytes 16 echo.2 ++ beBytes 4 ((d.px.pairKey.map pairCheck).getD 0)

/-- The copy cadence (R454). -/
def Dev.cadence (d : Dev) : Nat := if d.goodLanes.length = 1 then 2 else 1

/-- The bytes that events and full passes may take beside the per-frame records (R446, R454). -/
def copyRoom (lanes cadence perFrame : Nat) : Nat :=
  let cells := if cadence = 2 then 2438 - 2 * 448 - 16 else 1218 * lanes - 448 - 8
  cells * 624 - (perFrame + 80)

/-- The data of the COPY cells of n bytes (R447, R450). -/
def copyCells (n : Nat) (bytes : List Byte) : List (List Byte) :=
  (List.range ((n + 623) / 624)).map fun i => sub bytes (624 * i) (min 624 (n - 624 * i))

/-- COPY_FRAME_SEND (R24, R450 to R455): the copy frame of this boundary, where one is due; its cells wait for the mate link. -/
def Dev.copySend (d : Dev) : Dev :=
  let ts := d.driven
  let c := d.cadence
  if !d.linkUp || ts.isEmpty || (c == 2 && d.rx.bnd % 2 == 1) then d
  else
    let starts := d.px.passDue
    let d1 := if starts then
        (d.onPx fun x => { x with passDue := false, pass := some (ts.flatMap d.passOf) }).completeWaiting .px 5 .ok []
      else d
    let gs := ((d1.rx.terms.map Prod.fst) ++ (d1.px.lastTerms.map Prod.fst)).dedup.filter fun g => ts.contains (g / 512)
    let changed := gs.filter fun g => d1.px.lastTerms.getD g (termRecOf g Term.rest) ≠ d1.termRec g
    let per := ts.map d1.treeRec ++ changed.map d1.termRec ++
      (ts.flatMap d1.activeKeys).map fun n => CopyRec.keyUsage n (d1.key n).count
    let room := copyRoom d1.goodLanes.length c ((per.map CopyRec.bytes).foldl (· + ·) 0)
    let ev := takeObjs d1.eventRec room d1.px.backlog
    let left := room - (ev.1.map CopyRec.bytes).foldl (· + ·) 0
    let ps : List CopyRec × List CopyObj := match d1.px.pass with
      | some l => takeObjs d1.objRec left l
      | none => ([], [])
    let inPass := d1.px.pass.isSome
    let ends := inPass && ps.2.isEmpty
    let f : CopyFrame := ⟨c, b2n starts + 2 * b2n inPass + 4 * b2n ends, d1.rx.bnd, d1.structId, d1.now, per ++ ev.1 ++ ps.1⟩
    let n := (f.records.map CopyRec.bytes).foldl (· + ·) 0 + 80
    let d2 := d1.mateAdvance
    let held := (d2.px.copyQ.map List.length).foldl (· + ·) 0
    (d2.onPx fun x =>
      { x with backlog := ev.2, pass := if ends ∨ !inPass then none else some ps.2, frame := some f
               copyQ := x.copyQ ++ copyCells n (f.bytes (d1.px.pairKey.getD 0))
               lastTerms := changed.foldl (fun l g => l.put (termRecOf g Term.rest) g (d1.termRec g)) x.lastTerms }).seamStall 0x7F0 held
      (held + n)

/-! ### Applying the copy (R452, R453) -/

/-- A tree takes the copy: it is STANDBY here (R437). -/
def Dev.takesCopy (d : Dev) (t : Nat) : Bool := d.isProt t && (d.pt t).state == .standby

/-- One record applied; `ahead` is the number of boundaries since the frame's boundary (none in a snapshot). Holds are followed by pair,
behind all records (`applyRecs`). -/
def Dev.applyRec (d : Dev) (ahead : Option Nat) (only : Nat → Bool) (r : CopyRec) : Dev :=
  let on (t : Nat) (f : Dev → Dev) : Dev := if d.takesCopy t && only t then f d else d
  match r with
  | .tree t _ seq sfc => on t fun d =>
    let d1 := (d.onRg t fun x => { x with bcastSeq := seq }).onPt t fun x => { x with copySfc := sfc }
    match ahead with
    | some n =>
      if (sfc + n) % 2 ^ 51 = d.sfc t then d1
      else ((d1.onTf t fun x => { x with sfcLoad := some ((sfc + n + 1) % 2 ^ 51) }).onPx fun x => { x with sfcLoads := x.sfcLoads + 1 }).record
        0x90 .px 0 false [(1, t), (8, d.sfc t), (8, sfc + n)]
    | none => d1
  | .terminal g st fails eqd seq off => on (g / 512) fun d =>
    let new := termStateOf st
    let d1 := d.onTerm g fun x =>
      { x with state := new, fails := fails, eqd := eqd, seq := seq, o := signed 16 off
               adj := if new.ranged then x.adj else none, adjDue := if new.ranged then x.adjDue else none
               rtd := if eqd = 0 then x.rtd else (d.teq (g / 512) : Int) - eqd }
    if new ≠ (d.term g).state ∧ (new = .provisioned ∨ new = .disabled ∨ new = .free) then d1.invalidate g 5 else d1
  | .keyUsage n c => on (slotTree n) fun d => d.onKey n fun k => { k with count := c }
  | .key n st fl c w lim life fr at_ hwm key => on (slotTree n) fun d =>
    let s := keyStateOf (st % 128)
    let i := n % 2 + 1
    let d1 := d.onKey n fun k =>
      { k with key := key, state := s, memErr := bit st 7, count := c, warn256 := w, limit := lim, life := life, frames := fr
               hwm := if bit fl 1 then some hwm else none, warned := decide (lim * w / 256 ≤ c ∧ lim ≠ 0) }
    d1.onPair (n / 2) fun p =>
      { p with last := if s = .active then i else p.last
               pend := if bit fl 0 then some (i, at_) else if (p.pend.map Prod.fst) = some i then none else p.pend }
  | .alloc t del i data => on t fun d =>
    d.onGs t fun x =>
      { x with allocs := if del = 1 then x.allocs.erase i
                         else x.allocs.set i ⟨parOf ⟨.pf0, 0, 0, 0, data, false⟩, AllocRun.reset (d.sfc t)⟩ }
  | .xgemPort t del w => on t fun d =>
    d.onTf t fun x => { x with ports := if del = 1 then x.ports.erase (w % 65536) else x.ports.set (w % 65536) ⟨bits w 24 16, bit w 28⟩ }
  | .termSn g sn => on (g / 512) fun d => d.onTerm g fun x => { x with sn := sn }
  | .ik g p key => on (g / 512) fun d => d.onTerm g fun x => { x with ik := if bit p 0 then some key else none }
where
  /-- The state of a code of R155. -/
  termStateOf (c : Nat) : TermState :=
    match c with
    | 1 => .provisioned | 2 => .assigned | 3 => .operation | 4 => .lost | 5 => .disabled | _ => .free
  /-- The state of a code of R350. -/
  keyStateOf (c : Nat) : KeyState :=
    match c with
    | 1 => .ready | 2 => .active | 3 => .spent | 4 => .void | _ => .empty

/-- The pairs that the KEY records of a frame name. -/
def keyPairs (rs : List CopyRec) : List Nat :=
  (rs.filterMap fun r => match r with
    | .key n .. => some (n / 2)
    | _ => none).dedup

/-- Records applied in stream order (R453, R455, R461): they make one change, so a pair's hold starts or ends at most once (R303, R356). -/
def Dev.applyRecs (d : Dev) (ahead : Option Nat) (only : Nat → Bool) (rs : List CopyRec) : Dev :=
  (keyPairs rs).foldl (fun e pr => e.holdEdge (2 * pr) (d.pairHeld pr)) (rs.foldl (fun d r => d.applyRec ahead only r) d)

/-- The copy frame in the buffer is applied whole at a boundary (R442, R453); COPY_AGE counts on otherwise. -/
def Dev.copyApply (d : Dev) : Dev :=
  match d.px.buf with
  | none => if d.px.lastNo.isSome ∨ d.copyState ≠ 0 then d.setFld (R .PX_STATUS) 15 8 (min 255 (d.copyAge + 1)) else d
  | some f =>
    let ahead := (d.now + 62500 - f.boundaryC) / 125000
    let d1 := d.applyRecs (some ahead) (fun _ => true) f.records
    let d2 := (d1.onPx fun x => { x with buf := none, copyC := f.boundaryC, inPass := x.inPass || bit f.flags 0 }).setFld (R .PX_STATUS) 15 8 0
    let d3 := if bit f.flags 0 then d2.setCopyState 1 else d2
    if bit f.flags 2 ∧ d3.px.inPass then
      ((d3.onPx fun x => { x with inPass := false }).setCopyState 2).raiseRec (R .PX_FLAGS) 8 .px 0 false [(8, f.frameNo)]
    else d3

/-- A copy frame discarded (R453). -/
def Dev.copyBad (d : Dev) : Dev :=
  let d1 := (d.onPx fun x => { x with inPass := false, lastNo := none }).setCopyState 1
  (d1.raiseRec (R .PX_FLAGS) 7 .px 0 false [(8, (d.px.lastNo).getD 0)]).resyncReq

/-- A cell has been received late (R448): 1 µs (781.25 ticks) before it, a higher SEQ had come on every good lane. -/
def lateCell (lanes : List Nat) (cells : List CellRx) (c : CellRx) : Bool :=
  let higher (y : CellRx) : Bool := decide (0 < (y.seq + 2 ^ 32 - c.seq) % 2 ^ 32 ∧ (y.seq + 2 ^ 32 - c.seq) % 2 ^ 32 < 2 ^ 31)
  !lanes.isEmpty && lanes.all fun l => cells.any fun y => y.lane == l && y.ok && higher y && decide (y.at_ + 782 ≤ c.at_)

/-- The cells that are delivered, from SEQ `first` on in SEQ order, each with its distance from it (R448): a cell with a bad CRC, an
uncorrectable codeword or one that comes too late is lost. -/
def deliverCells (lanes : List Nat) (first : Nat) (cells : List CellRx) : List (Nat × CellRx) :=
  let ranked := (cells.filter fun c => c.ok && !lateCell lanes cells c).map fun c => ((c.seq + 2 ^ 32 - first) % 2 ^ 32, c)
  (sortBy (fun a b => decide (a.1 ≤ b.1)) (ranked.filter fun x => decide (x.1 < 2 ^ 31))).foldr (fun x l =>
    match l with
    | y :: _ => if x.1 = y.1 then l else x :: l
    | [] => [x]) []

/-- The SEQ that the receiver delivers next: as the link's state holds it, or with none the lowest that has come (R447, R448). -/
def Dev.deliverFrom (d : Dev) (cells : List CellRx) : Nat :=
  d.px.rxSeq.getD ((cells.foldl (fun (m : Option Nat) c => some (min c.seq (m.getD c.seq))) none).getD 0)

/-- The bytes that the cells of a copy frame give (R448, R450, R453): none where a SEQ up to the highest received is lost. -/
def Dev.copyBytes (d : Dev) (cells : List CellRx) : Option (List Byte) :=
  let first := d.deliverFrom cells
  let got := deliverCells d.goodLanes first cells
  let whole := decide (got.map Prod.fst = List.range got.length) &&
    cells.all fun c => decide (2 ^ 31 ≤ (c.seq + 2 ^ 32 - first) % 2 ^ 32 ∨ (c.seq + 2 ^ 32 - first) % 2 ^ 32 < got.length)
  if whole then some ((got.filter fun x => x.2.copy).flatMap fun x => x.2.data.take 624) else none

/-- The SEQ behind the highest received. -/
def Dev.nextSeq (d : Dev) (cells : List CellRx) : Nat :=
  let first := d.deliverFrom cells
  (first + cells.foldl (fun m c =>
    let r := (c.seq + 2 ^ 32 - first) % 2 ^ 32
    if r < 2 ^ 31 then max m (r + 1) else m) 0) % 2 ^ 32

/-- COPY_FRAME (R24, R448, R450, R453): the cells since the last copy frame have arrived up to a trailer, its COPY cells among CONTROL cells
that were delivered on their own; `lost` says that a lane's drop lost a cell in flight. -/
def Dev.copyFrame (d : Dev) (cells : List CellRx) (lost : Bool) : Dev :=
  if !d.linkUp then d
  else
    let n := (cells.filter CellRx.copy).length
    let bytes := d.copyBytes cells
    let d := (d.onPx fun x => { x with cellsIn := x.cellsIn + n, rxSeq := some (d.nextSeq cells) }).seamStall 0x7F1 0 (624 * n)
    match bytes.bind (parseCopy (d.px.pairKey.getD 0)) with
    | none => d.copyBad
    | some f =>
      let follows := match d.px.lastNo with
        | some n => f.frameNo == n + f.cadence
        | none => true
      if lost || !follows || f.structId ≠ d.structId then d.copyBad
      else d.onPx fun x => { x with buf := some f, lastNo := some f.frameNo }

/-! ### Changes of protection state (R438) -/

/-- The packets held in the queues below a tree's port node are discarded (R297, R438). -/
def Dev.flushTree (d : Dev) (t : Nat) : Dev :=
  (d.tm.queues.filter fun kv => !kv.2.all.isEmpty && d.queuePort kv.1 == some t).foldl (fun d kv => d.flushQueue kv.1) d

/-- Every slot of a tree FREE (R438, R461), its profile invalidated by that (R173). -/
def Dev.freeSlots (d : Dev) (t : Nat) : Dev :=
  (d.rx.terms.filter fun kv => kv.1 / 512 == t).foldl (fun d kv =>
    (((d.keysClear kv.1).gsSlotReset kv.1).invalidate kv.1 5).onTerm kv.1 fun _ => Term.rest) d

/-- Benchmark profiles of a tree start invalid (R461). -/
def Dev.profsInvalid (d : Dev) (t : Nat) : Dev :=
  (d.rx.profs.filter fun kv => kv.1 / 512 == t).foldl (fun d kv => d.profClear kv.1) d

/-- The copied maps of a tree that are complete. -/
def PxState.mapsOf (x : PxState) (t : Nat) : List MapIn := x.mapsIn.filter fun m => m.tree == t && decide (m.got.length = m.parts)

/-- A burst of a copied map from its structures (R172, R209, R211, R449). -/
def Dev.mapBurst (d : Dev) (t : Nat) (ss : List MapStruct) : Option GBurst :=
  match ss with
  | [] => none
  | s :: _ =>
    let bp := d.bprof t s.prof
    let slotOf (id : Nat) : Nat := match (d.gs t).keyOf id with
      | some k => if k < 512 then k else (((d.gs t).allocs.get? (k - 512)).map fun a => a.par.slot).getD 0
      | none => 0
    let slot := if s.alloc = 1023 then 0 else slotOf s.alloc
    let g := 512 * t + slot
    let kind : GrantKind := if s.alloc = 1023 then .discovery else if (d.term g).state = .assigned then .ranging else .data
    let dw := 2 + 12 * b2n (ss.any MapStruct.ploamu) + (ss.map MapStruct.size).foldl (· + ·) 0
    let first := s.start - bp.oh
    let stamp := if kind = .data ∧ s.prof = d.shortIdx t ∧ (d.prof g).valid ∧ d.flag (R .LX_PB_BURST_CFG t) 31 ∧ !d.stale g then some (g % 4096) else none
    some ⟨slot, kind, first, first + bp.oh + dw + bp.parity dw, s.start, 32 * (s.start : Int) - 8 * (bp.pre + bp.delim : Nat), stamp,
      s.prof, bp, false, ss.map fun x => ⟨x.alloc, slotOf x.alloc, x.dbru, x.ploamu, x.prof, x.start, x.size, x.size - b2n x.dbru, []⟩⟩

/-- Structures gathered into bursts: a StartTime other than 0xFFFF opens one (R211). -/
def splitBursts : List MapStruct → List (List MapStruct)
  | [] => []
  | s :: ss =>
    match splitBursts ss with
    | [] => [[s]]
    | g :: gs =>
      match g with
      | h :: _ => if h.start = 0xFFFF then (s :: g) :: gs else [s] :: g :: gs
      | [] => [s] :: gs

/-- The map that the parts of a copied map give. -/
def Dev.mapFrom (d : Dev) (m : MapIn) : GMap :=
  ⟨m.frame, (splitBursts (m.got.flatMap Prod.snd)).filterMap (d.mapBurst m.tree), m.replayed, 0, 0⟩

/-- A tree that enters ACTIVE hot goes on from the copy (R443): the copied maps of this frame and the next, credits zero, predictors
reset, adjustments dropped. -/
def Dev.enterHot (d : Dev) (t : Nat) : Dev :=
  let n := d.sfc t
  let ms := ((d.px.mapsOf t).filter fun m => m.frame == n || m.frame == n + 1).map d.mapFrom
  let ms := sortBy (fun a b => decide (a.frame ≤ b.frame)) ms
  let d1 := d.onGs t fun x =>
    { x with built := ms, emptyLeft := 0, takeoverLeft := 2, defaults := []
             allocs := x.allocs.mapVal fun _ a => { a with run := AllocRun.reset n } }
  d1.onRx fun x => { x with terms := x.terms.mapPut Term.rest fun g y => if g / 512 = t then { y with adj := none, adjDue := none } else y }

/-- A protected tree takes a protection state, with its cause (R437, R438). A SWITCH that waits for it completes with the switch, or where the
mate's tree is taken after a lost COMMIT, and is refused by another change that ends it; a JOIN completes with ISOLATED (R469). -/
def Dev.pxTo (d : Dev) (t : Nat) (new : PxTreeState) (cause : Nat) : Dev :=
  let old := (d.pt t).state
  if old = new then d
  else
    let act := old == .active || new == .active
    let warm := (d.pt t).restore.isNone
    let d0 := if old = .active then
        (d.flushTree t).onRg t fun x => { x with hwq := [], hostq := [] }
      else d
    let d1 := if new = .active ∧ old = .isolated then (d0.freeSlots t).profsInvalid t else d0
    let d2 := d1.treeTo t (match new with | .active => .active | .off => .off | _ => .standby)
    let d3 := d2.onTf t fun x => { x with protCtrl := decide (new ≠ .off) }
    let d4 := if new = .active ∧ old = .standby ∧ cause ≠ 7 ∧ warm then d3.enterHot t else d3
    let d5 := d4.onPt t fun x =>
      { x with state := new, cause := cause, change := none, silent := 0, mateUnfit := 0, foreign := 0, energy := 0, evidence := false
               wtr := none, psw := [], restore := none, snapWait := 0, askWait := 0, mateLeft := false, entered := true }
    let d6 := d5.raiseIf act (R .PX_FLAGS) 4
    let d7 := d6.record 0x84 .px 0 act [(1, t), (1, old.code), (1, new.code), (1, cause), (8, d6.sfc t)]
    let d8 := if old = .active ∧ d7.driven.isEmpty then (d7.setCopyState 0).onPx fun x =>
        { x with backlog := [], pass := none, passDue := false, inPass := false, lastNo := none } else d7
    let d9 := if new = .standby then d8.resyncReq else d8
    let ends (d : Dev) (op : Nat) (ok bad : Bool) : Dev :=
      match d.waitingCmd .px op with
      | some a =>
        if a.obj % 64 ≠ t then d
        else if ok then d.completeWaiting .px op .ok []
        else if bad then d.refuseWaiting .px op .notInState new.code
        else d
      | none => d
    ends (ends d9 1 (act && new != .off && decide (1 ≤ cause ∧ cause ≤ 4)) (new == .isolated || new == .off || act)) 4 (new == .isolated) false

/-! ### Requests and switches (R439 to R441) -/

/-- |PX_MATE_PHASE| is no more than 1 µs (R439). -/
def Dev.phaseOk (d : Dev) : Bool := decide ((signed 32 (d.reg (R .PX_MATE_PHASE))).natAbs ≤ 1000000)

/-- The switch of a tree is eligible, as this unit sees it (R439). -/
def Dev.eligibleSwitch (d : Dev) (t : Nat) : Bool :=
  let x := d.pt t
  d.linkUp && d.phaseOk &&
    match x.state with
    | .active => x.mate == .standby && x.mateFit && !d.px.passDue && d.px.pass.isNone
    | .standby => x.mate == .active && d.fit t && d.copyState == 2
    | _ => false

/-- The ACTIVE unit commits a switch with a COMMIT cell that names the next boundary, or the one after (R441). -/
def Dev.commitSwitch (d : Dev) (t cause : Nat) : Dev :=
  let n := if d.sinceBnd 115 then 1 else 2
  (d.onPt t fun x => { x with change := some (d.rx.bnd + n, cause) }).cellOut 3 t (d.sfc t + n)
    (leBytes 4 (d.sfc t + n) ++ leBytes 1 cause)

/-- A refused request (R440). -/
def Dev.pswDenied (d : Dev) (t cause : Nat) : Dev := d.raiseRec (R .PX_FLAGS) 5 .px 0 false [(1, t), (1, cause)]

/-- A request for a switch of tree t (R439 to R442): committed, sent on, merged with one already committed, or refused. -/
def Dev.switchRequest (d : Dev) (t cause : Nat) : Dev × Bool :=
  let x := d.pt t
  match x.state, x.change with
  | .active, some (b, c) => (d.onPt t fun x => { x with change := some (b, if cause = 1 then 1 else c) }, true)
  | .active, none => if d.eligibleSwitch t then (d.commitSwitch t cause, true) else (d.pswDenied t cause, false)
  | .standby, _ => if d.eligibleSwitch t then (d.cellOut 2 t (d.sfc t) (leBytes 1 cause), true) else (d.pswDenied t cause, false)
  | _, _ => (d.pswDenied t cause, false)

/-- The defect that caused a refused PSW stays declared (R440). -/
def Dev.pswStands (d : Dev) (t : Nat) (p : Option Nat × Nat) : Bool :=
  match p.1 with
  | none => bit (d.tf t).declared p.2
  | some s => bit ((d.tf t).terms.getD s TermDef.rest).declared p.2

/-- The protection switch requests of this boundary (R131, R440, R445): new ones of ACTIVE trees, and refused ones that have become
eligible; one on a STANDBY tree of the PRIMARY restarts its timer. -/
def Dev.pswStep (d : Dev) (t : Nat) : Dev :=
  let mine := (d.rx.psw.filter fun p => p.1 == t).map Prod.snd
  match (d.pt t).state with
  | .active =>
    let d1 := d.onPt t fun x => { x with psw := x.psw.filter (d.pswStands t) }
    if mine.isEmpty then
      if !(d1.pt t).psw.isEmpty && (d1.pt t).change.isNone && d1.eligibleSwitch t then d1.commitSwitch t 1 else d1
    else
      let p := d1.switchRequest t 1
      if p.2 then p.1 else p.1.onPt t fun x => { x with psw := (x.psw ++ mine).dedup }
  | .standby => if mine.isEmpty then d else d.onPt t fun x => { x with wtr := x.wtr.map fun _ => d.now }
  | _ => d

/-! ### A boundary (R438, R442) -/

/-- Blocks for a number of frames gained by every copied usage count (R457, R461), which DEDUCED are
those of ACTIVE slots (log entry 108); a slot at its spent point is SPENT (R355). -/
def Dev.gainCounts (d : Dev) (t frames : Nat) : Dev :=
  if frames = 0 then d else (d.activeKeys t).foldl (fun d n => d.keyCharge n (9720 * frames)) d

/-- Frames between a snapshot's boundary and C (R461). -/
def Dev.framesSince (d : Dev) (c : Nat) : Nat := (d.now - c + 124999) / 125000

/-- Before the SFC of a boundary is set: a restore that ends here loads its SFC and its counts (R461). -/
def Dev.pxPre (d : Dev) (t : Nat) : Dev :=
  match (d.pt t).restore, (d.pt t).change with
  | some (s, c), some (b, _) =>
    if b = d.rx.bnd then
      let n := d.framesSince c
      let d1 := d.onTf t fun x => { x with sfcLoad := some ((s + n + d.sfcJump) % 2 ^ 51) }
      (d1.gainCounts t n).profsInvalid t
    else d
  | _, _ => d

/-- The counts of a boundary (R438, R445, R457, R459): silent frames, the mate's fitness, foreign frames, wait-to-restore. -/
def Dev.pxCount (d : Dev) (t : Nat) : Dev :=
  let x := d.pt t
  let up := d.linkUp
  let listens := x.state == .isolated || x.state == .standby
  let stale := d.hot && x.state == .standby && !up && x.evidence && decide (2 < d.copyAge) && d.copyState ≠ 3
  let d1 := if stale then (d.setCopyState 3).raiseRec (R .PX_FLAGS) 9 .px 0 false [(1, t), (1, d.copyAge)] else d
  let runs := d.hot && d.im.str.role == 1 && x.state == .standby && d.fit t && d.copyState == 2 && x.mate == .active && up
  d1.onPt t fun y =>
    { y with silent := if listens && !up then (if y.evidence then 0 else y.silent + 1) else 0
             evidence := false
             mateUnfit := if up && ((y.mate == .isolated && !y.mateFit) || y.mate == .off) then y.mateUnfit + 1 else 0
             foreign := if y.state == .active && !up && decide (d.foreignN ≤ y.energy) then y.foreign + 1 else 0
             energy := 0
             wtr := if runs then some (y.wtr.getD d.now) else none }

/-- Stand-down (R459): with no link, an ACTIVE tree that reports TREE_LOS, or one of the SECONDARY behind its second foreign frame, is
ISOLATED; STANDDOWN sets. -/
def Dev.standsDown (d : Dev) (t : Nat) : Bool :=
  d.isProt t && (d.pt t).state == .active && !d.linkUp &&
    (bit (d.tf t).reported 0 || (d.im.str.role == 2 && decide (2 ≤ (d.pt t).foreign)))
def Dev.standdown (d : Dev) (t : Nat) : Dev := (d.raise (R .PX_FLAGS) 6).pxTo t .isolated 6

/-- The row STANDDOWN (R438, R459): the stand-down that a boundary has found due, in the cycle of that boundary. -/
def Dev.standdownNow (d : Dev) (t : Nat) : Dev := if d.standsDown t ∧ d.tb.ticks = d.px.bndTick then d.standdown t else d

/-- The commands that the boundary ends without a change (R469): a refused SWITCH or JOIN, and a SWITCH sent to the mate for which no COMMIT
has come by the second boundary (log entry 37). -/
def Dev.pxRefusals (d : Dev) (t : Nat) : Dev :=
  let x := d.pt t
  let refuse (d : Dev) (op : Nat) (c : Bool) : Dev :=
    match d.waitingCmd .px op with
    | some a => if c ∧ a.obj % 64 = t then d.refuseWaiting .px op .notInState x.state.code else d
    | none => d
  let quiet := x.askWait == 1 && x.change.isNone
  (refuse (refuse d 1 (x.deny || quiet)) 4 x.denyJoin).onPt t fun x =>
    { x with deny := false, denyJoin := false, askWait := if x.change.isSome then x.askWait else x.askWait - 1 }

/-- The change that the rules of R438 make for a tree at this boundary. A STANDBY tree whose mate has left ACTIVE without a COMMIT to this
unit takes the tree, whatever state the mate's tree is in (R441; log entry 136). -/
def Dev.pxStep (d : Dev) (t : Nat) : Dev :=
  let x := d.pt t
  let fit := d.fit t
  let fresh := d.px.helloAge == some 1
  let prim := d.im.str.role == 1
  let d := d.pxRefusals t
  if (d.tf t).state = .off ∧ x.state ≠ .off then d.pxTo t .off 2
  else
    match x.state with
    | .off =>
      match d.waitingCmd .px 4 with
      | some a =>
        if a.obj % 64 ≠ t then d else if d.lit t then d.pxTo t .isolated 2 else d.refuseWaiting .px 4 .notInState x.state.code
      | none => d
    | .active =>
      if x.change.map Prod.fst = some d.rx.bnd then d.pxTo t (if fit then .standby else .isolated) ((x.change.map Prod.snd).getD 2)
      else if d.linkUp && fresh && !prim && x.mate == .active then (d.pxTo t .isolated 6).raise (R .PX_FLAGS) 6
      else if x.snapWait = 1 then d.pxTo t .standby 2
      else if d.standsDown t then d.standdown t
      else d
    | .standby =>
      if x.change.map Prod.fst = some d.rx.bnd then
        let c := (x.change.map Prod.snd).getD 1
        let d1 := if c = 5 ∧ x.restore.isNone then d.gainCounts t d.copyAge else d
        d1.pxTo t .active c
      else if bit (d.tf t).declared 1 then d.pxTo t .isolated 1
      else if x.lockout then d.pxTo t .isolated 2
      else if d.linkUp && (x.mate == .isolated || x.mate == .off || x.mateLeft) && fit then d.pxTo t .active 4
      else d
    | .isolated =>
      if x.change.map Prod.fst = some d.rx.bnd then d.pxTo t .active ((x.change.map Prod.snd).getD 0)
      else if d.linkUp && fit then
        if x.mate = .active then d.pxTo t .standby 0
        else if prim ∨ d.holdoff ≤ x.mateUnfit then d.pxTo t .active 0
        else d
      else d

/-- The map that a STANDBY tree receives against in the frame that starts now (R172, R174, R456): a profile found stale is invalidated. -/
def Dev.standbyMap (d : Dev) (t : Nat) : Dev :=
  if (d.pt t).state ≠ .standby then d
  else
    match (d.px.mapsOf t).find? fun m => m.frame == d.sfc t with
    | some m =>
      let g := d.mapFrom m
      let stale := (g.bursts.filter fun b => b.kind == .data && d.stale (512 * t + b.slot)).map GBurst.slot
      let d1 := stale.foldl (fun d s => d.invalidate (512 * t + s) 0) d
      (d1.openAcc t g).onGs t fun x => { x with sent := (g :: x.sent).take 20 }
    | none => d

/-- NEED (R456): every 64 frames a STANDBY tree names the slots without a valid profile; other trees say nothing. -/
def Dev.needSend (d : Dev) (t : Nat) : Dev :=
  if d.linkUp ∧ (d.pt t).state = .standby ∧ d.rx.bnd % 64 = 0 ∧
      (d.rx.terms.any fun kv => kv.1 / 512 == t && kv.2.state.ranged && !(d.prof kv.1).valid) then
    d.cellOut 7 t (d.sfc t) (leBytes 64 (((List.range 512).map fun s => if (d.prof (512 * t + s)).valid then 0 else 2 ^ s).foldl (· + ·) 0))
  else d

/-- The bytes of a snapshot of the trees this unit drives (R460), as it stands at the boundary. -/
def Dev.snapshot (d : Dev) : List Byte :=
  let ts := d.driven
  CopyFrame.bytes (d.px.pairKey.getD 0)
    ⟨1, 15, d.rx.bnd, d.structId, d.now, ts.map d.treeRec ++ (ts.flatMap d.passOf).filterMap d.objRec⟩

/-- This unit sends copy frames (R450, R458, R464): it drives a tree, and the link is up. -/
def Dev.source (d : Dev) : Bool := d.linkUp && !d.driven.isEmpty

/-- A RESYNC whose unit has stopped being SOURCE before the pass started is refused (R458, R469; log entry 37). -/
def Dev.resyncStop (d : Dev) : Dev :=
  if (d.waitingCmd .px 5).isSome && !d.source then d.refuseWaiting .px 5 .notInState (b2n d.hot) else d

/-- The protection unit at a boundary, after the trees' SFC and evaluation (R438 to R460): the copy applied, the counts, the
requests, the changes, then HELLO, NEED, and the copy frame. -/
def Dev.pxBoundary (d : Dev) : Dev :=
  if d.im.str.mode = 0 then { d with rx := { d.rx with psw := [] } }
  else
    let ts := d.protTrees
    let s := d.todS
    let newS := decide (s ≠ d.px.lastSecond)
    let d0 := d.onPx fun x =>
      { x with helloAge := x.helloAge.map (· + 1), bndTick := d.tb.ticks, bndC := d.cPs, lastSecond := s
               cfg := d.reg (R .PX_CFG), cfg2 := d.reg (R .PX_CFG2)
               cellsLast := if d.driven.isEmpty then x.cellsIn else x.cells, cells := 0, cellsIn := 0, out := [] }
    let d1 := d0.copyApply
    let d2 := ts.foldl (fun d t => d.pxCount t) d1
    let d3 := (ts.foldl (fun d t => d.pswStep t) d2).onRx fun x => { x with psw := [] }
    let d4 := ts.foldl (fun d t => d.pxStep t) d3
    let d5 := ts.foldl (fun d t => d.onPt t fun x => { x with snapWait := x.snapWait - 1 }) d4
    let due := d5.cold && !d5.driven.isEmpty && (newS || ts.any fun t => (d5.pt t).snapWait == 1)
    let d6 := if due then d5.onPx fun x => { x with snap := some d5.snapshot } else d5
    let d7 := (ts.foldl (fun d t => (d.standbyMap t).needSend t) d6).onPx fun x =>
      { x with mapsIn := x.mapsIn.filter fun m => decide (d6.sfc m.tree ≤ m.frame) }
    (d7.recordsOut.cellOut 1 0 0 d7.helloContent).copySend.resyncStop

/-- A copied map is still to come for the second frame after a switch (R443): the chance passes with the boundary. -/
def Dev.takeoverStep (d : Dev) (t : Nat) : Dev := d.onGs t fun x => { x with takeoverLeft := x.takeoverLeft - 1 }

/-! ### Received cells (R449) -/

/-- CONTROL cells received count, whatever comes of them (R467); in cold mode none is taken (R462). -/
def Dev.cellsInBy (d : Dev) (n : Nat) : Dev := if d.hot then d.onPx fun x => { x with cellsIn := x.cellsIn + n } else d

/-- PX_MATE_PHASE from a HELLO (R449): the mate's clock offset from the four times of a symmetric exchange, then its boundary minus
this unit's, within half a frame. -/
def Dev.matePhase (d : Dev) (h : HelloIn) : Option Int :=
  match h.echo with
  | none => none
  | some (sent, arr) =>
    let off : Int := (((arr : Int) - sent) - ((d.cPs : Int) - h.c)) / 2
    let x := (h.c : Int) - off - d.px.bndC
    some ((x + 62500000) % 125000000 - 62500000)

/-- HELLO_CELL (R436, R449). -/
def Dev.hello (d : Dev) (h : HelloIn) : Dev :=
  if !d.hot || d.goodMateLanes.isEmpty then d
  else
    let s := d.im.str
    let same := h.structId == d.structId && (h.role == 3 - s.role) && (h.mode == s.mode) && (h.trees == s.protTrees) &&
      h.check.isSome && (h.check == d.px.pairKey.map pairCheck)
    let becomes := !same && (d.px.matched || d.px.helloAge.isNone)
    let d1 := d.protTrees.foldl (fun d t => d.onPt t fun y =>
        let m := PxTreeState.ofCode (bits h.states (2 * t + 1) (2 * t))
        { y with mate := m, mateFit := bit h.fit t, heard := true
                 mateLeft := same && y.state == .standby && m != .active && (y.mate == .active || y.mateLeft) })
      ((d.cellsInBy 1).onPx fun x => { x with helloAge := some 0, matched := same, lastRx := some (h.c, d.cPs) })
    let d2 := if becomes then d1.raiseRec (R .PX_FLAGS) 2 .px 0 false [(1, h.role), (1, h.mode), (8, h.trees)] else d1
    match d2.matePhase h with
    | none => d2
    | some p =>
      let bad := decide (1000000 < p.natAbs)
      let d3 := d2.setReg (R .PX_MATE_PHASE) (unsigned 32 p)
      if bad then d3.raiseLevel (R .PX_FLAGS) 3 d2.phaseOk else d3

/-- SWITCH_REQ_CELL (R441, R442): ignored once COMMIT has been sent. -/
def Dev.switchReqCell (d : Dev) (t cause : Nat) : Dev :=
  let d := d.cellsInBy 1
  if !d.linkUp || !d.isProt t then d
  else
    if (d.pt t).state = .active ∧ (d.pt t).change.isNone then (d.switchRequest t cause).1 else d

/-- COMMIT_CELL (R441): boundary b by its SFC; it counts where it arrives at least 5 µs before b. -/
def Dev.commitCell (d : Dev) (t sfc cause : Nat) : Dev :=
  let d := d.cellsInBy 1
  if !d.linkUp || !d.isProt t then d
  else
    let n := signed 32 (sfc + 2 ^ 32 - d.sfc t % 2 ^ 32)
    if (d.pt t).state = .standby ∧ 0 < n ∧ (1 < n ∨ d.sinceBnd 120) then
      d.onPt t fun x => { x with change := some (d.rx.bnd + n.toNat, cause) }
    else d

/-- RESYNC_REQ_CELL (R455). -/
def Dev.resyncReqCell (d : Dev) : Dev :=
  let d := d.cellsInBy 1
  if d.linkUp && !d.driven.isEmpty then d.onPx fun x => { x with passDue := true } else d

/-- RECORD_CELL (R524): the mate's record, whole, becomes the body of a MATE_RECORD. -/
def Dev.recordCell (d : Dev) (bytes : List Byte) : Dev := 
  let d := d.cellsInBy (max 1 ((bytes.length + 615) / 616))
  if d.linkUp then d.makeRec 6 RSrc.ob.code 0 false true bytes else d

/-- MAP_CELL (R443, R449, R456): a part of a copied map. -/
def Dev.mapCell (d : Dev) (t sfc part parts : Nat) (replayed : Bool) (ss : List MapStruct) : Dev :=
  let d := d.cellsInBy 1
  let st := (d.pt t).state
  let frame := d.sfc t + (signed 32 (sfc + 2 ^ 32 - d.sfc t % 2 ^ 32)).toNat
  let taken := st == .active && decide ((d.gs t).takeoverLeft ≠ 0 ∧ frame = d.sfc t + 1) && d.sinceBnd 115
  if !d.linkUp || !d.isProt t || !(st == .standby || taken) || parts = 0 || decide (frame ≤ d.sfc t) then d
  else
    let old := (d.px.mapsIn.find? fun m => m.tree == t && m.frame == frame).getD ⟨t, frame, replayed, parts, []⟩
    let m := { old with got := old.got.set part (ss.take 75) }
    let d1 := d.onPx fun x => { x with mapsIn := (x.mapsIn.filter fun m => !(m.tree == t && m.frame == frame)) ++ [m] }
    if taken && decide (m.got.length = m.parts) && !((d.gs t).built.any fun b => b.frame == frame) then
      d1.onGs t fun x => { x with built := x.built ++ [d1.mapFrom m] }
    else d1

/-- NEED_CELL (R456). -/
def Dev.needCell (d : Dev) (t : Nat) (slots : List Nat) : Dev :=
  let d := d.cellsInBy 1
  if d.linkUp && d.isProt t then d.onGs t fun x => { x with need := slots.filter fun s => decide (s < 512) } else d

/-- A lane lost its lock (R446): its markers are counted anew, and what they showed is no longer current. -/
def Dev.markersLost (d : Dev) (m : Nat) : Dev :=
  (d.onPx fun x => { x with markers := x.markers.erase m }).onLx fun x => { x with delays := x.delays.erase m }

/-- MATE_LINK_UP (R87, R88, R448, R455, R458). -/
def Dev.mateLinkUp (d : Dev) : Dev :=
  if d.hot && !d.lx.mateUp && !d.goodMateLanes.isEmpty && d.mateAligns && (d.px.helloAge.any fun a => decide (a ≤ 2)) then
    let d1 := (d.onLx fun x => { x with mateUp := true }).onPx fun x => { x with passDue := true }
    (d1.raiseRec (R .PX_FLAGS) 0 .px 0 false [(1, b2n d.px.matched)]).resyncReq
  else d

/-- MATE_LINK_DOWN (R88, R92, R448, R458): the copy stops, and what waited of it goes. -/
def Dev.mateLinkDown (d : Dev) : Dev :=
  if d.lx.mateUp && (d.goodMateLanes.isEmpty || !d.mateAligns || !(d.px.helloAge.any fun a => decide (a ≤ 2))) then
    let d1 := (d.onLx fun x => { x with mateUp := false }).onPx fun x =>
      { x with helloAge := none, inPass := false, lastNo := none, rxSeq := none, copyQ := [] }
    d1.raiseRec (R .PX_FLAGS) 1 .px 0 false []
  else d

/-- What follows a change of LOS, LOL or marker lock on a mate lane (R88, R92, R93): a bad lane drops, a good one starts its clear and
locked time, the skew is that of the lanes left, and with the last lane the link goes down in the same cycle. -/
def Dev.mateFollow (d : Dev) (m : Nat) : Dev :=
  if d.laneRole .ml m ≠ 5 then d
  else
    let d1 := (d.mateDrop m).mateClean m
    (d1.writeSkew .ml d1.mateGroup).mateLinkDown

/-- Two marker cells of a lane stand a number of times 1,024 codewords of 80 ticks apart, to the nearest codeword (R446). -/
def markerSpaced (a b : Nat) : Bool := decide ((b - a + 40) / 80 % 1024 = 0 ∧ (a + 40) / 80 < (b + 40) / 80)

/-- MARKER_CELL (R87, R88, R446, R447): the second one with a good CRC, 1,024 codewords after the first, gives a lane its lock, and one that
does not stand at the spacing is none for a locked lane; its LANE field and its delay enter the deskew; the mask; and the next SEQ, from which
a receiver that has delivered none goes on. -/
def Dev.markerCell (d : Dev) (m lane delay mask seq : Nat) : Dev :=
  let locked := d.flag (R .LX_ML_STATUS m) 6
  let spaced := (d.px.markers.get? m).map fun a => markerSpaced a d.tb.ticks
  if d.laneRole .ml m ≠ 5 ∨ d.rxOff .ml m ∨ (locked ∧ spaced = some false) then d
  else
    let d1 := (d.onPx fun x => { x with markers := x.markers.set m d.tb.ticks, mateMask := mask % 16, rxSeq := x.rxSeq <|> some (seq % 2 ^ 32) }).onLx
      fun x => { x with delays := x.delays.set m (lane, delay) }
    let next := (d.px.markers.get? m).any fun a => decide ((d.tb.ticks - a + 40) / 80 = 1024)
    let d2 := if next then d1.markerLock m else d1
    (d2.writeSkew .ml d2.mateGroup).mateLinkDown

/-! ### Takeovers and stand-down (R445, R457 to R461) -/

/-- WTR_EXPIRY (R445): the PRIMARY requests a revert, and the timer starts anew. -/
def Dev.wtrExpiry (d : Dev) (t : Nat) : Dev :=
  match d.wtrRun t with
  | some n =>
    if d.isProt t && decide (d.wtrS ≤ n) then ((d.switchRequest t 3).1).onPt t fun x => { x with wtr := x.wtr.map fun _ => d.now } else d
  | none => d

/-- STARTUP_TAKEOVER (R438): the tree enters ACTIVE at the next boundary. -/
def Dev.startupTakeover (d : Dev) (t : Nat) : Dev :=
  let x := d.pt t
  if d.isProt t && x.state == .isolated && !d.linkUp && d.fit t && decide (d.startup ≤ x.silent) && x.change.isNone then
    d.onPt t fun x => { x with change := some (d.rx.bnd + 1, 0) }
  else d

/-- LINK_TAKEOVER (R457): hot from a CURRENT copy that is young enough, otherwise by the restore rules from the state held. -/
def Dev.linkTakeover (d : Dev) (t : Nat) : Dev :=
  let x := d.pt t
  if d.isProt t && d.hot && x.state == .standby && !d.linkUp && decide (d.holdoff ≤ x.silent) && x.change.isNone then
    let isHot := d.copyState == 2 && decide (d.copyAge ≤ d.copyAgeMax)
    d.onPt t fun x => { x with change := some (d.rx.bnd + 1, 5), restore := if isHot then none else some (x.copySfc, d.px.copyC) }
  else d

/-- SNAPSHOT_WRITE (R460): the snapshot that a boundary has taken is written; `fault` is a PCIe write fault. -/
def Dev.snapshotWrite (d : Dev) (fault : Bool) : Dev :=
  let len := d.reg (R .PX_SNAP_OUT_LEN)
  match d.px.snap with
  | none => d
  | some b =>
    let d1 := d.onPx fun x => { x with snap := none }
    if len = 0 then d1
    else
      let seq := d.reg (R .PX_SNAP_OUT_SEQ)
      if fault ∨ len < b.length then d1.raiseRec (R .PX_FLAGS) 12 .px 0 false [(4, b.length), (4, len)]
      else
        let a := d.reg (R .PX_SNAP_OUT_LO) + 2 ^ 32 * d.reg (R .PX_SNAP_OUT_HI) + seq % 2 * len
        ((d1.wrMem 14 false a b).setReg (R .PX_SNAP_OUT_SEQ) ((seq + 1) % 2 ^ 32)).raise (R .PX_FLAGS) 11

/-- COLD_TAKEOVER (R461); `fault` is a fault of the snapshot's read. -/
def Dev.coldTakeover (d : Dev) (t : Nat) (fault : Bool) : Dev :=
  let x := d.pt t
  if !(d.isProt t && d.cold && x.state == .standby && decide (d.holdoff ≤ x.silent) && x.change.isNone) then d
  else
    let seq := d.reg (R .PX_SNAP_IN_SEQ)
    let a := d.reg (R .PX_SNAP_IN_LO) + 2 ^ 32 * d.reg (R .PX_SNAP_IN_HI)
    let f : Option CopyFrame :=
      if seq = 0 ∨ fault then none
      else (parseCopy (d.px.pairKey.getD 0) (d.mc.hostMem.readN a (d.reg (R .PX_SNAP_IN_LEN)))).filter fun f => f.structId == d.structId
    match f with
    | some f =>
      let d1 := d.applyRecs none (fun u => u == t) f.records
      let d2 := d1.onPt t fun x => { x with change := some (d.rx.bnd + 1, 7), restore := some (x.copySfc, f.boundaryC) }
      d2.raiseRec (R .PX_FLAGS) 13 .px 0 true [(1, t), (4, seq), (8, d.now - f.boundaryC)]
    | none =>
      let d1 := ((d.freeSlots t).profsInvalid t).onPt t fun x => { x with change := some (d.rx.bnd + 1, 7) }
      d1.raiseRec (R .PX_FLAGS) 14 .px 0 true [(1, t), (4, seq), (8, 0)]

/-- The reach of a tree is LIT (R437), or darkens (R50): ISOLATED, or OFF. -/
def Dev.pxReach (d : Dev) (r : Nat) (lit : Bool) : Dev :=
  ((treesOf r).filter d.isProt).foldl (fun d t => if lit then d.pxTo t .isolated 0 else d.pxTo t .off 2) d

/-- DARKEN_REACH accepted on the ACTIVE unit requests a switch of its trees (R439, R440). -/
def Dev.pxDarken (d : Dev) (r : Nat) : Dev :=
  ((treesOf r).filter fun t => d.isProt t && (d.pt t).state == .active).foldl (fun d t => (d.switchRequest t 2).1) d

/-! ### Fibre evidence and foreign energy (R456, R459) -/

/-- A burst acquired in a frame for which a listening tree has no map is fibre evidence (R80, R456); free acquisition runs over the
standard preamble of the host-set profile. -/
def Dev.pxBurst (d : Dev) (i : BurstIn) : Dev :=
  let st := (d.pt i.tree).state
  let lim := 8 * (d.bprof i.tree (d.longIdx i.tree)).pre
  if d.isProt i.tree && (st == .standby || st == .isolated) && cdrQualifies lim 0 i.edges && decide (50 * d.fld (R .LX_PB_BURST_CFG i.tree) 7 0 ≤ i.amp) &&
      !((d.gs i.tree).sent.any fun m => m.frame == i.frame) then d.onPt i.tree fun x => { x with evidence := true }
  else d

/-- An ungranted-energy report of a driven tree (R459). -/
def Dev.pxEnergy (d : Dev) (t : Nat) : Dev :=
  if d.isProt t && (d.pt t).state == .active then d.onPt t fun x => { x with energy := x.energy + 1 } else d

/-- A map of a driven protected tree that is complete goes to the mate (R449). -/
def Dev.pxMapSent (d0 d : Dev) (t : Nat) : Dev :=
  if d.linkUp ∧ (d.pt t).state = .active ∧ (d0.gs t).built.length < (d.gs t).built.length then
    match (d.gs t).built.getLast? with
    | some m => d.cellsOut 6 t m.frame (128 * b2n m.replayed) 600 (m.bursts.flatMap fun b => b.structs.flatMap GStruct.wire)
    | none => d
  else d

/-! ### Registers (R463 to R468) -/

/-- PX_STATUS (R464). -/
def Dev.pxStatus (d : Dev) : Nat :=
  let link := if !d.lx.mateUp then 0 else if d.px.matched then 1 else 2
  let good := (d.goodLanes.map fun m => 2 ^ m).foldl (· + ·) 0
  d.im.str.role * 2 ^ 30 + d.im.str.mode * 2 ^ 28 + link * 2 ^ 26 + good * 2 ^ 22 + b2n (d.hot && d.cadence == 2) * 2 ^ 21 +
    b2n d.source * 2 ^ 20 + d.copyState * 2 ^ 18 + b2n d.px.pairKey.isSome * 2 ^ 17 + d.copyAge * 2 ^ 8

/-- PX_TREE_STATUS[t] (R468): STATE reads 0 until the tree enters a state, and MATE_STATE until a HELLO comes. -/
def Dev.pxTreeStatus (d : Dev) (t : Nat) : Nat :=
  if !d.isProt t then 0
  else
    let x := d.pt t
    2 ^ 31 + (if x.entered then x.state.code else 0) * 2 ^ 29 + b2n (d.fit t) * 2 ^ 28 + b2n x.lockout * 2 ^ 27 + b2n x.wtr.isSome * 2 ^ 26 +
      (match d.wtrRun t with | some n => d.wtrS - n | none => 0) * 2 ^ 16 + (if x.heard then x.mate.code else 0) * 2 ^ 14 + x.cause * 2 ^ 11

/-- PX_COPY_STAT (R467). -/
def Dev.pxCopyStat (d : Dev) : Nat :=
  (d.px.backlog.map CopyObj.bytes).foldl (· + ·) 0 / 1024 * 2 ^ 16 + min d.px.cellsLast 65535

/-- A write of PX_CFG (R466). -/
def Dev.pxCfgWrite (d : Dev) (v : Nat) : Dev :=
  let r := R .PX_CFG
  if bits v 31 22 = 0 ∨ 720 < bits v 31 22 then
    (d.setReg r (d.fld r 31 22 * 2 ^ 22 + bits v 21 2 * 4)).cfgRefused (R .PX_FLAGS) 15
  else d.setReg r (bits v 31 2 * 4)

/-- A write of PX_SNAP_OUT_LO or PX_SNAP_IN_LO (R467). -/
def Dev.pxSnapLoWrite (d : Dev) (r : Reg) (v : Nat) : Dev :=
  if bits v 11 0 ≠ 0 then d.cfgRefused (R .PX_FLAGS) 15 else d.setReg r (v % 2 ^ 32)

/-! ### PX_CMD (R469) -/

/-- The checks that every opcode shares (R469, R571): no VF; the tree is protected. -/
def Dev.pxTreeCmd (d : Dev) (a : Accepted) (k : Nat → CmdRes) : CmdRes :=
  let t := a.obj % 64
  if !trusted a.src then .refuse .denied (d.pt t).state.code
  else if !d.isProt t then .refuse .badArgument 0
  else k t

/-- SWITCH (R440, R462, R469): it completes at the boundary of the change or of the refusal. -/
def opPxSwitch (a : Accepted) (d : Dev) : CmdRes :=
  d.pxTreeCmd a fun t =>
    let x := d.pt t
    if d.cold then
      if x.state ≠ .active ∨ d.reg (R .PX_SNAP_OUT_LEN) = 0 then .wait (d.onPt t fun x => { x with deny := true })
      else .wait (d.onPt t fun x => { x with snapWait := 2 })
    else if x.state ≠ .active ∧ x.state ≠ .standby then .wait (d.onPt t fun x => { x with deny := true })
    else
      let p := d.switchRequest t 2
      if p.2 then .wait (p.1.onPt t fun y => { y with askWait := if x.state = .standby then 2 else 0 }) else .wait (p.1.onPt t fun x => { x with deny := true })

/-- LOCKOUT (R439, R469). -/
def opLockout (a : Accepted) (d : Dev) : CmdRes :=
  d.pxTreeCmd a fun t =>
    let set (d : Dev) : CmdRes := .done (d.onPt t fun x => { x with lockout := true }) .ok []
    if (d.pt t).lockout then .done d .ok []
    else if (d.pt t).state = .active then
      let p := d.switchRequest t 2
      if p.2 then set p.1 else .refuseAt p.1 .notInState (p.1.pt t).state.code
    else set d

/-- LOCKOUT_CLEAR (R469). -/
def opLockoutClear (a : Accepted) (d : Dev) : CmdRes :=
  d.pxTreeCmd a fun t =>
    if (d.pt t).lockout then .done (d.onPt t fun x => { x with lockout := false }) .ok [] else .done d .notFound []

/-- JOIN (R469): it completes at the boundary at which the tree enters ISOLATED, or at the next one where it is refused. -/
def opJoin (a : Accepted) (d : Dev) : CmdRes :=
  d.pxTreeCmd a fun t => .wait (d.onPt t fun x => { x with denyJoin := !(x.state == .off && d.lit t) })

/-- RESYNC (R455, R469): it completes when the full pass starts. -/
def opResync (a : Accepted) (d : Dev) : CmdRes :=
  if !trusted a.src then .refuse .denied (b2n d.hot)
  else if d.source then .wait (d.onPx fun x => { x with passDue := true })
  else .refuse .notInState (b2n d.hot)

/-- The pair key may change (R469). -/
def Dev.pairFree (d : Dev) : Bool :=
  !(d.hot && d.protTrees.any fun t => (d.pt t).state == .standby || (d.pt t).state == .active)

/-- PAIR_KEY (R469). -/
def opPairKey (a : Accepted) (d : Dev) : CmdRes :=
  if !trusted a.src then .refuse .denied (b2n d.px.pairKey.isSome)
  else if !d.pairFree then .refuse .notInState (b2n d.px.pairKey.isSome)
  else .done (d.onPx fun x => { x with pairKey := some (beNat (a.data.flatMap fun w => leBytes 4 w)) }) .ok []

/-- PAIR_KEY_CLEAR (R469). -/
def opPairKeyClear (a : Accepted) (d : Dev) : CmdRes :=
  if !trusted a.src then .refuse .denied (b2n d.px.pairKey.isSome)
  else if !d.pairFree then .refuse .notInState (b2n d.px.pairKey.isSome)
  else .done (d.onPx fun x => { x with pairKey := none }) .ok []

end Sys2Proof.Machine
end

