-- ==== Sys2Proof/Machine/Scan.lean ====
section
/-! DEFINITION. The boundary-scan register (spec/17, R560 to R567): the pins that have cells, by ball, and the order of the cells. -/

namespace Sys2Proof.Machine

/-- A boundary-scan cell of a pin (R567). -/
inductive ScanCell where
  | input | output | enable
  deriving DecidableEq, Repr

/-- The kinds of pin that have cells (R567): single-ended inputs, outputs and bidirectional pins, and IEEE 1149.6 transmitters and
receivers. -/
inductive PinKind where
  | input | output | bidir | transmitter | receiver
  deriving DecidableEq, Repr

/-- The cells of a pin, in their order (R567). -/
def PinKind.cells : PinKind → List ScanCell
  | .input => [.input]
  | .output => [.output, .enable]
  | .bidir => [.input, .output, .enable]
  | .transmitter => [.output, .enable]
  | .receiver => [.input]

/-- North and South (R561); a pair stands at its P ball. `r` counts rows from the edge: 2 for PT, 5 for PB, 7 for PT_TXDIS and
PB_RST. -/
def scanTree (r col : Nat) : Option PinKind :=
  if r = 2 ∧ col % 2 = 1 then some .transmitter
  else if r = 5 ∧ col % 2 = 1 then some .receiver
  else if r = 7 then some .output
  else none

/-- East (R562): UL and ML lanes, P balls in every third row from 10 on. -/
def scanEast (row col : Nat) : Option PinKind :=
  if row < 10 ∨ 55 < row ∨ (row - 10) % 3 ≠ 0 then none
  else if col = 63 then some .transmitter
  else if col = 60 then some .receiver
  else none

/-- The single-ended balls of West (R563); PORST_N, TEST_EN, the chain lines and the JTAG pins have no cells (R567). -/
def scanLow (row col : Nat) : Option PinKind :=
  if col = 7 then
    if row ∈ [10, 11, 12, 13, 15, 16, 18, 19, 20, 21, 34] then some .input
    else if row ∈ [17, 22, 23, 24, 25, 32, 33] then some .output
    else none
  else if row ∈ [9, 10, 20, 22, 23, 33] then some .output
  else if (11 ≤ row ∧ row ≤ 19) ∨ (24 ≤ row ∧ row ≤ 32) then some .bidir
  else none

/-- West (R563): PCIe, MGMT, the recovered clocks, the reference inputs, and the single-ended balls. -/
def scanWest (row col : Nat) : Option PinKind :=
  if col = 7 ∨ col = 8 then scanLow row col
  else
    let lane := (10 ≤ row ∧ row ≤ 31 ∧ (row - 10) % 3 = 0) ∨ row = 34
    if col = 2 then (if lane ∨ row = 37 then some .transmitter else if row = 40 ∨ row = 43 then some .receiver else none)
    else if col = 5 then (if lane ∨ row = 40 then some .receiver else if row = 37 then some .transmitter else none)
    else none

/-- A DDR5 channel (R564): `r` is the row within a subchannel of 24 rows, from 0; `c` the column within the channel; `first` says
subchannel A, which alone has ALERT_N and RESET_N. -/
def scanDdr (r c : Nat) (first : Bool) : Option PinKind :=
  if r < 20 then (if r % 2 = 0 ∧ c < 6 then some .bidir else none)
  else if r = 20 ∨ r = 22 then some .output
  else if r = 23 then
    (if c < 2 then some .output else if c = 2 ∧ first then some .input else if c = 3 ∧ first then some .output else none)
  else none

/-- The pin with cells at a ball, a pair at its P ball (R560, R567). -/
def scanPin (row col : Nat) : Option PinKind :=
  if row ≤ 8 then scanTree row col
  else if 57 ≤ row then scanTree (65 - row) col
  else if col ≤ 8 then scanWest row col
  else if 57 ≤ col then scanEast row col
  else if col ≤ 24 ∨ 41 ≤ col then scanDdr ((row - 9) % 24) ((col - 9) % 8) (decide (row ≤ 32))
  else none

/-- The boundary-scan register from cell 0, next to TDO: row, column and cell (R567). -/
def scanCells : List (Nat × Nat × ScanCell) :=
  (List.range 64).flatMap fun i => (List.range 64).flatMap fun j =>
    ((scanPin (i + 1) (j + 1)).map PinKind.cells).getD [] |>.map fun c => (i + 1, j + 1, c)

/-- The cells of the boundary-scan register (R567). -/
def scanLength : Nat := 2361

/-- The 32 bits of IDCODE (R566): stepping A1, part 0x6412, the JEP106 identity, 1. -/
def idcode : Nat := 0x1 * 2 ^ 28 + 0x6412 * 2 ^ 12 + Config.jep106 % 2 ^ 11 * 2 + 1

end Sys2Proof.Machine
end

