-- ==== Sys2Proof/Machine/Reset.lean ====
section
/-! DEFINITION. The device states and what leaves nothing as it was (R46, R47, R49): HELD, the start instant S, the warm reset,
the entry to FAILED, and the pins and reference clocks behind them (R540 to R553, R566 to R569). -/

namespace Sys2Proof.Machine

/-! ### States (R46, R47, R63) -/

/-- The device changes STATE: a change that does not enter BOOTING sets DEV_STATE_CHANGE (R63). -/
def Dev.toState (d : Dev) (s : DevState) : Dev :=
  if d.im.state = s then d else (d.onIm fun m => { m with state := s }).raise (R .IM_FLAGS) 0

/-- The device runs reaches, pipelines and ports (R46). -/
def Dev.alive (d : Dev) : Bool :=
  match d.im.state with
  | .structured | .running | .quiesced => true
  | _ => false

/-- What brings the device to FAILED (R47), as the record of the entry names it (log entry 42). -/
inductive FailCause where
  | loadError | thermCrit | cattrip | refclkSys | jtag
  deriving DecidableEq, Repr

/-- The code of a cause in the record. -/
def FailCause.code : FailCause → Nat
  | .loadError => 1 | .thermCrit => 2 | .cattrip => 3 | .refclkSys => 4 | .jtag => 5

/-- Entry to FAILED (R49, R60, R518): the fault record, the waiting transitions refused, the recorder flushed. Transmitters and
pipelines stop, since they run only out of FAILED. -/
def Dev.toFailed (d : Dev) (c : FailCause) : Dev :=
  match d.im.state with
  | .held | .failed => d
  | s =>
    let d := (d.toState .failed).record 0x20 .im 0 true [(1, s.code), (1, c.code), (1, d.fld (R .IM_DEV_STATUS) 15 8)]
    let d := ([1, 2, 3, 5] : List Nat).foldl (fun d op => d.refuseWaiting .im op .notInState s.code) d
    (d.onTb fun b => { b with startAt := none }).recordFlush [] false false

/-! ### The boot control block (R502, R503) -/

/-- The bytes of a control block (R502): MAGIC, SEQ, ACTIVE, FLAGS, FAIL_COUNT and the CRC over them. -/
def CtlBlock.bytes (c : CtlBlock) : List Byte :=
  let b := leBytes 4 0x54434255 ++ leBytes 4 c.seq ++ leBytes 1 c.active ++ leBytes 1 (b2n c.trial + 2 * b2n c.aConfirmed + 4 * b2n c.bConfirmed) ++
    leBytes 1 c.failCount ++ leBytes 1 0
  b ++ leBytes 4 (crc32c b)

/-- The control block that 16 bytes hold, where MAGIC and CRC are good (R502). -/
def CtlBlock.parse (b : List Byte) : Option CtlBlock :=
  if leAt b 0 4 ≠ 0x54434255 then none
  else if leAt b 12 4 ≠ crc32c (b.take 12) then none
  else
    let fl := leAt b 9 1
    some ⟨leAt b 4 4, leAt b 8 1, bit fl 0, bit fl 1, bit fl 2, leAt b 10 1⟩

/-- Copy k of the control block (R501). -/
def Flash.copy (f : Flash) (k : Nat) : Option CtlBlock := CtlBlock.parse (f.cells.readN (0x10000 * k) 16)

/-- The control block written as copy k. -/
def Flash.setCopy (f : Flash) (k : Nat) (c : CtlBlock) : Flash := ⟨f.cells.writeL (0x10000 * k) c.bytes⟩

/-- The flash offsets of slot s and of its regions: firmware (0) and image (1) (R501). -/
def slotBase (s : Nat) : Nat := 0x100000 + 0x2800000 * s
def regionBase (s region : Nat) : Nat := slotBase s + if region = 0 then 0 else 0x800000

/-- Slot s erased (R505). -/
def Flash.eraseSlot (f : Flash) (s : Nat) : Flash := ⟨f.cells.keep fun a _ => !decide (slotBase s ≤ a ∧ a < slotBase s + 0x2800000)⟩

/-- The ruling control block, or the factory state where no copy is valid (R502). -/
def Flash.ruling (f : Flash) : CtlBlock :=
  match f.copy 0, f.copy 1 with
  | some a, some b => if seqAfter b.seq a.seq then b else a
  | some a, none => a
  | none, some b => b
  | none, none => ⟨0, 0, false, true, false, 0⟩

/-- The copy that does not rule is written with SEQ + 1 (R502). -/
def Flash.writeCb (f : Flash) (c : CtlBlock) : Flash :=
  let c := { c with seq := (f.ruling.seq + 1) % 2 ^ 32 }
  match f.copy 0, f.copy 1 with
  | some a, some b => if seqAfter b.seq a.seq then f.setCopy 0 c else f.setCopy 1 c
  | some _, none => f.setCopy 1 c
  | _, _ => f.setCopy 0 c

/-- Slot s is confirmed. -/
def CtlBlock.confirmed (c : CtlBlock) (s : Nat) : Bool := if s = 0 then c.aConfirmed else c.bConfirmed

/-- The slot selection of R503: the control block to be written, and whether it rolled back. -/
def CtlBlock.select (c : CtlBlock) : CtlBlock × Bool :=
  let back := decide (3 ≤ c.failCount) && c.confirmed (1 - c.active)
  let c1 := if back then { c with active := 1 - c.active, trial := false, failCount := 0 } else c
  ({ c1 with failCount := min 255 (c1.failCount + 1) }, back)

/-! ### HELD and the start instant S (R542 to R545) -/

/-- The timebase after PORST_N (R403). -/
def TbState.rest : TbState where
  c := 0
  ticks := 0
  rho := 0
  rate := 0
  incPending := none
  heldLow := none
  cmpHeld := []
  capture := []
  todTarget := []
  todResult := []
  txts := []
  gates := []
  align := none
  startAt := none
  alignOff := 0
  startOff := 0
  stepAt := none
  offset := 0
  pinPulse := []
  chainMode := 0
  lastChainEdge := none
  lastSecond := 0

/-- Image and control while HELD. -/
def ImState.rest : ImState := ⟨.held, 0, false, Structure.none, [], none⟩

/-- The management complex after PORST_N, with what lies outside it: boot flash, fuses, host memory (R543). -/
def McState.restOf (fl : Flash) (fu : Fuses) (host : Mem) : McState where
  cores := []
  scratch := []
  scratchUe := []
  coresUp := false
  spWait := []
  spTurn := []
  spLostBy := []
  spMiss := []
  dma := []
  pcie := Pcie.rest
  run := none
  msix := []
  vecs := []
  sent := []
  history := []
  avsTarget := fu.avs / 2 ^ 22
  marginDay := 0
  overCrit := []
  flash := fl
  fuses := fu
  runSlot := 0
  trial := false
  rolledBack := false
  mgmtPause := 0
  mgmtStat := []
  mgmtTx := []
  aer := []
  hostMem := host
  completion := none
  spOut := []
  wdt := []
  runSec := 0

/-- Observability after PORST_N, with its recorder memory (R519, R527). -/
def ObState.restOf (m : RecMem) : ObState where
  mem := m
  kind := 0
  wp := 0
  tide := []
  tideStart := 0
  wrapped := false
  half := 0
  cairn := []
  cairnEnd := 0
  clears := 0
  erasing := false
  opPos := 0
  failed := false
  toMate := []
  staging := []
  nextSeq := 0
  lost := 0
  loss := none
  opSec := 0
  cycle := 0
  pwrFail := false
  todUnset := true
  stepped := false
  cnt := []
  pcnt := []
  cntHi := []
  partialNoted := false
  statBind := []
  stats := []
  insBuf := []
  insRun := []
  coreDraw := 0
  pkt := []
  pktRun := 0
  pktRuns := 0

/-- The device in HELD (R542, R543): all state lost but the boot flash, the recorder memory and the fuses; pins and host memory
lie outside. -/
def Dev.heldOf (p : PinState) (fl : Flash) (fu : Fuses) (host : Mem) (m : RecMem) : Dev where
  regs := []
  wins := []
  kicks := []
  free := 0
  pins := p
  im := ImState.rest
  tb := TbState.rest
  mc := McState.restOf fl fu host
  ob := ObState.restOf m
  lx := LxState.rest
  rx := RxState.rest
  pc := PcState.rest
  fs := FsState.rest
  tm := TmState.rest
  bp := BpState.rest
  ce := CeState.rest
  ul := UlState.rest
  px := PxState.rest

/-- The device enters HELD at once (R543, R545); the free values taken stay taken. -/
def Dev.hold (d : Dev) : Dev := { Dev.heldOf d.pins d.mc.flash d.mc.fuses d.mc.hostMem d.ob.mem with free := d.free }

/-- IM_DEV_STATUS.SRC and WAIT_HOST as S or a warm reset leaves them (R44, R61). -/
def Dev.bootStatus (d : Dev) : Dev :=
  let slot := d.mc.flash.ruling.select.1.active
  let src := if d.im.bootsrc = 1 then 2 else if d.im.bootsrc = 3 then 0 else slot
  ((d.resetReg (R .IM_DEV_STATUS)).setFld (R .IM_DEV_STATUS) 6 5 src).setFld (R .IM_DEV_STATUS) 4 4 (b2n (d.im.bootsrc == 1))

/-- The start instant S (R44, R45, R519, R545, R548): out of HELD into BOOTING, straps sampled, the recorder started, and a
PWRFAIL_N that is low counted as falling. -/
def Dev.startInstant (d : Dev) : Dev :=
  if d.im.state = .held ∧ d.pins.porstN ∧ d.pins.railsGood ∧ d.pins.refSys ∧ !d.pins.testEn then
    let d := d.onIm fun m => { m with state := .booting, bootsrc := d.pins.straps % 4 }
    let d := d.bootStatus.recorderStart
    if d.pins.pwrfailN then d else d.powerFail 0
  else d

/-! ### Warm reset (R28, R47, R321, R403, R546, R547) -/

/-- Registers that a warm reset keeps: those of the timebase island but its compares, captures, time-of-day captures and
timestamps (R403; log entry 41), and the ageing monitors (R511: measured since PORST_N). -/
def keptReg (a : Nat) : Bool := decide (0x200000 ≤ a ∧ a < 0x200100) || decide (0x6A0 ≤ a ∧ a < 0x720)

/-- Trees, bins and predictors through a warm reset: SFC (R116), PM history and the bins' SEQ (R137, R318), day profiles (R318),
boundary count (R450). DEDUCED: closed bins that wait for their history write are lost (log entry 113). -/
def RxState.warm (x : RxState) : RxState :=
  { RxState.rest with
    bnd := x.bnd
    days := x.keepDays fun _ _ => true
    tf := x.tf.mapPut TfTree.rest fun _ t => { TfTree.rest with sfc := t.sfc }
    pm := x.pm.mapPut PmReach.rest fun _ p =>
      let nx (h : PmHdr) : PmHdr := { PmHdr.rest with seq := if p.running then (h.seq + 1) % 2 ^ 32 else h.seq }
      { PmReach.rest with hist := p.hist, histDay := p.histDay, q := nx p.q, d := nx p.d } }

/-- The buffer state through a warm reset at a tick: cells, retirement lists and the errors of the reserved region stay (R321, R338),
and rounds are numbered from the reset (R326). -/
def BpState.warm (b : BpState) (now : Nat) : BpState :=
  { BpState.rest with
    near := b.near, far := b.far, retNear := b.retNear, retFar := b.retFar, resBad := b.resBad, resSoft := b.resSoft, roundBase := now }

/-- The management complex through a warm reset: memories, sensors' history, AVS target, flash and fuses (log entry 41). -/
def McState.warm (m : McState) : McState :=
  { McState.restOf m.flash m.fuses m.hostMem with
    scratch := m.scratch, scratchUe := m.scratchUe, pcie := m.pcie, history := m.history, avsTarget := m.avsTarget, marginDay := m.marginDay
    sent := m.sent, cores := m.cores.mapPut MgmtCore.rest fun _ c => { c with hasFw := false, running := false } }

/-- Observability through a warm reset: the recorder and the fixed counters stay (R527, R547). -/
def ObState.warm (o : ObState) : ObState :=
  { ObState.restOf o.mem with
    kind := o.kind, wp := o.wp, tide := o.tide, tideStart := o.tideStart, wrapped := o.wrapped, half := o.half, cairn := o.cairn
    cairnEnd := o.cairnEnd, clears := o.clears, erasing := o.erasing, opPos := o.opPos
    failed := o.failed, staging := o.staging, nextSeq := o.nextSeq, lost := o.lost, loss := o.loss, opSec := o.opSec
    cycle := o.cycle, pwrFail := o.pwrFail, todUnset := o.todUnset, stepped := o.stepped, cnt := o.cnt, partialNoted := o.partialNoted }

/-- The timebase through a warm reset: C runs on; compares, captures, gate lists, time-of-day captures and timestamps return to
their reset state (R403). -/
def TbState.warm (b : TbState) : TbState :=
  { TbState.rest with
    c := b.c, ticks := b.ticks, rho := b.rho, rate := b.rate, incPending := b.incPending, heldLow := b.heldLow
    offset := b.offset, chainMode := b.chainMode, lastChainEdge := b.lastChainEdge, lastSecond := b.lastSecond }

/-- The warm reset (R28, R47, R546): the device is in BOOTING at once, with IM_FLAGS at reset (R63). -/
def Dev.warmReset (d : Dev) : Dev :=
  match d.im.state with
  | .held => d
  | _ =>
    let im : ImState := { ImState.rest with state := .booting, bootsrc := d.im.bootsrc, bootHalted := d.im.bootHalted }
    let d := { Dev.heldOf d.pins d.mc.flash d.mc.fuses d.mc.hostMem d.ob.mem with
               free := d.free, regs := d.regs.keep fun a _ => keptReg a, im := im, tb := d.tb.warm, mc := d.mc.warm
               ob := d.ob.warm, rx := d.rx.warm, bp := d.bp.warm d.tb.ticks }
    d.bootStatus

/-! ### Pins (R543 to R549) -/

/-- The pins changed by f. -/
def Dev.onPins (d : Dev) (f : PinState → PinState) : Dev := { d with pins := f d.pins }

/-- PORST_N (R545): low puts the device in HELD at once; high is S when rails and REFCLK_SYS are there. The straps and TEST_EN
are as they stand at the edge. -/
def Dev.porst (d : Dev) (level : Bool) (straps : Nat) (testEn : Bool) : Dev :=
  let d := d.onPins fun p => { p with porstN := level, straps := straps, testEn := testEn }
  if level then d.startInstant else d.hold

/-- RAIL_LOSS (R543). -/
def Dev.railLoss (d : Dev) : Dev := (d.onPins fun p => { p with railsGood := false }).hold

/-- RAILS_GOOD (R540, R545). -/
def Dev.railsGood (d : Dev) : Dev := (d.onPins fun p => { p with railsGood := true }).startInstant

/-- SRST_N (R546): a fall starts the warm reset with the boot ROM halted until the rise; ignored in HELD, and while PORST_N is
low. -/
def Dev.srst (d : Dev) (level : Bool) : Dev :=
  let d := d.onPins fun p => { p with srstN := level }
  if d.im.state = .held then d
  else if level then d.onIm fun m => { m with bootHalted := false }
  else (d.onIm fun m => { m with bootHalted := true }).warmReset

/-- PWRFAIL_N falls (R523, R548): in every state except HELD; `fits` staged records are written within 2 ms. -/
def Dev.pwrfailFall (d : Dev) (fits : Nat) : Dev :=
  let d := d.onPins fun p => { p with pwrfailN := false }
  if d.im.state = .held ∨ d.ob.pwrFail then d else d.powerFail fits

/-- PWRFAIL_N rises with the rails good (R548): ordinary records are accepted again, a LOSS record that is due among them. -/
def Dev.pwrfailRise (d : Dev) : Dev :=
  ((d.onPins fun p => { p with pwrfailN := true }).onOb fun o => { o with pwrFail := false }).lossRec

/-! ### Reference clocks and JTAG (R552, R568) -/

/-- The code of a reference in the records of its loss and return (log entry 42). -/
def refCode : RefClk → Nat
  | .sys => 0 | .eth => 1 | .pon => 2

/-- A reference is present or lost. -/
def Dev.setRef (d : Dev) (c : RefClk) (on : Bool) : Dev :=
  d.onPins fun p => match c with
    | .sys => { p with refSys := on }
    | .eth => { p with refEth := on }
    | .pon => { p with refPon := on }

/-- The UL and ML lanes with a role assert LOL while REFCLK_ETH is lost (R89, R552). -/
def Dev.ethLol (d : Dev) : Dev :=
  let d := upTo 12 d fun i d => if d.laneRole .ul i = 4 then (d.lolSet .ul i).ulLaneFollow i false false false else d
  upTo 4 d fun i d => if d.laneRole .ml i = 5 then (d.lolSet .ml i).mateFollow i else d

/-- REFCLK_LOSS (R552): recorded, under a number that no event has (log entry 42); REFCLK_SYS fails the device and takes the PCI Express
link, REFCLK_ETH takes the lock of its lanes, REFCLK_PON puts the reach PLL in holdover. -/
def Dev.refLoss (d : Dev) (c : RefClk) : Dev :=
  let d := d.setRef c false
  if d.im.state = .held then d
  else
    let d := d.record 0x1E .mc 0 (c == .sys) [(1, refCode c), (1, 0)]
    match c with
    | .sys => (d.onMc fun m => { m with pcie := { m.pcie with linkUp := false } }).toFailed .refclkSys
    | .eth => d.ethLol
    | .pon => d

/-- REFCLK_RETURN (R552): recorded; REFCLK_SYS lets a HELD device reach S. -/
def Dev.refReturn (d : Dev) (c : RefClk) : Dev :=
  let d := d.setRef c true
  let d := if c = .sys then d.onMc fun m => { m with pcie := { m.pcie with linkUp := true } } else d
  if d.im.state = .held then d.startInstant else d.record 0x1E .mc 0 false [(1, refCode c), (1, 1)]

/-- A data scan under the instruction in force (IEEE 1149.1; R566, R567): the selected register is captured and shifted out, and the
boundary-scan register takes the bits shifted in. Under CLAMP, HIGHZ and BYPASS one bit of 0 stands between TDI and TDO. -/
def PinState.scan (p : PinState) (shows tdi : Nat) : PinState :=
  if p.jtag = 0x02 then { p with tdo := idcode + 2 ^ 32 * (tdi % 2 ^ scanLength) }
  else if p.jtag ∈ [0x00, 0x01, 0x08, 0x09] then { p with bsr := tdi % 2 ^ scanLength, tdo := shows % 2 ^ scanLength }
  else { p with tdo := 2 * (tdi % 2 ^ scanLength) }

/-- What the boundary-scan register drives on the pins (R568), none where they are the device's own or, under HIGHZ, nobody's. -/
def PinState.drives (p : PinState) : Option Nat := if p.jtag ∈ [0x00, 0x03, 0x08, 0x09] then some p.bsr else none

/-- JTAG_INSTRUCTION (R566, R568): EXTEST, EXTEST_PULSE, EXTEST_TRAIN, CLAMP and HIGHZ put the device in FAILED; the others do
not disturb it. Codes without an instruction of their own act as BYPASS. The scan of the
instruction shifts out what its register captured, 0b0000_0001, and a data scan may follow. -/
def Dev.jtagLoad (d : Dev) (code : Nat) (scan : Option (Nat × Nat)) : Dev :=
  let code := if code % 256 ∈ [0x00, 0x01, 0x02, 0x03, 0x04, 0x08, 0x09] then code % 256 else 0xFF
  let d := d.onPins fun p =>
    let p := { p with jtag := code, tdo := 1 }
    match scan with
    | some x => p.scan x.1 x.2
    | none => p
  if code ∈ [0x00, 0x03, 0x04, 0x08, 0x09] then d.toFailed .jtag else d

end Sys2Proof.Machine
end

