-- ==== Sys2Proof/Machine/Manage.lean ====
section
/-! DEFINITION. The management complex (spec/15): cores and watchdogs, the scratchpad's windows, DMA, function resets, interrupts,
sensors and the margin planner, the update session. -/

namespace Sys2Proof.Machine

/-! ### Cores and watchdogs (R470 to R472, R510) -/

/-- Core c. -/
def Dev.core (d : Dev) (c : Nat) : MgmtCore := d.mc.cores.getD c MgmtCore.rest

/-- Core c changed by f. -/
def Dev.onCore (d : Dev) (c : Nat) (f : MgmtCore → MgmtCore) : Dev :=
  d.onMc fun m => { m with cores := m.cores.put MgmtCore.rest c (f (m.cores.getD c MgmtCore.rest)) }

/-- The watchdog of core c restarts (R472). -/
def Dev.wdtRestart (d : Dev) (c : Nat) : Dev := d.onMc fun m => { m with wdt := m.wdt.put 0 c d.tb.ticks }

/-- A write of MC_CORE_CTL[c] (R470, R472, R510): RESET holds the core, and from 1 to 0 it restarts at 0x0 once STRUCTURED has been reached,
in FAILED too (R49); KICK and a watchdog that is turned on restart the watchdog's period. -/
def Dev.coreCtlWrite (d : Dev) (c v : Nat) : Dev :=
  let r := R .MC_CORE_CTL c
  let was := d.flag r 30
  let d := d.setReg r (bits v 31 29 * 2 ^ 29 + bits v 15 0)
  let d := if bit v 28 ∨ (bit v 30 ∧ !was) then d.wdtRestart c else d
  d.onCore c fun x => { x with running := x.hasFw && !bit v 31 && d.mc.coresUp }

/-- WATCHDOG_EXPIRY (R472): WDT_MS ms (781,250 ticks each; 0 counts as 1) have passed without a KICK while WDT_EN = 1; with
WDT_ACT = 1 the warm reset follows. -/
def Dev.watchdogExpiry (d : Dev) (c : Nat) : Dev :=
  let r := R .MC_CORE_CTL c
  if 3 < c ∨ !d.flag r 30 ∨ d.tb.ticks < d.mc.wdt.getD c 0 + atLeast1 (d.fld r 15 0) * 781250 then d
  else
    let d := (d.wdtRestart c).raiseRec (R .MC_FLAGS) (11 + c) .mc c true [(1, c)]
    if d.flag r 29 then d.warmReset else d

/-! ### The scratchpad (R473 to R477) -/

/-- The windows of the scratchpad (R474). -/
inductive SpWin where
  | plain | set | clear | add | swap
  deriving DecidableEq, Repr

/-- Where an access leads: a word in a window; a word of the core's local memory; nothing (R474: BAR2 above the windows); a fault in the
core; out of slice with the PF0 address concerned. -/
inductive SpWhere where
  | word (w : Nat) (k : SpWin)
  | own (c w : Nat)
  | hole
  | fault
  | outside
  deriving DecidableEq, Repr

/-- The port under which an access comes (R473). -/
def spPortOf (a : SpAcc) : Nat :=
  match a.at_ with
  | .eng p => p
  | _ => portOf a.src

/-- The access is a device engine's (R473). -/
def spEngine (a : SpAcc) : Bool :=
  match a.at_ with
  | .eng _ => true
  | _ => false

/-- The window of a number of 4 MiB. -/
def spWinOf : Nat → Option SpWin
  | 0 => some .plain
  | 1 => some .set
  | 2 => some .clear
  | 3 => some .add
  | 4 => some .swap
  | _ => none

/-- The atomic windows take 64-bit accesses only (R474). -/
def SpWin.atomic : SpWin → Bool
  | .add => true
  | .swap => true
  | _ => false

/-- Where an access leads (R470, R471, R474, R485): only a core reaches a local memory, and only its own 256 KiB. -/
def Dev.spWhere (d : Dev) (a : SpAcc) : SpWhere :=
  let w := spOff a.off / 8
  match a.at_, a.src with
  | .eng _, _ => .word w .plain
  | .loc, .core c => if a.off < 2 ^ 18 then .own c (a.off / 8) else .fault
  | .loc, _ => .fault
  | .pad, .vf s => match d.aperture s with
    | some b => if a.off < 65536 then .word ((b + a.off) % 2 ^ 22 / 8) .plain else .outside
    | none => .outside
  | .pad, .pf0 => match spWinOf (a.off / 2 ^ 22) with
    | some .plain => .word w .plain
    | some .set => .word w .set
    | some .clear => .word w .clear
    | _ => .hole
  | .pad, _ => match spWinOf (a.off / 2 ^ 22) with
    | some k => if k.atomic ∧ a.be ≠ 255 then .fault else .word w k
    | none => .fault

/-- The 64-bit mask of enabled bytes. -/
def beMask (be : Nat) : Nat := (List.range 8).foldl (fun m i => if bit be i then m + 255 * 2 ^ (8 * i) else m) 0

/-- The word after a write through a window (R474). -/
def spApply (k : SpWin) (mask old data : Nat) : Nat :=
  let keep := old - (old &&& mask)
  match k with
  | .plain => keep + (data &&& mask)
  | .set => old ||| (data &&& mask)
  | .clear => old - (old &&& (data &&& mask))
  | .add => (old + data) % 2 ^ 64
  | .swap => data % 2 ^ 64

/-- The plain writes (port, enabled bytes) joined to a byte mask by overlaps. -/
def overlapping : Nat → List (Nat × Nat) → Nat → List (Nat × Nat)
  | 0, _, _ => []
  | f + 1, ws, m =>
    let hit := ws.filter fun w => decide (w.2 &&& m ≠ 0)
    if hit.isEmpty then [] else hit ++ overlapping f (ws.filter fun w => decide (w.2 &&& m = 0)) (hit.foldl (fun m w => m ||| w.2) m)

/-- A plain write is lost when it overlaps plain writes of which another has a lower port (R475). -/
def spLost (ws : List (Nat × Nat)) (port be : Nat) : Bool := (overlapping (ws.length + 1) ws be).any fun w => decide (w.1 < port)

/-- The report of a lost write (R476): the port's bit, the flag, and the count of the port. -/
def Dev.spCollide (d : Dev) (port : Nat) : Dev :=
  ((d.setFld (R .MC_SP_COLLIDE) port port 1).raise (R .MC_FLAGS) 4).onMc fun m =>
    { m with spLostBy := m.spLostBy.put 0 port (m.spLostBy.getD port 0 + 1) }

/-- The result of an access, by port (R475, R477): a core takes a load access fault on an uncorrectable word, the host poisoned
data. -/
def Dev.spResult (d : Dev) (a : SpAcc) (c : Completion) : Dev :=
  let d := d.onMc fun m => { m with spOut := m.spOut ++ [(spPortOf a, c)] }
  match a.src with
  | .pf0 => d.respond c
  | .vf _ => d.respond c
  | _ => d

/-- Word w takes a value whole (R477: its error is gone). -/
def Dev.spPut (d : Dev) (w v : Nat) : Dev :=
  d.onMc fun m => { m with scratch := m.scratch.writeL (8 * w) (leBytes 8 v), scratchUe := m.scratchUe.filter fun x => x ≠ w }

/-- The accesses to word w in one cycle, in ascending port order (R475): reads see the word as it was before any write of the
cycle, an atomic operation's result is the word as it was before the operation. An uncorrectable word stays as it is, but for a
plain write of the whole word (R477). An engine's access competes here, and its effect is that of the engine's own operation, in which
the bytes that it loses here are not written. -/
def Dev.spCycle (d : Dev) (w : Nat) (accs : List (SpAcc × SpWin)) : Dev :=
  let old := d.mc.scratch.le (8 * w) 8
  let plain := (accs.filter fun x => x.1.write && x.2 == .plain).map fun x => (spPortOf x.1, x.1.be)
  let step (d : Dev) (x : SpAcc × SpWin) : Dev :=
    let a := x.1
    let port := spPortOf a
    let ue := d.mc.scratchUe.contains w
    let bad : Completion := match a.src with
      | .pf0 => .poisoned
      | .vf _ => .poisoned
      | _ => .fault
    if a.write ∧ x.2 = .plain ∧ spLost plain port a.be then
      let d := d.spCollide port
      if spEngine a then d.onMc fun m => { m with spMiss := m.spMiss ++ [(port, w, a.be)] } else d
    else if spEngine a then d
    else if ue ∧ !(a.write && x.2 == .plain && a.be == 255) then
      let d := d.spUe (8 * w) port
      if a.write && !a.amo then d else d.spResult a bad
    else if a.write then
      let now := d.mc.scratch.le (8 * w) 8
      let d := if a.amo ∧ x.2.atomic then d.spResult a (.data now) else d
      d.spPut w (spApply x.2 (beMask a.be) now a.data)
    else d.spResult a (.data old)
  (sortBy (fun x y => decide (spPortOf x.1 ≤ spPortOf y.1)) accs).foldl step d

/-- A fault that the error check finds in a word now (R477): corrected and written back, or uncorrectable. -/
def Dev.spError (d : Dev) (w err : Nat) : Dev :=
  if err = 1 then d.raise (R .MC_FLAGS) 2
  else if err = 2 then d.onMc fun m => { m with scratchUe := if m.scratchUe.contains w then m.scratchUe else m.scratchUe ++ [w] }
  else d

/-- The accesses of a list that go to a word, with the word and the window. -/
def Dev.spWords (d : Dev) (accs : List SpAcc) : List (SpAcc × Nat × SpWin) :=
  accs.filterMap fun a => match d.spWhere a with
    | .word w k => some (a, w, k)
    | _ => none

/-- The access that a bank turns to (R473): of those that wait for it, the one of the port next in rotating order. -/
def spPick (turn : Nat) (xs : List (SpAcc × Nat × SpWin)) : Option (SpAcc × Nat × SpWin) :=
  (List.range 15).findSome? fun i => xs.find? fun x => spPortOf x.1 == (turn + i) % 15

/-- Bank b in one cycle (R473, R475): it serves every access to the word of its choice, and the others wait. -/
def Dev.spBank (xs : List (SpAcc × Nat × SpWin)) (d : Dev) (b : Nat) : Dev :=
  let here := xs.filter fun x => x.2.1 % 16 == b
  match spPick (d.mc.spTurn.getD b 0) here with
  | none => d
  | some y =>
    let d := d.spCycle y.2.1 ((here.filter fun x => x.2.1 == y.2.1).map fun x => (x.1, x.2.2))
    d.onMc fun m => { m with spTurn := m.spTurn.put 0 b ((spPortOf y.1 + 1) % 15)
                             spWait := m.spWait ++ (here.filter fun x => x.2.1 ≠ y.2.1).map Prod.fst }

/-- One cycle of the scratchpad (R473): each of its 16 banks, for the accesses that wait and those that come. -/
def Dev.spServe (d : Dev) (accs : List SpAcc) : Dev :=
  let xs := d.spWords (d.mc.spWait ++ accs)
  (List.range 16).foldl (Dev.spBank xs) (d.onMc fun m => { m with spWait := [] })

/-- n cycles in which no new access comes. -/
def Dev.spDrain (d : Dev) (n : Nat) : Dev := upTo n d fun _ d => if d.mc.spWait.isEmpty then d else d.spServe []

/-- A core's access to its local memory (R470, R471), single-cycle. -/
def Dev.localAccess (d : Dev) (a : SpAcc) (c w : Nat) : Dev :=
  let m := (d.core c).localMem
  let now := m.le (8 * w) 8
  let d := if a.write then d.onCore c fun x => { x with localMem := m.writeL (8 * w) (leBytes 8 (spApply .plain (beMask a.be) now a.data)) } else d
  if a.write && !a.amo then d else d.spResult a (.data now)

/-- SCRATCHPAD_ACCESS (R470, R471, R473 to R477, R485): the accesses that come in one cycle; `err` is what the check of the first
word finds. -/
def Dev.scratchAccess (d : Dev) (accs : List SpAcc) (err : Nat) : Dev :=
  let d := d.onMc fun m => { m with spOut := [] }
  let d := accs.foldl (fun d a => match d.spWhere a with
    | .hole =>
      let d := d.raiseRec (R .MC_FLAGS) 6 .mc 0 false [(4, a.off), (1, b2n a.write)]
      if a.write then d else d.spResult a (.data 0)
    | .fault => d.spResult a .fault
    | .own c w => d.localAccess a c w
    | .outside =>
      match sliceOf? a.src with
      | some s => d.outOfSlice s (0x20000 + a.off) 0xFFFFFFFF a.write
      | none => d
    | .word _ _ => d) d
  match d.spWords accs with
  | [] => d.spServe []
  | (_, w0, _) :: _ => (d.spError w0 err).spServe accs

/-! ### DMA (R478, R513) -/

/-- A write of the word at +0x14 of DMA channel c (R478, R513): GO starts the copy that the channel's registers then describe; while BUSY
it has no effect and is refused. -/
def Dev.dmaCtlWrite (d : Dev) (c v : Nat) : Dev :=
  let r := R .MC_DMA_CTL c
  let fields (d : Dev) : Dev := ((d.setFld r 29 28 (bits v 29 28)).setFld r 12 8 (bits v 12 8))
  if !bit v 31 then fields d
  else if d.flag r 30 then d.cfgRefused (R .MC_FLAGS) 20
  else
    let d := (fields d).setFld r 30 30 1
    let job : DmaJob := ⟨d.reg (R .MC_DMA_SRC_LO c) + 2 ^ 32 * d.reg (R .MC_DMA_SRC_HI c),
      d.reg (R .MC_DMA_DST_LO c) + 2 ^ 32 * d.reg (R .MC_DMA_DST_HI c), d.fld (R .MC_DMA_LEN c) 23 0, d.flag r 29, d.flag r 28, d.fld r 12 8⟩
    d.onMc fun m => { m with dma := m.dma.set c job }

/-- Bytes cut at the words of the scratchpad: addresses and pieces. The fuel is their number. -/
def wordPieces : Nat → Nat → List Byte → List (Nat × List Byte)
  | 0, _, _ => []
  | k + 1, a, bs => if bs.isEmpty then [] else (a, bs.take (8 - a % 8)) :: wordPieces k (a / 8 * 8 + 8) (bs.drop (8 - a % 8))

/-- The pieces of a DMA write to the scratchpad, each through the window that its address lies in (R474), up to the first word whose
uncorrectable error does not let it be written (R477, R478). -/
def Dev.dmaPut (d : Dev) : List (Nat × List Byte) → Dev × Bool
  | [] => (d, false)
  | (a, bs) :: ps =>
    let w := spOff a / 8
    let k := (spWinOf (a / 2 ^ 22)).getD .plain
    let sh := 2 ^ (8 * (a % 8))
    if d.mc.scratchUe.contains w && !(k == .plain && bs.length == 8) then (d.spUe (8 * w) 4, true)
    else
      (d.spPut w (spApply k ((2 ^ (8 * bs.length) - 1) * sh) (d.mc.scratch.le (8 * w) 8) (leNat bs * sh))).dmaPut ps

/-- Every piece of a DMA write can be written: it lies in a window, and in an atomic window it is a whole word (R474). -/
def dmaFits (a n : Nat) : Bool :=
  (spWinOf (a / 2 ^ 22)).isSome && (spWinOf ((a + n - 1) / 2 ^ 22)).isSome &&
    ((a % 8 == 0) || !((spWinOf (a / 2 ^ 22)).map SpWin.atomic).getD false) &&
    (((a + n) % 8 == 0) || !((spWinOf ((a + n - 1) / 2 ^ 22)).map SpWin.atomic).getD false)

/-- DMA_COMPLETE (R478): the copy of channel c, cut at the first fault: an uncorrectable scratchpad word on either side, or a host read that
faults at byte `fault`. A LEN of 0, a scratchpad offset beyond the windows and a copy that an atomic window cannot take end with
BAD_ARGUMENT (log entry 43). -/
def Dev.dmaComplete (d : Dev) (c : Nat) (fault : Option Nat) : Dev :=
  let r := R .MC_DMA_CTL c
  match if d.flag r 30 then d.mc.dma.get? c else none with
  | none => d
  | some x =>
    let d := d.onMc fun m => { m with dma := m.dma.erase c }
    let finish (d : Dev) (st : Status) : Dev := ((d.setFld r 30 30 0).setFld r 3 0 st.code).raise (R .MC_FLAGS) (15 + c)
    if x.len = 0 ∨ (x.dstSp ∧ !dmaFits x.dst x.len) ∨ (x.srcSp ∧ (spWinOf ((x.src + x.len - 1) / 2 ^ 22)).isNone) then finish d .badArgument
    else
      let bad : Option Nat :=
        if x.srcSp then (if d.spFault (spOff x.src) x.len then some (d.spBad (spOff x.src) x.len - spOff x.src) else none)
        else fault.filter fun b => decide (b < x.len)
      let bs := d.rdMem x.srcSp x.src (bad.getD x.len)
      let d := if bad.isSome ∧ x.srcSp then d.spUe (d.spBad (spOff x.src) x.len) 4 else d
      let p : Dev × Bool := if x.dstSp then d.dmaPut (wordPieces bs.length x.dst bs) else (d.wrMem 4 false x.dst bs, false)
      finish p.1 (if bad.isSome || p.2 then .memoryFault else .ok)

/-! ### The configuration space (R484) -/

/-- The function that a source is, as the configuration space numbers it: PF0 0, VF s 1 + s. -/
def funcOf : Src → Option Nat
  | .pf0 => some 0
  | .vf s => some (1 + s)
  | _ => none

/-- A field of a function's configuration space (R484). The vendor identity is assigned by PCI-SIG. -/
def Pcie.read (p : Pcie) (func : Nat) : CfgField → Nat
  | .vendorId => Config.vendorId
  | .deviceId => if func = 0 then 0x6412 else 0x6413
  | .classCode => 0x028000
  | .totalVfs => 16
  | .firstVfOffset => 1
  | .vfStride => 1
  | .numVfs => p.numVfs
  | .vfEnable => b2n p.vfEnable
  | .bar0 => p.bar0
  | .bar2 => p.bar2
  | .vfBar0 => p.vfBar0
  | .maxPayload => p.maxPayload
  | .maxReadReq => p.maxReadReq
  | .power => if p.d3hot.contains func then 3 else 0
  | .vectors => if func = 0 then 64 else 4
  | .linkSpeed => p.linkSpeed
  | .linkWidth => p.linkWidth

/-- A write of a field of a function's configuration space (R484): NumVFs up to 16, and while the VFs are not enabled; base addresses of
aligned 64-bit ranges; the supported sizes; D0 and D3hot. Any other value, and the fields that only read, stay as they are (PRESUMED; log
entry 110). -/
def Pcie.write (p : Pcie) (func v : Nat) : CfgField → Pcie
  | .numVfs => if func = 0 ∧ v ≤ 16 ∧ !p.vfEnable then { p with numVfs := v } else p
  | .vfEnable => if func = 0 then { p with vfEnable := v % 2 == 1 } else p
  | .bar0 => if func = 0 then { p with bar0 := v % 2 ^ 64 / 2 ^ 26 * 2 ^ 26 } else p
  | .bar2 => if func = 0 then { p with bar2 := v % 2 ^ 64 / 2 ^ 24 * 2 ^ 24 } else p
  | .vfBar0 => if func = 0 then { p with vfBar0 := v % 2 ^ 64 / 2 ^ 20 * 2 ^ 20 } else p
  | .maxPayload => if v ∈ [128, 256, 512] then { p with maxPayload := v } else p
  | .maxReadReq => if v ∈ [128, 256, 512, 1024, 2048, 4096] then { p with maxReadReq := v } else p
  | .power =>
    if v = 0 then { p with d3hot := p.d3hot.filter fun f => f ≠ func }
    else if v = 3 then { p with d3hot := if p.d3hot.contains func then p.d3hot else p.d3hot ++ [func] }
    else p
  | _ => p

/-- A function is there: PF0, and the enabled VFs (R484). -/
def Pcie.there (p : Pcie) (func : Nat) : Bool := func == 0 || (p.vfEnable && decide (func ≤ p.numVfs))

/-- A function answers memory requests: over a link, it is there and in D0. -/
def Pcie.up (p : Pcie) (func : Nat) : Bool := p.linkUp && p.there func && !p.d3hot.contains func

/-- A configuration request of a source (R484): nothing without a link, from a core, or to a function that is not there. -/
def Dev.cfgAccess (d : Dev) (src : Src) (f : CfgField) (w : Option Nat) : Dev :=
  match funcOf src with
  | none => d
  | some k =>
    if !d.pins.perstN ∨ d.im.state = .held ∨ !(d.mc.pcie.linkUp && d.mc.pcie.there k) then d
    else match w with
      | none => d.respond (.data (d.mc.pcie.read k f))
      | some v => d.onMc fun m => { m with pcie := m.pcie.write k v f }

/-! ### Function resets (R487, R549) -/

/-- Ring n disabled with its indices at 0 (R487). -/
def Dev.ringOff (d : Dev) (n : Nat) : Dev :=
  ([false, true] : List Bool).foldl (fun d tx =>
    (((d.setFld (ringReg n tx .cfg) 31 31 0).resetReg (ringReg n tx .pi)).resetReg (ringReg n tx .ci))) d

/-- A source's banks reset; what they have started goes on with its results discarded (R487). -/
def Dev.banksReset (d : Dev) (src : Src) : Dev :=
  { d with wins := d.wins.mapVal fun _ x =>
      { x with banks := x.banks.erase (bankOf src), queue := x.queue.map fun a => if a.src = src then { a with drop := true } else a } }

/-- The MSI-X table words and vectors of a function cleared: addresses from `base`, vectors from `v` (R487). -/
def Dev.msixReset (d : Dev) (base n v : Nat) : Dev :=
  d.onMc fun m => { m with msix := m.msix.keep fun a _ => !decide (base ≤ a ∧ a < base + 16 * n)
                           vecs := m.vecs.keep fun i _ => !decide (v ≤ i ∧ i < v + n) }

/-- The BAR0 address of VF s's page (R506). -/
def vfPage (s : Nat) : Nat := 0x10000 + 0x4000 * s

/-- VF_FLR (R487). -/
def Dev.vfFlr (d : Dev) (s : Nat) : Dev :=
  if 15 < s then d
  else ((((d.ringOff (5 + s)).resetReg (R .VF_FLAGS s)).resetReg (R .VF_FLAGS_EN s)).msixReset (vfPage s + 0x2000) 4 (64 + 4 * s)).banksReset
    (.vf s)

/-- PF_FLR (R487): every VF and rings 4 to 20 disabled, PF0's MSI-X state and banks reset. -/
def Dev.pfFlr (d : Dev) : Dev :=
  let d := d.onMc fun m => { m with pcie := { m.pcie with vfEnable := false } }
  (((upTo 16 d fun s d => d.vfFlr s).ringOff 4).msixReset 0xF0000 64 0).banksReset .pf0

/-- A link that the endpoint trains to (R484): 2.5, 5, 8 or 16 GT/s and 1, 2, 4 or 8 lanes. -/
def linkOk (speed width : Nat) : Bool := speed ∈ [25, 50, 80, 160] && width ∈ [1, 2, 4, 8]

/-- PCIE_PERST_N (R484, R549): low resets the endpoint's functions as a PF0 FLR does; at its rise the link trains. -/
def Dev.perst (d : Dev) (p : PerstIn) : Dev :=
  let d := d.onPins fun x => { x with perstN := p.level }
  if d.im.state = .held then d
  else if !p.level then d.pfFlr
  else if linkOk p.speed p.width then d.onMc fun m => { m with pcie := { m.pcie with linkUp := true, linkSpeed := p.speed, linkWidth := p.width } }
  else d

/-! ### Interrupts (R70, R493 to R496) -/

/-- The source that a flag register's flags form, with the address of its enables (R493); the address is the flag register's. -/
def flagSource (a : Nat) : Option (Nat × Nat) :=
  if a = 0x200 then some (0, 0x204)
  else if a = 0x20C then some (14, 0x210)
  else if a = 0x988 then some (40, 0x98C)
  else if a = 0x800040 then some (1, 0x800044)
  else if a = 0x100010 then some (2, 0x100014)
  else if a = 0x200008 then some (3, 0x20000C)
  else if a = (R .PX_FLAGS).addr then some (4, (R .PX_FLAGS_EN).addr)
  else if 0x400000 ≤ a ∧ a < 0x650000 ∧ a % 0x4000 = 8 then some (5, a + 4)
  else if a = (R .PC_FLAGS).addr then some (6, (R .PC_FLAGS_EN).addr)
  else if a = (R .FS_FLAGS).addr then some (7, (R .FS_FLAGS_EN).addr)
  else if a = (R .TM_FLAGS).addr then some (8, (R .TM_FLAGS_EN).addr)
  else if a = 0x2800020 then some (9, 0x2800024)
  else if a = (R .CE_FLAGS).addr then some (10, (R .CE_FLAGS_EN).addr)
  else if 0x3400000 ≤ a ∧ a < 0x34C0000 ∧ a % 0x10000 = (R .UL_FLAGS).addr % 0x10000 then some (11, (R .UL_FLAGS_EN ((a - 0x3400000) / 0x10000)).addr)
  else if 0x1000000 ≤ a ∧ a < 0x1800000 then
    let r := (a - 0x1000000) / 0x100000
    let o := a % 0x100000
    let t := 8 * r + o % 0x40000 / 0x8000
    if a = (R .GS_RFLAGS r).addr then some (15, (R .GS_RFLAGS_EN r).addr)
    else if o < 0x40000 ∧ a = (R .TF_FLAGS t).addr then some (16 + r, (R .TF_FLAGS_EN t).addr)
    else if o < 0x80000 ∧ a = (R .RG_FLAGS t).addr then some (24 + r, (R .RG_FLAGS_EN t).addr)
    else if o < 0xC0000 ∧ a = (R .GS_FLAGS t).addr then some (32 + r, (R .GS_FLAGS_EN t).addr)
    else none
  else
    ((List.range 8).find? fun g => a == (R .UL_LAG_FLAGS g).addr).map fun g => (12, (R .UL_LAG_FLAGS_EN g).addr)

/-- A flag register that asserts its interrupt (R70): its address and value in the register file. -/
def Dev.asserting (d : Dev) (a v : Nat) : Option Nat :=
  match flagSource a with
  | some (s, en) => if v &&& ((d.regs.get? en).map BitVec.toNat).getD 0 ≠ 0 then some s else none
  | none => none

/-- DONE is set in a bank of a source (R55, R493). -/
def Dev.doneOf (d : Dev) (src : Src) : Bool := d.wins.any fun w => (w.2.bank (bankOf src)).done

/-- The sources asserted (R493), with source 13 as its recipient sees it. -/
def Dev.intSources (d : Dev) (who : Src) : List Nat :=
  (d.regs.filterMap fun kv => d.asserting kv.1 kv.2.toNat) ++ if d.doneOf who then [13] else []

/-- MC_INT_SRC (R493). -/
def Dev.intSrc (d : Dev) (who : Src) : Nat := (d.intSources who).eraseDups.foldl (fun n s => n + 2 ^ s) 0

/-- MC_INT_LANE[n] (R493): lanes counted PT, PB, UL, ML. -/
def Dev.intLane (d : Dev) (n : Nat) : Nat :=
  let lane (a : Nat) : Nat :=
    if a < 0x500000 then (a - 0x400000) / 0x4000
    else if a < 0x600000 then 64 + (a - 0x500000) / 0x4000
    else if a < 0x640000 then 128 + (a - 0x600000) / 0x4000
    else 140 + (a - 0x640000) / 0x4000
  (d.regs.filterMap fun kv => if d.asserting kv.1 kv.2.toNat = some 5 then some (lane kv.1) else none).foldl
    (fun x k => if k / 32 = n then x + 2 ^ (k % 32) else x) 0

/-- MC_INT_TREE[j][w] (R493). -/
def Dev.intTree (d : Dev) (j w : Nat) : Nat :=
  (List.range 32).foldl (fun x k =>
    let t := 32 * w + k
    let (f, e) := if j = 0 then (R .TF_FLAGS t, R .TF_FLAGS_EN t) else if j = 1 then (R .RG_FLAGS t, R .RG_FLAGS_EN t)
      else (R .GS_FLAGS t, R .GS_FLAGS_EN t)
    if d.reg f &&& d.reg e ≠ 0 then x + 2 ^ k else x) 0

/-- Core c's machine external interrupt (R496). -/
def Dev.coreIrq (d : Dev) (c : Nat) : Bool :=
  (d.intSources (.core c)).any fun s => bit (d.reg (R .MC_CORE_INT_EN c (s / 32))) (s % 32)

/-- The OR of PF0's vector v (R494). -/
def Dev.pfVector (d : Dev) (v : Nat) : Bool :=
  (d.intSources .pf0).any fun n => d.flag (R .MC_INT_MAP n) 31 && d.fld (R .MC_INT_MAP n) 5 0 == v

/-- Vector v of VF s (R495). -/
def Dev.vfVector (d : Dev) (s v : Nat) : Bool :=
  let f := d.reg (R .VF_FLAGS s) &&& d.reg (R .VF_FLAGS_EN s)
  if v = 0 then d.doneOf (.vf s)
  else if v = 1 then f % 8 ≠ 0
  else if v = 2 then (d.slice s).valid && d.regs.any fun kv => decide (0x1000000 ≤ kv.1 ∧ kv.1 < 0x1800000) &&
    (d.asserting kv.1 kv.2.toNat).any (fun n => decide (16 ≤ n)) &&
    d.treeInSlice (8 * ((kv.1 - 0x1000000) / 0x100000) + kv.1 % 0x40000 / 0x8000) s
  else bit f 3

/-- The address of the MSI-X table entry of a vector: PF0's v at v, VF s's v at 64 + 4 s + v (R506). -/
def msixEntry (i : Nat) : Nat := if i < 64 then 0xF0000 + 16 * i else vfPage ((i - 64) / 4) + 0x2000 + 16 * ((i - 64) % 4)

/-- What an MSI-X table word holds at reset: a set mask bit in the vector control word (log entry 44). -/
def msixRest (a : Nat) : Nat := if a % 16 = 12 then 1 else 0

/-- A word of the MSI-X tables. -/
def Dev.msixWord (d : Dev) (a : Nat) : Nat := d.mc.msix.getD a (msixRest a)

/-- The OR of a vector by its number. -/
def Dev.vecOr (d : Dev) (i : Nat) : Bool := if i < 64 then d.pfVector i else d.vfVector ((i - 64) / 4) ((i - 64) % 4)

/-- One vector's delivery (R494): a message when its OR is 1, it is armed and unmasked; masked, its pending bit sets; a pending
vector whose OR has fallen loses its pending bit when it is unmasked. -/
def Dev.deliverVec (d : Dev) (i : Nat) : Dev :=
  let x := d.mc.vecs.getD i Vec.rest
  let masked := bit (d.msixWord (msixEntry i + 12)) 0
  let on := d.vecOr i
  let y : Vec := if on && x.armed then (if masked then { x with pending := true } else ⟨false, false⟩)
    else if !masked && !on then { x with pending := false } else x
  d.onMc fun m => { m with vecs := m.vecs.put Vec.rest i y, sent := if on && x.armed && !masked then i :: m.sent else m.sent }

/-- The vectors that may have something to do: PF0's that an enabled map entry names, the VFs with DONE, flags or a tree, and
those pending. -/
def Dev.busyVecs (d : Dev) : List Nat :=
  let pf := d.regs.filterMap fun kv => if 0x400 ≤ kv.1 ∧ kv.1 < 0x500 ∧ bit kv.2.toNat 31 then some (bits kv.2.toNat 5 0) else none
  let vf := (List.range 16).filter fun s => d.doneOf (.vf s) || (d.regs.get? (vfPage s + 8)).isSome || (d.slice s).valid
  (pf.eraseDups ++ (vf.map fun s => (List.range 4).map fun v => 64 + 4 * s + v).flatten) ++
    (d.mc.vecs.filterMap fun kv => if kv.2.pending then some kv.1 else none)

/-- Interrupt delivery after a step (R494, R495). -/
def Dev.deliver (d : Dev) : Dev := d.busyVecs.eraseDups.foldl Dev.deliverVec d

/-- A write of EOI: the vector is armed again (R494, R495). -/
def Dev.eoi (d : Dev) (i : Nat) : Dev :=
  d.onMc fun m => { m with vecs := m.vecs.put Vec.rest i { m.vecs.getD i Vec.rest with armed := true } }

/-! ### Sensors (R497, R498, R511) -/

/-- A sensor reads above a threshold in °C: TEMP is s10 in units of 0.25 °C. -/
def tempAbove (t : Int) (c : Nat) : Bool := decide (4 * (c : Int) < t)

/-- The condition of THERM_WARN (R498). -/
def Dev.thermWarn (d : Dev) : Bool :=
  (List.range 24).any fun n => d.flag (R .MC_TEMP n) 31 && tempAbove (signed 10 (d.fld (R .MC_TEMP n) 9 0)) (d.fld (R .MC_THERM_CFG) 23 16)

/-- THERMAL_SAMPLE (R497, R498): temperatures in units of 0.25 °C and voltages in mV; THERM_CRIT on a sensor's second sample in a
row above CRIT_C, with entry to FAILED; further samples above it are the same condition (R68). -/
def Dev.thermalSample (d : Dev) (temps : List Int) (mv : List Nat) : Dev :=
  if d.im.state = .held then d
  else
    let crit := d.fld (R .MC_THERM_CFG) 31 24
    let d := upTo 24 d fun n d => d.setReg (R .MC_TEMP n) (2 ^ 31 + unsigned 10 (temps.getD n 0))
    let d := upTo 16 d fun n d => d.setReg (R .MC_VOLT n) (2 ^ 31 + mv.getD n 0 % 4096)
    let hot := upTo 24 d.mc.overCrit fun n x =>
      x.put 0 n (if tempAbove (temps.getD n 0) crit then min 3 (x.getD n 0 + 1) else 0)
    let d := d.onMc fun m => { m with overCrit := hot }
    ((List.range 24).filter fun n => d.mc.overCrit.getD n 0 == 2).foldl (fun d n =>
      (d.raiseRec (R .MC_FLAGS) 8 .mc n true [(1, n), (2, d.reg (R .MC_TEMP n) % 1024)]).toFailed .thermCrit) d

/-! ### Margin planning (R499) -/

/-- The steps of the AVS target towards a goal, at most 860 mV (R499). -/
def avsSteps (target goal : Nat) : Nat := min ((goal + 4 - target) / 5) ((860 - target) / 5)

/-- A margin run is due (R499): commanded, the first one after BOOTING, or at a multiple of 86,400 operating seconds with AUTO. -/
def Dev.marginDue (d : Dev) : Bool :=
  d.flag (R .MC_AVS_STATUS) 31 || d.mc.marginDay == 0 || (d.flag (R .MC_AVS_CFG) 30 && decide (d.mc.marginDay ≤ d.ob.opSec / 86400))

/-- A write of MC_AVS_CFG (R499, R511): REPLAN starts a run, or is refused while one is in progress. -/
def Dev.avsCfgWrite (d : Dev) (v : Nat) : Dev :=
  let r := R .MC_AVS_CFG
  let d := d.setReg r (bits v 30 30 * 2 ^ 30 + bits v 7 0)
  if bit v 31 then
    if d.flag (R .MC_AVS_STATUS) 31 then d.cfgRefused (R .MC_FLAGS) 20 else d.setFld (R .MC_AVS_STATUS) 31 31 1
  else d

/-- The lanes that a run re-centres: PB, UL and ML lanes whose latest eye scan has VALID = 1 (R109, R499), as kind and number. -/
def Dev.eyeLanes (d : Dev) : List (Nat × Nat) :=
  ((List.range 64).filter fun i => d.flag (R .LX_PB_EYE_RESULT i) 21).map (fun i => (1, i)) ++
  ((List.range 12).filter fun i => d.flag (R .LX_UL_EYE_RESULT i) 21).map (fun i => (2, i)) ++
  ((List.range 4).filter fun i => d.flag (R .LX_ML_EYE_RESULT i) 21).map fun i => (3, i)

/-- A margin run ends (R499): the lanes re-centred, the hours projected. Fuses whose K is 0 give the hours no value (log entry 109). -/
def Dev.marginEnd (d : Dev) (x : MarginRun) : Dev :=
  let k := d.mc.fuses.avs % 256
  let d := d.eyeLanes.foldl (fun d x => d.record 9 .mc 0 false [(1, x.1), (1, x.2)]) d
  let margin := (860 - x.goal) % 256
  let h := d.ob.opSec / 3600
  let hist := d.mc.history ++ [(x.deg, h)]
  let hist := hist.drop (hist.length - 8)
  let old := hist.headD (x.deg, h)
  let hours := if hist.length < 2 ∨ x.deg ≤ old.1 then 0xFFFFFF
    else if k = 0 then min 0xFFFFFE (Config.freeValue d.free)
    else min 0xFFFFFE (margin * 1000 * (h - old.2) / ((x.deg - old.1) * k))
  let d := (d.takeFree (b2n (k == 0))).onMc fun m => { m with history := hist, run := none }
  let d := (d.setReg (R .MC_AVS_STATUS) x.req).setReg (R .MC_MARGIN) (margin * 2 ^ 24 + hours)
  let d := d.raiseRec (R .MC_FLAGS) 9 .mc 0 false [(2, x.req), (2, x.goal), (1, margin), (4, hours)]
  d.raiseIf (decide (860 < x.goal)) (R .MC_FLAGS) 10

/-- A margin run goes on (R499): each step is sent, and recorded once the regulator acknowledges it; without an acknowledgement the run waits,
BUSY, behind the step that it has sent. -/
def Dev.marginGo (d : Dev) (x : MarginRun) : Dev :=
  if x.left = 0 then d.marginEnd x
  else if d.pins.avsAck then
    let d := upTo x.left d fun i d =>
      let d := if i = 0 ∧ x.sent then d else d.onMc fun m => { m with avsTarget := m.avsTarget + 5 }
      d.record 9 .mc 0 false [(1, x.steps + i + 1), (2, d.mc.avsTarget)]
    d.marginEnd x
  else if x.sent then d
  else
    (d.onMc fun m => { m with avsTarget := m.avsTarget + 5, run := some { x with sent := true } }).setFld (R .MC_AVS_STATUS) 31 31 1

/-- MARGIN_RUN (R499): a run in progress goes on, or one that is due starts with the measurement of the ageing monitors (ppm). It runs in
FAILED too, where the management complex works (R49). -/
def Dev.marginRun (d : Dev) (ppm : List Nat) : Dev :=
  if d.im.state = .held ∨ d.im.state = .booting then d
  else
    match d.mc.run with
    | some x => d.marginGo x
    | none =>
      if !d.marginDue then d
      else
        let d := upTo 32 d fun n d => d.setReg (R .MC_AGE n) (2 ^ 31 + min (ppm.getD n 0) 65535)
        let deg := (List.range 32).foldl (fun m n => max m (min (ppm.getD n 0) 65535)) 0
        let req := (bits d.mc.fuses.avs 21 12 + deg * (d.mc.fuses.avs % 256) / 1000) % 65536
        let goal := (req + d.fld (R .MC_AVS_CFG) 7 0) % 65536
        (d.onMc fun m => { m with marginDay := d.ob.opSec / 86400 + 1 }).marginGo ⟨deg, req, goal, 0, avsSteps d.mc.avsTarget goal, false⟩

/-! ### The update session (R501, R505) -/

/-- SESSION of MC_UPD_STATUS: 0 IDLE, 1 OPEN, 2 VERIFIED (R507). -/
def Dev.session (d : Dev) : Nat := d.fld (R .MC_UPD_STATUS) 31 30

/-- The session moves. -/
def Dev.setSession (d : Dev) (s : Nat) : Dev := d.setFld (R .MC_UPD_STATUS) 31 30 s

/-- The slot that does not run (R505). -/
def Dev.otherSlot (d : Dev) : Nat := 1 - d.mc.runSlot

/-- The boot flash changed by f. -/
def Dev.onFlash (d : Dev) (f : Flash → Flash) : Dev := d.onMc fun m => { m with flash := f m.flash }

/-- The control block rewritten with f (R502). -/
def Dev.onCb (d : Dev) (f : CtlBlock → CtlBlock) : Dev := d.onFlash fun x => x.writeCb (f x.ruling)

/-- Slot s loses its confirmed mark. -/
def CtlBlock.unconfirm (c : CtlBlock) (s : Nat) : CtlBlock := if s = 0 then { c with aConfirmed := false } else { c with bConfirmed := false }

/-- UPD_BEGIN (R505). -/
def opUpdBegin (_ : Accepted) (d : Dev) : CmdRes :=
  if d.session ≠ 0 ∨ d.mc.trial then .refuse .notInState d.session
  else
    let s := d.otherSlot
    .done (((d.onFlash fun x => x.eraseSlot s).onCb fun c => c.unconfirm s).setSession 1) .ok []

/-- The size of a region (R501): firmware 8 MiB, image 32 MiB. -/
def regionSize (region : Nat) : Nat := if region = 0 then 8388608 else 33554432

/-- UPD_WRITE (R505); `fails` says that the flash does not program. -/
def opUpdWrite (fails : Bool) (a : Accepted) (d : Dev) : CmdRes :=
  let off := a.db 0 21 0
  let dst := a.dat 1
  let n := a.db 2 16 0
  let region := a.db 3 0 0
  if n = 0 ∨ 65536 < n ∨ regionSize region < dst + n ∨ 4194304 < off + n then .refuse .badArgument d.session
  else if d.session ≠ 1 then .refuse .notInState d.session
  else if d.spFault off n then .done (d.spUe (d.spBad off n) (portOf a.src)) .memoryFault []
  else if fails then .done d .memoryFault []
  else
    .done (d.onFlash fun x => ⟨x.cells.writeL (regionBase d.otherSlot region + dst) (d.mc.scratch.readN off n)⟩) .ok []

/-- The LOAD_ERR and ERR_SECTION of a check; 0 and 0 where it passes. -/
def loadErrOf {α : Type} : Except LoadErr α → LoadErr
  | .ok _ => (0, 0)
  | .error e => e

/-- UPD_VERIFY (R505): the checks of R41, R42 and R504 on the written slot; a missing MAGIC counts as a malformed header. -/
def opUpdVerify (_ : Accepted) (d : Dev) : CmdRes :=
  if d.session ≠ 1 then .refuse .notInState d.session
  else
    let s := d.otherSlot
    let im := loadErrOf (loadFull d.mc.fuses ⟨d.mc.flash.cells, regionBase s 1, some 33554432, 0⟩)
    let fw := loadErrOf (loadFirmware d.mc.fuses ⟨d.mc.flash.cells, regionBase s 0, some 8388608, 0⟩)
    let out := [(0, im.1 + 2 ^ 8 * fw.1 + 2 ^ 16 * (if im.1 ≠ 0 then im.2 else fw.2))]
    if im.1 = 0 ∧ fw.1 = 0 then .done (d.setSession 2) .ok out else .done d .badArgument out

/-- UPD_COMMIT (R505). -/
def opUpdCommit (_ : Accepted) (d : Dev) : CmdRes :=
  if d.session ≠ 2 then .refuse .notInState d.session
  else .done ((d.onCb fun c => { c with active := d.otherSlot, trial := true, failCount := 0 }).setSession 0) .ok []

/-- UPD_ABORT (R505). -/
def opUpdAbort (_ : Accepted) (d : Dev) : CmdRes := .done (d.setSession 0) .ok []

/-- UPD_CONFIRM (R505). -/
def opUpdConfirm (a : Accepted) (d : Dev) : CmdRes :=
  if !d.mc.trial then .refuse .notInState d.session
  else
    let s := d.mc.runSlot
    let d := d.onCb fun c =>
      { (if s = 0 then { c with aConfirmed := true } else { c with bConfirmed := true }) with trial := false, failCount := 0 }
    .done (d.onMc fun m =>
      { m with trial := false, fuses := if a.db 0 0 0 = 1 then { m.fuses with security := m.runSec } else m.fuses }) .ok []

end Sys2Proof.Machine
end

