-- ==== Sys2Proof/Machine/Access.lean ====
section
/-! DEFINITION. Register access (R7, R9, R11 to R13, R17, R36, R38, R486, R570): which registers answer, what a read returns and
latches, and what a write does. Command windows follow in Windows.lean. -/

namespace Sys2Proof.Machine

/-! ### Which registers answer (R9, R17, R36, R45, R100, R285, R341, R372, R395, R427, R463) -/

/-- Whether the blocks at a BAR0 address answer in the device's state (R45, R46): nothing in HELD, the MC and IM blocks alone in
BOOTING. -/
def Dev.answers (d : Dev) (a : Nat) : Bool :=
  match d.im.state with
  | .held => false
  | .booting => decide (a < 0x100000 ∨ (0x800000 ≤ a ∧ a < 0x1000000))
  | _ => true

/-- The lane kind and number of an LX address (R36). -/
def laneAt (a : Nat) : Option (LaneKind × Nat) :=
  if a < 0x400000 then none
  else if a < 0x500000 then some (.pt, (a - 0x400000) / 0x4000)
  else if a < 0x600000 then some (.pb, (a - 0x500000) / 0x4000)
  else if a < 0x630000 then some (.ul, (a - 0x600000) / 0x4000)
  else if 0x640000 ≤ a ∧ a < 0x650000 then some (.ml, (a - 0x640000) / 0x4000)
  else none

/-- A register that the structure gives the device; any other behaves under R9. -/
def Dev.present (d : Dev) (r : Reg) : Bool :=
  let a := r.addr
  if 0x1000000 ≤ a ∧ a < 0x1800000 then d.reachExists ((a - 0x1000000) / 0x100000)
  else if 0x400000 ≤ a ∧ a < 0x800000 then
    match laneAt a with
    | some (.ul, i) => r.name == .LX_UL_STATUS || d.laneRole .ul i != 0
    | some (.ml, i) => r.name == .LX_ML_STATUS || d.laneRole .ml i != 0
    | some (_, t) => d.treeExists t
    | none => false
  else if 0x3400000 ≤ a ∧ a < 0x34C0000 then (d.portDef ((a - 0x3400000) / 0x10000)).isSome
  else if 0x200400 ≤ a ∧ a < 0x200580 then (d.portDef ((a - 0x200400) / 0x20)).isSome
  else if 0x300000 ≤ a ∧ a < 0x400000 then r.name == .PX_STATUS || d.im.str.role != 0
  else if 0x2801000 ≤ a ∧ a < 0x2804000 then d.poolExists r.i
  else
    match r.name with
    | .CE_MS_PORT_CFG => (d.portDef r.i).isSome
    | .CE_MS_REPLAY_WIN => (d.portDef r.i).isSome
    | .TM_PORT_CFG => d.portExists r.i
    | .TM_PORT_STATUS => d.portExists r.i
    | _ => true

/-- The register that answers at a BAR0 address. -/
def Dev.regAt (d : Dev) (a : Nat) : Option Reg :=
  if d.answers a then (Reg.ofAddr a).filter fun r => d.present r else none

/-! ### What a VF may reach (R138, R181, R191, R222, R228, R259, R281, R308, R341, R372, R395, R427, R463, R485, R506, R534) -/

/-- The ranges of the BAR0 of VF s (R485): VF offset, size and first PF0 address. -/
def vfRanges (s : Nat) : List (Nat × Nat × Nat) :=
  [(0x0, 0x4000, vfPage s), (0x4000, 0x1000, 0x300000), (0x5000, 0x1000, 0x200000), (0x6000, 0x1000, 0x1C00000),
   (0x7000, 0x1000, 0x2000000), (0x8000, 0x2000, 0x3000000), (0xC000, 0x4000, 0x2800000), (0x30000, 0x10000, 0x100000)] ++
  (List.range 12).map (fun u => (0xA000 + 0x200 * u, 0x200, 0x3400000 + 0x10000 * u)) ++
  (List.range 8).map (fun r => (0x10000 + 0x1000 * r, 0x1000, 0x10C0000 + 0x100000 * r)) ++
  (List.range 64).flatMap fun t => (List.range 3).map fun b => (0x40000 + 0x3000 * t + 0x1000 * b, 0x1000, treeBase t + 0x40000 * b)

/-- The PF0 address that an offset of VF s maps to; the aperture and unmapped offsets have none. -/
def vfToPf (s off : Nat) : Option Nat :=
  ((vfRanges s).find? fun x => decide (x.1 ≤ off ∧ off < x.1 + x.2.1)).map fun x => x.2.2 + (off - x.1)

/-- The offset at which VF s sees a PF0 address. -/
def pfToVf (s a : Nat) : Option Nat :=
  ((vfRanges s).find? fun x => decide (x.2.2 ≤ a ∧ a < x.2.2 + x.2.1)).map fun x => x.1 + (a - x.2.2)

/-- A register is open to VF s, for a read or for a write (log entry 49: a write to a register that the view shows read-only is
not). -/
def Dev.vfOpen (d : Dev) (s : Nat) (r : Reg) (write : Bool) : Bool :=
  let a := r.addr
  if a < 0x100000 then decide (vfPage s ≤ a ∧ a < vfPage s + 0x4000)
  else if a < 0x200000 then
    !write && match r.name with
      | .OB_REC_STATUS | .OB_REC_NEXT_SEQ | .OB_REC_FIRST_SEQ | .OB_REC_LOST | .OB_OPSEC | .OB_POWER_CYCLE => true
      | .OB_CNT_LO | .OB_CNT_HI => decide (0x4C0 + 48 * s ≤ r.i ∧ r.i < 0x4F0 + 48 * s)
      | _ => false
  else if a < 0x300000 then decide (0x200400 ≤ a) && d.portInSlice ((a - 0x200400) / 0x20) s
  else if a < 0x400000 then !write && r.name == .PX_TREE_STATUS && d.treeInSlice r.i s
  else if 0x1000000 ≤ a ∧ a < 0x1800000 then
    match r.name with
    | .RG_DISC_HEAD | .RG_DISC_SN_LO | .RG_DISC_SN_HI | .RG_DISC_RTD | .RG_DISC_POP => true
    | _ => decide (a % 0x100000 < 0xC0000 ∧ a % 0x8000 < 0x1000) && d.treeInSlice r.i s
  else if 0x2800000 ≤ a ∧ a < 0x3000000 then
    !write && match r.name with
      | .BP_POOL_INFO | .BP_POOL_USED | .BP_POOL_MIN => d.poolSlice r.i == s
      | _ => false
  else if 0x3000000 ≤ a ∧ a < 0x3400000 then
    match r.name with
    | .CE_KEY_EVT | .CE_KEY_EVT_POP => true
    | .CE_LA_BASE | .CE_LA_SIZE | .CE_LA_PI | .CE_LA_CI | .CE_LA_OWNER => d.fld (R .CE_LA_OWNER r.i) 4 0 == s
    | _ => false
  else if 0x3400000 ≤ a ∧ a < 0x34C0000 then
    !write && match r.name with
      | .UL_PORT_STATUS | .UL_FLAGS | .UL_STAT_LO | .UL_STAT_HI => d.portInSlice r.i s
      | _ => false
  else false

/-! ### Reads (R11 to R13) -/

/-- The bits of fields that a read returns (R11, R13): WO fields and reserved bits read 0. -/
def readable (fs : List Fld) : Nat :=
  fs.foldl (fun m f => match f.acc with
    | .wo => m
    | _ => m ||| ((2 ^ (f.hi + 1 - f.lo) - 1) * 2 ^ f.lo)) 0

/-- A word of the fields (value, low bit). -/
def word (fs : List (Nat × Nat)) : Nat := fs.foldl (fun w f => w + f.1 * 2 ^ f.2) 0

/-- The mask of the classes below 8 that satisfy p. -/
def mask8 (p : Nat → Bool) : Nat := (List.range 8).foldl (fun m c => if p c then m + 2 ^ c else m) 0

/-- TF_TREE_STATUS (R139). -/
def Dev.treeStatus (d : Dev) (t : Nat) : Nat :=
  let x := d.tf t
  let ranged := (d.rx.terms.filter fun kv => decide (kv.1 / 512 = t) && kv.2.state.ranged).length
  word [(ranged, 8), (b2n (d.xg t), 6), (b2n (bit x.declared 1), 5), (b2n (bit x.declared 0), 4), (b2n (d.fecDs t), 3),
    (b2n x.protCtrl, 2), (x.state.code, 0)]

/-- TF_DEFECT_EVT (R147). -/
def Dev.defectHead (d : Dev) (t : Nat) : Nat :=
  match (d.tf t).events with
  | e :: _ => word [(1, 31), (b2n e.set, 30), (e.code % 16, 26), (e.slot % 512, 17), (e.sfc % 65536, 0)]
  | [] => 0

/-- RG_PLOAMU_META (R189). -/
def Dev.ploamuMeta (d : Dev) (t : Nat) : Nat :=
  match (d.rg t).upq with
  | m :: _ => word [(1, 31), (b2n m.micOk, 30), (m.slot % 512, 16), ((d.rg t).upq.length, 0)]
  | [] => 0

/-- RG_DISC_HEAD as a source sees it (R191). -/
def Dev.discMeta (d : Dev) (src : Src) (r : Nat) : Nat :=
  match d.discHead src r with
  | some h => word [(1, 31), (h.sightings, 16), ((d.rx.disc.getD r []).length, 8), (h.tree, 0)]
  | none => 0

/-- UL_PORT_STATUS (R397). -/
def Dev.ulStatus (d : Dev) (u : Nat) : Nat :=
  let p := d.ulPort u
  let n := d.portLanes u
  let on (x : Option Nat) : Bool := match x with | some t => decide (d.tb.ticks < t) | none => false
  word [(p.state.code, 30), (if n = 4 then 2 else n - 1, 28), (mask8 fun c => on (p.pfc.get? c), 20), (p.xoff % 256, 12),
    (b2n (on p.pause), 11), (p.cond % 128 / 2, 1)]

/-- The update status (R507): what the ruling control block and the boot say. -/
def Dev.updStatus (d : Dev) : Nat :=
  let c := d.mc.flash.ruling
  word [(d.session, 30), (d.mc.runSlot % 2, 29), (b2n d.mc.trial, 28), (b2n c.aConfirmed, 27), (b2n c.bConfirmed, 26),
    (b2n d.mc.rolledBack, 25), (c.failCount % 256, 16)]

/-- OB_REC_STATUS (R535). -/
def Dev.recStatus (d : Dev) : Nat :=
  word [(d.ob.kind, 30), (b2n d.ob.failed, 29), (b2n d.ob.clearBusy, 28), ((d.ob.stagedBytes + 255) / 256, 16),
    (d.ob.cairn.length, 0)]

/-- OB_REC_FIRST_SEQ (R535). -/
def Dev.firstSeq (d : Dev) : Nat :=
  (oldestSeq (if d.ob.failed then d.ob.staging.map Rec.seq else d.ob.tideRecs.map recSeq)).getD d.ob.nextSeq

/-- The head of port u's timestamp queue (R433). -/
def Dev.txHead (d : Dev) (u : Nat) : Option TxStamp := (d.tb.txts.getD u []).head?

/-- TB_TXTS_META (R433). -/
def Dev.txMeta (d : Dev) (u : Nat) : Nat :=
  match d.txHead u with
  | some e => word [(1, 31), (b2n e.late, 30), (e.stepSeq % 4, 28), ((d.tb.txts.getD u []).length, 16), (e.id % 65536, 0)]
  | none => 0

/-- CE_KEY_EVT as a source sees it (R372, R375). -/
def Dev.keyEvtWord (d : Dev) (src : Src) : Nat :=
  match d.keyEvtSeen src with
  | some e => word [(1, 31), (e.kind % 8, 28), (b2n e.bcast, 27), (e.sfc % 2048, 16), (e.slot % 65536, 0)]
  | none => 0

/-- LX_k_STATUS (R102): the role, position and service of the lane above its latched bits. -/
def Dev.laneView (d : Dev) (k : LaneKind) (i : Nat) : Nat :=
  word [(d.laneRole k i, 28), (d.groupPos k i, 26), (b2n (d.inService k i), 8), (d.reg (laneStatus k i) % 256, 0)]

/-- What a register holds, as source `src` reads it, for registers that mirror the device's state. -/
def Dev.view (d : Dev) (src : Src) (r : Reg) : Nat :=
  match r.name with
  | .IM_DEV_STATUS => putBits (d.reg r) 2 0 d.im.state.code
  | .IM_REACH_STATUS =>
    let x := d.reach r.i
    word [(x.loadErr, 8), (b2n x.lightPending, 4), (b2n x.darkenIn.isSome, 3), (b2n x.loaded, 2), (x.state.code, 0)]
  | .IM_FUSE => word [(d.mc.fuses.security % 16, 16), (d.mc.fuses.revoked % 16, 0)]
  | .MC_ID_DEVICE => word [(0x6412, 16), (d.mc.fuses.stepping % 256, 8)]
  | .MC_ID_LOT_LO => d.mc.fuses.lotLo
  | .MC_ID_LOT_HI => d.mc.fuses.lotHi
  | .MC_ID_DIE => d.mc.fuses.die
  | .MC_ID_AVS => d.mc.fuses.avs
  | .MC_UPD_STATUS => d.updStatus
  | .MC_INT_SRC => d.intSrc src / 2 ^ (32 * r.i) % 2 ^ 32
  | .MC_INT_LANE => d.intLane r.i
  | .MC_INT_TREE => d.intTree r.i r.j
  | .MC_AVS_STATUS => putBits (d.reg r) 25 16 d.mc.avsTarget
  | .MC_MGMT_STATUS => putBits (d.reg r) 28 28 (b2n d.mgmtPaused)
  | .VF_ID => word [(b2n (d.slice r.i).valid, 31), (r.i, 0)]
  | .OB_REC_STATUS => d.recStatus
  | .OB_REC_NEXT_SEQ => d.ob.nextSeq
  | .OB_REC_FIRST_SEQ => d.firstSeq
  | .OB_REC_LOST => d.ob.lost
  | .OB_OPSEC => d.ob.opSec
  | .OB_POWER_CYCLE => d.ob.cycle
  | .OB_SAMP_PKT => d.ob.pkt.length
  | .OB_SAMP_INS => (d.ob.insBuf.getD r.i []).length
  | .OB_CNT_HI => d.ob.cntHi.getD (cntKey src false r.i) 0
  | .OB_PCNT_HI => d.ob.cntHi.getD (cntKey src true r.i) 0
  | .TB_STATUS => putBits (d.reg r) 29 29 (b2n (decide (d.tb.rho ≠ 0)))
  | .TB_CHAIN_STATUS => word [(b2n d.ppsClosed, 31), (b2n d.ppsSeen, 30)]
  | .TB_TXTS_META => d.txMeta r.i
  | .TB_TXTS_NS => ((d.txHead r.i).map TxStamp.ns).getD 0
  | .TB_TXTS_S_LO => ((d.txHead r.i).map TxStamp.s).getD 0 % 2 ^ 32
  | .TB_TXTS_S_HI => ((d.txHead r.i).map TxStamp.s).getD 0 / 2 ^ 32
  | .PX_STATUS => d.pxStatus
  | .PX_TREE_STATUS => d.pxTreeStatus r.i
  | .PX_COPY_STAT => d.pxCopyStat
  | .LX_PT_STATUS => d.laneView .pt r.i
  | .LX_PB_STATUS => d.laneView .pb r.i
  | .LX_UL_STATUS => d.laneView .ul r.i
  | .LX_ML_STATUS => d.laneView .ml r.i
  | .TF_TREE_STATUS => d.treeStatus r.i
  | .TF_SFC_HI => (d.tf r.i).sfcShadow
  | .TF_DEFECT_EVT => d.defectHead r.i
  | .RG_PLOAMU_META => d.ploamuMeta r.i
  | .RG_PLOAMU_DATA => leAt (((d.rg r.i).upq.head?.map UpMsg.bytes).getD []) (4 * r.j) 4
  | .RG_PLOAMD_STATUS => word [((d.rg r.i).hwq.length, 8), ((d.rg r.i).hostq.length, 0)]
  | .RG_DISC_HEAD => d.discMeta src r.i
  | .RG_DISC_SN_LO => ((d.discHead src r.i).map Disc.sn).getD 0 % 2 ^ 32
  | .RG_DISC_SN_HI => ((d.discHead src r.i).map Disc.sn).getD 0 / 2 ^ 32
  | .RG_DISC_RTD => unsigned 24 (((d.discHead src r.i).map Disc.rtd).getD 0)
  | .TM_PORT_STATUS => d.portStatus r.i
  | .TM_SIZE => d.nNodes
  | .TM_SIZE4 => d.nQueues
  | .TM_POOL_TH => if d.poolExists r.i then d.reg r else 0
  | .BP_ECC_LOG => d.eccLog
  | .BP_ECC_LOG_CELL => d.eccLogCell
  | .CE_KEY_EVT => d.keyEvtWord src
  | .UL_PORT_STATUS => d.ulStatus r.i
  | .UL_STAT_HI => (d.ulPort r.i).shadow.getD r.j 0
  | .UL_LAG_STATUS => d.lagDist r.i
  | _ => d.reg r

/-- A register read (R11): the value, and what the read latches. -/
def Dev.regRead (d : Dev) (src : Src) (r : Reg) : Dev :=
  match r.name with
  | .TF_SFC_LO => d.sfcLoRead r.i
  | .UL_STAT_LO => d.ulStatLoRead r.i r.j
  | .MC_MGMT_STAT_LO => d.mgmtStatLoRead r.i
  | .OB_CNT_LO => d.cntLoRead src false r.i
  | .OB_PCNT_LO => d.cntLoRead src true r.i
  | .TB_NOW_LO => d.nowLoRead
  | .TB_TOD_NS => d.todNsRead
  | .TB_CAP_LO => d.capLoRead r.i
  | .TB_TODCAP_T_LO => d.todcapLoRead r.i
  | .BP_FREE_ERR => d.freeErrRead
  | _ => d.respond (.data (d.view src r % 2 ^ 32 &&& readable r.name.fields))

/-! ### Writes (R11, R13) -/

/-- A field after a write of v, by its access code (R11). -/
def fldWrite (old v : Nat) (f : Fld) : Nat :=
  match f.acc with
  | .rw => bits v f.hi f.lo
  | .w1c => bits old f.hi f.lo - (bits old f.hi f.lo &&& bits v f.hi f.lo)
  | .w1s => bits old f.hi f.lo ||| bits v f.hi f.lo
  | _ => bits old f.hi f.lo

/-- A register after a write of v (R11, R13): each field by its access code, reserved bits untouched. -/
def wordWrite (fs : List Fld) (old v : Nat) : Nat := fs.foldl (fun w f => putBits w f.hi f.lo (fldWrite old v f)) old

/-- A write that only the access codes govern. -/
def Dev.plainWrite (d : Dev) (r : Reg) (v : Nat) : Dev := d.setReg r (wordWrite r.name.fields (d.reg r) v)

/-- A write of a word whose fields in `keep` stay as they were (a refused field; the rest of the word takes effect). -/
def Dev.writeBut (d : Dev) (r : Reg) (v : Nat) (keep : List (Nat × Nat)) : Dev :=
  d.plainWrite r (keep.foldl (fun w f => putBits w f.1 f.2 (bits (d.reg r) f.1 f.2)) v)

/-- The configuration refusal of the timebase. -/
def Dev.tbRefused (d : Dev) : Dev := d.cfgRefused (R .TB_FLAGS) 23

/-- A write of TB_CTL (R408): CLK_SRC = 1 is refused while REC0 is off or its lane is bad, and clears FALLBACK otherwise. -/
def Dev.tbCtlWrite (d : Dev) (v : Nat) : Dev :=
  let r := R .TB_CTL
  if bit v 0 then
    if !d.flag (R .TB_SYNCE_CFG) 7 || d.rec0Bad then (d.writeBut r v [(0, 0)]).tbRefused
    else (d.plainWrite r v).setFld (R .TB_STATUS) 28 28 0
  else d.plainWrite r v

/-- A write of TB_SYNCE_CFG (R424): TX_LOOP is refused while a port is UP, and so is a lane above 11. -/
def Dev.synceWrite (d : Dev) (v : Nat) : Dev :=
  let r := R .TB_SYNCE_CFG
  let loop := bit v 31 != d.flag r 31 && (List.range 12).any fun u => d.portUp u
  let keep := (if loop then [(31, 31)] else []) ++ (if 11 < bits v 11 8 then [(11, 8)] else []) ++ (if 11 < bits v 3 0 then [(3, 0)] else [])
  if keep.isEmpty then d.plainWrite r v else (d.writeBut r v keep).tbRefused

/-- FRAME_DRIFT's condition (R414). -/
def Dev.drifts (d : Dev) : Bool :=
  decide (d.fld (R .TB_FRAME_CFG) 31 24 < (signed 32 (d.reg (R .TB_FRAME_PHASE))).natAbs)

/-- A write of TB_FRAME_CFG (R431). -/
def Dev.frameCfgWrite (d : Dev) (v : Nat) : Dev :=
  let r := R .TB_FRAME_CFG
  if 124999 < bits v 16 0 then (d.writeBut r v [(16, 0)]).tbRefused else d.plainWrite r v

/-- A write of TB_CHAIN_CFG (R426): without an edge for 2 s the change takes effect at once. -/
def Dev.chainCfgWrite (d : Dev) (v : Nat) : Dev :=
  let d := d.plainWrite (R .TB_CHAIN_CFG) v
  if d.chainQuiet 1562500000 then d.onTb fun b => { b with chainMode := bits v 0 0 } else d

/-- A write of TB_CMP_CFG (R432): OUT 6 and 7 are refused; EN = 0 disarms. -/
def Dev.cmpCfgWrite (d : Dev) (n v : Nat) : Dev :=
  let r := R .TB_CMP_CFG n
  let d := if 6 ≤ bits v 29 27 then (d.writeBut r v [(29, 27)]).tbRefused else d.plainWrite r v
  if bit v 31 then d else d.setFld r 0 0 0

/-- A write of TB_CMP_PERIOD or TB_CMP_PULSE (R411): a periodic compare's PULSE lies below its PERIOD. -/
def Dev.cmpShapeWrite (d : Dev) (r : Reg) (v : Nat) : Dev :=
  let period := if r.name = .TB_CMP_PERIOD then v else d.reg (R .TB_CMP_PERIOD r.i)
  let pulse := if r.name = .TB_CMP_PULSE then bits v 29 0 else d.fld (R .TB_CMP_PULSE r.i) 29 0
  if period ≠ 0 ∧ period ≤ pulse then d.tbRefused else d.plainWrite r v

/-- A write of TB_CAP_CFG (R432): SRC belongs to input 4. -/
def Dev.capCfgWrite (d : Dev) (n v : Nat) : Dev := d.plainWrite (R .TB_CAP_CFG n) (if n = 4 then v else putBits v 29 29 0)

/-- A write of TB_TODCAP_CTL (R415, R432): TREE, then ARM. -/
def Dev.todcapWrite (d : Dev) (n v : Nat) : Dev :=
  let d := d.plainWrite (R .TB_TODCAP_CTL n) v
  if bit v 31 then d.todcapArm n else d

/-- A write of TB_TXTS_POP (R433). -/
def Dev.txPopWrite (d : Dev) (u v : Nat) : Dev :=
  let d := if bit v 0 then d.txtsPop u else d
  if bit v 1 then d.clrLost u false else d

/-- A write of PC_RECIRC_QUEUE or PC_CPU_QUEUE (R38, R259): the queue's slice under R38, its egress port under CFG_REFUSED. -/
def Dev.pcQueueWrite (d : Dev) (r : Reg) (v : Nat) (owner : Option Nat) (port : Nat) (src : Src) : Dev :=
  let q := bits v 18 0
  if d.nQueues ≤ q ∨ d.sliceOfQueue q ≠ owner then (d.writeBut r v [(18, 0)]).structReject r v src
  else if d.queuePort q ≠ some port then (d.writeBut r v [(18, 0)]).cfgRefused (R .PC_FLAGS) 5
  else d.plainWrite r v

/-- STASH_HIGH's condition (R281). -/
def Dev.stashHigh (d : Dev) : Bool := decide (min 256 (d.fld (R .FS_CFG) 24 16) ≤ d.fld (R .FS_STATUS) 8 0)

/-- A write of FS_CFG (R281): a new threshold may start STASH_HIGH. -/
def Dev.fsCfgWrite (d : Dev) (v : Nat) : Dev :=
  let d1 := d.plainWrite (R .FS_CFG) v
  if d1.stashHigh then d1.raiseLevel (R .FS_FLAGS) 2 (!d.stashHigh) else d1

/-- PN_THRESH_HI_WRITE (R376, R570): the rekey threshold commits with the held low word. -/
def Dev.pnHiWrite (d : Dev) (v : Nat) : Dev :=
  let d1 := d.setReg (R .CE_MS_PN_THRESH_HI) v
  match d.ce.pnHeld with
  | some lo => (d1.setReg (R .CE_MS_PN_THRESH_LO) lo).onCe fun c => { c with pnHeld := none }
  | none => d1

/-- A write of MC_VF_SP (R510): refused while the slice's ring or a look-aside ring of the slice is enabled. -/
def Dev.vfSpWrite (d : Dev) (s v : Nat) : Dev :=
  let r := R .MC_VF_SP s
  let la := (List.range 16).any fun n => d.flag (R .CE_LA_SIZE n) 31 && d.fld (R .CE_LA_OWNER n) 4 0 == s
  if d.ringEn (5 + s) false || d.ringEn (5 + s) true || la then d.cfgRefused (R .MC_FLAGS) 20 else d.plainWrite r v

/-- A write of OB_SAMP_CFG (R537). -/
def Dev.sampWrite (d : Dev) (v : Nat) : Dev :=
  let r := R .OB_SAMP_CFG
  let keep := (if 20 < bits v 25 21 then [(25, 21)] else []) ++ (if 20 < bits v 4 0 then [(4, 0)] else [])
  if keep.isEmpty then d.plainWrite r v else (d.writeBut r v keep).cfgRefused (R .OB_FLAGS) 11

/-- A write of a ring register (R479, R489, R512). -/
def Dev.ringWrite (d : Dev) (n : Nat) (r : Reg) (v : Nat) : Dev :=
  match r.name with
  | .MC_RING_RX_BASE_LO | .MC_MGMT_RING_RX_BASE_LO | .VF_RING_RX_BASE_LO => d.ringBaseWrite n false false v
  | .MC_RING_RX_BASE_HI | .MC_MGMT_RING_RX_BASE_HI | .VF_RING_RX_BASE_HI => d.ringBaseWrite n false true v
  | .MC_RING_RX_CFG | .MC_MGMT_RING_RX_CFG | .VF_RING_RX_CFG => d.ringCfgWrite n false v
  | .MC_RING_RX_PI | .MC_MGMT_RING_RX_PI | .VF_RING_RX_PI => d.ringPi n false v
  | .MC_RING_TX_BASE_LO | .MC_MGMT_RING_TX_BASE_LO | .VF_RING_TX_BASE_LO => d.ringBaseWrite n true false v
  | .MC_RING_TX_BASE_HI | .MC_MGMT_RING_TX_BASE_HI | .VF_RING_TX_BASE_HI => d.ringBaseWrite n true true v
  | .MC_RING_TX_CFG | .MC_MGMT_RING_TX_CFG | .VF_RING_TX_CFG => d.ringCfgWrite n true v
  | .MC_RING_TX_PI | .MC_MGMT_RING_TX_PI | .VF_RING_TX_PI => d.ringPi n true v
  | _ => d

/-- A register write (R11): the registers that their chapters give an effect or a refusal, and the access codes for the rest. -/
def Dev.regWrite (d : Dev) (src : Src) (r : Reg) (v : Nat) : Dev :=
  let i := r.i
  match r.name with
  | .LX_PT_CTL => d.laneCtlWrite .pt i v src
  | .LX_PB_CTL => d.laneCtlWrite .pb i v src
  | .LX_UL_CTL => d.laneCtlWrite .ul i v src
  | .LX_ML_CTL => d.laneCtlWrite .ml i v src
  | .LX_PT_TXEQ => d.txeqWrite .pt i r v src
  | .LX_UL_TXEQ => d.txeqWrite .ul i r v src
  | .LX_ML_TXEQ => d.txeqWrite .ml i r v src
  | .LX_PT_PRBS_CTL => d.prbsCtlWrite .pt i v src
  | .LX_PB_PRBS_CTL => d.prbsCtlWrite .pb i v src
  | .LX_UL_PRBS_CTL => d.prbsCtlWrite .ul i v src
  | .LX_ML_PRBS_CTL => d.prbsCtlWrite .ml i v src
  | .LX_PB_EYE_CFG => d.eyeCfgWrite .pb r v
  | .LX_UL_EYE_CFG => d.eyeCfgWrite .ul r v
  | .LX_ML_EYE_CFG => d.eyeCfgWrite .ml r v
  | .TF_DS_CFG => d.dsCfgWrite i v
  | .TF_PM_CFG => d.pmCfgWrite i v
  | .TF_PONID_LO => d.onTf i fun x => { x with ponidHeld := some v }
  | .TF_PONID_HI => d.ponidHiWrite i v
  | .TF_DEFECT_POP => if bit v 0 then d.defectPop i else d
  | .RG_TREE_CFG => d.rgTreeCfgWrite i v
  | .RG_EQ_CFG => d.eqCfgWrite i v
  | .RG_PLOAMU_POP => if bit v 0 then d.ploamuPop i else d
  | .RG_DISC_POP => if bit v 0 then d.discPop src i else d
  | .GS_BPROF => d.bprofWrite i r.j v
  | .GS_DEFAULT_CFG => d.defaultWrite i r v
  | .GS_DEFAULT_FIXED => d.defaultWrite i r v
  | .GS_DEFAULT_ASSURED => d.defaultWrite i r v
  | .GS_DEFAULT_MAX => d.defaultWrite i r v
  | .GS_MAP_CFG => d.mapCfgWrite i v
  | .GS_COOP_BASE => d.coopCfgWrite r i v false
  | .GS_COOP_SIZE => d.coopCfgWrite r i v true
  | .GS_COOP_PI => d.coopPiWrite i v
  | .PC_CFG => d.pcCfgWrite v
  | .PC_TPID_CFG => d.tpidWrite v
  | .PC_RECIRC_QUEUE => d.pcQueueWrite r v (some i) 77 src
  | .PC_CPU_QUEUE => d.pcQueueWrite r v none 76 src
  | .FS_CFG => d.fsCfgWrite v
  | .TM_PORT_CFG => d.portCfgWrite i v
  | .TM_POOL_TH => if d.poolExists i then d.plainWrite r v else (d.structReject r v src).cfgRefused (R .TM_FLAGS) 6
  | .BP_POOL_NEAR_CAP => d.capWrite i 0 v
  | .BP_POOL_FAR_CAP => d.capWrite i 1 v
  | .BP_ECC_POP => if bit v 0 then d.eccPop else d
  | .CE_KEY_EVT_POP => if bit v 0 then d.keyEvtPop src else d
  | .CE_MS_PN_THRESH_LO => d.onCe fun c => { c with pnHeld := some v }
  | .CE_MS_PN_THRESH_HI => d.pnHiWrite v
  | .CE_MS_PORT_CFG => d.msCfgWrite i v
  | .CE_LA_BASE => d.laBaseWrite i v
  | .CE_LA_SIZE => d.laSizeWrite i v
  | .CE_LA_PI => d.laPi i v
  | .CE_LA_OWNER => d.laOwnerWrite i v src
  | .UL_PORT_CFG =>
    let d := d.portCfgWriteUl i v
    if bit v 30 then d.clrStats i [] else d
  | .UL_FC_CFG => d.fcCfgWrite i v
  | .UL_FC_TH => d.fcThWrite i r.j v src
  | .UL_SER_CFG => d.serCfgWrite i v
  | .UL_LAG_CFG => d.lagCfgWrite i v
  | .UL_LAG_MEMBER => d.lagMemberWrite i r.j v src
  | .TB_CTL => d.tbCtlWrite v
  | .TB_INC_LO => d.holdInc v
  | .TB_INC_HI => d.incHiWrite v
  | .TB_FRAME_CFG => d.frameCfgWrite v
  | .TB_SYNCE_CFG => d.synceWrite v
  | .TB_CHAIN_CFG => d.chainCfgWrite v
  | .TB_CMP_CFG => d.cmpCfgWrite i v
  | .TB_CMP_TGT_LO => d.holdCmp i v
  | .TB_CMP_TGT_HI => d.cmpHiWrite i v
  | .TB_CMP_PERIOD => d.cmpShapeWrite r v
  | .TB_CMP_PULSE => d.cmpShapeWrite r v
  | .TB_CAP_CFG => d.capCfgWrite i v
  | .TB_TODCAP_CTL => d.todcapWrite i v
  | .TB_TXTS_POP => d.txPopWrite i v
  | .PX_CFG => d.pxCfgWrite v
  | .PX_SNAP_OUT_LO => d.pxSnapLoWrite r v
  | .PX_SNAP_IN_LO => d.pxSnapLoWrite r v
  | .MC_VF_SP => d.vfSpWrite i v
  | .MC_CORE_CTL => d.coreCtlWrite i v
  | .MC_INT_EOI => d.eoi (v % 64)
  | .MC_AVS_CFG => d.avsCfgWrite v
  | .MC_RING_RX_BASE_LO | .MC_RING_RX_BASE_HI | .MC_RING_RX_CFG | .MC_RING_RX_PI | .MC_RING_TX_BASE_LO | .MC_RING_TX_BASE_HI
  | .MC_RING_TX_CFG | .MC_RING_TX_PI => d.ringWrite i r v
  | .MC_MGMT_RING_RX_BASE_LO | .MC_MGMT_RING_RX_BASE_HI | .MC_MGMT_RING_RX_CFG | .MC_MGMT_RING_RX_PI | .MC_MGMT_RING_TX_BASE_LO
  | .MC_MGMT_RING_TX_BASE_HI | .MC_MGMT_RING_TX_CFG | .MC_MGMT_RING_TX_PI => d.ringWrite 21 r v
  | .VF_RING_RX_BASE_LO | .VF_RING_RX_BASE_HI | .VF_RING_RX_CFG | .VF_RING_RX_PI | .VF_RING_TX_BASE_LO | .VF_RING_TX_BASE_HI
  | .VF_RING_TX_CFG | .VF_RING_TX_PI => d.ringWrite (5 + i) r v
  | .MC_MGMT_CFG => d.mgmtCfgWrite v
  | .MC_RX_NODE => d.rxNodeWrite i v src
  | .MC_DMA_CTL => d.dmaCtlWrite i v
  | .VF_EOI => d.eoi (64 + 4 * i + v % 4)
  | .OB_SAMP_CFG => d.sampWrite v
  | .OB_PCNT_CFG => d.pcntCfgWrite i v 0
  | _ => d.plainWrite r v

end Sys2Proof.Machine
end

