-- ==== Sys2Proof/Machine/Control.lean ====
section
/-! DEFINITION. Boot and device control (spec/02, spec/10): BOOT_LOAD with memory training, restart scan and application of the
structure, reach loads, the opcodes of IM_CMD, and the commands that step C or align the frames (R406, R413, R434). -/

namespace Sys2Proof.Machine

/-! ### Application of an image (R29, R37, R43, R61 to R67, R322, R340) -/

/-- Registers written by an image: those that the structure gives the device (R40). -/
def Dev.imageWrite (d : Dev) (x : Nat × Nat) : Dev :=
  match (Reg.ofAddr x.1).filter fun r => d.present r with
  | some r => d.regWrite (.core 0) r x.2
  | none => d

/-- The restart scan of a tier (R340, R338): only listed retired cells inside the tier stay out of service. What the cells hold stays
(R321): the scan writes state bits alone. -/
def scanTier (cells : Nat) (listed : List Nat) (t : Table Cell) : List Nat × Table Cell :=
  let l := listed.filter fun c => decide (c < cells)
  let t' := (t.keep fun c _ => decide (c < cells)).mapPut Cell.rest fun _ x => { x with used := false, retired := false }
  (l, l.foldl (fun t c => t.set c { t.getD c Cell.rest with used := true, retired := true }) t')

/-- RESTART_SCAN (R340): state bits and retirement lists; everything else the scan resets stands at reset. -/
def Dev.restartScan (d : Dev) : Dev :=
  let near := scanTier (d.tierCells 0) d.bp.retNear d.bp.near
  let far := scanTier (d.tierCells 1) d.bp.retFar d.bp.far
  d.onBp fun b => { b with near := near.2, retNear := near.1, far := far.2, retFar := far.1 }

/-- The registers of a tier after the scan (R322, R342). -/
def Dev.tierRegs (d : Dev) (n : Nat) : Dev :=
  let cells : Nat := d.tierCells n - (if n = 1 then 40960 else 0)
  let ret : Nat := (d.retList n).length
  let mins : Nat := (d.im.str.pools.map fun p => if n = 0 then p.nearMin else p.farMin).foldl (· + ·) 0
  (((d.setReg (R .BP_TIER_CELLS n) cells).setReg (R .BP_TIER_FREE n) (cells - ret)).setReg (R .BP_TIER_SHARED n)
    (unsigned 28 ((cells : Int) - ret - mins))).setReg (R .BP_TIER_RETIRED n) (ret * 2 ^ 14 + min ret 0x3FFF)

/-- The registers of the pools of the image (R319, R346). -/
def Dev.poolRegs (d : Dev) : Dev :=
  upTo d.im.str.pools.length d fun p d =>
    let x := d.im.str.pools.getD p ⟨0xFF, 0, 0⟩
    ((d.setReg (R .BP_POOL_INFO p) (2 ^ 31 + x.slice)).setReg (R .BP_POOL_MIN p 0) x.nearMin).setReg (R .BP_POOL_MIN p 1) x.farMin

/-- The IM registers of the running image (R65, R67). -/
def Dev.imageRegs (d : Dev) (m : Img) : Dev :=
  let d := (d.setReg (R .IM_IMAGE_SERIAL_LO) (m.serial % 2 ^ 32)).setReg (R .IM_IMAGE_SERIAL_HI) (m.serial / 2 ^ 32)
  let d := upTo 4 d fun n d => d.setReg (R .IM_STRUCTURE_ID n) (leAt m.structId (4 * n) 4)
  upTo 6 d fun n d =>
    d.setReg (R .IM_CARVE n) (d.units n * 2 ^ 16 + ((List.range n).map d.units).foldl (· + ·) 0)

/-- The lanes that the image gives a role (R101): POWER_DOWN clears; UL lanes precode; UL and ML lanes power up, PT and PB lanes
when their reach is LIT (log entry 15). -/
def Dev.lanesApply (d : Dev) : Dev :=
  let d := upTo 12 d fun i d => if d.laneRole .ul i = 0 then d else d.laneUp .ul i
  let d := upTo 4 d fun i d => if d.laneRole .ml i = 0 then d else d.laneUp .ml i
  upTo 64 d fun t d =>
    if d.treeExists t then (d.setFld (R .LX_PT_CTL t) 0 0 0).setFld (R .LX_PB_CTL t) 0 0 0 else d

/-- The reaches of a full image: DARK with LOADED = 1 (R46, R62). -/
def imageReaches (mask : Nat) : Table Reach :=
  ((List.range 8).filter fun r => bit mask r).map fun r => (r, ⟨.dark, true, false, none, 0⟩)

/-- The firmware's cores leave reset, but for those that software holds (R470, R510). -/
def Dev.coresRun (d : Dev) : Dev :=
  upTo 4 (d.onMc fun m => { m with coresUp := true }) fun c d => d.onCore c fun x => { x with running := x.hasFw && !d.flag (R .MC_CORE_CTL c) 31 }

/-- The structure is applied and the device enters STRUCTURED (R40, R46, R47, R60, R61, R503): a start from a confirmed slot returns
FAIL_COUNT to 0, a roll-back of this boot is reported, whatever ends the boot, and a waiting LOAD_HOST completes. `slot` says that the
image came from flash. -/
def Dev.applyImage (d : Dev) (m : Img) (s : Structure) (slot : Bool) : Dev :=
  let d := d.onIm fun x => { x with str := s, reaches := imageReaches s.reachMask, load := none }
  let d := (((d.imageRegs m).restartScan.tierRegs 0).tierRegs 1).poolRegs
  let d := ((d.setFld (R .FS_STATUS) 28 24 d.fsCarved).setFld (R .FS_STATUS) 20 16 d.fsCarved).onMc fun c => { c with runSec := m.security }
  let d := m.defaults.foldl Dev.imageWrite (m.reachRegs.foldl Dev.imageWrite d.lanesApply)
  let d := ((((d.setFld (R .IM_DEV_STATUS) 31 16 0).setFld (R .IM_DEV_STATUS) 15 8 0).setFld (R .IM_DEV_STATUS) 4 4 0).toState .structured).coresRun
  let d := if slot ∧ !d.mc.trial then d.onCb fun c => { c with failCount := 0 } else d
  let d := if d.mc.rolledBack then d.raiseRec (R .MC_FLAGS) 19 .mc 0 false [(1, d.mc.runSlot)] else d
  d.completeWaiting .im 5 .ok []

/-! ### The boot (R42, R44, R47, R60, R320, R321, R503, R504, R541) -/

/-- A load error at boot (R42, R47, R60): WAIT_HOST where the straps allow the host, FAILED otherwise. -/
def Dev.bootFail (d : Dev) (e : LoadErr) : Dev :=
  let d := (d.setFld (R .IM_DEV_STATUS) 31 16 e.2).setFld (R .IM_DEV_STATUS) 15 8 e.1
  if d.im.bootsrc = 1 ∨ d.im.bootsrc = 2 then
    let d := d.setFld (R .IM_DEV_STATUS) 4 4 1
    if e.1 = 0x0C then d.completeWaiting .im 5 .memoryFault [] else d.refuseWaiting .im 5 .badArgument d.im.state.code
  else d.toFailed .loadError

/-- AVS_INIT_MV is sent (R541): a regulator that does not acknowledge leaves a fault record (log entry 45). -/
def Dev.avsInit (d : Dev) : Dev := if d.pins.avsAck then d else d.record 9 .mc 0 true [(1, 0), (2, d.mc.avsTarget)]

/-- The TRAIN_ERR of a DDR5 channel against the image's DDR_CAP (R320, R347). -/
def ddrErr (cap : Nat) (x : DdrIn) : Nat := if x.err ≠ 0 then x.err else if x.cap ≠ cap then 2 else 0

/-- MEMORY_TRAINING (R320, R347): what training finds, and whether every interface trained. -/
def Dev.train (d : Dev) (cap : Nat) (b : BootIn) : Dev × Bool :=
  let d := d.setReg (R .BP_HBM_STATUS) (b2n (b.hbm == 0) * 2 ^ 31 + b.hbm % 16)
  let ch (i : Nat) : DdrIn := b.ddr.getD i ⟨1, 0, 0⟩
  let d := upTo 4 d fun i d =>
    let e := ddrErr cap (ch i)
    d.setReg (R .BP_DDR_STATUS i) (b2n (e == 0) * 2 ^ 31 + (ch i).ranks % 4 * 2 ^ 28 + (ch i).cap % 64 * 2 ^ 16 + e % 16)
  (d, b.hbm == 0 && (List.range 4).all fun i => ddrErr cap (ch i) == 0)

/-- The reserved region is lost (R321): no PM history, day profiles at 64. -/
def RxState.forget (x : RxState) : RxState :=
  { x with pm := x.pm.mapPut PmReach.rest fun _ p => { p with hist := [], histDay := none }
           days := x.days.mapVal fun _ _ => [] }

/-- A checked image: AVS, training, application (R320, R541). -/
def Dev.bootImage (d : Dev) (r : Except LoadErr (Img × Structure)) (b : BootIn) (slot : Bool) : Dev :=
  match r with
  | .error e => d.bootFail e
  | .ok (m, s) =>
    match d.avsInit.train s.ddrGiB b with
    | (d, true) => d.applyImage m s slot
    | (d, false) => (d.onRx RxState.forget).bootFail (0x0A, 0)

/-- The firmware's sections in place (R504): core code at local address 0, the scratchpad from offset 0. -/
def Dev.firmwareIn (d : Dev) (m : Img) : Dev :=
  m.sections.foldl (fun d x =>
    if 0x300 ≤ x.1.typ ∧ x.1.typ < 0x304 then
      d.onCore (x.1.typ - 0x300) fun c => { c with hasFw := true, localMem := c.localMem.writeL 0 x.2 }
    else if x.1.typ = 0x310 then d.spWrite 0 0 x.2
    else d) d

/-- A start from flash (R503, R504): the slot selected and the control block written, then firmware and image from it. -/
def Dev.bootFlash (d : Dev) (b : BootIn) : Dev :=
  let (cb, back) := d.mc.flash.ruling.select
  let s := cb.active
  let d := (d.onFlash fun f => f.writeCb cb).onMc fun m => { m with runSlot := s, trial := cb.trial, rolledBack := back }
  match loadFirmware d.mc.fuses ⟨d.mc.flash.cells, regionBase s 0, none, b.fwFault⟩ with
  | .error e => d.bootFail e
  | .ok fw => (d.firmwareIn fw).bootImage (loadFull d.mc.fuses ⟨d.mc.flash.cells, regionBase s 1, none, b.imgFault⟩) b true

/-- BOOT_LOAD (R42, R44, R503): the boot ROM's next load in BOOTING: from the host when a LOAD_HOST waits, else by BOOTSRC. -/
def Dev.bootLoad (d : Dev) (b : BootIn) : Dev :=
  if d.im.state ≠ .booting ∨ d.im.bootHalted then d
  else
    match d.waitingCmd .im 5 with
    | some a => d.bootImage (loadFull d.mc.fuses ⟨d.mc.hostMem, a.dat64 0, some (a.dat 2), b.imgFault⟩) b false
    | none =>
      if d.flag (R .IM_DEV_STATUS) 4 then d
      else if d.im.bootsrc = 3 then d.bootFail (0x0B, 0)
      else d.bootFlash b

/-! ### Reach loads (R50, R52, R60, R62) -/

/-- REACH_LOAD_DONE (R50, R52, R191): the load in progress ends, and the registers of the image are written in the DARK reach; `fault` is
the read stage at which host memory faults. -/
def Dev.reachLoadDone (d : Dev) (fault : Nat) : Dev :=
  match if d.alive then d.im.load else none with
  | none => d
  | some l =>
    let r := l.reach
    let d := d.onIm fun m => { m with load := none }
    match loadReach d.mc.fuses ⟨d.mc.hostMem, l.addr, some l.len, fault⟩ r d.structId with
    | .error e =>
      let d := (d.onReach r fun x => { x with state := .dark, loaded := false, loadErr := e.1 }).setFld (R .IM_DEV_STATUS) 31 16 e.2
      (d.raise (R .IM_FLAGS) 3).raise (R .IM_FLAGS) 1
    | .ok m =>
      let mine (t : Nat) : Bool := decide (t / 8 = r)
      let trees := (decodeTrees m).foldl (fun t x => t.set x.1 x.2) (d.im.str.trees.keep fun t _ => !mine t)
      let d := d.onIm fun x => { x with str := { x.str with trees := trees } }
      let d := d.onReach r fun x => { x with state := .dark, loaded := true }
      let d := m.defaults.foldl Dev.imageWrite (m.reachRegs.foldl Dev.imageWrite d)
      (d.raise (R .IM_FLAGS) 2).raise (R .IM_FLAGS) 1

/-! ### IM_CMD (R47, R50, R60) -/

/-- The device states in which reaches load, and those in which they light and darken (R50). -/
def Dev.traffic (d : Dev) : Bool := d.im.state == .running || d.im.state == .quiesced

/-- IM_CMD lies outside every VF view, and _OBJ is 0 (R60). -/
def imObj0 (a : Accepted) (d : Dev) (k : CmdRes) : CmdRes :=
  if !trusted a.src then .refuse .denied d.im.state.code
  else if a.obj ≠ 0 then .refuse .badArgument d.im.state.code
  else k

/-- A command that waits for the instant at which the device leaves a state (R47). -/
def imWait (s : DevState) (f : Dev → Dev) (a : Accepted) (d : Dev) : CmdRes :=
  imObj0 a d <| if d.im.state = s then .wait (f d) else .refuse .notInState d.im.state.code

/-- START (R47, R413, R431). -/
def opStart (a : Accepted) (d : Dev) : CmdRes := 
  imWait .structured (fun d => d.onTb fun b => { b with startAt := some b.ticks, startOff := d.fld (R .TB_FRAME_CFG) 16 0 }) a d
/-- QUIESCE (R47). -/
def opQuiesce (a : Accepted) (d : Dev) : CmdRes := imWait .running id a d
/-- RESUME (R47). -/
def opResume (a : Accepted) (d : Dev) : CmdRes := imWait .quiesced id a d

/-- WARM_RESET (R47, R60). -/
def opWarmReset (a : Accepted) (d : Dev) : CmdRes :=
  imObj0 a d <| if d.im.state = .booting then .refuse .notInState d.im.state.code else .reset d.warmReset

/-- LOAD_HOST (R60, R61): accepted only in BOOTING with WAIT_HOST = 1. -/
def opLoadHost (a : Accepted) (d : Dev) : CmdRes :=
  imObj0 a d <|
    if d.im.state = .booting ∧ d.flag (R .IM_DEV_STATUS) 4 then
      .wait ((d.setFld (R .IM_DEV_STATUS) 6 5 2).setFld (R .IM_DEV_STATUS) 4 4 0)
    else .refuse .notInState d.im.state.code

/-- The reach that an opcode names (R60). -/
def imReach (a : Accepted) (d : Dev) (k : Nat → CmdRes) : CmdRes :=
  if !trusted a.src then .refuse .denied (d.reach a.obj).state.code
  else if !d.reachExists a.obj then .refuse .badArgument ReachState.absent.code
  else k a.obj

/-- LOAD_REACH (R50, R60); a light that is pending is cancelled (log entry 89). -/
def opLoadReach (a : Accepted) (d : Dev) : CmdRes :=
  imReach a d fun r =>
    let x := d.reach r
    if !d.alive ∨ x.state ≠ .dark then .refuse .notInState x.state.code
    else if d.im.load.isSome then .refuse .busy x.state.code
    else
      let d := d.onReach r fun x => { x with state := .loading, loaded := false, lightPending := false }
      .done ((d.onIm fun m => { m with load := some ⟨r, a.dat64 0, a.dat 2⟩ }).raise (R .IM_FLAGS) 1) .ok []

/-- LIGHT_REACH (R50, R60). -/
def opLightReach (a : Accepted) (d : Dev) : CmdRes :=
  imReach a d fun r =>
    let x := d.reach r
    if !d.traffic ∨ x.state ≠ .dark ∨ !x.loaded ∨ x.lightPending then .refuse .notInState x.state.code
    else .done (d.onReach r fun x => { x with lightPending := true }) .ok []

/-- DARKEN_REACH (R50, R51, R440, R60). -/
def opDarkenReach (a : Accepted) (d : Dev) : CmdRes :=
  imReach a d fun r =>
    let x := d.reach r
    if !d.traffic ∨ x.state ≠ .lit ∨ x.darkenIn.isSome then .refuse .notInState x.state.code
    else .done ((d.onReach r fun x => { x with darkenIn := some 0 }).pxDarken r) .ok []

/-! ### Steps of C (R406, R407, R410, R136, R205) -/

/-- C takes a new integer part (R406); an unchanged one is no step. The step is recorded with old C, new C and source (R406). -/
def Dev.stepC (d : Dev) (new : Nat) (src : Src) : Dev :=
  let old := d.now
  let new := new % 2 ^ 64
  if new = old then d
  else
    let s0 := d.todS
    let back := decide (new < old)
    let d := (d.onTb fun b => { b with c := new * 2 ^ 40 + b.c % 2 ^ 40, stepAt := some b.ticks }).onOb fun o => { o with stepped := true }
    let d := d.setFld (R .TB_STATUS) 31 30 ((d.fld (R .TB_STATUS) 31 30 + 1) % 4)
    let d := d.raiseRec (R .TB_FLAGS) 0 .tb 0 false [(8, old), (8, new), (1, portOf src)]
    let d := if d.tb.rho = 0 then d else d.slewDone
    let d := upTo 8 d fun n d => d.rebase n
    let d := upTo 8 d fun r d => d.pmStep r s0 d.todS back
    let d := upTo 64 d fun t d => if (d.tf t).state = .active then d.onGs t fun x => { x with stepCut := true } else d
    d.tbEvaluate d.now

/-- TIME_SET (R406, R434, R514). -/
def opTimeSet (a : Accepted) (d : Dev) : CmdRes :=
  if !trusted a.src then .refuse .denied 0
  else if 1000000000 ≤ a.db 0 29 0 then .refuse .badArgument 0
  else
    let s := a.dat 1 + 2 ^ 32 * a.db 2 15 0
    .done ((d.onOb fun o => { o with todUnset := false }).stepC (s * 1000000000 + a.db 0 29 0) a.src) .ok []

/-- TIME_STEP (R406, R434). -/
def opTimeStep (a : Accepted) (d : Dev) : CmdRes :=
  if !trusted a.src then .refuse .denied 0
  else .done (d.stepC (unsigned 64 ((d.now : Int) + signed 64 (a.dat64 0))) a.src) .ok []

/-- FRAME_ALIGN (R413, R431, R434): OFFSET_NS is taken as it stands; refused while a tree of a LIT reach is STANDBY or ACTIVE. -/
def opFrameAlign (a : Accepted) (d : Dev) : CmdRes :=
  if !trusted a.src then .refuse .denied 0
  else if (List.range 64).any fun t => d.lit t && (d.tf t).state != .off then .refuse .notInState 1
  else .wait (d.onTb fun b => { b with align := some b.ticks, alignOff := d.fld (R .TB_FRAME_CFG) 16 0 })

/-! ### MC, PX and BP events of the whole device -/

/-- CATTRIP (R320): BP_HBM_STATUS.CATTRIP holds the cause. -/
def Dev.cattrip (d : Dev) : Dev :=
  match d.im.state with
  | .held | .failed => d
  | _ => (d.setFld (R .BP_HBM_STATUS) 30 30 1).toFailed .cattrip

end Sys2Proof.Machine
end

