-- ==== Sys2Proof/Machine/Boundary.lean ====
section
/-! DEFINITION. The downstream frame boundary (R18, R19, R47, R48, R50, R51, R116, R413 to R415): everything that is scheduled for
it, over all LIT reaches, and the aligned instant. -/

namespace Sys2Proof.Machine

/-- The LIT reaches. -/
def Dev.litReaches (d : Dev) : List Nat := (List.range 8).filter fun r => (d.reach r).state == .lit

/-- The trees of the LIT reaches. -/
def Dev.litTrees (d : Dev) : List Nat := d.litReaches.flatMap treesOf

/-! ### Device states (R47, R48, R197) -/

/-- The windows of a tree whose grants have not been sent are cancelled (R197). -/
def Dev.quiesceTree (d : Dev) (t : Nat) : Dev :=
  let d := (d.planned t).foldl (fun d w => d.cancelWindows t w.frame) d
  d.onGs t fun x => { x with built := x.built.map fun m => { m with bursts := m.bursts.filter fun b => b.kind == .data } }

/-- QUIESCE and RESUME take effect (R47, R48); a RESUME waits for a RECLAIM that runs (R339). -/
def Dev.deviceStep (d : Dev) : Dev :=
  if (d.waitingCmd .im 2).isSome ∧ d.im.state = .running then
    let d := (d.toState .quiesced).completeWaiting .im 2 .ok []
    d.litTrees.foldl Dev.quiesceTree d
  else if (d.waitingCmd .im 3).isSome ∧ d.im.state = .quiesced ∧ (d.waitingCmd .bp 0x20).isNone then
    (d.toState .running).completeWaiting .im 3 .ok []
  else d

/-! ### Reaches that light and darken (R50, R51, R75, R101, R137, R415, R437) -/

/-- A lane locks its PLL when its reach is LIT, unless software holds it down (R101; log entry 15). -/
def Dev.laneLock (d : Dev) (k : LaneKind) (i : Nat) : Dev :=
  if d.flag (laneCtl k i) 0 then d else d.setFld (laneStatus k i) 4 4 1

/-- The state that the image gives a tree (R115). -/
def Dev.initialState (d : Dev) (t : Nat) : TreeState :=
  match (d.im.str.trees.get? t).map TreeDef.initial with
  | some 1 => .standby
  | some 2 => .active
  | _ => .off

/-- Reach r becomes LIT at this boundary (R50, R115, R116, R134, R437): each SFC resumes with +1 there (log entry 56). -/
def Dev.reachLight (d : Dev) (r : Nat) : Dev :=
  let d := (d.onReach r fun x => { x with state := .lit, lightPending := false }).raise (R .IM_FLAGS) 1
  let d := ((treesOf r).foldl (fun d t => ((d.laneLock .pt t).laneLock .pb t).sfcStep t) d).pmStart r
  let d := (treesOf r).foldl (fun d t => if d.isProt t then d else d.treeTo t (d.initialState t)) d
  (treesOf r).foldl Dev.treeAfter ((treesOf r).foldl Dev.keysBoundary (d.pxReach r true))

/-- A lane of a reach that is DARK is down (R51, R76). -/
def Dev.laneDark (d : Dev) (t : Nat) : Dev :=
  (((d.setFld (laneStatus .pt t) 4 4 0).setFld (laneStatus .pb t) 4 4 0).onLx fun x =>
    { x with ptFault := x.ptFault.erase t, pbQueue := x.pbQueue.erase t, pbSlots := x.pbSlots.erase t, pbSetup := x.pbSetup.erase t }).onTf t
      fun x => { x with txFault := false }

/-- The boundary at which a darkening reach becomes DARK (R51): the first at or after F + 3 frames and its equalisation
target. -/
def Dev.darkDue (d : Dev) (r : Nat) : Bool :=
  match (d.reach r).darkenIn with
  | some n => decide (3 * 1244160 + d.teq (8 * r) ≤ n * 1244160)
  | none => false

/-- Reach r becomes DARK (R50, R51, R137): trees OFF, Benchmark store, maps and current bins cleared, lanes down. -/
def Dev.reachDark (d : Dev) (r : Nat) : Dev :=
  let d := (treesOf r).foldl (fun d t => d.treeTo t .off) (d.pxReach r false)
  let d := (d.onReach r fun x => { x with state := .dark, darkenIn := none }).raise (R .IM_FLAGS) 1
  let d := (d.rx.profs.filter fun kv => kv.1 / 4096 == r && kv.2.valid).foldl (fun d kv => d.invalidate kv.1 6) d
  let d := (d.onRx fun x => { x with profs := x.profs.filter fun kv => decide (kv.1 / 4096 ≠ r) }).pmDiscard r
  let d := (treesOf r).foldl (fun d t => (d.laneDark t).onGs t fun x => { x with built := [], sent := [], wins := [], lateFor := [] }) d
  d.todcapCancel fun x => decide (x.tree / 8 = r)

/-- What reach r does at a boundary (R50, R51). -/
def Dev.reachStep (d : Dev) (r : Nat) : Dev :=
  let x := d.reach r
  if x.state = .dark ∧ x.lightPending ∧ d.traffic then d.reachLight r
  else if x.state = .lit ∧ d.darkDue r then d.reachDark r
  else d

/-! ### Phase and capture (R414, R415) -/

/-- The distance of C from the nearest aligned instant in units of 2^-40 ns. -/
def Dev.framePhase (d : Dev) : Int :=
  let m : Int := 125000 * 2 ^ 40
  let x := ((d.tb.c : Int) - d.tb.offset * 2 ^ 40) % m
  if m < 2 * x then x - m else x

/-- An amount of 2^-40 ns as whole ns, to the nearest, halves away from zero (R414). -/
def roundNs (x : Int) : Int := if x < 0 then -((x.natAbs + 2 ^ 39) / 2 ^ 40 : Nat) else ((x.natAbs + 2 ^ 39) / 2 ^ 40 : Nat)

/-- FRAME_PHASE_MEASURE (R414): at the first boundary in each second of C. -/
def Dev.phaseMeasure (d : Dev) : Dev :=
  if d.tb.lastSecond = d.todS + 1 then d
  else (d.setReg (R .TB_FRAME_PHASE) (unsigned 32 (roundNs d.framePhase))).onTb fun b => { b with lastSecond := d.todS + 1 }

/-- TODCAP_CAPTURE (R415): C at the PT ball with the tree's DS board delay, in whole ns (log entry 50). -/
def Dev.todcapStep (d : Dev) : Dev :=
  d.tb.todTarget.foldl (fun d x =>
    let t := x.2.tree
    if d.lit t ∧ 0 ≤ signed 32 (d.sfc t % 2 ^ 32 + 2 ^ 32 - x.2.sfc) then
      let c := (d.tb.c + d.fld (R .RG_BOARD_DLY t) 15 0 * 2 ^ 40 / 100) / 2 ^ 40 % 2 ^ 64
      let d := d.onTb fun b => { b with todTarget := b.todTarget.erase x.1, todResult := b.todResult.put 0 x.1 c }
      (d.setFld (R .TB_TODCAP_CTL x.1) 30 29 2).raise (R .TB_FLAGS) 19
    else d) d

/-! ### The boundary -/

/-- The SFC of tree t is loaded at this boundary: its armed captures are cancelled (R415). -/
def Dev.loadCancels (d : Dev) (t : Nat) : Dev :=
  if (d.tf t).sfcLoad.isSome then d.todcapCancel fun x => decide (x.tree = t) else d

/-- FRAME_BOUNDARY (R18, R19, R47, R50, R51, R116, R414, R415, R438): in order: the count, the mate lanes that rejoin, the device's state,
the end of the frames, the bins and SFCs of the LIT trees with their evaluation points (a reach that becomes DARK here starts no frame),
the tree commands, the protection unit, the key switches behind the clears of that cycle (R358), the frames, the reaches that light or
darken, the captures and the phase. -/
def Dev.frameBoundary (d : Dev) : Dev :=
  if !d.alive then d
  else
    let d := d.onRx fun x => { x with bnd := x.bnd + 1, bndAt := d.tb.ticks }
    let d := d.litReaches.foldl (fun d r => d.onReach r fun x => { x with darkenIn := x.darkenIn.map (· + 1) }) d
    let d := d.mateRejoins.deviceStep
    let d := d.litTrees.foldl Dev.frameEnd d
    let d := d.litReaches.foldl (fun d r => (d.pmBoundary r).sfcLoadStep r) d
    let d := (d.protTrees.filter d.lit).foldl Dev.pxPre d
    let dark := d.litReaches.filter fun r => d.darkDue r
    let d := d.litTrees.foldl (fun d t => (d.loadCancels t).treeBefore t (dark.contains (t / 8))) d
    let d := upTo 64 d fun t d => d.ponidStep t
    let d := (d.litReaches.foldl Dev.tfCmdStep d).pxBoundary
    let d := (d.litTrees.filter fun t => !dark.contains (t / 8)).foldl Dev.keysBoundary d
    let d := (d.litTrees.filter fun t => !dark.contains (t / 8)).foldl (fun d t => (d.treeAfter t).takeoverStep t) d
    (upTo 8 d fun r d => d.reachStep r).todcapStep.phaseMeasure

/-! ### The aligned instant (R47, R413) -/

/-- C behind n ticks, in 2^-40 ns beyond the C of now (R403, R407). -/
def Dev.growth (d : Dev) (n : Nat) : Int :=
  let a : Nat := min d.tb.rho.natAbs (n * d.slewTerm)
  (n * d.inc : Nat) + if 0 < d.tb.rho then (a : Int) else -(a : Int)

/-- The ticks in which C grows by at least x units of 2^-40 ns. -/
def Dev.ticksFor (d : Dev) (x : Int) : Nat :=
  let r : Int := d.inc + if 0 < d.tb.rho then (d.slewTerm : Int) else if d.tb.rho < 0 then -(d.slewTerm : Int) else 0
  let n := ((x + r - 1) / r).toNat
  if n * d.slewTerm ≤ d.tb.rho.natAbs then n else ((x - d.tb.rho + d.inc - 1) / d.inc).toNat

/-- The distance of C + x from the aligned value of an offset at or before it, in 2^-40 ns. -/
def Dev.alignPhase (d : Dev) (off : Nat) (x : Int) : Int := ((d.tb.c : Int) + x - off * 2 ^ 40) % (125000 * 2 ^ 40)

/-- The ticks until the aligned instant of an alignment asked for at tick n with an OFFSET_NS (R413): the first aligned value that C
reaches at least 250 µs (195,312.5 ticks) later, by its increment or a slew, or at which a step lands. -/
def Dev.alignIn (d0 : Dev) (n : Option Nat) (off : Nat) : Option Nat :=
  let d := d0.commitInc
  n.map fun t =>
    let m := t + 195313 - d.tb.ticks
    let x0 := d.alignPhase off 0
    if m = 0 ∧ (x0 = 0 ∨ (x0 < d.inc ∧ d.tb.stepAt ≠ some d.tb.ticks)) then 0
    else
      let g := d.growth (m - 1)
      d.ticksFor (g + (125000 * 2 ^ 40 - d.alignPhase off g))

/-- ALIGNED_INSTANT (R413): FRAME_ALIGN (`a`) and START (`s`) complete there, and the instant is a boundary of the new phase. -/
def Dev.alignedInstant (d : Dev) (a s : Bool) : Dev :=
  if !(a || s) then d
  else
    let d := d.onTb fun b => { b with offset := if a then b.alignOff else b.startOff }
    let d := if a then (d.onTb fun b => { b with align := none }).completeWaiting .tb 4 .ok [] else d
    let d := if s then ((d.onTb fun b => { b with startAt := none }).toState .running).completeWaiting .im 1 .ok [] else d
    d.frameBoundary

/-- The ticks to the instants of FRAME_ALIGN and of START, where they wait (R47, R413). -/
def Dev.alignTicks (d : Dev) : Option Nat := d.alignIn d.tb.align d.tb.alignOff
def Dev.startTicks (d : Dev) : Option Nat := if d.im.state == .structured then d.alignIn d.tb.startAt d.tb.startOff else none

/-- An ALIGNED_INSTANT event dt ticks later comes no later than the first instant that waits. -/
def Dev.alignBy (d : Dev) (dt : Nat) : Nat := min (min dt (d.alignTicks.getD dt)) (d.startTicks.getD dt)

end Sys2Proof.Machine
end

