-- ==== Sys2Proof/Machine/Windows.lean ====
section
/-! DEFINITION. Command windows and bus accesses (R7 to R9, R26, R53 to R59, R471, R485, R486, R506, R571): the opcodes of each
window, the banks, acceptance and refusal of GO, and the accesses of PF0, the VFs and the cores to BAR0. -/

namespace Sys2Proof.Machine

/-! ### Opcodes (R60, R149, R192, R230, R260, R282, R314, R348, R378, R434, R469, R505, R539) -/

/-- An opcode that the window does not have (R57). -/
def badOpcode : CmdRes := .refuse .badArgument 0

/-- IM_CMD (R60). -/
def imCmd (a : Accepted) (d : Dev) : CmdRes :=
  match a.opcode with
  | 0x01 => opStart a d
  | 0x02 => opQuiesce a d
  | 0x03 => opResume a d
  | 0x04 => opWarmReset a d
  | 0x05 => opLoadHost a d
  | 0x10 => opLoadReach a d
  | 0x11 => opLightReach a d
  | 0x12 => opDarkenReach a d
  | _ => badOpcode

/-- MC_UPD_CMD (R505); `fails` says that the flash does not program. -/
def updCmd (fails : Bool) (a : Accepted) (d : Dev) : CmdRes :=
  match a.opcode with
  | 0x01 => opUpdBegin a d
  | 0x02 => opUpdWrite fails a d
  | 0x03 => opUpdVerify a d
  | 0x04 => opUpdCommit a d
  | 0x05 => opUpdAbort a d
  | 0x06 => opUpdConfirm a d
  | _ => badOpcode

/-- An opcode of a window whose every opcode belongs to PF0 and the cores (R57, R434), or whose opcodes but some do (R539). -/
def trustedOpcode (a : Accepted) : CmdRes := if trusted a.src then badOpcode else .refuse .denied 0

/-- OB_CMD (R539). -/
def obCmd (a : Accepted) (d : Dev) : CmdRes :=
  match a.opcode with
  | 0x01 => opRecRead a d
  | 0x02 => opRecClear a d
  | 0x03 => opRecWrite a d
  | 0x04 => opCntClear a d
  | 0x10 => opStatBind a d
  | 0x11 => opStatRead a d
  | 0x12 => opStatClear a d
  | 0x20 => opSampleRead a d
  | 0x21 => opSampleRestart a d
  | _ => trustedOpcode a

/-- TB_CMD (R434). -/
def tbCmd (a : Accepted) (d : Dev) : CmdRes :=
  match a.opcode with
  | 0x01 => opTimeSet a d
  | 0x02 => opTimeStep a d
  | 0x03 => opTimeSlew a d
  | 0x04 => opFrameAlign a d
  | 0x10 => opGclWrite a d
  | 0x11 => opGclCommit a d
  | 0x12 => opGclCancel a d
  | 0x13 => opGclStop a d
  | 0x14 => opGclRead a d
  | _ => trustedOpcode a

/-- PX_CMD (R469). -/
def pxCmd (a : Accepted) (d : Dev) : CmdRes :=
  match a.opcode with
  | 0x01 => opPxSwitch a d
  | 0x02 => opLockout a d
  | 0x03 => opLockoutClear a d
  | 0x04 => opJoin a d
  | 0x05 => opResync a d
  | 0x10 => opPairKey a d
  | 0x11 => opPairKeyClear a d
  | _ => badOpcode

/-- PC_CMD (R260). -/
def pcCmd (a : Accepted) (d : Dev) : CmdRes :=
  match a.opcode with
  | 0x01 => opRuleWrite a d
  | 0x02 => opRuleRead a d
  | 0x03 => opKeyProfileWrite a d
  | 0x04 => opKeyProfileRead a d
  | 0x05 => opMirrorWrite a d
  | 0x06 => opMirrorRead a d
  | 0x10 => opBankCopy a d
  | 0x11 => opBankSwap a d
  | 0x12 => opBankClear a d
  | _ => badOpcode

/-- FS_CMD (R282). -/
def fsCmd (a : Accepted) (d : Dev) : CmdRes :=
  match a.opcode with
  | 0x01 => opInsert a d
  | 0x02 => opUpdate a d
  | 0x03 => opDelete a d
  | 0x04 => opLookup a d
  | 0x05 => opSlotRead a d
  | 0x10 => opRebuild a d
  | 0x20 => opPolicerWrite a d
  | 0x21 => opPolicerRead a d
  | 0x22 => opProfWrite a d
  | 0x23 => opProfRead a d
  | _ => badOpcode

/-- TM_CMD (R314). -/
def tmCmd (a : Accepted) (d : Dev) : CmdRes :=
  match a.opcode with
  | 0x01 => opQueueWrite a d
  | 0x02 => opQueueRead a d
  | 0x03 => opQueueFlush a d
  | 0x04 => opQueueHold a d
  | 0x10 => opNodeWrite a d
  | 0x11 => opNodeRead a d
  | 0x20 => opShaperWrite a d
  | 0x21 => opShaperRead a d
  | _ => badOpcode

/-- BP_CMD (R348). -/
def bpCmd (a : Accepted) (d : Dev) : CmdRes :=
  match a.opcode with
  | 0x01 => opBufAlloc a d
  | 0x02 => opBufFree a d
  | 0x03 => opCellRead a d
  | 0x04 => opCellWrite a d
  | 0x10 => opCellRetire a d
  | 0x11 => opRetireRead a d
  | 0x20 => opReclaim a d
  | 0x21 => opEccInject a d
  | _ => trustedOpcode a

/-- CE_CMD (R378). -/
def ceCmd (a : Accepted) (d : Dev) : CmdRes :=
  match a.opcode with
  | 0x01 => opPonKeyInstall a d
  | 0x02 => opPonKeySwitch a d
  | 0x03 => opPonKeyClear a d
  | 0x04 => opPonKeyRead a d
  | 0x10 => opMsSaKey a d
  | 0x11 => opMsSaParam a d
  | 0x12 => opMsSaPn a d
  | 0x13 => opMsSaEnable a d
  | 0x14 => opMsSaDisable a d
  | 0x15 => opMsSaRead a d
  | 0x20 => opLaKeyWrite a d
  | 0x21 => opLaKeyClear a d
  | 0x22 => opLaKeyRead a d
  | _ => badOpcode

/-- TF_CMD of reach r (R149). -/
def tfCmd (r : Nat) (a : Accepted) (d : Dev) : CmdRes :=
  match a.opcode with
  | 0x01 => opTreeOff r a d
  | 0x02 => opTreeStandby r a d
  | 0x03 => opTreeActive r a d
  | 0x04 => opSetSfc r a d
  | 0x10 => opTermDefects r a d
  | 0x20 => opPmRead r a d
  | 0x21 => opPmResetCurrent r a d
  | 0x30 => opXgemPortAdd r a d
  | 0x31 => opXgemPortDel r a d
  | 0x32 => opXgemPortRead r a d
  | _ => badOpcode

/-- RG_CMD of reach r (R192). -/
def rgCmd (r : Nat) (a : Accepted) (d : Dev) : CmdRes :=
  match a.opcode with
  | 0x01 => opTermProvision r a d
  | 0x02 => opTermAssign r a d
  | 0x03 => opTermDeactivate r a d
  | 0x04 => opTermDisable r a d
  | 0x05 => opTermEnable r a d
  | 0x06 => opTermRelease r a d
  | 0x07 => opTermSetIk r a d
  | 0x08 => opTermRead r a d
  | 0x10 => opProfileRead r a d
  | 0x11 => opProfileInvalidate r a d
  | 0x20 => opPloamTail r a d
  | 0x21 => opPloamSend r a d
  | _ => badOpcode

/-- GS_ALLOC_CMD of tree t (R230). -/
def gsCmd (t : Nat) (a : Accepted) (d : Dev) : CmdRes :=
  match a.opcode with
  | 0x01 => opAllocAdd t a d
  | 0x02 => opAllocModify t a d
  | 0x03 => opAllocDel t a d
  | 0x04 => opAllocRead t a d
  | 0x05 => opPredRead t a d
  | 0x06 => opPredReset t a d
  | 0x08 => opMapRead t a d
  | _ => badOpcode

/-- The running command of a window executes. -/
def runOp (fails : Bool) (w : Win) (a : Accepted) (d : Dev) : CmdRes :=
  match w with
  | .im => imCmd a d
  | .upd => updCmd fails a d
  | .ob => obCmd a d
  | .tb => tbCmd a d
  | .px => pxCmd a d
  | .pc => pcCmd a d
  | .fs => fsCmd a d
  | .tm => tmCmd a d
  | .bp => bpCmd a d
  | .ce => ceCmd a d
  | .tf r => tfCmd r a d
  | .rg r => rgCmd r a d
  | .gs t => gsCmd t a d

/-- The accepted commands of a window run one at a time, in order of acceptance, until one waits or none is left (R56). -/
def Dev.runWin (fails : Bool) : Nat → Dev → Win → Dev
  | 0, d, _ => d
  | n + 1, d, w =>
    if (d.win w).waiting then d
    else
      match (d.win w).queue with
      | [] => d
      | a :: _ => Dev.runWin fails n (d.finish w a (runOp fails w a d)) w

/-- A GO in the bank of a source (R56): accepted when BUSY = 0, or noted as rejected. -/
def Dev.issue (d : Dev) (fails : Bool) (w : Win) (src : Src) : Dev :=
  let b := (d.win w).bank (bankOf src)
  if b.busy then d.onWin w fun x => x.onBank (bankOf src) fun b => { b with rejValid := true, rejSeq := b.seq }
  else
    let d := d.onWin w fun x =>
      { x.onBank (bankOf src) fun b => { b with busy := true, done := false, status := 0, echoSeq := b.seq } with
        queue := x.queue ++ [⟨src, b.opcode, b.seq, b.obj, b.data, false⟩] }
    d.runWin fails (d.win w).queue.length w

/-! ### Banks (R53 to R55) -/

/-- A word of a bank, at its offset (R53 to R55). -/
def Bank.word (b : Bank) (o : Nat) : Nat :=
  if o < 0x20 then b.data.getD (o / 4) 0
  else if o = 0x20 then b.obj
  else if o = 0x24 then b.seq * 2 ^ 8 + b.opcode
  else b2n b.busy * 2 ^ 31 + b2n b.done * 2 ^ 30 + b2n b.rejValid * 2 ^ 29 + b.rejSeq * 2 ^ 16 + b.echoSeq * 2 ^ 8 + b.status

/-- A write of a word of a bank (R53 to R56); GO issues. -/
def Dev.bankWrite (d : Dev) (fails : Bool) (w : Win) (src : Src) (o v : Nat) : Dev :=
  let f (g : Bank → Bank) : Dev := d.onWin w fun x => x.onBank (bankOf src) g
  if o < 0x20 then f fun b => { b with data := b.data.set (o / 4) v }
  else if o = 0x20 then f fun b => { b with obj := v }
  else if o = 0x24 then
    let d := f fun b => { b with seq := bits v 15 8, opcode := bits v 7 0 }
    if bit v 31 then d.issue fails w src else d
  else f fun b => { b with done := b.done && !bit v 30, rejValid := b.rejValid && !bit v 29 }

/-- The window and the offset in it that an address names. -/
def winAt (a : Nat) : Option (Win × Nat) :=
  let w : Option Win :=
    if 0x1000000 ≤ a ∧ a < 0x1800000 then
      let r := (a - 0x1000000) / 0x100000
      let o := a % 0x100000
      if 0xC0100 ≤ o ∧ o < 0xC012C then some (.tf r)
      else if 0xC0200 ≤ o ∧ o < 0xC022C then some (.rg r)
      else if 0x80000 ≤ o ∧ o < 0xC0000 then some (.gs (8 * r + (o - 0x80000) / 0x8000))
      else none
    else [Win.im, .upd, .ob, .tb, .px, .pc, .fs, .tm, .bp, .ce].find? fun w => decide (w.base ≤ a ∧ a < w.base + 44)
  w.bind fun w => if w.base ≤ a ∧ a < w.base + 44 then some (w, a - w.base) else none

/-- The structure gives the device the window (R17, R463). -/
def Dev.winThere (d : Dev) (w : Win) : Bool :=
  match w with
  | .tf r => d.reachExists r
  | .rg r => d.reachExists r
  | .gs t => d.treeExists t
  | .px => d.im.str.role != 0
  | _ => true

/-- A VF's view maps the window (R53, R485, R486): IM_CMD, PC_CMD and MC_UPD_CMD lie outside every view. GS_ALLOC_CMD of a tree outside the
slice lies in the view, and its opcodes complete with DENIED (R230). -/
def Dev.winOpen (d : Dev) (_s : Nat) (w : Win) : Bool :=
  match w with
  | .im => false
  | .upd => false
  | .pc => false
  | .gs t => d.treeExists t
  | _ => true

/-! ### The MSI-X tables (R506) -/

/-- The vectors of the MSI-X table or pending bits at an address: the function's first vector, its count and the offset. -/
def msixAt (a : Nat) : Option (Nat × Nat × Nat) :=
  if 0xF0000 ≤ a ∧ a < 0xF0400 then some (0, 64, a - 0xF0000)
  else if 0xF8000 ≤ a ∧ a < 0xF8008 then some (0, 64, 0x1000 + a - 0xF8000)
  else if 0x10000 ≤ a ∧ a < 0x50000 then
    let s := (a - 0x10000) / 0x4000
    let o := (a - 0x10000) % 0x4000
    if 0x2000 ≤ o ∧ o < 0x2040 then some (64 + 4 * s, 4, o - 0x2000)
    else if 0x3000 ≤ o ∧ o < 0x3004 then some (64 + 4 * s, 4, o - 0x2000)
    else none
  else none

/-- A word of a table, or of the pending bits. -/
def Dev.msixRead (d : Dev) (v n o a : Nat) : Nat :=
  if o < 0x1000 then d.msixWord a
  else (List.range (min n 32)).foldl (fun x i =>
    if (d.mc.vecs.getD (v + 8 * (o - 0x1000) + i) Vec.rest).pending then x + 2 ^ i else x) 0

/-- A write of a table word: of the vector control word, the mask bit alone; the pending bits are read-only. -/
def Dev.msixWrite (d : Dev) (o a v : Nat) : Dev :=
  if o < 0x1000 then
    d.onMc fun m => { m with msix := m.msix.put (msixRest a) a (if a % 16 = 12 then v % 2 else v) }
  else d

/-! ### One word on the bus -/

/-- What lies at a BAR0 address (R9). -/
inductive BusPlace where
  | reg (r : Reg)
  | win (w : Win) (o : Nat)
  | msix (v n o : Nat)
  | hole

/-- What answers at a BAR0 address in the device's state. -/
def Dev.placeAt (d : Dev) (a : Nat) : BusPlace :=
  match d.regAt a with
  | some r => .reg r
  | none =>
    if !d.answers a ∨ a % 4 ≠ 0 then .hole
    else
      match winAt a, msixAt a with
      | some (w, o), _ => if d.winThere w then .win w o else .hole
      | none, some (v, n, o) => .msix v n o
      | none, none => .hole

/-- A place is open to VF s (R485, R486). -/
def Dev.placeOpen (d : Dev) (s : Nat) (p : BusPlace) (write : Bool) : Bool :=
  match p with
  | .reg r => d.vfOpen s r write
  | .win w _ => d.winOpen s w
  | .msix v _ _ => v == 64 + 4 * s
  | .hole => false

/-- A read of what lies at an address. -/
def Dev.placeRead (d : Dev) (src : Src) (a : Nat) (p : BusPlace) : Dev :=
  match p with
  | .reg r => d.regRead src r
  | .win w o => d.respond (.data (((d.win w).bank (bankOf src)).word o))
  | .msix v n o => d.respond (.data (d.msixRead v n o a))
  | .hole => d.respond (.data 0)

/-- A write of what lies at an address. -/
def Dev.placeWrite (d : Dev) (fails : Bool) (src : Src) (a : Nat) (p : BusPlace) (v : Nat) : Dev :=
  match p with
  | .reg r => d.regWrite src r v
  | .win w o => d.bankWrite fails w src o v
  | .msix _ _ o => d.msixWrite o a v
  | .hole => d

/-- A discarded partial write (R7): counted, and recorded with its address when it is the first since the counter's clear. -/
def Dev.partialWrite (d : Dev) (a : Nat) : Dev :=
  let d := d.count 0x18
  if d.ob.partialNoted then d else (d.onOb fun o => { o with partialNoted := true }).record 0x18 .mc 0 false [(4, a)]

/-- A core's access to the register window that is not 32 bits wide (R471). -/
def Dev.coreFault (d : Dev) (c a : Nat) : Dev := ((d.count 0x1D).record 0x1D .mc c false [(4, a)]).respond .fault

/-- A VF's access to its scratchpad aperture, a 32-bit half of a word at a time (R475, R485). -/
def Dev.apertureAccess (d : Dev) (s off : Nat) (write : Bool) (be v : Nat) : Dev :=
  let hi := decide (off % 8 = 4)
  let a : SpAcc := ⟨.vf s, off - 0x20000, write, false, if hi then 16 * (be % 16) else be % 16, if hi then 2 ^ 32 * v else v, .pad⟩
  let d := d.scratchAccess [a] 0
  let d := d.spDrain d.mc.spWait.length
  match write, d.mc.completion with
  | false, some (.data w) => d.respond (.data (if hi then w / 2 ^ 32 else w % 2 ^ 32))
  | _, _ => d

/-- The source's accesses reach the device (R46, R484, R549): out of HELD; PF0 and the enabled VFs in D0 while PCIE_PERST_N is high. -/
def Dev.busUp (d : Dev) (src : Src) : Bool :=
  d.im.state != .held && match src with
    | .pf0 => d.pins.perstN && d.mc.pcie.up 0
    | .vf s => d.pins.perstN && decide (s < 16) && d.mc.pcie.up (1 + s)
    | .core c => decide (c < 4)
    | .dma c => decide (c < 4)

/-- A read of one word at offset `off` of the source's space (R7, R9, R471, R485, R486). -/
def Dev.busRead (d : Dev) (src : Src) (off be : Nat) : Dev :=
  if !d.busUp src then d
  else
    match src with
    | .vf s =>
      if 0x20000 ≤ off ∧ off < 0x30000 then d.apertureAccess s off false 15 0
      else
        match vfToPf s off with
        | none => d.outOfSlice s off 0xFFFFFFFF false
        | some a =>
          let p := d.placeAt a
          if d.placeOpen s p false then d.placeRead src a p else d.outOfSlice s off a false
    | .core c =>
      if 0x4000000 ≤ off then d.respond .fault
      else if be % 16 ≠ 15 then d.coreFault c off
      else d.placeRead src off (d.placeAt off)
    | _ => d.placeRead src off (d.placeAt off)

/-- A write of one word (R7, R9, R471, R485, R486); what is out of slice is so before it is partial. -/
def Dev.busWrite (d : Dev) (fails : Bool) (src : Src) (off be v : Nat) : Dev :=
  if !d.busUp src then d
  else
    let v := v % 2 ^ 32
    let put (a : Nat) (p : BusPlace) : Dev :=
      match p with
      | .hole => d
      | _ => if be % 16 ≠ 15 then d.partialWrite a else d.placeWrite fails src a p v
    match src with
    | .vf s =>
      if 0x20000 ≤ off ∧ off < 0x30000 then d.apertureAccess s off true be v
      else
        match vfToPf s off with
        | none => d.outOfSlice s off 0xFFFFFFFF true
        | some a =>
          let p := d.placeAt a
          if d.placeOpen s p true then put a p else d.outOfSlice s off a true
    | .core c =>
      if 0x4000000 ≤ off then d.respond .fault
      else if be % 16 ≠ 15 then d.coreFault c off
      else put off (d.placeAt off)
    | _ => put off (d.placeAt off)

/-! ### Accesses over several words (R8) -/

/-- The words of a read joined, low word first; anything else than data stands for the whole (R8). -/
def joinRead (x : Option Completion) (c : Option Completion) (n : Nat) : Option Completion :=
  match x, c with
  | some (.data v), some (.data w) => some (.data (v + w * 2 ^ (32 * n)))
  | some (.data _), y => y
  | x, _ => x

/-- A read of n words in rising address order. -/
def Dev.readWords (d : Dev) (src : Src) (off be : Nat) : Nat → Dev
  | 0 => d
  | 1 => d.busRead src off be
  | n + 1 =>
    let d1 := d.readWords src off be n
    let c := d1.mc.completion
    let d2 := d1.busRead src (off + 4 * n) be
    d2.onMc fun m => { m with completion := joinRead c m.completion n }

/-- An access of a source (R7 to R9), where its accesses reach the device (R46, R549), or a configuration request (R484). -/
def Dev.access (d : Dev) (src : Src) (off : Nat) (a : BusAcc) : Dev :=
  match a with
  | .read be n => if d.busUp src then d.readWords src off be n else d
  | .write ws =>
    if d.busUp src then ((List.range ws.length).zip ws).foldl (fun d x => d.busWrite false src (off + 4 * x.1) x.2.1 x.2.2) d else d
  | .cfgRead f => d.cfgAccess src f none
  | .cfgWrite f v => d.cfgAccess src f (some v)

/-- The BAR0 address that a source's offset names (R485). -/
def busAddr (src : Src) (off : Nat) : Option Nat :=
  match src with
  | .vf s => vfToPf s off
  | _ => some off

/-- A word of a write: its source, offset, byte enables and value. -/
structure WordW where
  src : Src
  off : Nat
  be : Nat
  v : Nat
  deriving DecidableEq, Repr

/-- The word names a register whose bits software clears by writing 1 (R69). -/
def Dev.clearsFlags (d : Dev) (x : WordW) : Bool :=
  match (busAddr x.src x.off).bind d.regAt with
  | some r => r.name.fields.any fun f => f.acc == .w1c
  | none => false

/-- The word gives a GO that reaches its bank (R53 to R56). -/
def Dev.givesGo (d : Dev) (x : WordW) : Bool :=
  match busAddr x.src x.off with
  | none => false
  | some a =>
    let p := d.placeAt a
    let open_ := match x.src with
      | .vf s => !decide (0x20000 ≤ x.off ∧ x.off < 0x30000) && d.placeOpen s p true
      | _ => true
    match p with
    | .win _ o => o == 0x24 && x.be % 16 == 15 && bit x.v 31 && d.busUp x.src && open_
    | _ => false

/-- A word of a write reaches the bus. -/
def Dev.putWord (d : Dev) (x : WordW) : Dev := if d.busUp x.src then d.busWrite false x.src x.off x.be x.v else d

/-- Accesses of several sources in one cycle. In ascending source port number (R71), so that the value left is that of the highest: first
the clears of flags, so that a flag that hardware sets in the cycle stays set (R69); then the rest; last the GOs, whose commands run from
PF0 by the VFs to the cores (R56). Where software writes a field in the cycle in which hardware updates it, the hardware's command
stands before this one in the queue, and the software value is kept (R71; log 106). -/
def Dev.sameCycle (d : Dev) (src : Src) (off : Nat) (a : BusAcc) (also : List (Src × Nat × BusAcc)) : Dev :=
  match also with
  | [] => d.access src off a
  | _ =>
    let all := (List.range 16).flatMap fun p => ((src, off, a) :: also).filter fun x => portOf x.1 == p
    let words := all.flatMap fun x =>
      match x.2.2 with
      | .write ws => ((List.range ws.length).zip ws).map fun y => (⟨x.1, x.2.1 + 4 * y.1, y.2.1, y.2.2⟩ : WordW)
      | _ => []
    let gos := words.filter d.givesGo
    let d1 := (words.filter d.clearsFlags).foldl Dev.putWord d
    let d2 := all.foldl (fun e x =>
      match x.2.2 with
      | .cfgRead f => e.cfgAccess x.1 f none
      | .cfgWrite f v => e.cfgAccess x.1 f (some v)
      | .read be n => if e.busUp x.1 then e.readWords x.1 x.2.1 be n else e
      | .write ws => ((List.range ws.length).zip ws).foldl (fun e y =>
          let w : WordW := ⟨x.1, x.2.1 + 4 * y.1, y.2.1, y.2.2⟩
          if d.clearsFlags w then e else e.putWord (if d.givesGo w then { w with v := w.v % 2 ^ 31 } else w)) e) d1
    let d3 := (List.range 21).foldl (fun e k => (gos.filter fun x => bankOf x.src == k).foldl Dev.putWord e) d2
    d3.seamStall 0x7F2 0 (all.filter fun x => d.busUp x.1).length

/-! ### Rows that name a register or an opcode -/

/-- Where a source addresses a BAR0 address: a VF at its own offset (R485). -/
def srcOff (src : Src) (a : Nat) : Option Nat :=
  match src with
  | .vf s => pfToVf s a
  | _ => some a

/-- A write of a named register by a source; one that no VF offset reaches is out of slice (log entry 51). -/
def Dev.writeReg (d : Dev) (src : Src) (r : Reg) (v : Nat) : Dev :=
  if Reg.ofAddr r.addr ≠ some r then d
  else
    match srcOff src r.addr, src with
    | some off, _ => d.busWrite false src off 15 v
    | none, .vf s => if d.busUp src then d.outOfSlice s 0xFFFFFFFF r.addr true else d
    | none, _ => d

/-- A read of a named register by a source. -/
def Dev.readReg (d : Dev) (src : Src) (r : Reg) : Dev :=
  if Reg.ofAddr r.addr ≠ some r then d
  else
    match srcOff src r.addr, src with
    | some off, _ => d.busRead src off 15
    | none, .vf s => if d.busUp src then d.outOfSlice s 0xFFFFFFFF r.addr false else d
    | none, _ => d

/-- The words +0x00 to +0x27 of a window, as one TLP writes them (R56). -/
def cmdWords (op : Nat) (c : CmdArgs) : List Nat :=
  (List.range 8).map (fun i => c.data.getD i 0) ++ [c.obj, 2 ^ 31 + c.seq % 256 * 2 ^ 8 + op]

/-- A command issued in a window (R53, R56): arguments, object and GO. -/
def Dev.command (d : Dev) (fails : Bool) (w : Win) (op : Nat) (c : CmdArgs) : Dev :=
  let ws := (List.range 10).zip (cmdWords op c)
  match srcOff c.src w.base, c.src with
  | some off, _ => ws.foldl (fun d x => d.busWrite fails c.src (off + 4 * x.1) 15 x.2) d
  | none, .vf s => if d.busUp c.src then d.outOfSlice s 0xFFFFFFFF w.base true else d
  | none, _ => d

end Sys2Proof.Machine
end

