-- ==== Sys2Proof/Machine/Settle.lean ====
section
/-! DEFINITION. What follows every command within the same step: windows whose running command has just completed go on (R56),
flow control and link aggregation follow their conditions (R390, R393), level-set flags follow theirs (R68), and interrupts are
delivered (R494). -/

namespace Sys2Proof.Machine

/-- The windows that an event has set free run on (R56); the fuel bounds the commands that can complete. -/
def Dev.runKicks : Nat → Dev → Dev
  | 0, d => { d with kicks := [] }
  | n + 1, d =>
    match d.kicks with
    | [] => d
    | k :: ks =>
      let d := { d with kicks := ks }
      match Win.ofBase k with
      | some w => Dev.runKicks n (d.runWin false (d.win w).queue.length w)
      | none => Dev.runKicks n d

/-- The fuel that `runKicks` needs: the kicks there are and the commands that wait. -/
def Dev.kickFuel (d : Dev) : Nat := (d.wins.map fun w => w.2.queue.length).foldl (· + ·) (d.kicks.length + 1)

/-- A level-set flag whose condition holds, where the start of the condition is counted when it begins. -/
def Dev.holdLevel (d : Dev) (c : Bool) (r : Reg) (b : Nat) : Dev := if c then d.setFld r b b 1 else d

/-- A level-set flag against its condition before and after the step (R68). -/
def Dev.stepLevel (d : Dev) (before after : Bool) (r : Reg) (b : Nat) : Dev := if after then d.raiseLevel r b !before else d

/-- COOP_TABLE_FULL of reach r (R218): set while the entry that waits has no place. -/
def Dev.coopLevel (d : Dev) (r : Nat) : Dev :=
  match (d.coop r).full with
  | some t => if (d.coop r).noPlace t then d.setFld (R .GS_RFLAGS r) 3 3 1 else d.onCoop r fun x => { x with full := none }
  | none => d

/-- The condition of a level-set flag's event holds (R68; the events of `levelClock`). -/
def Dev.levelHolds (d : Dev) (e : Nat) : Bool :=
  if e = 7 then d.thermWarn
  else if e = 0x74 then d.drifts
  else if e = 0x83 then !d.phaseOk
  else if e = 0xC2 then d.stashHigh
  else if e < 0x340 then
    let r := (e - 0x140) / 64
    if (e - 0x140) % 64 = 26 then d.rx.gs.any fun g => g.1 / 8 == r && !g.2.rangeReq.isEmpty
    else match (d.coop r).full with
      | some t => (d.coop r).noPlace t
      | none => false
  else d.lx.skewed.contains ((e - 0x800) / 16)

/-- The cycles of an island's clock in a number of ticks from 0 on (R530). -/
def clockCycles (c : Nat × Nat) (ticks : Nat) : Nat := ticks * c.1 / c.2

/-- A programmable counter in MODE 1 that counts a level event: the cycles of the ticks that the step let pass, under the condition
as it stood before the step (R68, R530; log 105). -/
def Dev.levelStep (d0 d : Dev) (kv : Nat × RegWord) : Dev :=
  let w := kv.2.toNat
  let e := bits w 11 0
  match levelClock e with
  | some c =>
    let n := clockCycles c d.tb.ticks - clockCycles c d0.tb.ticks
    if n ≠ 0 ∧ 0x100200 ≤ kv.1 ∧ kv.1 < 0x100300 ∧ bits w 31 30 = 3 ∧ d0.levelHolds e then
      let k := (kv.1 - 0x100200) / 4
      (d.pcntGrow k n).countN 0x45 (b2n (2 ^ 48 ≤ d.ob.pcnt.getD k 0 + n))
    else d
  | none => d

/-- The programmable counters in MODE 1 over the time of a step (R530). -/
def Dev.levelTime (d0 d : Dev) : Dev := d.regs.foldl (Dev.levelStep d0) d

/-! ### What the cores retire (R528, R532) -/

/-- A sample of core c (R532): what the instruction was is free, with a compressed word zero-extended; the last entry sets INS_FULL. -/
def Dev.coreEntry (d : Dev) (c : Nat) : Dev :=
  let k := d.ob.coreDraw
  let info := Config.coreValue (k + 14) % 16
  let f := (List.range 14).map fun i => BitVec.ofNat 8 (Config.coreValue (k + i))
  let e := (if info % 2 = 1 then f.take 10 ++ [0, 0] ++ f.drop 12 else f) ++ [BitVec.ofNat 8 info, 0]
  let buf := d.ob.insBuf.getD c [] ++ [e]
  (d.onOb fun o => { o with insBuf := o.insBuf.put [] c buf, coreDraw := k + 15 }).raiseIf (decide (256 ≤ buf.length)) (R .OB_FLAGS) (6 + c)

/-- Core c samples over `left` retired instructions (R532): one place in each run, up to a full buffer. The fuel is more than the runs that a
buffer takes. -/
def Dev.coreSample (c : Nat) : Nat → Dev → Nat → Dev
  | 0, d, _ => d
  | k + 1, d, left =>
    if left = 0 ∨ 256 ≤ (d.ob.insBuf.getD c []).length then d
    else
      let log2 := d.fld (R .OB_SAMP_CFG) 4 0
      let x := d.ob.insRun.getD c (0, 0)
      let place := Config.samplePlace (32 * (c + 1) + log2) x.2 % 2 ^ log2
      let done := decide (2 ^ log2 ≤ x.1 + left)
      let d1 := if x.1 ≤ place ∧ place < x.1 + left then d.coreEntry c else d
      let d2 := d1.onOb fun o => { o with insRun := o.insRun.put (0, 0) c (if done then (0, x.2 + 1) else (x.1 + left, x.2)) }
      Dev.coreSample c k d2 (if done then x.1 + left - 2 ^ log2 else 0)

/-- Something counts or samples what core c retires. -/
def Dev.coreWatched (d : Dev) (c : Nat) : Bool :=
  d.flag (R .OB_SAMP_CFG) (8 + c) || d.regs.any fun kv => pcntHit (0xAE0 + c) kv || pcntHit (0xAE4 + c) kv

/-- The cycles that a step let pass for core c (R528, R532; log entry 81): in how many of them a running core retires nothing, and how much in
the others, are free values. -/
def Dev.coreStep (d0 d : Dev) (c : Nat) : Dev :=
  let n := clockCycles (256, 125) d.tb.ticks - clockCycles (256, 125) d0.tb.ticks
  if n = 0 ∨ !d.coreWatched c then d
  else
    let k := d.ob.coreDraw
    let runs := (d0.core c).running
    let idle := if runs then Config.coreValue k % (n + 1) else n
    let busy := n - idle
    let retired := if busy = 0 then 0 else busy + Config.coreValue (k + 1)
    let d := d.onOb fun o => { o with coreDraw := k + 2 }
    let d := Dev.countBy 68 (Dev.countBy 68 d (0xAE0 + c) retired retired busy) (0xAE4 + c) idle idle idle
    if d.flag (R .OB_SAMP_CFG) (8 + c) then Dev.coreSample c 258 d retired else d

/-- The cores over the time of a step. -/
def Dev.coreTime (d0 d : Dev) : Dev := upTo 4 d fun c d => Dev.coreStep d0 d c

/-- The level-set flags (R68): SKEW_EXCEEDED (R88), RANGE_WAIT (R215), COOP_TABLE_FULL (R218), STASH_HIGH (R281), PHASE_BAD (R459),
FRAME_DRIFT (R414) and THERM_WARN (R498). -/
def Dev.levels (d0 d : Dev) : Dev :=
  let d := Dev.coreTime d0 (Dev.levelTime d0 d)
  let d := d.lx.skewed.foldl (fun d n =>
    d.holdLevel (decide (n < 16)) (if n < 12 then R .LX_UL_FLAGS n else R .LX_ML_FLAGS (n - 12)) 5) d
  let d := d.rx.gs.foldl (fun d g => d.holdLevel (decide (g.1 < 64) && !g.2.rangeReq.isEmpty) (R .GS_FLAGS g.1) 6) d
  let d := upTo 8 d fun r d => d.coopLevel r
  let d := (d.holdLevel d.stashHigh (R .FS_FLAGS) 2).holdLevel (!d.phaseOk) (R .PX_FLAGS) 3
  let d := d.stepLevel d0.drifts d.drifts (R .TB_FLAGS) 20
  d.stepLevel d0.thermWarn d.thermWarn (R .MC_FLAGS) 7

/-- The step's end, from the device before the command and after it; in HELD nothing runs and no command waits (R46). -/
def Dev.settle (d0 d : Dev) : Dev :=
  if d.im.state = .held then { d with kicks := [] }
  else
    let d := d.runKicks d.kickFuel
    (Dev.levels d0 (if d.alive then d.fcEvaluate else d).lagSync).deliver

end Sys2Proof.Machine
end

