-- ==== Sys2Proof/Machine/State.lean ====
section
/-! DEFINITION. The state of the machine: the device and the queue of the commands that wait for it, and the state after reset. -/

namespace Sys2Proof.Machine

/-- The device, and the commands that wait, first in, first out (the queue is the model's own: log entry 52). -/
structure State where
  dev : Dev
  pending : List Instr
  deriving DecidableEq, Repr

/-- No command ends in a fault: the spec gives each an effect, and what it calls a fault (a load error, a Completer Abort, an
uncorrectable word) leaves the device running on. -/
inductive Fault where
  deriving DecidableEq, Repr

/-- Why a command has no next state. -/
inductive Refusal where
  /-- The command of this mnemonic has no meaning yet; raised by the arms of `exec`. Safe: the machine stops where the hardware
  goes on. No arm raises it. -/
  | notModelled (mnemonic : String)
  deriving DecidableEq, Repr

/-- The pins at power-on as the model takes them (log entry 53): rails and references good, PORST_N released, no test, straps 0b00,
the TAP in Test-Logic-Reset with IDCODE selected (R566), a regulator that acknowledges. -/
def pinsUp : PinState where
  porstN := true
  srstN := true
  railsGood := true
  pwrfailN := true
  perstN := true
  refSys := true
  refEth := true
  refPon := true
  testEn := false
  straps := 0
  jtag := 0x02
  bsr := 0
  tdo := 0
  avsAck := true

/-- A blank boot flash (log entry 53). -/
def flashBlank : Flash := ⟨[]⟩

/-- Unprogrammed fuses but for the STEPPING that MC_ID_DEVICE reads (R500; log entry 53). -/
def fusesBlank : Fuses := ⟨0x11, [0, 0, 0, 0], 0, 0, 0, 0, 0, 0⟩

/-- A fitted, blank NOR recorder memory of 128 MiB (log entry 53). -/
def recBlank : RecMem := ⟨true, true, 134217728, false, []⟩

/-- The machine right after the start instant S of a cold start (R545): BOOTING, every register at its reset value, no command
waiting. -/
def State.reset : State := ⟨(Dev.heldOf pinsUp flashBlank fusesBlank [] recBlank).startInstant, []⟩

end Sys2Proof.Machine
end

