-- ==== Sys2Proof/WellFormed.lean ====
section
/-! DEFINITION. Which commands are well formed: their operands name an object that the rows give them (R7, R14, R29, R36, R53, R72,
R379). An event that names none does not occur: only its time passes. -/

namespace Sys2Proof

/-- A 32-bit word. -/
def okWord (v : Nat) : Bool := decide (v < 2 ^ 32)

/-- A source exists: 16 VFs, four cores and their DMA channels (R53, R470, R485). -/
def okSrc : Src → Bool
  | .pf0 => true
  | .vf n => decide (n < 16)
  | .core c => decide (c < 4)
  | .dma c => decide (c < 4)

/-- A lane exists: 64 PT, 64 PB, 12 UL and 4 ML lanes (R72). -/
def LaneKind.has (k : LaneKind) (i : Nat) : Bool :=
  match k with
  | .pt => decide (i < 64)
  | .pb => decide (i < 64)
  | .ul => decide (i < 12)
  | .ml => decide (i < 4)

/-- An access carries at least one word; a word has 32 bits and four byte enables (R7, R8). -/
def BusAcc.ok : BusAcc → Bool
  | .read be n => decide (be < 16) && decide (1 ≤ n)
  | .write ws => !ws.isEmpty && ws.all fun w => decide (w.1 < 16) && okWord w.2
  | .cfgRead _ => true
  | .cfgWrite _ v => decide (v < 2 ^ 64)

/-- A paired register exists (R570). -/
def LowPair.ok : LowPair → Bool
  | .ponid t => decide (t < 64)
  | .inc => true
  | .cmpTgt n => decide (n < 8)
  | .pnThresh => true

/-- The words of a command: SEQ of 8 bits, _OBJ of 32, at most eight _DATA words (R53 to R55). -/
def CmdArgs.ok (c : CmdArgs) : Bool :=
  okSrc c.src && decide (c.seq < 256) && okWord c.obj && decide (c.data.length ≤ 8) && c.data.all okWord

/-- The operands of a command name an object that the table gives it. -/
def Instr.wf : Instr → Bool
  | .registerWrite src _ a => okSrc src && a.acc.ok && a.also.all fun x => okSrc x.1 && x.2.2.ok
  | .outOfSliceAccess v _ a => okSrc (.vf v) && a.ok
  | .lowWordWrite src p v => okSrc src && p.ok && okWord v
  | .ponidHiWrite src t v => okSrc src && decide (t < 64) && okWord v
  | .incHiWrite src v => okSrc src && okWord v
  | .cmpTgtHiWrite src n v => okSrc src && decide (n < 8) && okWord v
  | .pnThreshHiWrite src v => okSrc src && okWord v
  | .sfcLoRead src t => okSrc src && decide (t < 64)
  | .ulStatLoRead src u j => okSrc src && decide (u < 12) && decide (j < 22)
  | .mgmtStatLoRead src j => okSrc src && decide (j < 8)
  | .cntLoRead src prog n => okSrc src && decide (n < if prog then 64 else 2048)
  | .nowLoRead src => okSrc src
  | .todNsRead src => okSrc src
  | .capLoRead src n => okSrc src && decide (n < 5)
  | .todcapTLoRead src n => okSrc src && decide (n < 4)
  | .freeErrRead src => okSrc src
  | .porstN _ _ straps _ => decide (straps < 4)
  | .srstN _ _ => true
  | .pwrfailNFall _ _ => true
  | .pciePerstN _ _ => true
  | .refclkLoss _ _ => true
  | .refclkReturn _ _ => true
  | .jtagInstruction _ j => decide (j.code < 256)
  | .bootLoad _ _ => true
  | .start c => c.ok
  | .quiesce c => c.ok
  | .resume c => c.ok
  | .warmReset c => c.ok
  | .loadHost c => c.ok
  | .loadReach c => c.ok
  | .reachLoadDone _ _ => true
  | .lightReach c => c.ok
  | .darkenReach c => c.ok
  | .frameBoundary _ => true
  | .pllUnlock _ k j => k.has j
  | .swapBit _ t => decide (t < 64)
  | .profileRefill _ x => decide (x.tree < 64)
  | .burstOutcome _ j => decide (j.tree < 64)
  | .ungrantedEnergy _ t _ _ => decide (t < 64)
  | .reasmTimeout _ t port => decide (t < 64) && decide (port < 65536)
  | .laneLosSet _ k x _ _ _ => k.has x.lane
  | .laneLosClear _ k x _ _ _ => k.has x.lane
  | .laneLolSet _ k x => k.has x.1.lane
  | .laneLolClear _ k x => k.has x.lane
  | .mateLaneRejoin _ m => decide (m < 4)
  | .eyeScanDone _ k j _ _ _ _ => k.has j
  | .prbsLockLoss _ k j _ _ => k.has j
  | .chkClr src k j _ => okSrc src && k.has j
  | .errInject src k j => okSrc src && k.has j
  | .treeOff r c => decide (r < 8) && c.ok
  | .treeStandby r c => decide (r < 8) && c.ok
  | .treeActive r c => decide (r < 8) && c.ok
  | .setSfc r c => decide (r < 8) && c.ok
  | .termDefects r c => decide (r < 8) && c.ok
  | .pmRead r c => decide (r < 8) && c.ok
  | .pmResetCurrent r c => decide (r < 8) && c.ok
  | .pmHistoryWrite _ r => decide (r < 8)
  | .xgemPortAdd r c => decide (r < 8) && c.ok
  | .xgemPortDel r c => decide (r < 8) && c.ok
  | .xgemPortRead r c => decide (r < 8) && c.ok
  | .defectPop src t => okSrc src && decide (t < 64)
  | .serialNumberOnu _ t _ bytes mic => decide (t < 64) && decide (bytes.length = 40) && decide (mic.length = 8)
  | .registration _ g _ bytes mic => decide (g < 32768) && decide (bytes.length = 40) && decide (mic.length = 8)
  | .acknowledge _ g head bytes mic =>
    decide (g < 32768) && decide (head.length = 4) && decide (bytes.length = 36) && decide (mic.length = 8)
  | .ploamuHostMessage _ t slot bytes mic =>
    decide (t < 64) && decide (slot < 512) && decide (bytes.length = 40) && decide (mic.length = 8)
  | .activationFail _ g => decide (g < 32768)
  | .lostTimeout _ g => decide (g < 32768)
  | .adjWaitExpiry _ g => decide (g < 32768)
  | .termProvision r c => decide (r < 8) && c.ok
  | .termAssign r c => decide (r < 8) && c.ok
  | .termDeactivate r c => decide (r < 8) && c.ok
  | .termDisable r c => decide (r < 8) && c.ok
  | .termEnable r c => decide (r < 8) && c.ok
  | .termRelease r c => decide (r < 8) && c.ok
  | .termSetIk r c => decide (r < 8) && c.ok
  | .termRead r c => decide (r < 8) && c.ok
  | .profileRead r c => decide (r < 8) && c.ok
  | .profileInvalidate r c => decide (r < 8) && c.ok
  | .ploamTail r c => decide (r < 8) && c.ok
  | .ploamSend r c => decide (r < 8) && c.ok
  | .ploamuPop src t => okSrc src && decide (t < 64)
  | .discPop src r => okSrc src && decide (r < 8)
  | .mapComputationStart _ t _ => decide (t < 64)
  | .mapDeadline _ t => decide (t < 64)
  | .predictorBinEnd _ t _ => decide (t < 64)
  | .dayProfileLoad _ t => decide (t < 64)
  | .coopPiWrite src r v => okSrc src && decide (r < 8) && okWord v
  | .coopEnWrite src r _ => okSrc src && decide (r < 8)
  | .allocAdd t c => decide (t < 64) && c.ok
  | .allocModify t c => decide (t < 64) && c.ok
  | .allocDel t c => decide (t < 64) && c.ok
  | .allocRead t c => decide (t < 64) && c.ok
  | .predRead t c => decide (t < 64) && c.ok
  | .predReset t c => decide (t < 64) && c.ok
  | .mapRead t c => decide (t < 64) && c.ok
  | .packetIngress _ pipe => decide (pipe < 4)
  | .enqueueCommit _ k => decide (k < 4)
  | .ruleWrite c => c.ok
  | .ruleRead c => c.ok
  | .keyProfileWrite c => c.ok
  | .keyProfileRead c => c.ok
  | .mirrorWrite c => c.ok
  | .mirrorRead c => c.ok
  | .bankCopy c => c.ok
  | .bankSwap c => c.ok
  | .bankClear c => c.ok
  | .insert c => c.ok
  | .update c => c.ok
  | .delete c => c.ok
  | .lookup c => c.ok
  | .slotRead c => c.ok
  | .rebuild c => c.ok
  | .flowStoreScrub _ _ ents tags => (ents ++ tags).all fun x => decide (x.2 = 1 ∨ x.2 = 2)
  | .policerWrite c => c.ok
  | .policerRead c => c.ok
  | .profWrite c => c.ok
  | .profRead c => c.ok
  | .policerRefresh _ _ => true
  | .dequeueDecision _ p _ _ => decide (p < 78)
  | .agingScan _ _ => true
  | .shaperRefresh _ _ _ k => decide (k < 2)
  | .queueWrite c => c.ok
  | .queueRead c => c.ok
  | .queueFlush c => c.ok
  | .queueHold c => c.ok
  | .nodeWrite c => c.ok
  | .nodeRead c => c.ok
  | .shaperWrite c => c.ok
  | .shaperRead c => c.ok
  | .allocationRound _ _ x => x.buf.all CmdArgs.ok
  | .prefetch _ _ => true
  | .memoryScrub _ n _ _ => decide (n < 2)
  | .cattrip _ => true
  | .bufAlloc c => c.ok
  | .bufFree c => c.ok
  | .cellRead c => c.ok
  | .cellWrite c => c.ok
  | .cellRetire c => c.ok
  | .retireRead c => c.ok
  | .reclaim c => c.ok
  | .eccInject c => c.ok
  | .eccPop src => okSrc src
  | .ponKeyInstall c => c.ok
  | .ponKeySwitch c => c.ok
  | .ponKeyClear c => c.ok
  | .ponKeyRead c => c.ok
  | .msSaKey c => c.ok
  | .msSaParam c => c.ok
  | .msSaPn c => c.ok
  | .msSaEnable c => c.ok
  | .msSaDisable c => c.ok
  | .msSaRead c => c.ok
  | .laKeyWrite c => c.ok
  | .laKeyClear c => c.ok
  | .laKeyRead c => c.ok
  | .laPiWrite src n v => okSrc src && decide (n < 16) && okWord v
  | .laDescriptor _ n _ x => decide (n < 16) && decide (x.ecc < 3)
  | .keyEvtPop src => okSrc src
  | .uplinkFrameReceive _ f => decide (f.port < 12)
  | .pauseFrame _ u q => decide (u < 12) && decide (q < 65536)
  | .pfcFrame _ u _ _ => decide (u < 12)
  | .pauseTimerExpiry _ u => decide (u < 12)
  | .xoffRepeat _ u c => decide (u < 12) && decide (c < 8)
  | .portConditionChange _ u _ _ _ _ _ => decide (u < 12)
  | .portUp _ u => decide (u < 12)
  | .degradedWindowEnd _ u _ _ _ => decide (u < 12)
  | .clrStats src u _ => okSrc src && decide (u < 12)
  | .timeSet c => c.ok
  | .timeStep c => c.ok
  | .timeSlew c => c.ok
  | .frameAlign c => c.ok
  | .alignedInstant _ => true
  | .compareFire _ n => decide (n < 8)
  | .captureEdge _ n _ => decide (n < 5)
  | .todcapArm src n t => okSrc src && decide (n < 4) && decide (t < 64)
  | .txtsPop src u => okSrc src && decide (u < 12)
  | .clrLost src u _ => okSrc src && decide (u < 12)
  | .gclWrite c => c.ok
  | .gclCommit c => c.ok
  | .gclStart _ u => decide (u < 12)
  | .gclCancel c => c.ok
  | .gclStop c => c.ok
  | .gclRead c => c.ok
  | .chainModeChange _ => true
  | .helloCell _ _ => true
  | .switchReqCell _ t _ => decide (t < 64)
  | .commitCell _ t _ _ => decide (t < 64)
  | .recordCell _ _ => true
  | .mapCell _ t _ _ _ _ _ => decide (t < 64)
  | .needCell _ t _ => decide (t < 64)
  | .markerCell _ m _ _ => decide (m.lane < 4) && decide (m.named < 4)
  | .copyFrame _ cells _ => cells.all fun c => decide (c.lane < 4 ∧ c.seq < 2 ^ 32 ∧ c.data.length ≤ 624)
  | .wtrExpiry _ t => decide (t < 64)
  | .linkTakeover _ t => decide (t < 64)
  | .startupTakeover _ t => decide (t < 64)
  | .standdown _ t => decide (t < 64)
  | .snapshotWrite _ _ => true
  | .coldTakeover _ t _ => decide (t < 64)
  | .switch c => c.ok
  | .lockout c => c.ok
  | .lockoutClear c => c.ok
  | .join c => c.ok
  | .resync c => c.ok
  | .pairKey c => c.ok
  | .pairKeyClear c => c.ok
  | .watchdogExpiry _ c => decide (c < 4)
  | .kick src c => okSrc src && decide (c < 4)
  | .coreReset src c _ => okSrc src && decide (c < 4)
  | .scratchpadAccess _ accs _ => accs.all fun a => okSrc a.src
  | .dmaGo src c => okSrc src && decide (c < 4)
  | .dmaComplete _ c _ => decide (c < 4)
  | .ringPiWrite src n _ v => okSrc src && decide (n < 22) && okWord v
  | .injectionDescriptor _ n _ => decide (n < 22)
  | .mgmtFrameReceive _ _ _ _ _ => true
  | .mgmtLinkChange _ _ _ _ => true
  | .vfFlr _ n => decide (n < 16)
  | .intEoi src v => okSrc src && decide (v < 64)
  | .vfEoi src n v => okSrc src && decide (n < 16) && decide (v < 4)
  | .thermalSample _ _ _ => true
  | .replan src => okSrc src
  | .marginRun _ _ => true
  | .updBegin c => c.ok
  | .updWrite _ c => c.ok
  | .updVerify c => c.ok
  | .updCommit c => c.ok
  | .updAbort c => c.ok
  | .updConfirm c => c.ok
  | .recordFlush _ _ _ _ => true
  | .recRead c => c.ok
  | .recClear c => c.ok
  | .recWrite c => c.ok
  | .cntClear c => c.ok
  | .statBind c => c.ok
  | .statRead c => c.ok
  | .statClear c => c.ok
  | .sampleRead c => c.ok
  | .sampleRestart c => c.ok
  | .pcntCfgWrite src k v _ => okSrc src && decide (k < 64) && okWord v
  | .pllRelock _ k j => k.has j
  | .markerLockLoss _ m => decide (m < 4)
  | .prbsCheckerLock _ k x => k.has x.lane
  | .memoryTemperatureHot _ mem _ _ => decide (mem < 5)
  | .chainInPpsEdge _ => true
  | .railLoss => true
  | .pwrfailNRise => true
  | .migrationStep => true
  | .queueFlushDone => true
  | .reclaimDone => true
  | .slewComplete => true
  | .clockFallback => true
  | .resyncReqCell => true
  | .mateLinkUp => true
  | .mateLinkDown => true
  | .mgmtTransmit => true
  | .pfFlr => true
  | .opSecondsPersist => true
  | .clearEraseDone => true
  | .railsGood => true

end Sys2Proof
end

