-- ==== Sys2Proof/Machine/Exec.lean ====
section
/-! DEFINITION. How a command acts: at once (an access), or as an event some ticks later; and the register operations that carry
more than their word. -/

namespace Sys2Proof.Machine

/-- A command changes the device by f; what follows within the step is settled (R56, R68, R494). -/
def act (s : State) (f : Dev → Dev) : Host.Outcome State Fault Refusal := .next { s with dev := Dev.settle s.dev (f s.dev) }

/-- dt ticks of the timebase pass: the mate lanes send on, and the scratchpad's banks serve what waits, more than one cycle in each tick
(R473); in HELD nothing runs (R46). -/
def Dev.elapse (d : Dev) (dt : Nat) : Dev :=
  if d.im.state = .held then d else ((d.advance dt).mateAdvance).spDrain (min (2 * dt) d.mc.spWait.length)

/-- An event after dt ticks: where the device is not in a state in which it occurs, only the time passes (log entry 54). -/
def event (s : State) (dt : Nat) (can : Dev → Bool) (f : Dev → Dev) : Host.Outcome State Fault Refusal :=
  act s fun d => if can (d.elapse dt) then f (d.elapse dt) else d.elapse dt

/-- The device is out of HELD (R46). -/
def Dev.awake (d : Dev) : Bool := d.im.state != .held

/-- Lanes have their roles: out of HELD and BOOTING (R46). -/
def Dev.laneLive (d : Dev) : Bool := d.awake && d.im.state != .booting

/-! ### Lane events with a second effect -/

/-- What follows a change of LOS or LOL: of a UL lane, its port's conditions (R91, R383); of a mate lane, its place in the mate link
(R92). -/
def Dev.laneFollow (d : Dev) (k : LaneKind) (i : Nat) (sending stamped receiving : Bool) : Dev :=
  match k with
  | .ul => d.ulLaneFollow i sending stamped receiving
  | .ml => d.mateFollow i
  | _ => d

/-- Three marker cells in a row are missing on a mate lane (R446): the last at the spacing lies three times 1,024 codewords back. -/
def Dev.markersMissing (d : Dev) (m : Nat) : Bool :=
  match d.px.markers.get? m with
  | some a => decide (a + 3 * 81920 - 40 ≤ d.tb.ticks)
  | none => true

/-- MARKER_LOCK_LOSS (R93, R446): the lane's lock bit clears, its markers count anew, and it drops from the mate link. -/
def Dev.markerLockLoss (d : Dev) (m : Nat) : Dev :=
  if d.laneRole .ml m = 5 ∧ d.markersMissing m then ((d.setFld (R .LX_ML_STATUS m) 6 6 0).markersLost m).mateFollow m else d

/-! ### Scratchpad accesses -/

/-- An access reaches the scratchpad: a source's whose accesses reach the device, or an engine's under its port (R473). -/
def Dev.spReaches (d : Dev) (a : SpAcc) : Bool :=
  match a.at_ with
  | .eng p => decide (5 ≤ p ∧ p ≤ 13)
  | _ => d.busUp a.src

/-! ### Register writes that carry more than their word -/

/-- The register of a held low word (R570). -/
def lowReg : LowPair → Reg
  | .ponid t => R .TF_PONID_LO t
  | .inc => R .TB_INC_LO
  | .cmpTgt n => R .TB_CMP_TGT_LO n
  | .pnThresh => R .CE_MS_PN_THRESH_LO

/-- A write by the source reaches the register. -/
def Dev.mayWrite (d : Dev) (src : Src) (r : Reg) : Bool :=
  d.busUp src && Reg.ofAddr r.addr == some r && d.regAt r.addr == some r && match src with
    | .vf s => (pfToVf s r.addr).isSome && d.vfOpen s r true
    | _ => true

/-- A register written as it stands with bit b set. -/
def Dev.setBit (d : Dev) (src : Src) (r : Reg) (b : Nat) : Dev := d.writeReg src r (putBits (d.reg r) b b 1)

/-- A write of a register, and what g adds to it when it reaches the register. -/
def Dev.writeAnd (d : Dev) (src : Src) (r : Reg) (v : Nat) (g : Dev → Dev) : Dev :=
  if d.mayWrite src r then g (d.writeReg src r v) else d.writeReg src r v

/-- CHK_CLR (R98, R110): `errNow` is an error in the cycle of the write. -/
def Dev.chkClrWrite (d : Dev) (src : Src) (k : LaneKind) (i : Nat) (errNow : Bool) : Dev :=
  d.writeAnd src (lanePrbsCtl k i) (putBits (d.reg (lanePrbsCtl k i)) 16 16 1) fun d => d.chkClr k i errNow

/-- CLR_STATS (R396): `incs` are the statistics that increment in the cycle of the write. -/
def Dev.clrStatsWrite (d : Dev) (src : Src) (u : Nat) (incs : List Nat) : Dev :=
  d.writeAnd src (R .UL_PORT_CFG u) (putBits (d.reg (R .UL_PORT_CFG u)) 30 30 1) fun d => d.clrStats u incs

/-- CLR_LOST (R433): `lossNow` is a loss in the cycle of the write. -/
def Dev.clrLostWrite (d : Dev) (src : Src) (u : Nat) (lossNow : Bool) : Dev :=
  d.writeAnd src (R .TB_TXTS_POP u) 2 fun d => d.clrLost u lossNow

/-- PCNT_CFG_WRITE (R530): `occ` occurrences of the counted event fall in the cycle of the write. -/
def Dev.pcntWrite (d : Dev) (src : Src) (k v occ : Nat) : Dev :=
  if d.mayWrite src (R .OB_PCNT_CFG k) then d.pcntCfgWrite k v occ else d.writeReg src (R .OB_PCNT_CFG k) v

end Sys2Proof.Machine
end

