-- ==== Sys2Proof/Machine/ExecAccess.lean ====
section
/-! DEFINITION. Register accesses with an effect of their own: one meaning per row, over the operations of the chapters' files. -/

namespace Sys2Proof.Machine

/-- REGISTER_WRITE (R11): A write to a register that has no row of its own takes effect on its RW, W1C and W1S fields under the
access codes; with other accesses of the same cycle, in ascending source port (R71). -/
def execRegisterWrite (src : Src) (off : Nat) (a : CycleAcc) (s : State) : Host.Outcome State Fault Refusal :=
  act s fun d => d.sameCycle src off a.acc a.also

/-- OUT_OF_SLICE_ACCESS (R486): A VF access that lands on no register or aperture byte open to it completes with Completer
Abort, or is discarded if a write, and is logged. -/
def execOutOfSliceAccess (v off : Nat) (a : BusAcc) (s : State) : Host.Outcome State Fault Refusal :=
  act s fun d => d.access (.vf v) off a

/-- LOW_WORD_WRITE (R570): A write of the low word of a paired register is held, with no effect of its own, until the high word
is written. -/
def execLowWordWrite (src : Src) (p : LowPair) (v : Nat) (s : State) : Host.Outcome State Fault Refusal :=
  act s fun d => d.writeReg src (lowReg p) v

/-- PONID_HI_WRITE (R118): A write of TF_PONID_HI commits it with the held low word at the next frame boundary. -/
def execPonidHiWrite (src : Src) (t v : Nat) (s : State) : Host.Outcome State Fault Refusal :=
  act s fun d => d.writeReg src (R .TF_PONID_HI t) v

/-- INC_HI_WRITE (R404): A write of TB_INC_HI commits the new increment with the held low word at the next tick, or refuses an
increment out of range. -/
def execIncHiWrite (src : Src) (v : Nat) (s : State) : Host.Outcome State Fault Refusal :=
  act s fun d => d.writeReg src (R .TB_INC_HI) v

/-- CMP_TGT_HI_WRITE (R409): A write of TB_CMP_TGT_HI commits the target and arms the compare while EN = 1. -/
def execCmpTgtHiWrite (src : Src) (n v : Nat) (s : State) : Host.Outcome State Fault Refusal :=
  act s fun d => d.writeReg src (R .TB_CMP_TGT_HI n) v

/-- PN_THRESH_HI_WRITE (R376): A write of CE_MS_PN_THRESH_HI commits the MACsec rekey threshold with the held low word. -/
def execPnThreshHiWrite (src : Src) (v : Nat) (s : State) : Host.Outcome State Fault Refusal :=
  act s fun d => d.writeReg src (R .CE_MS_PN_THRESH_HI) v

/-- SFC_LO_READ (R144): A read of TF_SFC_LO returns the low SFC bits and latches the high bits into the TF_SFC_HI shadow. -/
def execSfcLoRead (src : Src) (t : Nat) (s : State) : Host.Outcome State Fault Refusal :=
  act s fun d => d.readReg src (R .TF_SFC_LO t)

/-- UL_STAT_LO_READ (R401): A read of UL_STAT_LO latches the counter's high word into its shadow. -/
def execUlStatLoRead (src : Src) (u j : Nat) (s : State) : Host.Outcome State Fault Refusal :=
  act s fun d => d.readReg src (R .UL_STAT_LO u j)

/-- MGMT_STAT_LO_READ (R490): A read of MC_MGMT_STAT_LO latches the statistic's high word into its shadow. -/
def execMgmtStatLoRead (src : Src) (j : Nat) (s : State) : Host.Outcome State Fault Refusal :=
  act s fun d => d.readReg src (R .MC_MGMT_STAT_LO j)

/-- CNT_LO_READ (R529): A read of a fixed or programmable counter's low word latches its high bits and overflow into the
source's banked shadow. -/
def execCntLoRead (src : Src) (prog : Bool) (n : Nat) (s : State) : Host.Outcome State Fault Refusal :=
  act s fun d => d.readReg src (if prog then R .OB_PCNT_LO n else R .OB_CNT_LO n)

/-- NOW_LO_READ (R430): A read of TB_NOW_LO latches C[63:32] into the TB_NOW_HI shadow. -/
def execNowLoRead (src : Src) (s : State) : Host.Outcome State Fault Refusal :=
  act s fun d => d.readReg src (R .TB_NOW_LO)

/-- TOD_NS_READ (R430): A read of TB_TOD_NS latches the seconds of the same instant into the TB_TOD_S shadows. -/
def execTodNsRead (src : Src) (s : State) : Host.Outcome State Fault Refusal :=
  act s fun d => d.readReg src (R .TB_TOD_NS)

/-- CAP_LO_READ (R412): A read of TB_CAP_LO latches the high word into its shadow and clears VALID. -/
def execCapLoRead (src : Src) (n : Nat) (s : State) : Host.Outcome State Fault Refusal :=
  act s fun d => d.readReg src (R .TB_CAP_LO n)

/-- TODCAP_T_LO_READ (R432): A read of TB_TODCAP_T_LO latches the result's high word into its shadow. -/
def execTodcapTLoRead (src : Src) (n : Nat) (s : State) : Host.Outcome State Fault Refusal :=
  act s fun d => d.readReg src (R .TB_TODCAP_T_LO n)

/-- FREE_ERR_READ (R344): A read of BP_FREE_ERR latches the matching cell into the BP_FREE_ERR_CELL shadow. -/
def execFreeErrRead (src : Src) (s : State) : Host.Outcome State Fault Refusal :=
  act s fun d => d.readReg src (R .BP_FREE_ERR)

end Sys2Proof.Machine
end

