-- ==== Sys2Proof/Machine/ExecCipher.lean ====
section
/-! DEFINITION. Cipher engine: one meaning per row, over the operations of the chapters' files. -/

namespace Sys2Proof.Machine

/-- PON_KEY_INSTALL (R378): PON_KEY_INSTALL loads a key into a PON slot, making it READY. -/
def execPonKeyInstall (c : CmdArgs) (s : State) : Host.Outcome State Fault Refusal :=
  act s fun d => d.command false .ce 0x01 c

/-- PON_KEY_SWITCH (R357): PON_KEY_SWITCH schedules or cancels a key switch at a given SFC. -/
def execPonKeySwitch (c : CmdArgs) (s : State) : Host.Outcome State Fault Refusal :=
  act s fun d => d.command false .ce 0x02 c

/-- PON_KEY_CLEAR (R378): PON_KEY_CLEAR empties a PON slot, starting a hold if it was ACTIVE. -/
def execPonKeyClear (c : CmdArgs) (s : State) : Host.Outcome State Fault Refusal :=
  act s fun d => d.command false .ce 0x03 c

/-- PON_KEY_READ (R378): PON_KEY_READ returns a PON slot's state, counts and limits. -/
def execPonKeyRead (c : CmdArgs) (s : State) : Host.Outcome State Fault Refusal :=
  act s fun d => d.command false .ce 0x04 c

/-- MS_SA_KEY (R378): MS_SA_KEY loads a MACsec SA key. -/
def execMsSaKey (c : CmdArgs) (s : State) : Host.Outcome State Fault Refusal :=
  act s fun d => d.command false .ce 0x10 c

/-- MS_SA_PARAM (R378): MS_SA_PARAM sets an SA's port, AN, direction, suite, SCI and salt. -/
def execMsSaParam (c : CmdArgs) (s : State) : Host.Outcome State Fault Refusal :=
  act s fun d => d.command false .ce 0x11 c

/-- MS_SA_PN (R378): MS_SA_PN sets an SA's next or lowest acceptable PN. -/
def execMsSaPn (c : CmdArgs) (s : State) : Host.Outcome State Fault Refusal :=
  act s fun d => d.command false .ce 0x12 c

/-- MS_SA_ENABLE (R362): MS_SA_ENABLE enables an SA, making a transmit SA current at the port's next frame boundary. -/
def execMsSaEnable (c : CmdArgs) (s : State) : Host.Outcome State Fault Refusal :=
  act s fun d => d.command false .ce 0x13 c

/-- MS_SA_DISABLE (R378): MS_SA_DISABLE returns an SA to LOADED or, with ZEROISE, to FREE. -/
def execMsSaDisable (c : CmdArgs) (s : State) : Host.Outcome State Fault Refusal :=
  act s fun d => d.command false .ce 0x14 c

/-- MS_SA_READ (R378): MS_SA_READ returns an SA's parameters, PN and counts. -/
def execMsSaRead (c : CmdArgs) (s : State) : Host.Outcome State Fault Refusal :=
  act s fun d => d.command false .ce 0x15 c

/-- LA_KEY_WRITE (R378): LA_KEY_WRITE loads a look-aside key with its owner. -/
def execLaKeyWrite (c : CmdArgs) (s : State) : Host.Outcome State Fault Refusal :=
  act s fun d => d.command false .ce 0x20 c

/-- LA_KEY_CLEAR (R378): LA_KEY_CLEAR empties a look-aside key slot. -/
def execLaKeyClear (c : CmdArgs) (s : State) : Host.Outcome State Fault Refusal :=
  act s fun d => d.command false .ce 0x21 c

/-- LA_KEY_READ (R378): LA_KEY_READ returns a look-aside slot's validity, size and owner. -/
def execLaKeyRead (c : CmdArgs) (s : State) : Host.Outcome State Fault Refusal :=
  act s fun d => d.command false .ce 0x22 c

/-- LA_PI_WRITE (R367): A write of CE_LA_PI hands look-aside descriptors to the device or is refused with LA_PI_BAD. -/
def execLaPiWrite (src : Src) (n v : Nat) (s : State) : Host.Outcome State Fault Refusal :=
  act s fun d => d.writeReg src (R .CE_LA_PI n) v

/-- LA_DESCRIPTOR (R371): A look-aside descriptor is executed in CTR, GCM or CMAC and completed with DONE, STATUS and VERIFY. -/
def execLaDescriptor (dt n : Nat) (fault : Option Nat) (x : LaMeets) (s : State) : Host.Outcome State Fault Refusal :=
  event s dt (fun d => d.alive && decide (n < 16)) fun d => d.laDescriptor n fault x.tagFault x.ecc

/-- KEY_EVT_POP (R375): Writing POP to CE_KEY_EVT_POP removes the head of the key event queue. -/
def execKeyEvtPop (src : Src) (s : State) : Host.Outcome State Fault Refusal :=
  act s fun d => d.writeReg src (R .CE_KEY_EVT_POP) 1

end Sys2Proof.Machine
end

