-- ==== Sys2Proof/Machine/ExecControl.lean ====
section
/-! DEFINITION. Pins, boot and device control: one meaning per row, over the operations of the chapters' files. -/

namespace Sys2Proof.Machine

/-- PORST_N (R545): Assertion of PORST_N puts the device in HELD, and its release with rails good and REFCLK_SYS present is the
start instant S of a cold start. -/
def execPorstN (dt : Nat) (level : Bool) (straps : Nat) (testEn : Bool) (s : State) : Host.Outcome State Fault Refusal :=
  event s dt (fun _ => decide (straps < 4)) fun d => d.porst level straps testEn

/-- SRST_N (R546): A low SRST_N of at least 1 µs starts a warm reset that keeps memory contents, and the boot ROM starts at its
rise. -/
def execSrstN (dt : Nat) (level : Bool) (s : State) : Host.Outcome State Fault Refusal :=
  event s dt (fun _ => true) fun d => d.srst level

/-- RAIL_LOSS (R543): The loss of any supply rail puts the device in HELD with outputs quiet within 1 µs and all volatile state
lost. -/
def execRailLoss (s : State) : Host.Outcome State Fault Refusal :=
  event s 0 (fun _ => true) fun d => d.railLoss

/-- PWRFAIL_N_FALL (R523): A fall of PWRFAIL_N makes the recorder stop ordinary records, suspend NOR erase and write a
POWER_FAIL record and the staged records. -/
def execPwrfailNFall (dt fits : Nat) (s : State) : Host.Outcome State Fault Refusal :=
  event s dt (fun _ => true) fun d => d.pwrfailFall fits

/-- PWRFAIL_N_RISE (R548): A rise of PWRFAIL_N with the rails still good lets the recorder accept ordinary records again. -/
def execPwrfailNRise (s : State) : Host.Outcome State Fault Refusal :=
  event s 0 (fun _ => true) fun d => d.pwrfailRise

/-- PCIE_PERST_N (R549): PCIE_PERST_N holds the endpoint, PF0, the VFs and their MSI-X state in reset as a PF0 FLR, without
affecting data paths. -/
def execPciePerstN (dt : Nat) (p : PerstIn) (s : State) : Host.Outcome State Fault Refusal :=
  event s dt (fun _ => true) fun d => d.perst p

/-- REFCLK_LOSS (R552): Loss of a reference clock fails the device, moves the timebase island to REFCLK_SYS, or puts the reach
PLL in holdover, depending on the reference. -/
def execRefclkLoss (dt : Nat) (c : RefClk) (s : State) : Host.Outcome State Fault Refusal :=
  event s dt (fun _ => true) fun d => d.refLoss c

/-- REFCLK_RETURN (R552): A reference present again for 10 ms is recorded and restores its clients without a gap or boundary
jump. -/
def execRefclkReturn (dt : Nat) (c : RefClk) (s : State) : Host.Outcome State Fault Refusal :=
  event s dt (fun _ => true) fun d => d.refReturn c

/-- JTAG_INSTRUCTION (R568): Loading a JTAG instruction either leaves operation undisturbed or, for EXTEST, EXTEST_PULSE,
EXTEST_TRAIN, CLAMP or HIGHZ, puts the device in FAILED. -/
def execJtagInstruction (dt : Nat) (j : JtagIn) (s : State) : Host.Outcome State Fault Refusal :=
  event s dt (fun _ => decide (j.code < 256)) fun d => d.jtagLoad j.code j.scan

/-- BOOT_LOAD (R42): In BOOTING the boot ROM selects the slot, loads and checks firmware and image, trains the memories, runs
the restart scan and applies the structure, or fails with LOAD_ERR. -/
def execBootLoad (dt : Nat) (b : BootIn) (s : State) : Host.Outcome State Fault Refusal :=
  event s dt Dev.awake fun d => d.bootLoad b

/-- START (R47): START performs a frame alignment and takes the device from STRUCTURED to RUNNING at the aligned boundary. -/
def execStart (c : CmdArgs) (s : State) : Host.Outcome State Fault Refusal :=
  act s fun d => d.command false .im 0x01 c

/-- QUIESCE (R48): QUIESCE stops traffic at the next frame boundary while framing and ranging continue. -/
def execQuiesce (c : CmdArgs) (s : State) : Host.Outcome State Fault Refusal :=
  act s fun d => d.command false .im 0x02 c

/-- RESUME (R48): RESUME restarts dequeue and admission at the next frame boundary. -/
def execResume (c : CmdArgs) (s : State) : Host.Outcome State Fault Refusal :=
  act s fun d => d.command false .im 0x03 c

/-- WARM_RESET (R47): WARM_RESET begins a warm reset at once, with no completion written. -/
def execWarmReset (c : CmdArgs) (s : State) : Host.Outcome State Fault Refusal :=
  act s fun d => d.command false .im 0x04 c

/-- LOAD_HOST (R60): LOAD_HOST loads a full image from a host buffer while the device waits in BOOTING. -/
def execLoadHost (c : CmdArgs) (s : State) : Host.Outcome State Fault Refusal :=
  act s fun d => d.command false .im 0x05 c

/-- LOAD_REACH (R50): LOAD_REACH starts loading a reach image into a DARK reach, putting it in LOADING. -/
def execLoadReach (c : CmdArgs) (s : State) : Host.Outcome State Fault Refusal :=
  act s fun d => d.command false .im 0x10 c

/-- REACH_LOAD_DONE (R52): The end of a reach load leaves the reach DARK with LOADED = 1 and LOAD_DONE, or with LOAD_FAIL and
LOAD_ERR. -/
def execReachLoadDone (dt fault : Nat) (s : State) : Host.Outcome State Fault Refusal :=
  event s dt Dev.awake fun d => d.reachLoadDone fault

/-- LIGHT_REACH (R50): LIGHT_REACH makes a loaded DARK reach pending to become LIT at the next frame boundary. -/
def execLightReach (c : CmdArgs) (s : State) : Host.Outcome State Fault Refusal :=
  act s fun d => d.command false .im 0x11 c

/-- DARKEN_REACH (R51): DARKEN_REACH sets DARKEN_PENDING and starts the sequence that darkens the reach after its last granted
bursts. -/
def execDarkenReach (c : CmdArgs) (s : State) : Host.Outcome State Fault Refusal :=
  act s fun d => d.command false .im 0x12 c

/-- FRAME_BOUNDARY (R116): At each downstream frame boundary the SFC increments and reach, tree, key, protection and PM changes
scheduled for the boundary take effect. -/
def execFrameBoundary (dt : Nat) (s : State) : Host.Outcome State Fault Refusal :=
  event s dt Dev.alive fun d => d.frameBoundary

/-- RAILS_GOOD (R545): All supply rails becoming good while PORST_N is already released is the start instant S of a cold start. -/
def execRailsGood (s : State) : Host.Outcome State Fault Refusal :=
  event s 0 (fun _ => true) fun d => d.railsGood

end Sys2Proof.Machine
end

