-- ==== Sys2Proof/Machine/ExecLanes.lean ====
section
/-! DEFINITION. Lanes: one meaning per row, over the operations of the chapters' files. -/

namespace Sys2Proof.Machine

/-- PLL_UNLOCK (R76): Loss of lock of a PT transmit PLL squelches the lane, raises PT_TXDIS and declares TX_FAULT. -/
def execPllUnlock (dt : Nat) (k : LaneKind) (j : Nat) (s : State) : Host.Outcome State Fault Refusal :=
  event s dt (fun d => d.laneLive && k.has j) fun d => d.pllUnlock k j

/-- SWAP_BIT (R77): At a burst's swap bit the PB lane applies the profile or neutral set-up and may start the PB_RST pulse. -/
def execSwapBit (dt t : Nat) (s : State) : Host.Outcome State Fault Refusal :=
  event s dt (fun d => d.alive && decide (t < 64)) fun d => d.swapBit t

/-- PROFILE_REFILL (R78): A freed PB profile slot is refilled from the Benchmark store within 40 reach cycles. -/
def execProfileRefill (dt : Nat) (x : RefillIn) (s : State) : Host.Outcome State Fault Refusal :=
  event s dt (fun d => d.alive && decide (x.tree < 64)) fun d => d.refill x.tree x.ue

/-- LANE_LOS_SET (R89): A lane's LOS asserts when its raw condition has held for the assert time. -/
def execLaneLosSet (dt : Nat) (k : LaneKind) (x : LaneRun) (sending stamped receiving : Bool)
    (s : State) : Host.Outcome State Fault Refusal :=
  event s dt (fun d => d.laneLive && k.has x.lane) fun d =>
    (d.losSamples k x.lane x.level x.n).laneFollow k x.lane sending stamped receiving

/-- LANE_LOS_CLEAR (R89): A lane's LOS clears when its raw condition has been absent for the clear time. -/
def execLaneLosClear (dt : Nat) (k : LaneKind) (x : LaneRun) (sending stamped receiving : Bool)
    (s : State) : Host.Outcome State Fault Refusal :=
  event s dt (fun d => d.laneLive && k.has x.lane) fun d =>
    (d.losSamples k x.lane x.level x.n).laneFollow k x.lane sending stamped receiving

/-- LANE_LOL_SET (R89): A lane's LOL asserts when the frequency deviation has exceeded PPM_LIMIT for the assert time. -/
def execLaneLolSet (dt : Nat) (k : LaneKind) (x : LaneRun × LinkCut) (s : State) : Host.Outcome State Fault Refusal :=
  event s dt (fun d => d.laneLive && k.has x.1.lane) fun d =>
    (d.lolSamples k x.1.lane x.1.level x.1.n).laneFollow k x.1.lane x.2.sending x.2.stamped x.2.receiving

/-- LANE_LOL_CLEAR (R89): A lane's LOL clears when the deviation has stayed below half PPM_LIMIT for the clear time. -/
def execLaneLolClear (dt : Nat) (k : LaneKind) (x : LaneRun) (s : State) : Host.Outcome State Fault Refusal :=
  event s dt (fun d => d.laneLive && k.has x.lane) fun d =>
    (d.lolSamples k x.lane x.level x.n).laneFollow k x.lane false false false

/-- MATE_LANE_REJOIN (R93): A dropped mate lane that has been clear and locked for REJOIN_MS rejoins at the next frame boundary. -/
def execMateLaneRejoin (dt m : Nat) (s : State) : Host.Outcome State Fault Refusal :=
  event s dt (fun d => d.laneLive && decide (m < 4)) fun d => d.mateRejoin m

/-- EYE_SCAN_DONE (R95): A completed eye scan writes its margins in one cycle, increments SEQ and sets EYE_DONE and possibly
EYE_LOW. -/
def execEyeScanDone (dt : Nat) (k : LaneKind) (j : Nat) (left right down up : List (List EyePoint))
    (s : State) : Host.Outcome State Fault Refusal :=
  event s dt (fun d => d.laneLive && k.has j) fun d => d.eyeDone k j (eyeSweeps left right down up)

/-- PRBS_LOCK_LOSS (R98): A PRBS checker with 16 or more errors in one 1,024-bit block loses lock and searches again. -/
def execPrbsLockLoss (dt : Nat) (k : LaneKind) (j same : Nat) (rx : List Nat) (s : State) : Host.Outcome State Fault Refusal :=
  event s dt (fun d => d.laneLive && k.has j) fun d => d.prbsRx k j same rx

/-- CHK_CLR (R110): Writing CHK_CLR zeroes the lane's PRBS_ERR and PRBS_BLOCKS. -/
def execChkClr (src : Src) (k : LaneKind) (j : Nat) (errNow : Bool) (s : State) : Host.Outcome State Fault Refusal :=
  act s fun d => d.chkClrWrite src k j errNow

/-- ERR_INJECT (R110): Writing ERR_INJECT inverts the next generated PRBS bit. -/
def execErrInject (src : Src) (k : LaneKind) (j : Nat) (s : State) : Host.Outcome State Fault Refusal :=
  act s fun d => d.setBit src (lanePrbsCtl k j) 8

/-- PLL_RELOCK (R76): A lane transmit PLL regains lock, setting PLL_LOCK and starting the 10 µs wait before the PT lane resumes
data. -/
def execPllRelock (dt : Nat) (k : LaneKind) (j : Nat) (s : State) : Host.Outcome State Fault Refusal :=
  event s dt (fun d => d.laneLive && k.has j) fun d => d.pllRelock k j

/-- MARKER_LOCK_LOSS (R446): A mate lane loses codeword lock after three consecutive marker cells are missing, and the lane is
dropped from the mate link. -/
def execMarkerLockLoss (dt m : Nat) (s : State) : Host.Outcome State Fault Refusal :=
  event s dt (fun d => d.laneLive && decide (m < 4)) fun d => d.markerLockLoss m

/-- PRBS_CHECKER_LOCK (R98): A PRBS checker locks after 64 consecutive error-free bits and from then counts errors and blocks. -/
def execPrbsCheckerLock (dt : Nat) (k : LaneKind) (x : PrbsIn) (s : State) : Host.Outcome State Fault Refusal :=
  event s dt (fun d => d.laneLive && k.has x.lane) fun d => d.prbsRx k x.lane x.same x.rx

end Sys2Proof.Machine
end

