-- ==== Sys2Proof/Machine/ExecManagement.lean ====
section
/-! DEFINITION. Management complex and host access: one meaning per row, over the operations of the chapters' files. -/

namespace Sys2Proof.Machine

/-- WATCHDOG_EXPIRY (R472): A core's watchdog expires, sets WDT_EXPIRED and may perform WARM_RESET. -/
def execWatchdogExpiry (dt c : Nat) (s : State) : Host.Outcome State Fault Refusal :=
  event s dt (fun d => d.awake && decide (c < 4)) fun d => d.watchdogExpiry c

/-- KICK (R472): Writing KICK restarts a core's watchdog. -/
def execKick (src : Src) (c : Nat) (s : State) : Host.Outcome State Fault Refusal :=
  act s fun d => d.setBit src (R .MC_CORE_CTL c) 28

/-- CORE_RESET (R510): A write of MC_CORE_CTL RESET holds a core in reset, and its release restarts the core at 0x0. -/
def execCoreReset (src : Src) (c : Nat) (held : Bool) (s : State) : Host.Outcome State Fault Refusal :=
  act s fun d => d.writeReg src (R .MC_CORE_CTL c) (putBits (d.reg (R .MC_CORE_CTL c)) 31 31 (b2n held))

/-- SCRATCHPAD_ACCESS (R475): An access to a scratchpad word through a plain, alias or atomic window takes effect in port order,
with collisions reported. -/
def execScratchpadAccess (dt : Nat) (accs : List SpAcc) (err : Nat) (s : State) : Host.Outcome State Fault Refusal :=
  event s dt (fun d => d.awake && (accs.all fun a => okSrc a.src)) fun d => d.scratchAccess (accs.filter d.spReaches) err

/-- DMA_GO (R478): Writing GO starts a core's DMA copy. -/
def execDmaGo (src : Src) (c : Nat) (s : State) : Host.Outcome State Fault Refusal :=
  act s fun d => d.setBit src (R .MC_DMA_CTL c) 31

/-- DMA_COMPLETE (R478): The end of a DMA copy sets DMA_DONE and writes STATUS. -/
def execDmaComplete (dt c : Nat) (fault : Option Nat) (s : State) : Host.Outcome State Fault Refusal :=
  event s dt (fun d => d.awake && decide (c < 4)) fun d => d.dmaComplete c fault

/-- RING_PI_WRITE (R479): A write of a ring's RX_PI or TX_PI hands descriptors to the device or is refused with PI_BAD. -/
def execRingPiWrite (src : Src) (n : Nat) (tx : Bool) (v : Nat) (s : State) : Host.Outcome State Fault Refusal :=
  act s fun d => d.writeReg src (ringReg n tx .pi) v

/-- INJECTION_DESCRIPTOR (R483): An injection descriptor is read and its packet handed to the parser or to enqueue commit, or
refused with a status. -/
def execInjectionDescriptor (dt n : Nat) (fault : Bool) (s : State) : Host.Outcome State Fault Refusal :=
  event s dt (fun d => d.alive && decide (n < 22)) fun d => d.injection n fault

/-- MGMT_FRAME_RECEIVE (R489): A frame received on the MGMT port is written to the management ring or discarded and counted. -/
def execMgmtFrameReceive (dt : Nat) (bytes : List Byte) (fcsOk codeErr : Bool) (at_ : Nat)
    (s : State) : Host.Outcome State Fault Refusal :=
  event s dt Dev.awake fun d => d.mgmtReceive bytes fcsOk codeErr at_

/-- MGMT_TRANSMIT (R489): A management ring injection descriptor is sent on the MGMT port or completed with a refusal. -/
def execMgmtTransmit (s : State) : Host.Outcome State Fault Refusal :=
  event s 0 Dev.awake fun d => d.mgmtTransmit

/-- MGMT_LINK_CHANGE (R488): The MGMT port comes up or goes down with PCS synchronisation and auto-negotiation. -/
def execMgmtLinkChange (dt : Nat) (sync anDone pause : Bool) (s : State) : Host.Outcome State Fault Refusal :=
  event s dt Dev.awake fun d => d.mgmtLinkChange sync anDone pause

/-- VF_FLR (R487): A VF FLR disables its ring and clears its flags and MSI-X state. -/
def execVfFlr (dt n : Nat) (s : State) : Host.Outcome State Fault Refusal :=
  event s dt (fun d => d.awake && decide (n < 16)) fun d => d.vfFlr n

/-- PF_FLR (R487): A PF0 FLR disables every VF and rings 4 to 20 and resets PF0's MSI-X state and banks. -/
def execPfFlr (s : State) : Host.Outcome State Fault Refusal :=
  event s 0 Dev.awake fun d => d.pfFlr

/-- INT_EOI (R494): A write to MC_INT_EOI re-arms a PF0 vector, sending a new message if its sources are still asserted. -/
def execIntEoi (src : Src) (v : Nat) (s : State) : Host.Outcome State Fault Refusal :=
  act s fun d => d.writeReg src (R .MC_INT_EOI) v

/-- VF_EOI (R495): A write to VF_EOI re-arms one of the VF's four vectors. -/
def execVfEoi (src : Src) (n v : Nat) (s : State) : Host.Outcome State Fault Refusal :=
  act s fun d => d.writeReg src (R .VF_EOI n) v

/-- THERMAL_SAMPLE (R498): Every 1 ms the sensors are sampled and THERM_WARN or THERM_CRIT are evaluated. -/
def execThermalSample (dt : Nat) (temps : List Int) (mv : List Nat) (s : State) : Host.Outcome State Fault Refusal :=
  event s dt Dev.awake fun d => d.thermalSample temps mv

/-- REPLAN (R499): Writing REPLAN starts a margin-planning run. -/
def execReplan (src : Src) (s : State) : Host.Outcome State Fault Refusal :=
  act s fun d => d.setBit src (R .MC_AVS_CFG) 31

/-- MARGIN_RUN (R499): At each 86,400 operating seconds a margin run steps the AVS target, re-centres lanes and projects hours. -/
def execMarginRun (dt : Nat) (ppm : List Nat) (s : State) : Host.Outcome State Fault Refusal :=
  event s dt Dev.awake fun d => d.marginRun ppm

/-- UPD_BEGIN (R505): UPD_BEGIN erases the inactive slot and opens an update session. -/
def execUpdBegin (c : CmdArgs) (s : State) : Host.Outcome State Fault Refusal :=
  act s fun d => d.command false .upd 0x01 c

/-- UPD_WRITE (R505): UPD_WRITE programs scratchpad bytes into the firmware or image region of the open slot. -/
def execUpdWrite (fails : Bool) (c : CmdArgs) (s : State) : Host.Outcome State Fault Refusal :=
  act s fun d => d.command fails .upd 0x02 c

/-- UPD_VERIFY (R505): UPD_VERIFY checks the written firmware and image and makes the session VERIFIED. -/
def execUpdVerify (c : CmdArgs) (s : State) : Host.Outcome State Fault Refusal :=
  act s fun d => d.command false .upd 0x03 c

/-- UPD_COMMIT (R505): UPD_COMMIT names the verified slot ACTIVE on trial from the next reset. -/
def execUpdCommit (c : CmdArgs) (s : State) : Host.Outcome State Fault Refusal :=
  act s fun d => d.command false .upd 0x04 c

/-- UPD_ABORT (R505): UPD_ABORT ends the update session. -/
def execUpdAbort (c : CmdArgs) (s : State) : Host.Outcome State Fault Refusal :=
  act s fun d => d.command false .upd 0x05 c

/-- UPD_CONFIRM (R505): UPD_CONFIRM confirms the running trial slot and may raise the fused security version. -/
def execUpdConfirm (c : CmdArgs) (s : State) : Host.Outcome State Fault Refusal :=
  act s fun d => d.command false .upd 0x06 c

end Sys2Proof.Machine
end

