-- ==== Sys2Proof/Machine/ExecObservability.lean ====
section
/-! DEFINITION. Observability: one meaning per row, over the operations of the chapters' files. -/

namespace Sys2Proof.Machine

/-- RECORD_FLUSH (R522): Staged records are written, compared and marked in the recorder memory when 256 bytes wait, after 100
ms, or on a fault record. -/
def execRecordFlush (dt : Nat) (fails : List RecOp) (eraseFail ctlFail : Bool) (s : State) : Host.Outcome State Fault Refusal :=
  event s dt Dev.awake fun d => d.recordFlush fails eraseFail ctlFail

/-- OP_SECONDS_PERSIST (R526): Every 64 operating seconds an entry is appended to the operating-seconds log. -/
def execOpSecondsPersist (s : State) : Host.Outcome State Fault Refusal :=
  event s 0 Dev.awake fun d => d.opSecondsPersist

/-- CLEAR_ERASE_DONE (R525): The background erase of the old Cairn half and Tideline after a clear finishes and CLEAR_BUSY
drops. -/
def execClearEraseDone (s : State) : Host.Outcome State Fault Refusal :=
  event s 0 Dev.awake fun d => d.clearEraseDone

/-- REC_READ (R525): REC_READ returns a 32-byte part of a record named by SEQ. -/
def execRecRead (c : CmdArgs) (s : State) : Host.Outcome State Fault Refusal :=
  act s fun d => d.command false .ob 0x01 c

/-- REC_CLEAR (R525): REC_CLEAR discards staging, restarts SEQ, switches the Cairn half and writes a CLEAR record. -/
def execRecClear (c : CmdArgs) (s : State) : Host.Outcome State Fault Refusal :=
  act s fun d => d.command false .ob 0x02 c

/-- REC_WRITE (R539): REC_WRITE makes a firmware or host record from a scratchpad body. -/
def execRecWrite (c : CmdArgs) (s : State) : Host.Outcome State Fault Refusal :=
  act s fun d => d.command false .ob 0x03 c

/-- CNT_CLEAR (R527): CNT_CLEAR zeroes a fixed counter or every fixed counter and their overflow bits. -/
def execCntClear (c : CmdArgs) (s : State) : Host.Outcome State Fault Refusal :=
  act s fun d => d.command false .ob 0x04 c

/-- STAT_BIND (R531): STAT_BIND binds or unbinds a queue to a statistics set. -/
def execStatBind (c : CmdArgs) (s : State) : Host.Outcome State Fault Refusal :=
  act s fun d => d.command false .ob 0x10 c

/-- STAT_READ (R539): STAT_READ returns half of a statistics set. -/
def execStatRead (c : CmdArgs) (s : State) : Host.Outcome State Fault Refusal :=
  act s fun d => d.command false .ob 0x11 c

/-- STAT_CLEAR (R539): STAT_CLEAR zeroes a statistics set. -/
def execStatClear (c : CmdArgs) (s : State) : Host.Outcome State Fault Refusal :=
  act s fun d => d.command false .ob 0x12 c

/-- SAMPLE_READ (R533): SAMPLE_READ returns an entry of an instruction or packet sampling buffer. -/
def execSampleRead (c : CmdArgs) (s : State) : Host.Outcome State Fault Refusal :=
  act s fun d => d.command false .ob 0x20 c

/-- SAMPLE_RESTART (R539): SAMPLE_RESTART empties a sampling buffer and restarts selection. -/
def execSampleRestart (c : CmdArgs) (s : State) : Host.Outcome State Fault Refusal :=
  act s fun d => d.command false .ob 0x21 c

/-- PCNT_CFG_WRITE (R530): A write of OB_PCNT_CFG that changes EVENT or MODE zeroes the programmable counter, while EN alone
starts or stops it. -/
def execPcntCfgWrite (src : Src) (k v occ : Nat) (s : State) : Host.Outcome State Fault Refusal :=
  act s fun d => d.pcntWrite src k v occ

end Sys2Proof.Machine
end

