-- ==== Sys2Proof/Machine/ExecPackets.lean ====
section
/-! DEFINITION. Classification, flow store, traffic manager and buffers: one meaning per row, over the operations of the chapters' files. -/

namespace Sys2Proof.Machine

/-- PACKET_INGRESS (R248): A packet entering a pipeline is parsed, matched against the rules, looked up, policed and given its
action. -/
def execPacketIngress (dt pipe : Nat) (s : State) : Host.Outcome State Fault Refusal :=
  event s dt (fun d => d.alive && decide (pipe < 4)) fun d => d.ingress pipe

/-- ENQUEUE_COMMIT (R31): After its tail and MACsec tag result a packet is redirected by LAG, checked for admission, given
buffers and committed to its queue. -/
def execEnqueueCommit (dt k : Nat) (s : State) : Host.Outcome State Fault Refusal :=
  event s dt (fun d => d.alive && decide (k < 4)) fun d => d.enqueueCommit k

/-- RULE_WRITE (R260): RULE_WRITE writes a rule of the inactive bank. -/
def execRuleWrite (c : CmdArgs) (s : State) : Host.Outcome State Fault Refusal :=
  act s fun d => d.command false .pc 0x01 c

/-- RULE_READ (R260): RULE_READ returns a rule of a bank. -/
def execRuleRead (c : CmdArgs) (s : State) : Host.Outcome State Fault Refusal :=
  act s fun d => d.command false .pc 0x02 c

/-- KEY_PROFILE_WRITE (R244): PROFILE_WRITE writes a key profile of the inactive bank. -/
def execKeyProfileWrite (c : CmdArgs) (s : State) : Host.Outcome State Fault Refusal :=
  act s fun d => d.command false .pc 0x03 c

/-- KEY_PROFILE_READ (R260): PROFILE_READ returns a key profile of a bank. -/
def execKeyProfileRead (c : CmdArgs) (s : State) : Host.Outcome State Fault Refusal :=
  act s fun d => d.command false .pc 0x04 c

/-- MIRROR_WRITE (R260): MIRROR_WRITE writes a mirror session of a slice in the inactive bank. -/
def execMirrorWrite (c : CmdArgs) (s : State) : Host.Outcome State Fault Refusal :=
  act s fun d => d.command false .pc 0x05 c

/-- MIRROR_READ (R260): MIRROR_READ returns a mirror session. -/
def execMirrorRead (c : CmdArgs) (s : State) : Host.Outcome State Fault Refusal :=
  act s fun d => d.command false .pc 0x06 c

/-- BANK_COPY (R260): BANK_COPY copies the active bank into the inactive one. -/
def execBankCopy (c : CmdArgs) (s : State) : Host.Outcome State Fault Refusal :=
  act s fun d => d.command false .pc 0x10 c

/-- BANK_SWAP (R258): BANK_SWAP makes the inactive bank active at one cycle for all pipelines and increments EPOCH. -/
def execBankSwap (c : CmdArgs) (s : State) : Host.Outcome State Fault Refusal :=
  act s fun d => d.command false .pc 0x11 c

/-- BANK_CLEAR (R260): BANK_CLEAR clears every rule, mirror session and profile of the inactive bank. -/
def execBankClear (c : CmdArgs) (s : State) : Host.Outcome State Fault Refusal :=
  act s fun d => d.command false .pc 0x12 c

/-- INSERT (R266): INSERT places a key and action word in the flow store by cuckoo displacement or in the stash. -/
def execInsert (c : CmdArgs) (s : State) : Host.Outcome State Fault Refusal :=
  act s fun d => d.command false .fs 0x01 c

/-- UPDATE (R268): UPDATE replaces the action word of a present key in one cycle. -/
def execUpdate (c : CmdArgs) (s : State) : Host.Outcome State Fault Refusal :=
  act s fun d => d.command false .fs 0x02 c

/-- DELETE (R268): DELETE frees a key's slot or stash entry. -/
def execDelete (c : CmdArgs) (s : State) : Host.Outcome State Fault Refusal :=
  act s fun d => d.command false .fs 0x03 c

/-- LOOKUP (R282): The LOOKUP command returns a key's location and action word. -/
def execLookup (c : CmdArgs) (s : State) : Host.Outcome State Fault Refusal :=
  act s fun d => d.command false .fs 0x04 c

/-- SLOT_READ (R282): SLOT_READ returns the entry in a slot or stash index. -/
def execSlotRead (c : CmdArgs) (s : State) : Host.Outcome State Fault Refusal :=
  act s fun d => d.command false .fs 0x05 c

/-- REBUILD (R270): REBUILD starts an in-service rebuild with a new seed and size, setting the migration pointer to 0. -/
def execRebuild (c : CmdArgs) (s : State) : Host.Outcome State Fault Refusal :=
  act s fun d => d.command false .fs 0x10 c

/-- MIGRATION_STEP (R272): A migration step moves the entries of old bucket P to the new layout and advances P in one commit
cycle. -/
def execMigrationStep (s : State) : Host.Outcome State Fault Refusal :=
  event s 0 Dev.alive fun d => d.migrationStep

/-- FLOW_STORE_SCRUB (R265): The background scrub reads each bucket, corrects single-bit errors and logs uncorrectable ones. -/
def execFlowStoreScrub (dt b : Nat) (ents tags : List (Nat × Nat)) (s : State) : Host.Outcome State Fault Refusal :=
  event s dt Dev.alive fun d => d.fsScrub b (ents ++ tags.map fun x => (x.1, x.2 + 2))

/-- POLICER_WRITE (R280): POLICER_WRITE sets a policer's profile in FULL or KEEP mode. -/
def execPolicerWrite (c : CmdArgs) (s : State) : Host.Outcome State Fault Refusal :=
  act s fun d => d.command false .fs 0x20 c

/-- POLICER_READ (R280): POLICER_READ returns the stored policer state and the current tick. -/
def execPolicerRead (c : CmdArgs) (s : State) : Host.Outcome State Fault Refusal :=
  act s fun d => d.command false .fs 0x21 c

/-- PROF_WRITE (R276): PROF_WRITE sets a policer profile's rates, bursts and mode. -/
def execProfWrite (c : CmdArgs) (s : State) : Host.Outcome State Fault Refusal :=
  act s fun d => d.command false .fs 0x22 c

/-- PROF_READ (R282): PROF_READ returns a policer profile. -/
def execProfRead (c : CmdArgs) (s : State) : Host.Outcome State Fault Refusal :=
  act s fun d => d.command false .fs 0x23 c

/-- POLICER_REFRESH (R279): The background refresher refills a policer without deduction before its LAST is 2^29 ticks old. -/
def execPolicerRefresh (dt n : Nat) (s : State) : Host.Outcome State Fault Refusal :=
  event s dt Dev.alive fun d => d.policerRefresh n

/-- DEQUEUE_DECISION (R290): An eligible egress port walks its scheduling tree to one queue, sends the head packet and charges
buckets and deficits. -/
def execDequeueDecision (dt p at_ ecc : Nat) (s : State) : Host.Outcome State Fault Refusal :=
  event s dt (fun d => d.alive && decide (p < 78)) fun d => d.dequeue p at_ ecc

/-- AGING_SCAN (R304): The background scan discards aged packets from the head of queues idle for 10 ms. -/
def execAgingScan (dt q : Nat) (s : State) : Host.Outcome State Fault Refusal :=
  event s dt Dev.alive fun d => d.agingScan q

/-- SHAPER_REFRESH (R294): The background refresher refills an enabled shaper bucket before its LAST is 2^29 ticks old. -/
def execShaperRefresh (dt : Nat) (node : Bool) (n k : Nat) (s : State) : Host.Outcome State Fault Refusal :=
  event s dt (fun d => d.alive && decide (k < 2)) fun d => d.shaperRefresh (if node then .node n else .queue n) k

/-- QUEUE_WRITE (R285): QUEUE_WRITE sets a queue's parent, priority, pool, key selection, thresholds and aging. -/
def execQueueWrite (c : CmdArgs) (s : State) : Host.Outcome State Fault Refusal :=
  act s fun d => d.command false .tm 0x01 c

/-- QUEUE_READ (R314): QUEUE_READ returns a queue's settings, occupancy and holds. -/
def execQueueRead (c : CmdArgs) (s : State) : Host.Outcome State Fault Refusal :=
  act s fun d => d.command false .tm 0x02 c

/-- QUEUE_FLUSH (R305): QUEUE_FLUSH discards every packet the queue holds at its commit point. -/
def execQueueFlush (c : CmdArgs) (s : State) : Host.Outcome State Fault Refusal :=
  act s fun d => d.command false .tm 0x03 c

/-- QUEUE_FLUSH_DONE (R305): A flush completes when its last packet is freed and FLUSH_DONE sets. -/
def execQueueFlushDone (s : State) : Host.Outcome State Fault Refusal :=
  event s 0 Dev.alive fun d => d.flushDone

/-- QUEUE_HOLD (R306): QUEUE_HOLD sets or clears a queue's manual hold. -/
def execQueueHold (c : CmdArgs) (s : State) : Host.Outcome State Fault Refusal :=
  act s fun d => d.command false .tm 0x04 c

/-- NODE_WRITE (R283): NODE_WRITE sets a scheduler node's parent, priority, weight and Q_SHIFT. -/
def execNodeWrite (c : CmdArgs) (s : State) : Host.Outcome State Fault Refusal :=
  act s fun d => d.command false .tm 0x10 c

/-- NODE_READ (R314): NODE_READ returns a node's settings, level and child count. -/
def execNodeRead (c : CmdArgs) (s : State) : Host.Outcome State Fault Refusal :=
  act s fun d => d.command false .tm 0x11 c

/-- SHAPER_WRITE (R295): SHAPER_WRITE sets a CIR or PIR bucket's rate and burst with a token mode. -/
def execShaperWrite (c : CmdArgs) (s : State) : Host.Outcome State Fault Refusal :=
  act s fun d => d.command false .tm 0x20 c

/-- SHAPER_READ (R314): SHAPER_READ returns a bucket's stored state and the current tick. -/
def execShaperRead (c : CmdArgs) (s : State) : Host.Outcome State Fault Refusal :=
  act s fun d => d.command false .tm 0x21 c

/-- ALLOCATION_ROUND (R326): Each pipeline cycle each tier's allocation round serves up to four pending cell requests in
rotating requester order. -/
def execAllocationRound (dt : Nat) (pipes : List Nat) (x : RoundIn) (s : State) : Host.Outcome State Fault Refusal :=
  event s dt Dev.alive fun d =>
    d.allocationRound pipes x.fetch (x.buf.map fun c => bits c.obj 27 27) fun d => match x.buf with
      | some c => d.command false .bp 0x01 c
      | none => d

/-- PREFETCH (R330): The prefetch engine moves the head packet of a queue's far list into near cells. -/
def execPrefetch (dt : Nat) (ends : Bool) (s : State) : Host.Outcome State Fault Refusal :=
  event s dt Dev.alive fun d => d.prefetch ends

/-- MEMORY_SCRUB (R336): The scrubber reads buffer cells in order, writes back corrected errors and retires failed free cells. -/
def execMemoryScrub (dt n err : Nat) (link : Bool) (s : State) : Host.Outcome State Fault Refusal :=
  event s dt (fun d => d.alive && decide (n < 2)) fun d => d.memoryScrub n err link

/-- CATTRIP (R320): The HBM2E catastrophic temperature trip puts the device in FAILED. -/
def execCattrip (dt : Nat) (s : State) : Host.Outcome State Fault Refusal :=
  event s dt Dev.awake fun d => d.cattrip

/-- BUF_ALLOC (R348): BUF_ALLOC allocates a chain of cells in a pool. -/
def execBufAlloc (c : CmdArgs) (s : State) : Host.Outcome State Fault Refusal :=
  act s fun d => d.command false .bp 0x01 c

/-- BUF_FREE (R348): BUF_FREE frees a cell or a chain after checking every cell. -/
def execBufFree (c : CmdArgs) (s : State) : Host.Outcome State Fault Refusal :=
  act s fun d => d.command false .bp 0x02 c

/-- CELL_READ (R348): CELL_READ returns a 32-byte part of a cell. -/
def execCellRead (c : CmdArgs) (s : State) : Host.Outcome State Fault Refusal :=
  act s fun d => d.command false .bp 0x03 c

/-- CELL_WRITE (R348): CELL_WRITE writes a 16-byte part of an allocated cell outside its link word. -/
def execCellWrite (c : CmdArgs) (s : State) : Host.Outcome State Fault Refusal :=
  act s fun d => d.command false .bp 0x04 c

/-- CELL_RETIRE (R348): CELL_RETIRE takes a free cell out of service onto the retirement list. -/
def execCellRetire (c : CmdArgs) (s : State) : Host.Outcome State Fault Refusal :=
  act s fun d => d.command false .bp 0x10 c

/-- RETIRE_READ (R348): RETIRE_READ returns an entry of a tier's retirement list. -/
def execRetireRead (c : CmdArgs) (s : State) : Host.Outcome State Fault Refusal :=
  act s fun d => d.command false .bp 0x11 c

/-- RECLAIM (R339): RECLAIM, in QUIESCED, starts marking every reachable cell and freeing the rest. -/
def execReclaim (c : CmdArgs) (s : State) : Host.Outcome State Fault Refusal :=
  act s fun d => d.command false .bp 0x20 c

/-- RECLAIM_DONE (R339): RECLAIM completes with the cells freed and sets RECLAIM_DONE. -/
def execReclaimDone (s : State) : Host.Outcome State Fault Refusal :=
  event s 0 Dev.alive fun d => d.reclaimDone

/-- ECC_INJECT (R348): ECC_INJECT arms an error on the next write of a cell. -/
def execEccInject (c : CmdArgs) (s : State) : Host.Outcome State Fault Refusal :=
  act s fun d => d.command false .bp 0x21 c

/-- ECC_POP (R345): Writing POP to BP_ECC_POP removes the head entry of the ECC log. -/
def execEccPop (src : Src) (s : State) : Host.Outcome State Fault Refusal :=
  act s fun d => d.writeReg src (R .BP_ECC_POP) 1

/-- MEMORY_TEMPERATURE_HOT (R320): A memory that reports a temperature above 85 °C makes the device double its refresh rate, set
HOT and lower that memory's usable bandwidth. -/
def execMemoryTemperatureHot (dt mem tempC tenths : Nat) (s : State) : Host.Outcome State Fault Refusal :=
  event s dt (fun d => d.laneLive && decide (mem < 5)) fun d => d.memoryHot mem tempC tenths

end Sys2Proof.Machine
end

