-- ==== Sys2Proof/Machine/ExecProtection.lean ====
section
/-! DEFINITION. Protection pairs and the mate link: one meaning per row, over the operations of the chapters' files. -/

namespace Sys2Proof.Machine

/-- HELLO_CELL (R449): A received HELLO cell gives the mate's identity, tree states and timing and may make the pair MISMATCHED. -/
def execHelloCell (dt : Nat) (h : HelloIn) (s : State) : Host.Outcome State Fault Refusal :=
  event s dt Dev.alive fun d => d.hello h

/-- SWITCH_REQ_CELL (R441): A SWITCH_REQ cell asks the ACTIVE unit to commit a switch. -/
def execSwitchReqCell (dt t cause : Nat) (s : State) : Host.Outcome State Fault Refusal :=
  event s dt (fun d => d.alive && decide (t < 64)) fun d => d.switchReqCell t cause

/-- COMMIT_CELL (R441): A COMMIT cell names the boundary at which the STANDBY unit takes the tree. -/
def execCommitCell (dt t sfc cause : Nat) (s : State) : Host.Outcome State Fault Refusal :=
  event s dt (fun d => d.alive && decide (t < 64)) fun d => d.commitCell t sfc cause

/-- RESYNC_REQ_CELL (R455): A RESYNC_REQ cell makes the source start a full pass at the next copy frame. -/
def execResyncReqCell (s : State) : Host.Outcome State Fault Refusal :=
  event s 0 Dev.alive fun d => d.resyncReqCell

/-- RECORD_CELL (R524): A RECORD cell from the mate is stored as a MATE_RECORD. -/
def execRecordCell (dt : Nat) (bytes : List Byte) (s : State) : Host.Outcome State Fault Refusal :=
  event s dt Dev.alive fun d => d.recordCell bytes

/-- MAP_CELL (R449): A MAP cell gives the listening unit the map of a protected tree. -/
def execMapCell (dt t sfc part parts : Nat) (replayed : Bool) (ss : List MapStruct)
    (s : State) : Host.Outcome State Fault Refusal :=
  event s dt (fun d => d.alive && decide (t < 64)) fun d => d.mapCell t sfc part parts replayed ss

/-- NEED_CELL (R456): A NEED cell names the slots whose profile is invalid on the mate, so that long-profile grants are given
them. -/
def execNeedCell (dt t : Nat) (slots : List Nat) (s : State) : Host.Outcome State Fault Refusal :=
  event s dt (fun d => d.alive && decide (t < 64)) fun d => d.needCell t slots

/-- MARKER_CELL (R447): A marker cell keeps codeword lock and carries the sender's good-lane mask, role and next SEQ. -/
def execMarkerCell (dt : Nat) (m : MarkerLane) (mask seq : Nat) (s : State) : Host.Outcome State Fault Refusal :=
  event s dt (fun d => d.alive && decide (m.lane < 4)) fun d => d.markerCell m.lane m.named m.delay mask seq

/-- COPY_FRAME (R453): A complete copy frame is applied whole at the next boundary, or discarded with COPY_BAD and a resync
request. -/
def execCopyFrame (dt : Nat) (cells : List CellRx) (lost : Bool) (s : State) : Host.Outcome State Fault Refusal :=
  event s dt Dev.alive fun d => d.copyFrame cells lost

/-- MATE_LINK_UP (R448): The mate link comes up with a locked lane and a recent HELLO, and a full pass follows. -/
def execMateLinkUp (s : State) : Host.Outcome State Fault Refusal :=
  event s 0 Dev.alive fun d => d.mateLinkUp

/-- MATE_LINK_DOWN (R448): The mate link goes down when no lane is locked or no HELLO arrived within two frames. -/
def execMateLinkDown (s : State) : Host.Outcome State Fault Refusal :=
  event s 0 Dev.alive fun d => d.mateLinkDown

/-- WTR_EXPIRY (R445): Expiry of the PRIMARY's wait-to-restore timer requests a revert. -/
def execWtrExpiry (dt t : Nat) (s : State) : Host.Outcome State Fault Refusal :=
  event s dt (fun d => d.alive && decide (t < 64)) fun d => d.wtrExpiry t

/-- LINK_TAKEOVER (R457): A STANDBY tree without link and fibre evidence for HOLDOFF_FRAMES takes the tree over. -/
def execLinkTakeover (dt t : Nat) (s : State) : Host.Outcome State Fault Refusal :=
  event s dt (fun d => d.alive && decide (t < 64)) fun d => d.linkTakeover t

/-- STARTUP_TAKEOVER (R438): An ISOLATED tree with the link down and no fibre evidence for STARTUP_P or STARTUP_S frames enters
ACTIVE. -/
def execStartupTakeover (dt t : Nat) (s : State) : Host.Outcome State Fault Refusal :=
  event s dt (fun d => d.alive && decide (t < 64)) fun d => d.startupTakeover t

/-- STANDDOWN (R459): With the link down an ACTIVE tree with TREE_LOS or foreign bursts stands down to ISOLATED. -/
def execStanddown (dt t : Nat) (s : State) : Host.Outcome State Fault Refusal :=
  event s dt (fun d => d.alive && decide (t < 64)) fun d => d.standdownNow t

/-- SNAPSHOT_WRITE (R460): In cold mode the driving unit writes a snapshot to host memory each second and sets SNAP_DONE or
SNAP_FAIL. -/
def execSnapshotWrite (dt : Nat) (fault : Bool) (s : State) : Host.Outcome State Fault Refusal :=
  event s dt Dev.alive fun d => d.snapshotWrite fault

/-- COLD_TAKEOVER (R461): A cold-mode STANDBY tree without fibre evidence for HOLDOFF_FRAMES restores from the staged snapshot
and enters ACTIVE. -/
def execColdTakeover (dt t : Nat) (fault : Bool) (s : State) : Host.Outcome State Fault Refusal :=
  event s dt (fun d => d.alive && decide (t < 64)) fun d => d.coldTakeover t fault

/-- SWITCH (R469): SWITCH requests a protection switch of a tree. -/
def execSwitch (c : CmdArgs) (s : State) : Host.Outcome State Fault Refusal :=
  act s fun d => d.command false .px 0x01 c

/-- LOCKOUT (R469): LOCKOUT sets a lockout on a tree, switching it away first if ACTIVE. -/
def execLockout (c : CmdArgs) (s : State) : Host.Outcome State Fault Refusal :=
  act s fun d => d.command false .px 0x02 c

/-- LOCKOUT_CLEAR (R469): LOCKOUT_CLEAR removes a tree's lockout. -/
def execLockoutClear (c : CmdArgs) (s : State) : Host.Outcome State Fault Refusal :=
  act s fun d => d.command false .px 0x03 c

/-- JOIN (R469): JOIN returns an OFF protected tree to ISOLATED. -/
def execJoin (c : CmdArgs) (s : State) : Host.Outcome State Fault Refusal :=
  act s fun d => d.command false .px 0x04 c

/-- RESYNC (R455): RESYNC starts a full pass of the state copy. -/
def execResync (c : CmdArgs) (s : State) : Host.Outcome State Fault Refusal :=
  act s fun d => d.command false .px 0x05 c

/-- PAIR_KEY (R469): PAIR_KEY installs the pair key. -/
def execPairKey (c : CmdArgs) (s : State) : Host.Outcome State Fault Refusal :=
  act s fun d => d.command false .px 0x10 c

/-- PAIR_KEY_CLEAR (R469): PAIR_KEY_CLEAR zeroes the pair key. -/
def execPairKeyClear (c : CmdArgs) (s : State) : Host.Outcome State Fault Refusal :=
  act s fun d => d.command false .px 0x11 c

end Sys2Proof.Machine
end

