-- ==== Sys2Proof/Machine/ExecTimebase.lean ====
section
/-! DEFINITION. Timebase: one meaning per row, over the operations of the chapters' files. -/

namespace Sys2Proof.Machine

/-- TIME_SET (R406): TIME_SET loads C from a time of day at its commit tick. -/
def execTimeSet (c : CmdArgs) (s : State) : Host.Outcome State Fault Refusal :=
  act s fun d => d.command false .tb 0x01 c

/-- TIME_STEP (R406): TIME_STEP adds a signed number of nanoseconds to C at its commit tick. -/
def execTimeStep (c : CmdArgs) (s : State) : Host.Outcome State Fault Refusal :=
  act s fun d => d.command false .tb 0x02 c

/-- TIME_SLEW (R407): TIME_SLEW starts moving C by δ at RATE without a step. -/
def execTimeSlew (c : CmdArgs) (s : State) : Host.Outcome State Fault Refusal :=
  act s fun d => d.command false .tb 0x03 c

/-- SLEW_COMPLETE (R407): When the slew remainder reaches 0, SLEWING returns to 0 and SLEW_DONE sets. -/
def execSlewComplete (s : State) : Host.Outcome State Fault Refusal :=
  event s 0 Dev.awake fun d => d.slewComplete

/-- FRAME_ALIGN (R413): FRAME_ALIGN schedules the common frame boundary onto aligned values of C at least 250 µs later. -/
def execFrameAlign (c : CmdArgs) (s : State) : Host.Outcome State Fault Refusal :=
  act s fun d => d.command false .tb 0x04 c

/-- ALIGNED_INSTANT (R413): At the aligned instant the new boundary phase takes effect and FRAME_ALIGN or START completes; an instant that
dt ticks pass ends the wait (log entry 122). -/
def execAlignedInstant (dt : Nat) (s : State) : Host.Outcome State Fault Refusal :=
  let n := s.dev.alignBy dt
  event s n Dev.alive fun d => d.alignedInstant (s.dev.alignTicks == some n) (s.dev.startTicks == some n)

/-- CLOCK_FALLBACK (R408): LOS or LOL on REC0's lane returns the timebase island to REFCLK_ETH and sets FALLBACK. -/
def execClockFallback (s : State) : Host.Outcome State Fault Refusal :=
  event s 0 Dev.awake fun d => d.clockFallback

/-- COMPARE_FIRE (R409): An armed compare fires at its target, drives its output and disarms or advances by its period. -/
def execCompareFire (dt n : Nat) (s : State) : Host.Outcome State Fault Refusal :=
  event s dt (fun d => d.awake && decide (n < 8)) fun d => d.compareFire n

/-- CAPTURE_EDGE (R412): An edge on a capture input latches C and sets CAP_EDGE and VALID. -/
def execCaptureEdge (dt n : Nat) (falling : Bool) (s : State) : Host.Outcome State Fault Refusal :=
  event s dt (fun d => d.awake && decide (n < 5)) fun d => d.captureEdge n falling false

/-- TODCAP_ARM (R415): Writing ARM arms a time-of-day capture slot for a tree and target SFC. -/
def execTodcapArm (src : Src) (n t : Nat) (s : State) : Host.Outcome State Fault Refusal :=
  act s fun d => d.writeReg src (R .TB_TODCAP_CTL n) (2 ^ 31 + t)

/-- TXTS_POP (R416): Writing POP to TB_TXTS_POP removes the head of the port's transmit timestamp queue. -/
def execTxtsPop (src : Src) (u : Nat) (s : State) : Host.Outcome State Fault Refusal :=
  act s fun d => d.writeReg src (R .TB_TXTS_POP u) 1

/-- CLR_LOST (R433): Writing CLR_LOST zeroes the port's LOST count of discarded timestamps. -/
def execClrLost (src : Src) (u : Nat) (lossNow : Bool) (s : State) : Host.Outcome State Fault Refusal :=
  act s fun d => d.clrLostWrite src u lossNow

/-- GCL_WRITE (R434): GCL_WRITE writes an entry of a port's admin gate list. -/
def execGclWrite (c : CmdArgs) (s : State) : Host.Outcome State Fault Refusal :=
  act s fun d => d.command false .tb 0x10 c

/-- GCL_COMMIT (R422): GCL_COMMIT makes the admin list pending with its start S. -/
def execGclCommit (c : CmdArgs) (s : State) : Host.Outcome State Fault Refusal :=
  act s fun d => d.command false .tb 0x11 c

/-- GCL_START (R422): At S a pending gate list becomes operational from entry 0 and GCL_STARTED sets. -/
def execGclStart (dt u : Nat) (s : State) : Host.Outcome State Fault Refusal :=
  event s dt (fun d => d.alive && decide (u < 12)) fun d => d.gclStart u

/-- GCL_CANCEL (R434): GCL_CANCEL discards a pending gate list. -/
def execGclCancel (c : CmdArgs) (s : State) : Host.Outcome State Fault Refusal :=
  act s fun d => d.command false .tb 0x12 c

/-- GCL_STOP (R434): GCL_STOP ends the operational list with all gates open. -/
def execGclStop (c : CmdArgs) (s : State) : Host.Outcome State Fault Refusal :=
  act s fun d => d.command false .tb 0x13 c

/-- GCL_READ (R434): GCL_READ returns an admin or operational gate list entry and list state. -/
def execGclRead (c : CmdArgs) (s : State) : Host.Outcome State Fault Refusal :=
  act s fun d => d.command false .tb 0x14 c

/-- CHAIN_MODE_CHANGE (R426): A change of chain MODE takes effect 500 ms after the last CHAIN_IN_PPS edge, or at once after 2 s
without edges. -/
def execChainModeChange (dt : Nat) (s : State) : Host.Outcome State Fault Refusal :=
  event s dt Dev.awake fun d => d.chainModeChange

/-- CHAIN_IN_PPS_EDGE (R426): A rising edge on CHAIN_IN_PPS sets IN_PPS_SEEN and restarts the 500 ms delay before a pending
chain MODE change takes effect. -/
def execChainInPpsEdge (dt : Nat) (s : State) : Host.Outcome State Fault Refusal :=
  event s dt Dev.awake fun d => d.chainEdge

end Sys2Proof.Machine
end

