-- ==== Sys2Proof/Machine/ExecTrees.lean ====
section
/-! DEFINITION. Tree framing, ranging and grant scheduling: one meaning per row, over the operations of the chapters' files. -/

namespace Sys2Proof.Machine

/-- BURST_OUTCOME (R81): A received burst ends with one outcome, and its delineation, header checks, XGEM delivery, reports,
PLOAMu and measurements are processed. -/
def execBurstOutcome (dt : Nat) (j : BurstIn) (s : State) : Host.Outcome State Fault Refusal :=
  event s dt (fun d => d.alive && decide (j.tree < 64)) fun d => (d.burst j).pxBurst j

/-- UNGRANTED_ENERGY (R82): Energy above SIG_THRESH for 32 bits outside a granted burst is reported to the ranging engine with
its position. -/
def execUngrantedEnergy (dt t frame : Nat) (x : EnergyIn) (s : State) : Host.Outcome State Fault Refusal :=
  event s dt (fun d => d.alive && decide (t < 64)) fun d =>
    if d.strongEnergy t frame x.pos x.amp x.len then (d.energy t frame x.pos).pxEnergy t else d

/-- REASM_TIMEOUT (R124): An open upstream packet without continuation for REASM_FRAMES upstream frames is discarded and
counted. -/
def execReasmTimeout (dt t port : Nat) (s : State) : Host.Outcome State Fault Refusal :=
  event s dt (fun d => d.alive && decide (t < 64) && decide (port < 65536)) fun d => d.reasmTimeout t port

/-- TREE_OFF (R115): TREE_OFF takes a tree to OFF at the next downstream frame boundary. -/
def execTreeOff (r : Nat) (c : CmdArgs) (s : State) : Host.Outcome State Fault Refusal :=
  act s fun d => if r < 8 then d.command false (.tf r) 0x01 c else d

/-- TREE_STANDBY (R115): TREE_STANDBY takes a tree not under protection control to STANDBY at the next boundary. -/
def execTreeStandby (r : Nat) (c : CmdArgs) (s : State) : Host.Outcome State Fault Refusal :=
  act s fun d => if r < 8 then d.command false (.tf r) 0x02 c else d

/-- TREE_ACTIVE (R115): TREE_ACTIVE takes a tree not under protection control to ACTIVE at the next boundary. -/
def execTreeActive (r : Nat) (c : CmdArgs) (s : State) : Host.Outcome State Fault Refusal :=
  act s fun d => if r < 8 then d.command false (.tf r) 0x03 c else d

/-- SET_SFC (R116): SET_SFC loads a tree's superframe counter at the next boundary in place of the increment. -/
def execSetSfc (r : Nat) (c : CmdArgs) (s : State) : Host.Outcome State Fault Refusal :=
  act s fun d => if r < 8 then d.command false (.tf r) 0x04 c else d

/-- TERM_DEFECTS (R149): TERM_DEFECTS returns a terminal's declared and reported defect bits and tracked offset. -/
def execTermDefects (r : Nat) (c : CmdArgs) (s : State) : Host.Outcome State Fault Refusal :=
  act s fun d => if r < 8 then d.command false (.tf r) 0x10 c else d

/-- PM_READ (R149): PM_READ returns a 32-byte quarter of a current or history PM bin of a terminal or tree. -/
def execPmRead (r : Nat) (c : CmdArgs) (s : State) : Host.Outcome State Fault Refusal :=
  act s fun d => if r < 8 then d.command false (.tf r) 0x20 c else d

/-- PM_RESET_CURRENT (R137): PM_RESET_CURRENT zeroes both current bins of the object and sets PARTIAL. -/
def execPmResetCurrent (r : Nat) (c : CmdArgs) (s : State) : Host.Outcome State Fault Refusal :=
  act s fun d => if r < 8 then d.command false (.tf r) 0x21 c else d

/-- PM_HISTORY_WRITE (R135): A closed bin is written to the far-tier history region within 10 ms and PM_CLOSED sets. -/
def execPmHistoryWrite (dt r : Nat) (s : State) : Host.Outcome State Fault Refusal :=
  event s dt (fun d => d.alive && decide (r < 8)) fun d => d.pmHistoryWrite r

/-- XGEM_PORT_ADD (R125): XGEM_PORT_ADD activates an XGEM port on a tree for a terminal slot. -/
def execXgemPortAdd (r : Nat) (c : CmdArgs) (s : State) : Host.Outcome State Fault Refusal :=
  act s fun d => if r < 8 then d.command false (.tf r) 0x30 c else d

/-- XGEM_PORT_DEL (R125): XGEM_PORT_DEL deactivates an XGEM port and discards its open reassembly. -/
def execXgemPortDel (r : Nat) (c : CmdArgs) (s : State) : Host.Outcome State Fault Refusal :=
  act s fun d => if r < 8 then d.command false (.tf r) 0x31 c else d

/-- XGEM_PORT_READ (R149): XGEM_PORT_READ returns an XGEM port's slot and OMCC mark. -/
def execXgemPortRead (r : Nat) (c : CmdArgs) (s : State) : Host.Outcome State Fault Refusal :=
  act s fun d => if r < 8 then d.command false (.tf r) 0x32 c else d

/-- DEFECT_POP (R147): Writing POP to TF_DEFECT_POP removes the head entry of the defect event queue. -/
def execDefectPop (src : Src) (t : Nat) (s : State) : Host.Outcome State Fault Refusal :=
  act s fun d => d.writeReg src (R .TF_DEFECT_POP t) 1

/-- SERIAL_NUMBER_ONU (R160): A Serial_Number_ONU with a good MIC is matched against the tree's slots, assigned, ignored or
queued for discovery. -/
def execSerialNumberOnu (dt t : Nat) (diff : Int) (bytes mic : List Byte) (s : State) :
    Host.Outcome State Fault Refusal :=
  event s dt (fun d => d.alive && decide (t < 64 ∧ bytes.length = 40 ∧ mic.length = 8)) fun d => d.serialNumber t diff (bytes ++ mic)

/-- REGISTRATION (R165): A Registration is copied to the host queue and, with a good MIC, completes ranging by computing the
equalisation delay. -/
def execRegistration (dt g : Nat) (diff : Int) (bytes mic : List Byte) (s : State) :
    Host.Outcome State Fault Refusal :=
  event s dt (fun d => d.alive && decide (g < 32768 ∧ bytes.length = 40 ∧ mic.length = 8)) fun d =>
    d.registration g diff (bytes ++ mic)

/-- ACKNOWLEDGE (R177): An upstream Acknowledge is consumed when its sequence number belongs to a hardware message, otherwise
passed to the host. -/
def execAcknowledge (dt g : Nat) (head bytes mic : List Byte) (s : State) : Host.Outcome State Fault Refusal :=
  event s dt (fun d => d.alive && decide (g < 32768 ∧ head.length = 4 ∧ bytes.length = 36 ∧ mic.length = 8)) fun d =>
    d.acknowledge g (head ++ bytes ++ mic)

/-- PLOAMU_HOST_MESSAGE (R180): Any other upstream PLOAM message enters the tree's host upstream queue, or is discarded when the
queue is full. -/
def execPloamuHostMessage (dt t slot : Nat) (bytes mic : List Byte) (s : State) : Host.Outcome State Fault Refusal :=
  event s dt (fun d => d.alive && decide (t < 64 ∧ slot < 512 ∧ bytes.length = 40 ∧ mic.length = 8)) fun d =>
    d.upPush t slot (d.micGood (some (512 * t + slot)) (bytes ++ mic)) (bytes ++ mic)

/-- ACTIVATION_FAIL (R165): An activation that exhausts RANGE_TRIES or gets no ranging grant within 64 frames returns the slot
to PROVISIONED and sets ACT_FAIL. -/
def execActivationFail (dt g : Nat) (s : State) : Host.Outcome State Fault Refusal :=
  event s dt (fun d => d.alive && decide (g < 32768)) fun d => d.activationTimeout g

/-- LOST_TIMEOUT (R156): A slot that has been LOST for LOST_S seconds returns to PROVISIONED with Deactivate_ONU-ID queued. -/
def execLostTimeout (dt g : Nat) (s : State) : Host.Outcome State Fault Refusal :=
  event s dt (fun d => d.alive && decide (g < 32768)) fun d => d.lostTimeout g

/-- ADJ_WAIT_EXPIRY (R167): An unconfirmed adjustment resends its Ranging_Time after ADJ_WAIT frames and is abandoned after a
second period. -/
def execAdjWaitExpiry (dt g : Nat) (s : State) : Host.Outcome State Fault Refusal :=
  event s dt (fun d => d.alive && decide (g < 32768)) fun d => d.adjWaitExpiry g

/-- TERM_PROVISION (R156): TERM_PROVISION binds a serial number to a FREE slot, making it PROVISIONED. -/
def execTermProvision (r : Nat) (c : CmdArgs) (s : State) : Host.Outcome State Fault Refusal :=
  act s fun d => if r < 8 then d.command false (.rg r) 0x01 c else d

/-- TERM_ASSIGN (R156): TERM_ASSIGN assigns a PROVISIONED slot whose number has been discovered and requests ranging. -/
def execTermAssign (r : Nat) (c : CmdArgs) (s : State) : Host.Outcome State Fault Refusal :=
  act s fun d => if r < 8 then d.command false (.rg r) 0x02 c else d

/-- TERM_DEACTIVATE (R156): TERM_DEACTIVATE returns a slot to PROVISIONED with Deactivate_ONU-ID queued. -/
def execTermDeactivate (r : Nat) (c : CmdArgs) (s : State) : Host.Outcome State Fault Refusal :=
  act s fun d => if r < 8 then d.command false (.rg r) 0x03 c else d

/-- TERM_DISABLE (R156): TERM_DISABLE makes a slot DISABLED and queues Disable_Serial_Number (disable). -/
def execTermDisable (r : Nat) (c : CmdArgs) (s : State) : Host.Outcome State Fault Refusal :=
  act s fun d => if r < 8 then d.command false (.rg r) 0x04 c else d

/-- TERM_ENABLE (R156): TERM_ENABLE returns a DISABLED slot to PROVISIONED and queues Disable_Serial_Number (enable). -/
def execTermEnable (r : Nat) (c : CmdArgs) (s : State) : Host.Outcome State Fault Refusal :=
  act s fun d => if r < 8 then d.command false (.rg r) 0x05 c else d

/-- TERM_RELEASE (R156): TERM_RELEASE makes a slot FREE, queuing Deactivate_ONU-ID if it was ranged or assigned. -/
def execTermRelease (r : Nat) (c : CmdArgs) (s : State) : Host.Outcome State Fault Refusal :=
  act s fun d => if r < 8 then d.command false (.rg r) 0x06 c else d

/-- TERM_SET_IK (R178): TERM_SET_IK installs the slot's PLOAM integrity key. -/
def execTermSetIk (r : Nat) (c : CmdArgs) (s : State) : Host.Outcome State Fault Refusal :=
  act s fun d => if r < 8 then d.command false (.rg r) 0x07 c else d

/-- TERM_READ (R192): TERM_READ returns a slot's state, delays, offset and serial number. -/
def execTermRead (r : Nat) (c : CmdArgs) (s : State) : Host.Outcome State Fault Refusal :=
  act s fun d => if r < 8 then d.command false (.rg r) 0x08 c else d

/-- PROFILE_READ (R192): PROFILE_READ returns the 32 bytes of a terminal's Benchmark profile. -/
def execProfileRead (r : Nat) (c : CmdArgs) (s : State) : Host.Outcome State Fault Refusal :=
  act s fun d => if r < 8 then d.command false (.rg r) 0x10 c else d

/-- PROFILE_INVALIDATE (R173): PROFILE_INVALIDATE clears a Benchmark profile's VALID and the lane slot copies. -/
def execProfileInvalidate (r : Nat) (c : CmdArgs) (s : State) : Host.Outcome State Fault Refusal :=
  act s fun d => if r < 8 then d.command false (.rg r) 0x11 c else d

/-- PLOAM_TAIL (R192): PLOAM_TAIL stores content bytes 31 to 35 for the bank's next PLOAM_SEND. -/
def execPloamTail (r : Nat) (c : CmdArgs) (s : State) : Host.Outcome State Fault Refusal :=
  act s fun d => if r < 8 then d.command false (.rg r) 0x20 c else d

/-- PLOAM_SEND (R192): PLOAM_SEND builds a host PLOAM message, assigns its sequence number and queues it on the host downstream
queue. -/
def execPloamSend (r : Nat) (c : CmdArgs) (s : State) : Host.Outcome State Fault Refusal :=
  act s fun d => if r < 8 then d.command false (.rg r) 0x21 c else d

/-- PLOAMU_POP (R180): Writing POP to RG_PLOAMU_POP removes the head of the host upstream PLOAM queue. -/
def execPloamuPop (src : Src) (t : Nat) (s : State) : Host.Outcome State Fault Refusal :=
  act s fun d => d.writeReg src (R .RG_PLOAMU_POP t) 1

/-- DISC_POP (R161): Writing POP to RG_DISC_POP removes the head of the reach's discovery queue. -/
def execDiscPop (src : Src) (r : Nat) (s : State) : Host.Outcome State Fault Refusal :=
  act s fun d => d.writeReg src (R .RG_DISC_POP r) 1

/-- MAP_COMPUTATION_START (R193): START_US after a boundary the grant scheduler snapshots its inputs and builds the map of frame
N+2 through its passes and layout. -/
def execMapComputationStart (dt t waits : Nat) (s : State) : Host.Outcome State Fault Refusal :=
  event s dt (fun d => d.alive && decide (t < 64)) fun d => Dev.pxMapSent d (d.mapStart t waits) t

/-- MAP_DEADLINE (R195): A map not complete 10 µs before its frame is abandoned and the frame carries the previous map replayed. -/
def execMapDeadline (dt t : Nat) (s : State) : Host.Outcome State Fault Refusal :=
  event s dt (fun d => d.alive && decide (t < 64)) fun d => Dev.pxMapSent d (d.mapDeadline t) t

/-- PREDICTOR_BIN_END (R204): At the end of a second or day profile bin the predictor updates that bin's ratio. -/
def execPredictorBinEnd (dt t : Nat) (day : Bool) (s : State) : Host.Outcome State Fault Refusal :=
  event s dt (fun d => d.alive && decide (t < 64)) fun d => d.binEnd t day

/-- DAY_PROFILE_LOAD (R205): After a day-bin end the finished bin is written back and the next one loaded from the far tier
within 10 ms. -/
def execDayProfileLoad (dt t : Nat) (s : State) : Host.Outcome State Fault Refusal :=
  event s dt (fun d => d.alive && decide (t < 64)) fun d => d.dayLoad t

/-- COOP_PI_WRITE (R216): A write of GS_COOP_PI hands entries to the device or is refused with COOP_PI_BAD. -/
def execCoopPiWrite (src : Src) (r v : Nat) (s : State) : Host.Outcome State Fault Refusal :=
  act s fun d => d.writeReg src (R .GS_COOP_PI r) v

/-- COOP_EN_WRITE (R229): A write of COOP_EN starts cooperative reading with RD and CI set to PI, or stops it and drains the
accepted entries. -/
def execCoopEnWrite (src : Src) (r : Nat) (en : Bool) (s : State) : Host.Outcome State Fault Refusal :=
  act s fun d => d.writeReg src (R .GS_MAP_CFG r) (putBits (d.reg (R .GS_MAP_CFG r)) 31 31 (b2n en))

/-- ALLOC_ADD (R230): ALLOC_ADD binds an Alloc-ID with its parameters to a slot in an allocation entry. -/
def execAllocAdd (t : Nat) (c : CmdArgs) (s : State) : Host.Outcome State Fault Refusal :=
  act s fun d => if t < 64 then d.command false (.gs t) 0x01 c else d

/-- ALLOC_MODIFY (R230): ALLOC_MODIFY changes an entry's parameters, keeping its credits clipped to the new caps. -/
def execAllocModify (t : Nat) (c : CmdArgs) (s : State) : Host.Outcome State Fault Refusal :=
  act s fun d => if t < 64 then d.command false (.gs t) 0x02 c else d

/-- ALLOC_DEL (R230): ALLOC_DEL frees an allocation entry. -/
def execAllocDel (t : Nat) (c : CmdArgs) (s : State) : Host.Outcome State Fault Refusal :=
  act s fun d => if t < 64 then d.command false (.gs t) 0x03 c else d

/-- ALLOC_READ (R230): ALLOC_READ returns an entry's or default allocation's parameters and credits. -/
def execAllocRead (t : Nat) (c : CmdArgs) (s : State) : Host.Outcome State Fault Refusal :=
  act s fun d => if t < 64 then d.command false (.gs t) 0x04 c else d

/-- PRED_READ (R230): PRED_READ returns an entry's predictor state. -/
def execPredRead (t : Nat) (c : CmdArgs) (s : State) : Host.Outcome State Fault Refusal :=
  act s fun d => if t < 64 then d.command false (.gs t) 0x05 c else d

/-- PRED_RESET (R230): PRED_RESET resets an entry's predictor rate, accumulators and profiles. -/
def execPredReset (t : Nat) (c : CmdArgs) (s : State) : Host.Outcome State Fault Refusal :=
  act s fun d => if t < 64 then d.command false (.gs t) 0x06 c else d

/-- MAP_READ (R230): MAP_READ returns one structure of the last map sent. -/
def execMapRead (t : Nat) (c : CmdArgs) (s : State) : Host.Outcome State Fault Refusal :=
  act s fun d => if t < 64 then d.command false (.gs t) 0x08 c else d

end Sys2Proof.Machine
end

