-- ==== Sys2Proof/Machine/ExecUplink.lean ====
section
/-! DEFINITION. Uplink ports: one meaning per row, over the operations of the chapters' files. -/

namespace Sys2Proof.Machine

/-- UPLINK_FRAME_RECEIVE (R385): A frame received on an UP port is checked, MACsec-validated at its SecTAG and passed to the
parser, or discarded and counted. -/
def execUplinkFrameReceive (dt : Nat) (f : FrameIn) (s : State) : Host.Outcome State Fault Refusal :=
  event s dt (fun d => d.alive && decide (f.port < 12)) fun d => d.uplinkReceive f

/-- PAUSE_FRAME (R389): A received PAUSE frame sets the port's pause timer to its quanta. -/
def execPauseFrame (dt u q : Nat) (s : State) : Host.Outcome State Fault Refusal :=
  event s dt (fun d => d.alive && decide (u < 12) && decide (q < 65536)) fun d => d.pauseFrame u q

/-- PFC_FRAME (R389): A received PFC frame sets the timer of each enabled class. -/
def execPfcFrame (dt u en : Nat) (qs : List Nat) (s : State) : Host.Outcome State Fault Refusal :=
  event s dt (fun d => d.alive && decide (u < 12)) fun d => d.pfcFrame u en qs

/-- PAUSE_TIMER_EXPIRY (R389): A running pause or PFC class timer expires and the port or class may send again. -/
def execPauseTimerExpiry (dt u : Nat) (s : State) : Host.Outcome State Fault Refusal :=
  event s dt (fun d => d.alive && decide (u < 12)) fun d => d.pauseExpiry u

/-- XOFF_REPEAT (R390): A class still in XOFF repeats its flow-control frame every QUANTA / 2 quanta. -/
def execXoffRepeat (dt u c : Nat) (s : State) : Host.Outcome State Fault Refusal :=
  event s dt (fun d => d.alive && decide (u < 12) && decide (c < 8)) fun d => d.xoffRepeat u c

/-- PORT_CONDITION_CHANGE (R383): A port declares or clears LOS, LOA, HI_BER, LF or RF and reports it under the suppression
rules. -/
def execPortConditionChange (dt u : Nat) (x : CondIn) (on sending stamped receiving : Bool)
    (s : State) : Host.Outcome State Fault Refusal :=
  event s dt (fun d => d.alive && decide (u < 12)) fun d => d.ulCondition u x.code on sending stamped receiving x.lanes

/-- PORT_UP (R380): A DOWN port with all conditions absent for UP_HOLD_MS becomes UP and sets LINK_UP. -/
def execPortUp (dt u : Nat) (s : State) : Host.Outcome State Fault Refusal :=
  event s dt (fun d => d.alive && decide (u < 12)) fun d => d.ulUp u

/-- DEGRADED_WINDOW_END (R387): At the end of each codeword window DEGRADED is declared or cleared from the corrected symbols. -/
def execDegradedWindowEnd (dt u corr uncorr : Nat) (syms : List Nat) (s : State) : Host.Outcome State Fault Refusal :=
  event s dt (fun d => d.alive && decide (u < 12)) fun d => d.degradedWindow u corr uncorr syms

/-- CLR_STATS (R396): Writing CLR_STATS zeroes every statistic of the port. -/
def execClrStats (src : Src) (u : Nat) (incs : List Nat) (s : State) : Host.Outcome State Fault Refusal :=
  act s fun d => d.clrStatsWrite src u incs

end Sys2Proof.Machine
end

