-- ==== Sys2Proof/Machine/Dispatch.lean ====
section
/-! DEFINITION. One arm per command: its meaning. -/

namespace Sys2Proof.Machine

/-- The effect of a command on everything but the queue. -/
def exec (i : Instr) (s : State) : Host.Outcome State Fault Refusal :=
  match i with
  | .registerWrite src off a => Sys2Proof.Machine.execRegisterWrite src off a s
  | .outOfSliceAccess v off a => Sys2Proof.Machine.execOutOfSliceAccess v off a s
  | .lowWordWrite src p v => Sys2Proof.Machine.execLowWordWrite src p v s
  | .ponidHiWrite src t v => Sys2Proof.Machine.execPonidHiWrite src t v s
  | .incHiWrite src v => Sys2Proof.Machine.execIncHiWrite src v s
  | .cmpTgtHiWrite src n v => Sys2Proof.Machine.execCmpTgtHiWrite src n v s
  | .pnThreshHiWrite src v => Sys2Proof.Machine.execPnThreshHiWrite src v s
  | .sfcLoRead src t => Sys2Proof.Machine.execSfcLoRead src t s
  | .ulStatLoRead src u j => Sys2Proof.Machine.execUlStatLoRead src u j s
  | .mgmtStatLoRead src j => Sys2Proof.Machine.execMgmtStatLoRead src j s
  | .cntLoRead src prog n => Sys2Proof.Machine.execCntLoRead src prog n s
  | .nowLoRead src => Sys2Proof.Machine.execNowLoRead src s
  | .todNsRead src => Sys2Proof.Machine.execTodNsRead src s
  | .capLoRead src n => Sys2Proof.Machine.execCapLoRead src n s
  | .todcapTLoRead src n => Sys2Proof.Machine.execTodcapTLoRead src n s
  | .freeErrRead src => Sys2Proof.Machine.execFreeErrRead src s
  | .porstN dt level straps testEn => Sys2Proof.Machine.execPorstN dt level straps testEn s
  | .srstN dt level => Sys2Proof.Machine.execSrstN dt level s
  | .pwrfailNFall dt fits => Sys2Proof.Machine.execPwrfailNFall dt fits s
  | .pciePerstN dt p => Sys2Proof.Machine.execPciePerstN dt p s
  | .refclkLoss dt c => Sys2Proof.Machine.execRefclkLoss dt c s
  | .refclkReturn dt c => Sys2Proof.Machine.execRefclkReturn dt c s
  | .jtagInstruction dt j => Sys2Proof.Machine.execJtagInstruction dt j s
  | .bootLoad dt b => Sys2Proof.Machine.execBootLoad dt b s
  | .start c => Sys2Proof.Machine.execStart c s
  | .quiesce c => Sys2Proof.Machine.execQuiesce c s
  | .resume c => Sys2Proof.Machine.execResume c s
  | .warmReset c => Sys2Proof.Machine.execWarmReset c s
  | .loadHost c => Sys2Proof.Machine.execLoadHost c s
  | .loadReach c => Sys2Proof.Machine.execLoadReach c s
  | .reachLoadDone dt fault => Sys2Proof.Machine.execReachLoadDone dt fault s
  | .lightReach c => Sys2Proof.Machine.execLightReach c s
  | .darkenReach c => Sys2Proof.Machine.execDarkenReach c s
  | .frameBoundary dt => Sys2Proof.Machine.execFrameBoundary dt s
  | .pllUnlock dt k j => Sys2Proof.Machine.execPllUnlock dt k j s
  | .swapBit dt t => Sys2Proof.Machine.execSwapBit dt t s
  | .profileRefill dt x => Sys2Proof.Machine.execProfileRefill dt x s
  | .burstOutcome dt j => Sys2Proof.Machine.execBurstOutcome dt j s
  | .ungrantedEnergy dt t frame x => Sys2Proof.Machine.execUngrantedEnergy dt t frame x s
  | .reasmTimeout dt t port => Sys2Proof.Machine.execReasmTimeout dt t port s
  | .laneLosSet dt k x sending stamped receiving => Sys2Proof.Machine.execLaneLosSet dt k x sending stamped receiving s
  | .laneLosClear dt k x sending stamped receiving => Sys2Proof.Machine.execLaneLosClear dt k x sending stamped receiving s
  | .laneLolSet dt k x => Sys2Proof.Machine.execLaneLolSet dt k x s
  | .laneLolClear dt k x => Sys2Proof.Machine.execLaneLolClear dt k x s
  | .mateLaneRejoin dt m => Sys2Proof.Machine.execMateLaneRejoin dt m s
  | .eyeScanDone dt k j left right down up => Sys2Proof.Machine.execEyeScanDone dt k j left right down up s
  | .prbsLockLoss dt k j same rx => Sys2Proof.Machine.execPrbsLockLoss dt k j same rx s
  | .chkClr src k j errNow => Sys2Proof.Machine.execChkClr src k j errNow s
  | .errInject src k j => Sys2Proof.Machine.execErrInject src k j s
  | .treeOff r c => Sys2Proof.Machine.execTreeOff r c s
  | .treeStandby r c => Sys2Proof.Machine.execTreeStandby r c s
  | .treeActive r c => Sys2Proof.Machine.execTreeActive r c s
  | .setSfc r c => Sys2Proof.Machine.execSetSfc r c s
  | .termDefects r c => Sys2Proof.Machine.execTermDefects r c s
  | .pmRead r c => Sys2Proof.Machine.execPmRead r c s
  | .pmResetCurrent r c => Sys2Proof.Machine.execPmResetCurrent r c s
  | .pmHistoryWrite dt r => Sys2Proof.Machine.execPmHistoryWrite dt r s
  | .xgemPortAdd r c => Sys2Proof.Machine.execXgemPortAdd r c s
  | .xgemPortDel r c => Sys2Proof.Machine.execXgemPortDel r c s
  | .xgemPortRead r c => Sys2Proof.Machine.execXgemPortRead r c s
  | .defectPop src t => Sys2Proof.Machine.execDefectPop src t s
  | .serialNumberOnu dt t diff bytes mic => Sys2Proof.Machine.execSerialNumberOnu dt t diff bytes mic s
  | .registration dt g diff bytes mic => Sys2Proof.Machine.execRegistration dt g diff bytes mic s
  | .acknowledge dt g head bytes mic => Sys2Proof.Machine.execAcknowledge dt g head bytes mic s
  | .ploamuHostMessage dt t slot bytes mic => Sys2Proof.Machine.execPloamuHostMessage dt t slot bytes mic s
  | .activationFail dt g => Sys2Proof.Machine.execActivationFail dt g s
  | .lostTimeout dt g => Sys2Proof.Machine.execLostTimeout dt g s
  | .adjWaitExpiry dt g => Sys2Proof.Machine.execAdjWaitExpiry dt g s
  | .termProvision r c => Sys2Proof.Machine.execTermProvision r c s
  | .termAssign r c => Sys2Proof.Machine.execTermAssign r c s
  | .termDeactivate r c => Sys2Proof.Machine.execTermDeactivate r c s
  | .termDisable r c => Sys2Proof.Machine.execTermDisable r c s
  | .termEnable r c => Sys2Proof.Machine.execTermEnable r c s
  | .termRelease r c => Sys2Proof.Machine.execTermRelease r c s
  | .termSetIk r c => Sys2Proof.Machine.execTermSetIk r c s
  | .termRead r c => Sys2Proof.Machine.execTermRead r c s
  | .profileRead r c => Sys2Proof.Machine.execProfileRead r c s
  | .profileInvalidate r c => Sys2Proof.Machine.execProfileInvalidate r c s
  | .ploamTail r c => Sys2Proof.Machine.execPloamTail r c s
  | .ploamSend r c => Sys2Proof.Machine.execPloamSend r c s
  | .ploamuPop src t => Sys2Proof.Machine.execPloamuPop src t s
  | .discPop src r => Sys2Proof.Machine.execDiscPop src r s
  | .mapComputationStart dt t waits => Sys2Proof.Machine.execMapComputationStart dt t waits s
  | .mapDeadline dt t => Sys2Proof.Machine.execMapDeadline dt t s
  | .predictorBinEnd dt t day => Sys2Proof.Machine.execPredictorBinEnd dt t day s
  | .dayProfileLoad dt t => Sys2Proof.Machine.execDayProfileLoad dt t s
  | .coopPiWrite src r v => Sys2Proof.Machine.execCoopPiWrite src r v s
  | .coopEnWrite src r en => Sys2Proof.Machine.execCoopEnWrite src r en s
  | .allocAdd t c => Sys2Proof.Machine.execAllocAdd t c s
  | .allocModify t c => Sys2Proof.Machine.execAllocModify t c s
  | .allocDel t c => Sys2Proof.Machine.execAllocDel t c s
  | .allocRead t c => Sys2Proof.Machine.execAllocRead t c s
  | .predRead t c => Sys2Proof.Machine.execPredRead t c s
  | .predReset t c => Sys2Proof.Machine.execPredReset t c s
  | .mapRead t c => Sys2Proof.Machine.execMapRead t c s
  | .packetIngress dt pipe => Sys2Proof.Machine.execPacketIngress dt pipe s
  | .enqueueCommit dt k => Sys2Proof.Machine.execEnqueueCommit dt k s
  | .ruleWrite c => Sys2Proof.Machine.execRuleWrite c s
  | .ruleRead c => Sys2Proof.Machine.execRuleRead c s
  | .keyProfileWrite c => Sys2Proof.Machine.execKeyProfileWrite c s
  | .keyProfileRead c => Sys2Proof.Machine.execKeyProfileRead c s
  | .mirrorWrite c => Sys2Proof.Machine.execMirrorWrite c s
  | .mirrorRead c => Sys2Proof.Machine.execMirrorRead c s
  | .bankCopy c => Sys2Proof.Machine.execBankCopy c s
  | .bankSwap c => Sys2Proof.Machine.execBankSwap c s
  | .bankClear c => Sys2Proof.Machine.execBankClear c s
  | .insert c => Sys2Proof.Machine.execInsert c s
  | .update c => Sys2Proof.Machine.execUpdate c s
  | .delete c => Sys2Proof.Machine.execDelete c s
  | .lookup c => Sys2Proof.Machine.execLookup c s
  | .slotRead c => Sys2Proof.Machine.execSlotRead c s
  | .rebuild c => Sys2Proof.Machine.execRebuild c s
  | .flowStoreScrub dt b ents tags => Sys2Proof.Machine.execFlowStoreScrub dt b ents tags s
  | .policerWrite c => Sys2Proof.Machine.execPolicerWrite c s
  | .policerRead c => Sys2Proof.Machine.execPolicerRead c s
  | .profWrite c => Sys2Proof.Machine.execProfWrite c s
  | .profRead c => Sys2Proof.Machine.execProfRead c s
  | .policerRefresh dt n => Sys2Proof.Machine.execPolicerRefresh dt n s
  | .dequeueDecision dt p at_ ecc => Sys2Proof.Machine.execDequeueDecision dt p at_ ecc s
  | .agingScan dt q => Sys2Proof.Machine.execAgingScan dt q s
  | .shaperRefresh dt node n k => Sys2Proof.Machine.execShaperRefresh dt node n k s
  | .queueWrite c => Sys2Proof.Machine.execQueueWrite c s
  | .queueRead c => Sys2Proof.Machine.execQueueRead c s
  | .queueFlush c => Sys2Proof.Machine.execQueueFlush c s
  | .queueHold c => Sys2Proof.Machine.execQueueHold c s
  | .nodeWrite c => Sys2Proof.Machine.execNodeWrite c s
  | .nodeRead c => Sys2Proof.Machine.execNodeRead c s
  | .shaperWrite c => Sys2Proof.Machine.execShaperWrite c s
  | .shaperRead c => Sys2Proof.Machine.execShaperRead c s
  | .allocationRound dt pipes x => Sys2Proof.Machine.execAllocationRound dt pipes x s
  | .prefetch dt ends => Sys2Proof.Machine.execPrefetch dt ends s
  | .memoryScrub dt n err link => Sys2Proof.Machine.execMemoryScrub dt n err link s
  | .cattrip dt => Sys2Proof.Machine.execCattrip dt s
  | .bufAlloc c => Sys2Proof.Machine.execBufAlloc c s
  | .bufFree c => Sys2Proof.Machine.execBufFree c s
  | .cellRead c => Sys2Proof.Machine.execCellRead c s
  | .cellWrite c => Sys2Proof.Machine.execCellWrite c s
  | .cellRetire c => Sys2Proof.Machine.execCellRetire c s
  | .retireRead c => Sys2Proof.Machine.execRetireRead c s
  | .reclaim c => Sys2Proof.Machine.execReclaim c s
  | .eccInject c => Sys2Proof.Machine.execEccInject c s
  | .eccPop src => Sys2Proof.Machine.execEccPop src s
  | .ponKeyInstall c => Sys2Proof.Machine.execPonKeyInstall c s
  | .ponKeySwitch c => Sys2Proof.Machine.execPonKeySwitch c s
  | .ponKeyClear c => Sys2Proof.Machine.execPonKeyClear c s
  | .ponKeyRead c => Sys2Proof.Machine.execPonKeyRead c s
  | .msSaKey c => Sys2Proof.Machine.execMsSaKey c s
  | .msSaParam c => Sys2Proof.Machine.execMsSaParam c s
  | .msSaPn c => Sys2Proof.Machine.execMsSaPn c s
  | .msSaEnable c => Sys2Proof.Machine.execMsSaEnable c s
  | .msSaDisable c => Sys2Proof.Machine.execMsSaDisable c s
  | .msSaRead c => Sys2Proof.Machine.execMsSaRead c s
  | .laKeyWrite c => Sys2Proof.Machine.execLaKeyWrite c s
  | .laKeyClear c => Sys2Proof.Machine.execLaKeyClear c s
  | .laKeyRead c => Sys2Proof.Machine.execLaKeyRead c s
  | .laPiWrite src n v => Sys2Proof.Machine.execLaPiWrite src n v s
  | .laDescriptor dt n fault x => Sys2Proof.Machine.execLaDescriptor dt n fault x s
  | .keyEvtPop src => Sys2Proof.Machine.execKeyEvtPop src s
  | .uplinkFrameReceive dt f => Sys2Proof.Machine.execUplinkFrameReceive dt f s
  | .pauseFrame dt u q => Sys2Proof.Machine.execPauseFrame dt u q s
  | .pfcFrame dt u en qs => Sys2Proof.Machine.execPfcFrame dt u en qs s
  | .pauseTimerExpiry dt u => Sys2Proof.Machine.execPauseTimerExpiry dt u s
  | .xoffRepeat dt u c => Sys2Proof.Machine.execXoffRepeat dt u c s
  | .portConditionChange dt u x on sending stamped receiving => Sys2Proof.Machine.execPortConditionChange dt u x on sending stamped receiving s
  | .portUp dt u => Sys2Proof.Machine.execPortUp dt u s
  | .degradedWindowEnd dt u corr uncorr syms => Sys2Proof.Machine.execDegradedWindowEnd dt u corr uncorr syms s
  | .clrStats src u incs => Sys2Proof.Machine.execClrStats src u incs s
  | .timeSet c => Sys2Proof.Machine.execTimeSet c s
  | .timeStep c => Sys2Proof.Machine.execTimeStep c s
  | .timeSlew c => Sys2Proof.Machine.execTimeSlew c s
  | .frameAlign c => Sys2Proof.Machine.execFrameAlign c s
  | .alignedInstant dt => Sys2Proof.Machine.execAlignedInstant dt s
  | .compareFire dt n => Sys2Proof.Machine.execCompareFire dt n s
  | .captureEdge dt n falling => Sys2Proof.Machine.execCaptureEdge dt n falling s
  | .todcapArm src n t => Sys2Proof.Machine.execTodcapArm src n t s
  | .txtsPop src u => Sys2Proof.Machine.execTxtsPop src u s
  | .clrLost src u lossNow => Sys2Proof.Machine.execClrLost src u lossNow s
  | .gclWrite c => Sys2Proof.Machine.execGclWrite c s
  | .gclCommit c => Sys2Proof.Machine.execGclCommit c s
  | .gclStart dt u => Sys2Proof.Machine.execGclStart dt u s
  | .gclCancel c => Sys2Proof.Machine.execGclCancel c s
  | .gclStop c => Sys2Proof.Machine.execGclStop c s
  | .gclRead c => Sys2Proof.Machine.execGclRead c s
  | .chainModeChange dt => Sys2Proof.Machine.execChainModeChange dt s
  | .helloCell dt h => Sys2Proof.Machine.execHelloCell dt h s
  | .switchReqCell dt t cause => Sys2Proof.Machine.execSwitchReqCell dt t cause s
  | .commitCell dt t sfc cause => Sys2Proof.Machine.execCommitCell dt t sfc cause s
  | .recordCell dt bytes => Sys2Proof.Machine.execRecordCell dt bytes s
  | .mapCell dt t sfc part parts replayed ss => Sys2Proof.Machine.execMapCell dt t sfc part parts replayed ss s
  | .needCell dt t slots => Sys2Proof.Machine.execNeedCell dt t slots s
  | .markerCell dt m mask seq => Sys2Proof.Machine.execMarkerCell dt m mask seq s
  | .copyFrame dt bytes lost => Sys2Proof.Machine.execCopyFrame dt bytes lost s
  | .wtrExpiry dt t => Sys2Proof.Machine.execWtrExpiry dt t s
  | .linkTakeover dt t => Sys2Proof.Machine.execLinkTakeover dt t s
  | .startupTakeover dt t => Sys2Proof.Machine.execStartupTakeover dt t s
  | .standdown dt t => Sys2Proof.Machine.execStanddown dt t s
  | .snapshotWrite dt fault => Sys2Proof.Machine.execSnapshotWrite dt fault s
  | .coldTakeover dt t fault => Sys2Proof.Machine.execColdTakeover dt t fault s
  | .switch c => Sys2Proof.Machine.execSwitch c s
  | .lockout c => Sys2Proof.Machine.execLockout c s
  | .lockoutClear c => Sys2Proof.Machine.execLockoutClear c s
  | .join c => Sys2Proof.Machine.execJoin c s
  | .resync c => Sys2Proof.Machine.execResync c s
  | .pairKey c => Sys2Proof.Machine.execPairKey c s
  | .pairKeyClear c => Sys2Proof.Machine.execPairKeyClear c s
  | .watchdogExpiry dt c => Sys2Proof.Machine.execWatchdogExpiry dt c s
  | .kick src c => Sys2Proof.Machine.execKick src c s
  | .coreReset src c held => Sys2Proof.Machine.execCoreReset src c held s
  | .scratchpadAccess dt accs err => Sys2Proof.Machine.execScratchpadAccess dt accs err s
  | .dmaGo src c => Sys2Proof.Machine.execDmaGo src c s
  | .dmaComplete dt c fault => Sys2Proof.Machine.execDmaComplete dt c fault s
  | .ringPiWrite src n tx v => Sys2Proof.Machine.execRingPiWrite src n tx v s
  | .injectionDescriptor dt n fault => Sys2Proof.Machine.execInjectionDescriptor dt n fault s
  | .mgmtFrameReceive dt bytes fcsOk codeErr at_ => Sys2Proof.Machine.execMgmtFrameReceive dt bytes fcsOk codeErr at_ s
  | .mgmtLinkChange dt sync anDone pause => Sys2Proof.Machine.execMgmtLinkChange dt sync anDone pause s
  | .vfFlr dt n => Sys2Proof.Machine.execVfFlr dt n s
  | .intEoi src v => Sys2Proof.Machine.execIntEoi src v s
  | .vfEoi src n v => Sys2Proof.Machine.execVfEoi src n v s
  | .thermalSample dt temps mv => Sys2Proof.Machine.execThermalSample dt temps mv s
  | .replan src => Sys2Proof.Machine.execReplan src s
  | .marginRun dt ppm => Sys2Proof.Machine.execMarginRun dt ppm s
  | .updBegin c => Sys2Proof.Machine.execUpdBegin c s
  | .updWrite fails c => Sys2Proof.Machine.execUpdWrite fails c s
  | .updVerify c => Sys2Proof.Machine.execUpdVerify c s
  | .updCommit c => Sys2Proof.Machine.execUpdCommit c s
  | .updAbort c => Sys2Proof.Machine.execUpdAbort c s
  | .updConfirm c => Sys2Proof.Machine.execUpdConfirm c s
  | .recordFlush dt fails eraseFail ctlFail => Sys2Proof.Machine.execRecordFlush dt fails eraseFail ctlFail s
  | .recRead c => Sys2Proof.Machine.execRecRead c s
  | .recClear c => Sys2Proof.Machine.execRecClear c s
  | .recWrite c => Sys2Proof.Machine.execRecWrite c s
  | .cntClear c => Sys2Proof.Machine.execCntClear c s
  | .statBind c => Sys2Proof.Machine.execStatBind c s
  | .statRead c => Sys2Proof.Machine.execStatRead c s
  | .statClear c => Sys2Proof.Machine.execStatClear c s
  | .sampleRead c => Sys2Proof.Machine.execSampleRead c s
  | .sampleRestart c => Sys2Proof.Machine.execSampleRestart c s
  | .pcntCfgWrite src k v occ => Sys2Proof.Machine.execPcntCfgWrite src k v occ s
  | .pllRelock dt k j => Sys2Proof.Machine.execPllRelock dt k j s
  | .markerLockLoss dt m => Sys2Proof.Machine.execMarkerLockLoss dt m s
  | .prbsCheckerLock dt k x => Sys2Proof.Machine.execPrbsCheckerLock dt k x s
  | .memoryTemperatureHot dt mem tempC tenths => Sys2Proof.Machine.execMemoryTemperatureHot dt mem tempC tenths s
  | .chainInPpsEdge dt => Sys2Proof.Machine.execChainInPpsEdge dt s
  | .railLoss => Sys2Proof.Machine.execRailLoss s
  | .pwrfailNRise => Sys2Proof.Machine.execPwrfailNRise s
  | .migrationStep => Sys2Proof.Machine.execMigrationStep s
  | .queueFlushDone => Sys2Proof.Machine.execQueueFlushDone s
  | .reclaimDone => Sys2Proof.Machine.execReclaimDone s
  | .slewComplete => Sys2Proof.Machine.execSlewComplete s
  | .clockFallback => Sys2Proof.Machine.execClockFallback s
  | .resyncReqCell => Sys2Proof.Machine.execResyncReqCell s
  | .mateLinkUp => Sys2Proof.Machine.execMateLinkUp s
  | .mateLinkDown => Sys2Proof.Machine.execMateLinkDown s
  | .mgmtTransmit => Sys2Proof.Machine.execMgmtTransmit s
  | .pfFlr => Sys2Proof.Machine.execPfFlr s
  | .opSecondsPersist => Sys2Proof.Machine.execOpSecondsPersist s
  | .clearEraseDone => Sys2Proof.Machine.execClearEraseDone s
  | .railsGood => Sys2Proof.Machine.execRailsGood s

end Sys2Proof.Machine
end

