-- ==== Sys2Proof/Machine/Step.lean ====
section
/-! DEFINITION. The step: the command at the front of the queue, or one tick of the timebase where none waits. -/

namespace Sys2Proof.Machine

/-- One tick without a command (log entry 52). -/
def idle (s : State) : Host.Outcome State Fault Refusal := act s fun d => d.elapse 1

/-- The command at the front of the queue runs with the queue's rest; with none waiting a tick passes. -/
def step (s : State) : Host.Outcome State Fault Refusal :=
  match s.pending with
  | [] => idle s
  | c :: cs => exec c { s with pending := cs }

/-- The command that a word spells, put at the front of the queue; no row of this device's table has bits. -/
def State.withFetchWord (s : State) (nbits w : Nat) : State :=
  match decodeTableWord nbits w with
  | some c => { s with pending := c :: s.pending }
  | none => s

end Sys2Proof.Machine
end

