-- ==== Sys2Proof/Safety.lean ====
section
/-! DEFINITION. What a safe run is, and the words in which the claims are stated: what a command answers, and when a register or a
command window is open to a source. -/

namespace Sys2Proof.Machine

/-- A port without what flow control changes. -/
def UlPort.sansFc (p : UlPort) : UlPort := { p with xoff := 0, fcAt := [], stats := [] }

/-- The management state without what interrupt delivery changes. -/
def McState.sansVec (m : McState) : McState := { m with vecs := [], sent := [] }

/-- The reach state without the cooperative entries that wait. -/
def RxState.sansCoop (x : RxState) : RxState := { x with coop := [] }

/-- The observability state without its event counters. -/
def ObState.sansCnt (o : ObState) : ObState := { o with cnt := [], pcnt := [] }

/-- The observability state without its event counters and what the cores' time leaves in it. -/
def ObState.sansTime (o : ObState) : ObState := { o.sansCnt with insBuf := [], insRun := [], coreDraw := 0 }

end Sys2Proof.Machine

namespace Sys2Proof.Safety

open Sys2Proof.Machine

/-- n steps from s all have a next state, and the last one is the result. -/
def run : Nat → State → Option State
  | 0, s => some s
  | n + 1, s =>
    match step s with
    | .next s' => run n s'
    | _ => none

/-- n steps from s end in no fault and no refusal. -/
def safe (n : Nat) (s : State) : Prop := (run n s).isSome

/-- The command answers a next state: the queue as it was, and a device that satisfies P. -/
def Answers (i : Instr) (s : State) (P : Dev → Prop) : Prop := ∃ t, exec i s = .next t ∧ t.pending = s.pending ∧ P t.dev

/-- Nothing is left to follow (R56, R393): no window waits to run on, and no distributing set differs from the one last flushed
for. -/
def Quiet (d : Dev) : Prop := d.kicks = [] ∧ ∀ g < 8, d.ul.lagDist.getD g 0 = d.lagDist g

/-- The register answers the source (R9, R17, R46, R485, R486): the source reaches the device, the register is there in the
device's state, and a VF's view holds it. -/
def opens (d : Dev) (src : Src) (r : Reg) (write : Bool) : Bool :=
  d.busUp src && Reg.ofAddr r.addr == some r && d.regAt r.addr == some r && match src with
    | .vf s => (pfToVf s r.addr).isSome && d.vfOpen s r write
    | _ => true

/-- The window's number names one of the device's windows (R17). -/
def winNumber : Win → Bool
  | .tf r => decide (r < 8)
  | .rg r => decide (r < 8)
  | .gs t => decide (t < 64)
  | _ => true

/-- The window answers the source and is free for it (R46, R53, R56): the structure has it, the source sees it, no command runs
or waits in it, and the source's bank holds eight data words and is not busy. -/
def ready (d : Dev) (w : Win) (src : Src) : Bool :=
  winNumber w && d.busUp src && d.answers w.base && d.winThere w && (d.win w).queue.isEmpty && !(d.win w).waiting &&
    !((d.win w).bank (bankOf src)).busy && ((d.win w).bank (bankOf src)).data.length == 8 && match src with
    | .vf s => d.winOpen s w
    | _ => true

/-- Data word i of a command (R54). -/
def word (c : CmdArgs) (i : Nat) : Nat := c.data.getD i 0 % 2 ^ 32

/-- The eight data words of a command (R54). -/
def words (c : CmdArgs) : List Nat := (List.range 8).map (word c)

/-- The bank of a source shows that the command c is done with a status, with results written over its data words (R55 to R57). -/
def done (d : Dev) (w : Win) (c : CmdArgs) (st : Status) (out : List (Nat × Nat)) : Prop :=
  let b := (d.win w).bank (bankOf c.src)
  b.busy = false ∧ b.done = true ∧ b.status = st.code ∧ b.echoSeq = c.seq % 256 ∧ b.data = putData (words c) out

/-- The command c as its window accepts it under an opcode (R56): source, opcode, SEQ, object and data words latched. -/
def latched (op : Nat) (c : CmdArgs) : Accepted := ⟨c.src, op, c.seq % 256, c.obj % 2 ^ 32, words c, false⟩

/-- The command c of an opcode runs in its window and waits for the event that completes it (R56). -/
def waits (d : Dev) (w : Win) (c : CmdArgs) (op : Nat) : Prop :=
  (∃ a, d.waitingCmd w op = some a ∧ a.src = c.src ∧ a.obj = c.obj % 2 ^ 32) ∧ ((d.win w).bank (bankOf c.src)).busy = true ∧
    ((d.win w).bank (bankOf c.src)).done = false

/-- The bank of a source shows that the command that waited is done with a status (R55, R56). -/
def ended (d : Dev) (w : Win) (src : Src) (st : Status) : Prop :=
  let b := (d.win w).bank (bankOf src)
  b.busy = false ∧ b.done = true ∧ b.status = st.code

/-! ### Frames -/

/-- An address in the observability block's window (R36). -/
def obAddr (a : Nat) : Bool := decide (0x100000 ≤ a ∧ a < 0x200000)

/-- The registers in which the step's end may report (R68, R528): observability, and the flag registers of TB, PX, FS, MC, GS and of the
UL and ML lanes. -/
def reportAddr (a : Nat) : Bool :=
  obAddr a || (decide (0x600000 ≤ a ∧ a < 0x650000) && a % 0x4000 == 8) || a == 0x200 || a == 0x200008 || a == 0x300004 || a == 0x1C00020 ||
    (decide (0x1000000 ≤ a ∧ a < 0x1800000) && (a % 0x100000 == 0xC0304 || (decide (0x80000 ≤ a % 0x100000) && a % 0x8000 == 8)))

/-- The parts of the device beside its register file and its windows. -/
inductive Part where
  | free | pins | im | tb | lx | rx | pc | fs | tm | bp | ce | px | mc | ob | ul
  deriving DecidableEq, Repr

/-- A part stands as it was, but for what every step's end may touch: interrupt vectors and messages, the last completion, event
counters and what the cores' time leaves, the cooperative entries that wait, and flow-control state with its statistics. -/
def same (d d' : Dev) : Part → Prop
  | .free => d'.free = d.free
  | .pins => d'.pins = d.pins
  | .im => d'.im = d.im
  | .tb => d'.tb = d.tb
  | .lx => d'.lx = d.lx
  | .rx => d'.rx.sansCoop = d.rx.sansCoop
  | .pc => d'.pc = d.pc
  | .fs => d'.fs = d.fs
  | .tm => d'.tm = d.tm
  | .bp => d'.bp = d.bp
  | .ce => d'.ce = d.ce
  | .px => d'.px = d.px
  | .mc => { d'.mc.sansVec with completion := none } = { d.mc.sansVec with completion := none }
  | .ob => d'.ob.sansTime = d.ob.sansTime
  | .ul => d'.ul.lagDist = d.ul.lagDist ∧ d'.ul.sent = d.ul.sent ∧ ∀ u, (d'.ulPort u).sansFc = (d.ulPort u).sansFc

/-- Nothing changes but the parts listed, and the registers that `reg` or the step's end names. -/
def Frame (parts : List Part) (reg : Nat → Bool) (d d' : Dev) : Prop :=
  (∀ p, p ∉ parts → same d d' p) ∧ ∀ a, reg a = false → reportAddr a = false → d'.regs.get? a = d.regs.get? a

/-- Every window but w stands as it was, and in w the banks of every source but `src`. -/
def othersKept (d d' : Dev) (w : Win) (src : Src) : Prop :=
  (∀ v, v.base ≠ w.base → d'.win v = d.win v) ∧ ∀ b, b ≠ bankOf src → (d'.win w).bank b = (d.win w).bank b

/-- The addresses from lo up to hi. -/
def block (lo hi a : Nat) : Bool := decide (lo ≤ a ∧ a < hi)

/-- As `Frame`, with every window as it was. -/
def Only (parts : List Part) (reg : Nat → Bool) (d d' : Dev) : Prop := Frame parts reg d d' ∧ ∀ w, d'.win w = d.win w

/-- The level-set flags whose conditions hold are set (R68): FRAME_DRIFT, THERM_WARN, PHASE_BAD, STASH_HIGH, RANGE_WAIT and
SKEW_EXCEEDED. -/
def levelsHold (d : Dev) : Prop :=
  (d.drifts = true → d.flag (R .TB_FLAGS) 20 = true) ∧ (d.thermWarn = true → d.flag (R .MC_FLAGS) 7 = true) ∧
    (d.phaseOk = false → d.flag (R .PX_FLAGS) 3 = true) ∧ (d.stashHigh = true → d.flag (R .FS_FLAGS) 2 = true) ∧
    (∀ t < 64, (d.gs t).rangeReq ≠ [] → d.flag (R .GS_FLAGS t) 6 = true) ∧
    ∀ n < 16, n ∈ d.lx.skewed → d.flag (if n < 12 then R .LX_UL_FLAGS n else R .LX_ML_FLAGS (n - 12)) 5 = true

/-- No armed vector with an asserted source is left without its message, or without its pending bit where it is masked (R494). -/
def delivered (d : Dev) : Prop :=
  ∀ i < 128, d.vecOr i = true → (d.mc.vecs.getD i Vec.rest).armed = true →
    bit (d.msixWord (msixEntry i + 12)) 0 = true ∧ (d.mc.vecs.getD i Vec.rest).pending = true

/-- The command comes in at a pin (R543 to R552, R568): all that acts in HELD. -/
def atPins : Instr → Bool
  | .porstN .. | .srstN .. | .pwrfailNFall .. | .pciePerstN .. | .refclkLoss .. | .refclkReturn .. | .jtagInstruction .. | .railLoss
  | .pwrfailNRise | .railsGood => true
  | _ => false

/-- The registers to whose writes their chapters give an effect or a refusal of their own. -/
def special : RegName → Bool
  | .LX_PT_CTL | .LX_PB_CTL | .LX_UL_CTL | .LX_ML_CTL | .LX_PT_TXEQ | .LX_UL_TXEQ | .LX_ML_TXEQ | .LX_PT_PRBS_CTL
  | .LX_PB_PRBS_CTL | .LX_UL_PRBS_CTL | .LX_ML_PRBS_CTL | .LX_PB_EYE_CFG | .LX_UL_EYE_CFG | .LX_ML_EYE_CFG | .TF_DS_CFG
  | .TF_PONID_LO | .TF_PONID_HI | .TF_PM_CFG | .TF_DEFECT_POP | .RG_TREE_CFG | .RG_EQ_CFG | .RG_PLOAMU_POP | .RG_DISC_POP | .GS_BPROF
  | .GS_DEFAULT_CFG | .GS_DEFAULT_FIXED | .GS_DEFAULT_ASSURED | .GS_DEFAULT_MAX | .GS_MAP_CFG | .GS_COOP_BASE | .GS_COOP_SIZE
  | .GS_COOP_PI | .PC_CFG | .PC_TPID_CFG | .PC_RECIRC_QUEUE | .PC_CPU_QUEUE | .FS_CFG | .TM_PORT_CFG | .TM_POOL_TH
  | .BP_POOL_NEAR_CAP | .BP_POOL_FAR_CAP | .BP_ECC_POP | .CE_KEY_EVT_POP | .CE_MS_PN_THRESH_LO | .CE_MS_PN_THRESH_HI
  | .CE_MS_PORT_CFG | .CE_LA_BASE | .CE_LA_SIZE | .CE_LA_PI | .CE_LA_OWNER | .UL_PORT_CFG | .UL_FC_CFG | .UL_FC_TH
  | .UL_SER_CFG | .UL_LAG_CFG | .UL_LAG_MEMBER | .TB_CTL | .TB_INC_LO | .TB_INC_HI | .TB_FRAME_CFG | .TB_SYNCE_CFG
  | .TB_CHAIN_CFG | .TB_CMP_CFG | .TB_CMP_TGT_LO | .TB_CMP_TGT_HI | .TB_CMP_PERIOD | .TB_CMP_PULSE | .TB_CAP_CFG
  | .TB_TODCAP_CTL | .TB_TXTS_POP | .PX_CFG | .PX_SNAP_OUT_LO | .PX_SNAP_IN_LO | .MC_VF_SP | .MC_CORE_CTL | .MC_INT_EOI
  | .MC_AVS_CFG | .MC_RING_RX_BASE_LO | .MC_RING_RX_BASE_HI | .MC_RING_RX_CFG | .MC_RING_RX_PI | .MC_RING_TX_BASE_LO
  | .MC_RING_TX_BASE_HI | .MC_RING_TX_CFG | .MC_RING_TX_PI | .MC_MGMT_RING_RX_BASE_LO | .MC_MGMT_RING_RX_BASE_HI
  | .MC_MGMT_RING_RX_CFG | .MC_MGMT_RING_RX_PI | .MC_MGMT_RING_TX_BASE_LO | .MC_MGMT_RING_TX_BASE_HI | .MC_MGMT_RING_TX_CFG
  | .MC_MGMT_RING_TX_PI | .VF_RING_RX_BASE_LO | .VF_RING_RX_BASE_HI | .VF_RING_RX_CFG | .VF_RING_RX_PI | .VF_RING_TX_BASE_LO
  | .VF_RING_TX_BASE_HI | .VF_RING_TX_CFG | .VF_RING_TX_PI | .MC_MGMT_CFG | .MC_RX_NODE | .MC_DMA_CTL | .VF_EOI | .OB_SAMP_CFG
  | .OB_PCNT_CFG => true
  | _ => false

/-- The registers whose read latches another word (R144, R344, R401, R412, R430, R432, R490, R529). -/
def latches : RegName → Bool
  | .TF_SFC_LO | .UL_STAT_LO | .MC_MGMT_STAT_LO | .OB_CNT_LO | .OB_PCNT_LO | .TB_NOW_LO | .TB_TOD_NS | .TB_CAP_LO | .TB_TODCAP_T_LO
  | .BP_FREE_ERR => true
  | _ => false

end Sys2Proof.Safety
end

