-- ==== Sys2Proof/Certificates/Slice0/Obligations.lean ====
section
/-! DEFINITION. The statements for the provers, each a proposition under the name that OBLIGATIONS.json lists: first those about every
step, access and command window, then block by block what the commands and events do, and at the end what they leave unchanged. `Answers
i s P` says that exec of i at s answers a next state that keeps the queue and meets P (Sys2Proof/Safety.lean). -/

open Sys2Proof Sys2Proof.Machine Sys2Proof.Safety

/-- A STEP RUNS THE FRONT COMMAND: the command at the front of the queue runs on the state with the queue's rest; with none waiting one
tick of the timebase passes (the model's choice, log entry 52). -/
def Obligations.StepRunsFrontCommand : Prop := ∀ (s : State),
  (∀ c q, s.pending = c :: q → step s = exec c { s with pending := q }) ∧ (s.pending = [] → step s = act s fun d => d.elapse 1)

/-- No run stops: after any number of steps from any state there is a next state, since no command faults or is refused. -/
def Obligations.NoRunEverStops : Prop := ∀ (n : Nat) (s : State), safe n s

/-- Right after the start instant (R46, R67, R545): BOOTING, no command waiting, every register of the file at its reset value, no
window with a command or a result, every tree OFF, no message sent. That reset stands right after S with these pins is the model's
choice (log entry 53). -/
def Obligations.ResetIsTheStartInstant : Prop := State.reset.pending = [] ∧ State.reset.dev.im.state = .booting ∧
  Quiet State.reset.dev ∧ levelsHold State.reset.dev ∧ delivered State.reset.dev ∧
  (∀ w, State.reset.dev.win w = Window.rest) ∧ (∀ t, (State.reset.dev.tf t).state = .off) ∧ State.reset.dev.mc.sent = [] ∧
  ∀ r : Reg, obAddr r.addr = false → r.addr ≠ (R .IM_DEV_STATUS).addr → State.reset.dev.reg r = BitVec.toNat (BitVec.ofNat 32 r.reset)

/-- Every step ends with nothing left to follow: from a quiet device comes a quiet device (R56, R393), which is what the statements about
single commands assume. -/
def Obligations.EveryStepKeepsTheDeviceQuiet : Prop := ∀ (s t : State), Quiet s.dev → step s = .next t → Quiet t.dev

/-- In every step's next state out of HELD, the level-set flags whose conditions hold are set (R68, R215, R281, R414, R459, R498): a flag
that is cleared while its condition persists is set again, whatever the command. -/
def Obligations.LevelFlagsStandAfterEveryStep : Prop := ∀ (s t : State), step s = .next t → t.dev.im.state ≠ .held → levelsHold t.dev

/-- In every step's next state out of HELD, no armed vector of PF0 or of a VF with an asserted source still owes its message: it is
masked, and its pending bit is set (R494, R495). -/
def Obligations.InterruptsDeliveredAfterEveryStep : Prop := ∀ (s t : State), step s = .next t → t.dev.im.state ≠ .held →
  delivered t.dev

/-- In HELD nothing runs and no access reaches the device (R46, R543): every command that does not come in at a pin leaves the state as
it is. -/
def Obligations.HeldDeviceTakesOnlyPins : Prop := ∀ (i : Instr) (s : State), s.dev.im.state = .held → s.dev.kicks = [] → atPins i = false →
  exec i s = .next s

/-- A write of a whole word to a register that only the access codes govern (R11, R13): every field takes what its access code gives
it, reserved bits stay, and no other register changes but by the step's end. A read returns the fields that can be read, 0 for the rest,
and changes nothing. -/
def Obligations.PlainAccessesFollowTheAccessCodes : Prop := ∀ (s : State) (src : Src) (r : Reg) (off be v : Nat), Quiet s.dev →
  srcOff src r.addr = some off → be % 16 = 15 →
  (opens s.dev src r true = true → special r.name = false → reportAddr r.addr = false →
    Answers (.registerWrite src off ⟨.write [(be, v)], []⟩) s fun d =>
      (∀ f ∈ r.name.fields, d.fld r f.hi f.lo = match f.acc with
        | .rw => bits (v % 2 ^ 32) f.hi f.lo
        | .w1c => s.dev.fld r f.hi f.lo - (s.dev.fld r f.hi f.lo &&& bits (v % 2 ^ 32) f.hi f.lo)
        | .w1s => s.dev.fld r f.hi f.lo ||| bits (v % 2 ^ 32) f.hi f.lo
        | _ => s.dev.fld r f.hi f.lo) ∧
      (∀ b < 32, (∀ f ∈ r.name.fields, b < f.lo ∨ f.hi < b) → d.flag r b = s.dev.flag r b) ∧
      Frame [] (fun a => a == r.addr) s.dev d) ∧
  (opens s.dev src r false = true → latches r.name = false → Answers (.registerWrite src off ⟨.read be 1, []⟩) s fun d => ∃ x,
    d.mc.completion = some (.data x) ∧
    (∀ f ∈ r.name.fields, bits x f.hi f.lo = if f.acc = .wo then 0 else bits (s.dev.view src r) f.hi f.lo) ∧
    (∀ b, (∀ f ∈ r.name.fields, b < f.lo ∨ f.hi < b) → bit x b = false) ∧ Frame [] (fun _ => false) s.dev d)

/-- R8: an access over several words is the series of its single words in ascending address order, with nothing between; a read joins
their data, low word first. A read of a counter's two words together returns the counter as it stood, with its overflow bit. Of two
sources' writes in one cycle that of the higher source port comes second (R71); but a write of 1 to a register of flags comes first, so that
a flag set in that cycle stays set (R69), and of a core's GO and one of PF0 that of PF0 is accepted first (R56). -/
def Obligations.AccessesRunWordByWord : Prop := ∀ (src : Src) (off : Nat),
  (∀ a s, exec (.registerWrite src off ⟨a, []⟩) s = act s fun d => d.access src off a) ∧
  (∀ (d : Dev) (src' : Src) (off' : Nat), portOf src < portOf src' → portOf src' < 16 →
    (∀ ws ws', (∀ i x, ws[i]? = some x → d.clearsFlags ⟨src, off + 4 * i, x.1, x.2⟩ = false ∧ d.givesGo ⟨src, off + 4 * i, x.1, x.2⟩ = false) →
      (∀ i x, ws'[i]? = some x → d.clearsFlags ⟨src', off' + 4 * i, x.1, x.2⟩ = false ∧
        d.givesGo ⟨src', off' + 4 * i, x.1, x.2⟩ = false) →
      ∀ r, r = ((d.access src off (.write ws)).access src' off' (.write ws')).seamStall 0x7F2 0 (b2n (d.busUp src) + b2n (d.busUp src')) →
        d.sameCycle src off (.write ws) [(src', off', .write ws')] = r ∧ d.sameCycle src' off' (.write ws') [(src, off, .write ws)] = r) ∧
    (∀ be v be' v', d.clearsFlags ⟨src, off, be, v⟩ = false → d.givesGo ⟨src, off, be, v⟩ = false →
      d.clearsFlags ⟨src', off', be', v'⟩ = true → d.givesGo ⟨src', off', be', v'⟩ = false →
      d.sameCycle src off (.write [(be, v)]) [(src', off', .write [(be', v')])] =
        ((d.access src' off' (.write [(be', v')])).access src off (.write [(be, v)])).seamStall 0x7F2 0 (b2n (d.busUp src) + b2n (d.busUp src'))) ∧
    ∀ c < 4, ∀ v v', src = .core c → src' = .pf0 → d.givesGo ⟨src, off, 15, v⟩ = true → d.givesGo ⟨src', off', 15, v'⟩ = true →
      d.clearsFlags ⟨src, off, 15, v⟩ = false → d.clearsFlags ⟨src', off', 15, v'⟩ = false →
      d.sameCycle src off (.write [(15, v)]) [(src', off', .write [(15, v')])] =
        ((((d.access src off (.write [(15, v % 2 ^ 31)])).access src' off' (.write [(15, v' % 2 ^ 31)])).access src' off'
          (.write [(15, v')])).access src off (.write [(15, v)])).seamStall 0x7F2 0 (b2n (d.busUp src) + b2n (d.busUp src'))) ∧
  (∀ (d : Dev) (ws ws' : List (Nat × Nat)),
    d.access src off (.write (ws ++ ws')) = (d.access src off (.write ws)).access src (off + 4 * ws.length) (.write ws')) ∧
  (∀ (d : Dev) (be n : Nat), d.busUp src = true → 0 < n → d.access src off (.read be (n + 1)) =
    ((d.access src off (.read be n)).access src (off + 4 * n) (.read be 1)).onMc fun m =>
      { m with completion := joinRead (d.access src off (.read be n)).mc.completion m.completion n }) ∧
  ∀ (s : State) (n : Nat), Quiet s.dev → srcOff src (R .OB_CNT_LO n).addr = some off →
    opens s.dev src (R .OB_CNT_LO n) false = true → opens s.dev src (R .OB_CNT_HI n) false = true →
    Answers (.registerWrite src off ⟨.read 15 2, []⟩) s fun d => d.mc.completion = some (.data (s.dev.ob.cnt.getD n 0 % 2 ^ 32 +
      (bits (s.dev.ob.cnt.getD n 0) 47 32 + 2 ^ 31 * s.dev.fld (R .OB_CNT_OVF (n / 32)) (n % 32) (n % 32)) * 2 ^ 32))

/-- R144: TF_SFC_LO and TF_SFC_HI of a tree, where they lie and what they hold; a read of TF_SFC_LO returns SFC[31:0] and latches SFC[50:32],
which a read of TF_SFC_HI then returns, so that the two reads form one value; SFC is kept through SRST_N. -/
def Obligations.SuperframeCounterReadsAsOneValue : Prop := ∀ t < 64,
  (R .TF_SFC_LO t).addr = treeBase t + 0x20 ∧ (R .TF_SFC_HI t).addr = treeBase t + 0x24 ∧
  RegName.TF_SFC_LO.fields = [⟨31, 0, .ro⟩] ∧ RegName.TF_SFC_HI.fields = [⟨18, 0, .ro⟩] ∧
  (R .TF_SFC_LO t).reset = 0 ∧ (R .TF_SFC_HI t).reset = 0 ∧
  ∀ s : State, Quiet s.dev →
    (∀ src, opens s.dev src (R .TF_SFC_LO t) false = true → Answers (.sfcLoRead src t) s fun d =>
      d.mc.completion = some (.data (bits (s.dev.tf t).sfc 31 0)) ∧
      ∀ src', bits (d.view src' (R .TF_SFC_HI t)) 18 0 = bits (s.dev.tf t).sfc 50 32) ∧
    (s.dev.awake = true → Answers (.srstN 0 false) s fun d => (d.tf t).sfc = (s.dev.tf t).sfc)

/-- R9: a PF0 or DMA access to an address of BAR0 that holds nothing: a read returns 0, a write has no effect, both complete normally;
nothing lies from 0x0380_0000 upward; and a VF's access to what holds nothing is out of its slice (R486). -/
def Obligations.HolesReadZeroAndIgnoreWrites : Prop := ∀ (s : State) (src : Src) (off : Nat), Quiet s.dev → s.dev.busUp src = true →
  (src = .pf0 ∨ (∃ c, src = .dma c) → s.dev.placeAt off = .hole →
    (∀ be, Answers (.registerWrite src off ⟨.read be 1, []⟩) s fun d => d.mc.completion = some (.data 0) ∧ Frame [] (fun _ => false) s.dev d) ∧
    ∀ be v, Answers (.registerWrite src off ⟨.write [(be, v)], []⟩) s fun d => d.mc.completion = s.dev.mc.completion ∧
      Frame [] (fun _ => false) s.dev d) ∧
  (0x3800000 ≤ off → s.dev.placeAt off = .hole) ∧
  (Reg.ofAddr off = none → winAt off = none → msixAt off = none → s.dev.placeAt off = .hole) ∧
  ∀ v, src = .vf v → off < 0x20000 ∨ 0x30000 ≤ off → (∀ a, vfToPf v off = some a → s.dev.placeAt a = .hole) → ∀ be,
    Answers (.registerWrite src off ⟨.read be 1, []⟩) s fun d => d.mc.completion = some .abort

/-- The configuration space of a PCI Express function (R484): its identity and capabilities read as they are; PF0 sets NumVFs, up to 16, while
the VFs are disabled, and enables them; base addresses are aligned to their ranges; and every other register stands. An access of a VF that is
not enabled does not reach the device. The rules of NumVFs are the model's (log entry 110). -/
def Obligations.ConfigurationSpaceReadsAndWrites : Prop := ∀ (s : State), Quiet s.dev → s.dev.im.state ≠ .held → s.dev.pins.perstN = true →
  (∀ src k off, funcOf src = some k → s.dev.mc.pcie.linkUp = true → s.dev.mc.pcie.there k = true →
    (∀ f, Answers (.registerWrite src off ⟨.cfgRead f, []⟩) s fun d => Frame [] (fun _ => false) s.dev d ∧ ∃ x, d.mc.completion = some (.data x) ∧
      (f = .deviceId → x = if k = 0 then 0x6412 else 0x6413) ∧ (f = .classCode → x = 0x028000) ∧ (f = .totalVfs → x = 16) ∧
      (f = .firstVfOffset ∨ f = .vfStride → x = 1) ∧ (f = .vectors → x = if k = 0 then 64 else 4) ∧
      (f = .numVfs → x = s.dev.mc.pcie.numVfs) ∧ (f = .bar0 → x = s.dev.mc.pcie.bar0)) ∧
    ∀ f v, Answers (.registerWrite src off ⟨.cfgWrite f v, []⟩) s fun d => Frame [.mc] (fun _ => false) s.dev d ∧
      d.mc.scratch = s.dev.mc.scratch ∧
      d.mc.pcie.numVfs = (if f = .numVfs ∧ k = 0 ∧ v ≤ 16 ∧ s.dev.mc.pcie.vfEnable = false then v else s.dev.mc.pcie.numVfs) ∧
      d.mc.pcie.vfEnable = (if f = .vfEnable ∧ k = 0 then v % 2 == 1 else s.dev.mc.pcie.vfEnable) ∧
      (s.dev.mc.pcie.bar0 % 2 ^ 26 = 0 → d.mc.pcie.bar0 % 2 ^ 26 = 0) ∧ (s.dev.mc.pcie.bar2 % 2 ^ 24 = 0 → d.mc.pcie.bar2 % 2 ^ 24 = 0) ∧
      (s.dev.mc.pcie.vfBar0 % 2 ^ 20 = 0 → d.mc.pcie.vfBar0 % 2 ^ 20 = 0) ∧
      (s.dev.mc.pcie.maxPayload ∈ [128, 256, 512] → d.mc.pcie.maxPayload ∈ [128, 256, 512])) ∧
  ∀ v off be x, s.dev.mc.pcie.there (1 + v) = false →
    Answers (.registerWrite (.vf v) off ⟨.read be 1, []⟩) s (fun d => d.mc.completion = s.dev.mc.completion ∧ Frame [] (fun _ => false) s.dev d) ∧
    Answers (.registerWrite (.vf v) off ⟨.write [(be, x)], []⟩) s fun d => d.mc.completion = s.dev.mc.completion ∧
      Frame [] (fun _ => false) s.dev d

/-- A write whose byte enables do not cover the word (R7) is discarded and noted: no register but those of the step's end changes, and
the recorder has noted the first since the counter's clear. A core's access that is not 32 bits wide faults in the core (R471). -/
def Obligations.PartialWritesAreDiscarded : Prop := ∀ (s : State) (r : Reg) (be v : Nat), Quiet s.dev → be % 16 ≠ 15 →
  (opens s.dev .pf0 r true = true → Answers (.registerWrite .pf0 r.addr ⟨.write [(be, v)], []⟩) s fun d =>
    d.ob.partialNoted = true ∧ Frame [.ob] (fun _ => false) s.dev d) ∧
  ∀ c, s.dev.busUp (.core c) = true → Answers (.registerWrite (.core c) r.addr ⟨.write [(be, v)], []⟩) s fun d =>
    d.mc.completion = some .fault ∧ Frame [.ob] (fun _ => false) s.dev d

/-- A VF access to what is not open to it (R486): a read completes with Completer Abort, a write is discarded and logged in the VF's AER,
ABORT and VF_ABORT set, and nothing else changes but the recorder. -/
def Obligations.OutOfSliceAccessesAbort : Prop := ∀ (s : State) (v off be x : Nat), Quiet s.dev → s.dev.busUp (.vf v) = true →
  (off < 0x20000 ∨ 0x30000 ≤ off) →
  ((∀ a, vfToPf v off = some a → s.dev.placeOpen v (s.dev.placeAt a) false = false) →
    Answers (.outOfSliceAccess v off (.read be 1)) s fun d => d.mc.completion = some .abort ∧ d.flag (R .VF_FLAGS v) 3 = true ∧
      d.flag (R .MC_FLAGS) 5 = true ∧ Frame [.ob] (fun a => a == (R .VF_FLAGS v).addr) s.dev d) ∧
  ((∀ a, vfToPf v off = some a → s.dev.placeOpen v (s.dev.placeAt a) true = false) →
    Answers (.outOfSliceAccess v off (.write [(be, x)])) s fun d => d.mc.aer.getD v 0 = s.dev.mc.aer.getD v 0 + 1 ∧
      d.flag (R .VF_FLAGS v) 3 = true ∧ d.flag (R .MC_FLAGS) 5 = true ∧
        Frame [.ob, .mc] (fun a => a == (R .VF_FLAGS v).addr) s.dev d ∧ d.mc.scratch = s.dev.mc.scratch)

/-- GO in a bank that is BUSY (R56) is not executed: REJ_VALID sets, REJ_SEQ takes its SEQ, and what runs or waits in the window stands
as it was; so do the other banks and windows (R53). -/
def Obligations.GoInBusyBankIsRejected : Prop := ∀ (s : State) (w : Win) (v : Nat), Quiet s.dev → winNumber w = true →
  s.dev.busUp .pf0 = true → s.dev.answers w.base = true → s.dev.winThere w = true → ((s.dev.win w).bank 0).busy = true → bit v 31 = true →
  Answers (.registerWrite .pf0 (w.base + 0x24) ⟨.write [(15, v)], []⟩) s fun d =>
    ((d.win w).bank 0).rejValid = true ∧ ((d.win w).bank 0).rejSeq = bits v 15 8 ∧ ((d.win w).bank 0).busy = true ∧
      (d.win w).queue = (s.dev.win w).queue ∧ (d.win w).waiting = (s.dev.win w).waiting ∧ othersKept s.dev d w .pf0 ∧
        Frame [] (fun _ => false) s.dev d

/-- Refusals (R57, R58): a command that its window refuses completes with its STATUS and no result, and changes no object: START out of
STRUCTURED, a timebase or MACsec command from a VF, a gate list of a port that does not exist, an update out of its session, and
a terminal command on a tree that the source does not own. -/
def Obligations.RefusedCommandsChangeNoObject : Prop := ∀ (s : State) (c : CmdArgs), Quiet s.dev →
  (ready s.dev .im c.src = true → s.dev.im.state ≠ .structured → c.obj % 2 ^ 32 = 0 → Answers (.start c) s fun d =>
    done d .im c .notInState [] ∧ Frame [.ob] (fun a => a == (R .IM_FLAGS).addr) s.dev d) ∧
  (ready s.dev .tb c.src = true → trusted c.src = false → ∀ i ∈ [Instr.timeSet c, .timeStep c, .timeSlew c, .frameAlign c, .gclWrite c,
    .gclCommit c, .gclCancel c, .gclStop c, .gclRead c], Answers i s fun d => done d .tb c .denied [] ∧ Frame [.ob] (fun _ => false) s.dev d) ∧
  (ready s.dev .tb c.src = true → trusted c.src = true → s.dev.portDef (bits c.obj 3 0) = none → ∀ i ∈ [Instr.gclWrite c, .gclCommit c,
    .gclCancel c, .gclStop c, .gclRead c], Answers i s fun d => done d .tb c .badArgument [] ∧ Frame [.ob] (fun _ => false) s.dev d) ∧
  (ready s.dev .ce c.src = true → trusted c.src = false → ∀ i ∈ [Instr.msSaKey c, .msSaParam c, .msSaPn c, .msSaEnable c, .msSaDisable c,
    .msSaRead c], Answers i s fun d => done d .ce c .denied [] ∧ Frame [.ob] (fun _ => false) s.dev d) ∧
  (ready s.dev .upd c.src = true → s.dev.session = 0 → ∀ i ∈ [Instr.updVerify c, .updCommit c], Answers i s fun d =>
    done d .upd c .notInState [] ∧ Frame [.ob] (fun _ => false) s.dev d) ∧
  ∀ r < 8, ready s.dev (.rg r) c.src = true → bit c.obj 16 = false → s.dev.treeOpen c.src (bits c.obj 15 0 / 512) = false →
    ∀ i ∈ [Instr.termProvision r c, .termAssign r c, .termDeactivate r c, .termDisable r c, .termEnable r c, .termRelease r c,
      .termSetIk r c, .termRead r c, .profileRead r c, .profileInvalidate r c], Answers i s fun d =>
      done d (.rg r) c .denied [] ∧ Frame [.ob] (fun _ => false) s.dev d

/-- The reads that latch (R144, R344, R401, R412, R430, R432, R490, R529): each returns the low word and leaves the rest of the value,
taken at the same instant, in its shadow; a read of a capture also clears its VALID. -/
def Obligations.LatchingReadsReturnLowWordAndHoldTheRest : Prop := ∀ (s : State) (src : Src), Quiet s.dev →
  (∀ t, opens s.dev src (R .TF_SFC_LO t) false = true → Answers (.sfcLoRead src t) s fun d =>
    d.mc.completion = some (.data ((s.dev.tf t).sfc % 2 ^ 32)) ∧ (d.tf t).sfcShadow = (s.dev.tf t).sfc / 2 ^ 32) ∧
  (∀ u j, opens s.dev src (R .UL_STAT_LO u j) false = true → Answers (.ulStatLoRead src u j) s fun d =>
    d.mc.completion = some (.data ((s.dev.ulPort u).stats.getD j 0 % 2 ^ 32)) ∧
      (d.ulPort u).shadow.getD j 0 = (s.dev.ulPort u).stats.getD j 0 / 2 ^ 32) ∧
  (∀ j < 8, opens s.dev src (R .MC_MGMT_STAT_LO j) false = true → s.dev.mc.mgmtStat.getD j 0 < 2 ^ 64 →
    Answers (.mgmtStatLoRead src j) s fun d => d.mc.completion = some (.data (s.dev.mc.mgmtStat.getD j 0 % 2 ^ 32)) ∧
      d.reg (R .MC_MGMT_STAT_HI j) = s.dev.mc.mgmtStat.getD j 0 / 2 ^ 32) ∧
  (∀ n, opens s.dev src (R .OB_CNT_LO n) false = true → Answers (.cntLoRead src false n) s fun d =>
    d.mc.completion = some (.data (s.dev.ob.cnt.getD n 0 % 2 ^ 32)) ∧
      d.ob.cntHi.getD (cntKey src false n) 0 =
        bits (s.dev.ob.cnt.getD n 0) 47 32 + 2 ^ 31 * s.dev.fld (R .OB_CNT_OVF (n / 32)) (n % 32) (n % 32)) ∧
  (∀ n, opens s.dev src (R .OB_PCNT_LO n) false = true → Answers (.cntLoRead src true n) s fun d =>
    d.mc.completion = some (.data (s.dev.ob.pcnt.getD n 0 % 2 ^ 32)) ∧
      d.ob.cntHi.getD (cntKey src true n) 0 = bits (s.dev.ob.pcnt.getD n 0) 47 32 +
        2 ^ 30 * s.dev.fld (R .OB_PCNT_CFG n) 28 28 + 2 ^ 31 * s.dev.fld (R .OB_PCNT_CFG n) 29 29) ∧
  (opens s.dev src (R .TB_NOW_LO) false = true → Answers (.nowLoRead src) s fun d =>
    d.mc.completion = some (.data (s.dev.tb.c / 2 ^ 40 % 2 ^ 32)) ∧ d.reg (R .TB_NOW_HI) = s.dev.tb.c / 2 ^ 40 / 2 ^ 32 % 2 ^ 32) ∧
  (opens s.dev src (R .TB_TOD_NS) false = true → Answers (.todNsRead src) s fun d =>
    d.mc.completion = some (.data (s.dev.tb.c / 2 ^ 40 % 1000000000)) ∧
      d.reg (R .TB_TOD_S_LO) = s.dev.tb.c / 2 ^ 40 / 1000000000 % 2 ^ 32 ∧
      d.reg (R .TB_TOD_S_HI) = s.dev.tb.c / 2 ^ 40 / 1000000000 / 2 ^ 32 % 2 ^ 16) ∧
  (∀ n < 5, opens s.dev src (R .TB_CAP_LO n) false = true → s.dev.tb.capture.getD n 0 < 2 ^ 64 → Answers (.capLoRead src n) s fun d =>
    d.mc.completion = some (.data (s.dev.tb.capture.getD n 0 % 2 ^ 32)) ∧
      d.reg (R .TB_CAP_HI n) = s.dev.tb.capture.getD n 0 / 2 ^ 32 ∧ d.fld (R .TB_CAP_CFG n) 28 28 = 0) ∧
  (∀ n < 4, opens s.dev src (R .TB_TODCAP_T_LO n) false = true → s.dev.tb.todResult.getD n 0 < 2 ^ 64 →
    Answers (.todcapTLoRead src n) s fun d => d.mc.completion = some (.data (s.dev.tb.todResult.getD n 0 % 2 ^ 32)) ∧
      d.reg (R .TB_TODCAP_T_HI n) = s.dev.tb.todResult.getD n 0 / 2 ^ 32) ∧
  (opens s.dev src (R .BP_FREE_ERR) false = true → s.dev.bp.errCell < 2 ^ 32 → Answers (.freeErrRead src) s fun d =>
    d.mc.completion = some (.data (s.dev.reg (R .BP_FREE_ERR))) ∧ d.reg (R .BP_FREE_ERR_CELL) = s.dev.bp.errCell)

/-- A paired register's low word is held with no effect of its own, and the write of its high word commits both (R118, R376, R404,
R409, R570); an increment outside 1.27872 to 1.28128 ns is refused. -/
def Obligations.PairedRegistersCommitWithTheHighWord : Prop := ∀ (s : State) (src : Src) (v : Nat), Quiet s.dev → v < 2 ^ 32 →
  (∀ p, p.ok = true → opens s.dev src (lowReg p) true = true → Answers (.lowWordWrite src p v) s fun d =>
    d.regs.get? (lowReg p).addr = s.dev.regs.get? (lowReg p).addr ∧ (match p with
      | .ponid t => (d.tf t).ponidHeld = some v
      | .inc => d.tb.heldLow = some v
      | .cmpTgt n => d.tb.cmpHeld.get? n = some v
      | .pnThresh => d.ce.pnHeld = some v)) ∧
  (∀ t < 64, opens s.dev src (R .TF_PONID_HI t) true = true → Answers (.ponidHiWrite src t v) s fun d =>
    (d.tf t).ponidHeld = none ∧ d.reg (R .TF_PONID_HI t) = s.dev.reg (R .TF_PONID_HI t) ∧
      (d.tf t).ponidPending = some ((s.dev.tf t).ponidHeld.getD (s.dev.reg (R .TF_PONID_LO t)), v % 2 ^ 19)) ∧
  (∀ lo, opens s.dev src (R .TB_INC_HI) true = true → s.dev.tb.heldLow.getD (s.dev.reg (R .TB_INC_LO)) = lo →
    Answers (.incHiWrite src v) s fun d => d.tb.heldLow = none ∧
      if 127872 * 2 ^ 40 ≤ 100000 * (v % 2 ^ 16 * 2 ^ 32 + lo) ∧ 100000 * (v % 2 ^ 16 * 2 ^ 32 + lo) ≤ 128128 * 2 ^ 40 then
        d.tb.incPending = some (v % 2 ^ 16 * 2 ^ 32 + lo)
      else d.tb.incPending = s.dev.tb.incPending) ∧
  (∀ n < 8, ∀ lo < 2 ^ 32, opens s.dev src (R .TB_CMP_TGT_HI n) true = true →
    (s.dev.tb.cmpHeld.get? n).getD (s.dev.reg (R .TB_CMP_TGT_LO n)) = lo →
    Answers (.cmpTgtHiWrite src n v) s fun d => d.reg (R .TB_CMP_TGT_LO n) = lo ∧ d.reg (R .TB_CMP_TGT_HI n) = v ∧
      d.tb.cmpHeld.get? n = none ∧
      d.flag (R .TB_CMP_CFG n) 0 = (s.dev.flag (R .TB_CMP_CFG n) 31 || s.dev.flag (R .TB_CMP_CFG n) 0)) ∧
  (∀ lo < 2 ^ 32, opens s.dev src (R .CE_MS_PN_THRESH_HI) true = true →
    s.dev.ce.pnHeld.getD (s.dev.reg (R .CE_MS_PN_THRESH_LO)) = lo → Answers (.pnThreshHiWrite src v) s fun d =>
      d.reg (R .CE_MS_PN_THRESH_LO) = lo ∧ d.reg (R .CE_MS_PN_THRESH_HI) = v ∧ d.ce.pnHeld = none)

/-- Power, pins, references and JTAG (R543, R545, R546, R548, R549, R552, R568): what loses supply or PORST_N is HELD with its
volatile state lost; the start instant leads to BOOTING with the straps sampled; a low SRST_N halts the boot ROM in a warm reset that
keeps C and the SFCs; the power-fail pin stops and restarts ordinary records; PERST leaves the data path alone; the loss of REFCLK_SYS
and the boundary-scan instructions fail the device, whose pins then follow the boundary-scan register of 2,361 cells (R567); IDCODE
reads as R566 lays it out. -/
def Obligations.PinsMoveTheDeviceBetweenItsStates : Prop := ∀ (s : State) (dt : Nat) (e : Dev), e = s.dev.elapse dt →
  (∀ straps < 4, ∀ testEn, Answers (.porstN dt false straps testEn) s fun d => d.im.state = .held ∧ d.regs = [] ∧ d.wins = [] ∧
    d.mc.flash = e.mc.flash ∧ d.mc.fuses = e.mc.fuses ∧ d.ob.mem = e.ob.mem) ∧
  Answers .railLoss s (fun d => d.im.state = .held ∧ d.regs = [] ∧ d.wins = [] ∧ d.mc.flash = s.dev.mc.flash ∧ d.ob.mem = s.dev.ob.mem) ∧
  (∀ straps < 4, e.im.state = .held → e.pins.railsGood = true → e.pins.refSys = true → e.kicks = [] →
    Answers (.porstN dt true straps false) s fun d => d.im.state = .booting ∧ d.im.bootsrc = straps) ∧
  (s.dev.im.state = .held → s.dev.pins.porstN = true → s.dev.pins.refSys = true → s.dev.pins.testEn = false → s.dev.kicks = [] →
    Answers .railsGood s fun d => d.im.state = .booting ∧ d.im.bootsrc = s.dev.pins.straps % 4) ∧
  (e.im.state ≠ .held → Answers (.srstN dt false) s fun d => d.im.state = .booting ∧ d.im.bootHalted = true ∧ d.tb.c = e.tb.c ∧
    ∀ t < 64, (d.tf t).sfc = (e.tf t).sfc) ∧
  (Quiet e → e.im.state ≠ .held → Answers (.srstN dt true) s fun d => d.im = { e.im with bootHalted := false }) ∧
  (Quiet e → e.im.state ≠ .held → e.ob.pwrFail = false → ∀ fits, Answers (.pwrfailNFall dt fits) s fun d =>
    d.pins.pwrfailN = false ∧ d.ob.pwrFail = true) ∧
  (Quiet s.dev → Answers .pwrfailNRise s fun d => d.pins.pwrfailN = true ∧ d.ob.pwrFail = false) ∧
  (Quiet e → ∀ p : PerstIn, Answers (.pciePerstN dt p) s fun d => d.pins.perstN = p.level ∧ d.im = e.im ∧ d.tb = e.tb ∧ d.tm = e.tm) ∧
  (Quiet e → e.im.state ≠ .held → e.im.state ≠ .failed → (e.win .im).queue.length ≤ 1 →
    Answers (.refclkLoss dt .sys) s (fun d => d.im.state = .failed ∧ d.pins.refSys = false) ∧
    ∀ code < 256, code ∈ [0x00, 0x03, 0x04, 0x08, 0x09] → ∀ scan, Answers (.jtagInstruction dt ⟨code, scan⟩) s fun d =>
      d.im.state = .failed ∧ d.pins.jtag = code ∧ (scan = none → d.pins.tdo = 1) ∧
      (code ≠ 0x03 → code ≠ 0x04 → ∀ shows tdi, scan = some (shows, tdi) → d.pins.bsr = tdi % 2 ^ 2361 ∧ d.pins.tdo = shows % 2 ^ 2361)) ∧
  (Quiet e → ∀ code < 256, code ∉ [0x00, 0x03, 0x04, 0x08, 0x09] → ∀ scan, Answers (.jtagInstruction dt ⟨code, scan⟩) s fun d =>
    d.im = e.im ∧ d.tb = e.tb ∧ d.pins.jtag = (if code = 0x01 ∨ code = 0x02 then code else 0xFF) ∧ (scan = none → d.pins.tdo = 1) ∧
      (code = 0x02 → scan.isSome = true → bits d.pins.tdo 31 12 = 0x16412 ∧ bits d.pins.tdo 11 1 = Config.jep106 % 2 ^ 11 ∧
        bits d.pins.tdo 0 0 = 1)) ∧
  (Quiet e → Answers (.refclkLoss dt .pon) s fun d => d.im = e.im ∧ d.pins.refPon = false) ∧
  (Quiet e → e.im.state ≠ .held → ∀ c, Answers (.refclkReturn dt c) s fun d => d.im = e.im ∧ (match c with
    | .sys => d.pins.refSys | .eth => d.pins.refEth | .pon => d.pins.refPon) = true)

/-- BOOT_LOAD (R42, R47, R503): a start from flash runs firmware and image of the slot that the control block selects; with sound
images and trained memories the structure is applied and the device is STRUCTURED, and otherwise it is FAILED with the error named. -/
def Obligations.BootLoadAppliesTheImageOrFailsWithItsError : Prop := ∀ (s : State) (dt : Nat) (b : BootIn) (e : Dev),
  e = s.dev.elapse dt → Quiet e → e.im.state = .booting → e.im.bootHalted = false → e.im.bootsrc = 0 → (e.win .im).queue = [] →
  e.flag (R .IM_DEV_STATUS) 4 = false → Answers (.bootLoad dt b) s fun d =>
    let slot := e.mc.flash.ruling.select.1.active
    let failed (x : LoadErr) : Prop := d.im.state = .failed ∧ d.fld (R .IM_DEV_STATUS) 15 8 = x.1 % 2 ^ 8 ∧
      d.fld (R .IM_DEV_STATUS) 31 16 = x.2 % 2 ^ 16
    match loadFirmware e.mc.fuses ⟨e.mc.flash.cells, regionBase slot 0, none, b.fwFault⟩ with
    | .error x => failed x
    | .ok _ => match loadFull e.mc.fuses ⟨e.mc.flash.cells, regionBase slot 1, none, b.imgFault⟩ with
      | .error x => failed x
      | .ok (_, str) =>
        if b.hbm = 0 ∧ (List.range 4).all (fun i => (b.ddr.getD i ⟨1, 0, 0⟩).err == 0 && (b.ddr.getD i ⟨1, 0, 0⟩).cap == str.ddrGiB) then
          d.im.state = .structured ∧ d.fld (R .IM_DEV_STATUS) 15 8 = 0 ∧ d.flag (R .IM_DEV_STATUS) 4 = false ∧
            d.flag (R .IM_FLAGS) 0 = true
        else failed (0x0A, 0)

/-- IM_CMD (R47, R48, R50, R51, R60) from PF0 or a core, in a ready window: START, QUIESCE, RESUME and LOAD_HOST wait for their
instant, LOAD_REACH loads a DARK reach, LIGHT_REACH and DARKEN_REACH become pending, and WARM_RESET resets at once. -/
def Obligations.DeviceCommandsComplete : Prop := ∀ (s : State) (c : CmdArgs), Quiet s.dev → ready s.dev .im c.src = true →
  trusted c.src = true →
  (c.obj % 2 ^ 32 = 0 →
    (s.dev.im.state = .structured → Answers (.start c) s fun d => waits d .im c 1 ∧ d.tb.startAt = some s.dev.tb.ticks ∧
      d.im.state = .structured) ∧
    (s.dev.im.state = .running → Answers (.quiesce c) s fun d => waits d .im c 2 ∧ d.im.state = .running) ∧
    (s.dev.im.state = .quiesced → Answers (.resume c) s fun d => waits d .im c 3 ∧ d.im.state = .quiesced) ∧
    (s.dev.im.state ≠ .booting → Answers (.warmReset c) s fun d => d.im.state = .booting ∧ d.wins = [] ∧ d.tb.c = s.dev.tb.c ∧
      d.im.bootsrc = s.dev.im.bootsrc) ∧
    (s.dev.im.state = .booting → s.dev.flag (R .IM_DEV_STATUS) 4 = true → Answers (.loadHost c) s fun d => waits d .im c 5 ∧
      d.flag (R .IM_DEV_STATUS) 4 = false ∧ d.fld (R .IM_DEV_STATUS) 6 5 = 2)) ∧
  (∀ r, c.obj % 2 ^ 32 = r → s.dev.reachExists r = true →
    (s.dev.alive = true → (s.dev.reach r).state = .dark → s.dev.im.load = none → Answers (.loadReach c) s fun d => done d .im c .ok [] ∧
      (d.reach r).state = .loading ∧ (d.reach r).loaded = false ∧ d.im.load = some ⟨r, word c 0 + 2 ^ 32 * word c 1, word c 2⟩ ∧
      d.flag (R .IM_FLAGS) 1 = true) ∧
    (s.dev.traffic = true → (s.dev.reach r).state = .dark → (s.dev.reach r).loaded = true → (s.dev.reach r).lightPending = false →
      Answers (.lightReach c) s fun d => done d .im c .ok [] ∧ (d.reach r).lightPending = true ∧ (d.reach r).state = .dark) ∧
    (s.dev.traffic = true → (s.dev.reach r).state = .lit → (s.dev.reach r).darkenIn = none → Answers (.darkenReach c) s fun d =>
      done d .im c .ok [] ∧ (d.reach r).darkenIn = some 0 ∧ (d.reach r).state = .lit))

/-- REACH_LOAD_DONE (R50, R52): the load that runs ends with the reach DARK, loaded with LOAD_DONE or not loaded with LOAD_FAIL and
its error. -/
def Obligations.ReachLoadEndsDarkWithItsOutcome : Prop := ∀ (s : State) (dt fault : Nat) (e : Dev) (l : ReachLoad), e = s.dev.elapse dt →
  Quiet e → e.alive = true → e.im.load = some l → Answers (.reachLoadDone dt fault) s fun d => d.im.load = none ∧
    (d.reach l.reach).state = .dark ∧ d.flag (R .IM_FLAGS) 1 = true ∧
    match loadReach e.mc.fuses ⟨e.mc.hostMem, l.addr, some l.len, fault⟩ l.reach e.structId with
    | .error x => (d.reach l.reach).loaded = false ∧ (d.reach l.reach).loadErr = x.1 ∧ d.flag (R .IM_FLAGS) 3 = true
    | .ok _ => (d.reach l.reach).loaded = true ∧ d.flag (R .IM_FLAGS) 2 = true

/-- Lane events (R76, R89, R90, R92, R93, R95, R98, R446): what a PLL, a detector, an eye scan, a PRBS checker or a marker loss leaves
in the lane's status and flags. -/
def Obligations.LaneEventsTakeEffect : Prop := ∀ (s : State) (dt : Nat) (e : Dev) (k : LaneKind) (j : Nat), e = s.dev.elapse dt →
  Quiet e → e.laneLive = true → k.has j = true → e.laneRole k j ≠ 0 →
  (e.flag (laneStatus k j) 4 = true → Answers (.pllUnlock dt k j) s fun d => d.flag (laneStatus k j) 4 = false ∧
    d.flag (laneFlags k j) 4 = true ∧ (k = .pt → d.lx.ptFault.get? j = some none ∧ (d.tf j).txFault = true)) ∧
  (e.flag (laneStatus k j) 4 = false → Answers (.pllRelock dt k j) s fun d => d.flag (laneStatus k j) 4 = true) ∧
  (pam4 k = true → ∀ mv n sending stamped receiving, 0 < n →
    (e.flag (laneStatus k j) 0 = false → mv < 5 * e.fld (laneLosCfg k j) 31 24 →
      e.fld (laneLosCfg k j) 15 8 < (e.laneDet k j).losRun + n → Answers (.laneLosSet dt k ⟨j, mv, n⟩ sending stamped receiving) s fun d =>
      d.fld (laneStatus k j) 1 0 = 3 ∧ d.flag (laneFlags k j) 0 = true ∧ (k = .ml → d.flag (laneStatus k j) 7 = true)) ∧
    (e.flag (laneStatus k j) 0 = true → e.rxOff k j = false → 5 * max (e.fld (laneLosCfg k j) 23 16) (e.fld (laneLosCfg k j) 31 24) < mv →
      100 * e.fld (laneLosCfg k j) 7 0 < (e.laneDet k j).losRun + n →
      Answers (.laneLosClear dt k ⟨j, mv, n⟩ sending stamped receiving) s fun d => d.flag (laneStatus k j) 0 = false ∧
        d.flag (laneStatus k j) 1 = e.flag (laneStatus k j) 1 ∧ d.flag (laneFlags k j) 1 = true)) ∧
  (pam4 k = true → ∀ ppm n, 0 < n → e.flag (laneStatus k j) 0 = false →
    (e.flag (laneStatus k j) 1 = false → 50 * atLeast1 (e.fld (laneLolCfg k j) 23 16) < ppm →
      e.fld (laneLolCfg k j) 15 8 < (e.laneDet k j).lolRun + n → ∀ cut,
      Answers (.laneLolSet dt k (⟨j, ppm, n⟩, cut)) s fun d => d.flag (laneStatus k j) 1 = true ∧
        d.flag (laneFlags k j) 2 = true ∧ (k = .ml → d.flag (laneStatus k j) 7 = true)) ∧
    (e.pins.refEth = true → e.flag (laneStatus k j) 1 = true → 2 * ppm < 50 * atLeast1 (e.fld (laneLolCfg k j) 23 16) →
      100 * e.fld (laneLolCfg k j) 7 0 < (e.laneDet k j).lolRun + n → Answers (.laneLolClear dt k ⟨j, ppm, n⟩) s fun d =>
        d.flag (laneStatus k j) 1 = false ∧ d.flag (laneFlags k j) 3 = true)) ∧
  (∀ cfg res, laneEyeCfg k j = some cfg → laneEyeResult k j = some res → e.flag cfg 31 = true → ∀ left right down up,
    let es := (eyeSweeps left right down up).take (if k = .pb then 1 else 3)
    let w := worstEye (es.map (eyeMargins k (e.reg cfg)))
    Answers (.eyeScanDone dt k j left right down up) s fun d => d.fld res 31 24 = (e.fld res 31 24 + 1) % 256 ∧ d.fld res 23 22 = w.1 % 4 ∧
      d.flag res 21 = es.all (eyeValid k (e.reg cfg)) ∧ d.fld res 19 14 = w.2.1 ∧ d.fld res 7 0 = w.2.2 ∧
      d.flag (laneFlags k j) 9 = true ∧
      (w.2.1 < e.fld cfg 15 8 ∨ w.2.2 < e.fld cfg 7 0 → d.flag (laneFlags k j) 10 = true)) ∧
  (k ≠ .pt → e.rxOff k j = false → e.flag (lanePrbsCtl k j) 5 = true → (chkPattern (e.fld (lanePrbsCtl k j) 27 24)).isSome →
    e.flag (laneStatus k j) 5 = false → ∀ n, 0 < n → 64 ≤ (e.chk k j).run + n → Answers (.prbsCheckerLock dt k ⟨j, n, []⟩) s fun d =>
      d.flag (laneStatus k j) 5 = true) ∧
  (∀ er bl p, lanePrbsErr k j = some er → lanePrbsBlocks k j = some bl → e.rxOff k j = false → e.flag (lanePrbsCtl k j) 5 = true →
    chkPattern (e.fld (lanePrbsCtl k j) 27 24) = some p → e.flag (laneStatus k j) 5 = true → (e.chk k j).errs = 15 →
    (e.chk k j).pos % 1024 ≠ 0 → (e.precodes k j 5 = true → (e.chk k j).prev ≠ none) →
    ∀ v b, (e.rxBits k j ((e.chk k j).prev.getD 0) (e.rxLevels k j [v])).head? = some b → b ≠ p.next (e.chk k j).ref → Answers (.prbsLockLoss dt k j 0 [v]) s fun d => d.flag (laneStatus k j) 5 = false ∧
      d.flag (laneFlags k j) 8 = true ∧ d.reg er = min (e.reg er + 1) 0xFFFFFFFF) ∧
  (k = .ml → e.flag (laneStatus k j) 7 = true → e.fld (laneStatus k j) 1 0 = 0 → e.flag (laneStatus k j) 6 = true →
    (∃ at_, e.lx.clean.get? j = some at_ ∧ at_ + 781250 * atLeast1 (e.fld (R .LX_ML_LINK_CFG j) 7 0) ≤ e.tb.ticks) →
    Answers (.mateLaneRejoin dt j) s fun d => j ∈ d.lx.rejoin) ∧
  (k = .ml → e.markersMissing j = true → Answers (.markerLockLoss dt j) s fun d => d.flag (laneStatus k j) 6 = false ∧ d.flag (laneStatus k j) 7 = true)

/-- PB profile slots and the PRBS controls (R77, R78, R79, R98, R110): a freed slot takes the next stamped burst, a swap bit brings a
slot's profile or the neutral set-up into force, CHK_CLR zeroes the counts but for an error in the same cycle, and ERR_INJECT inverts the next bit. -/
def Obligations.ProfileSlotsAndPrbsControlsAct : Prop := ∀ (s : State) (dt : Nat) (e : Dev), e = s.dev.elapse dt → Quiet e →
  (e.alive = true → ∀ t < 64,
    (∀ b q, e.lx.pbQueue.getD t [] = b :: q → (e.lx.pbSlots.getD t []).length < 4 → ∀ ue, Answers (.profileRefill dt ⟨t, ue⟩) s fun d =>
      d.lx.pbQueue.getD t [] = q ∧ (d.lx.pbSlots.getD t []).map PbSlot.burst = (e.lx.pbSlots.getD t []).map PbSlot.burst ++ [b]) ∧
    (∀ p q, e.lx.pbSlots.getD t [] = p :: q → Answers (.swapBit dt t) s fun d => d.lx.pbSlots.getD t [] = q ∧
      ∃ u, d.lx.pbSetup.get? t = some u ∧ u.burst = p.burst ∧
        u.profile = if p.burst.stamp.isSome ∧ p.valid then some p.profile else none)) ∧
  (Quiet s.dev → ∀ src k j, opens s.dev src (lanePrbsCtl k j) true = true → s.dev.laneRole k j ≠ 0 →
    patternOk k (s.dev.fld (lanePrbsCtl k j) 27 24) = true →
    (∀ er bl, lanePrbsErr k j = some er → lanePrbsBlocks k j = some bl → ∀ errNow, Answers (.chkClr src k j errNow) s fun d =>
      d.reg bl = 0 ∧
        d.reg er = b2n (errNow && s.dev.flag (lanePrbsCtl k j) 5 && s.dev.flag (laneStatus k j) 5)) ∧
    (k ≠ .pb → s.dev.flag (lanePrbsCtl k j) 4 = true → (s.dev.lx.gens.get? (laneKey k j)).isSome = true →
      Answers (.errInject src k j) s fun d => (k, j, s.dev.genNext k j) ∈ d.lx.injected))

/-- FRAME_BOUNDARY (R47, R48, R50, R116): the boundary is counted; the SFC of a tree of a LIT reach takes the value that a waiting
SET_SFC loads, or grows by 1 modulo 2^51, unless a restore of a protected tree loads it; a waiting QUIESCE or RESUME takes effect; and a pending LIGHT_REACH makes its reach LIT. -/
def Obligations.FrameBoundaryAdvancesSfcAndStates : Prop := ∀ (s : State) (dt : Nat) (e : Dev), e = s.dev.elapse dt → Quiet e →
  e.alive = true → Answers (.frameBoundary dt) s fun d => d.rx.bnd = e.rx.bnd + 1 ∧
    (∀ t < 64, e.lit t = true → (e.reach (t / 8)).darkenIn = none → (e.isProt t = false ∨ (e.pt t).restore = none) →
      ((e.tf t).sfcLoad = none → e.waitingCmd (.tf (t / 8)) 4 = none → (d.tf t).sfc = ((e.tf t).sfc + 1) % 2 ^ 51) ∧
      ∀ a, e.waitingCmd (.tf (t / 8)) 4 = some a → bits a.obj 15 0 = t → (d.tf t).sfc = a.dat 0 % 2 ^ 32 + 2 ^ 32 * a.db 1 18 0) ∧
    ((e.win .im).queue.length ≤ 1 →
      ((e.waitingCmd .im 2).isSome = true → e.im.state = .running → d.im.state = .quiesced) ∧
      ((e.waitingCmd .im 3).isSome = true → e.im.state = .quiesced → e.waitingCmd .bp 0x20 = none → d.im.state = .running) ∧
      ∀ r < 8, e.traffic = true → (e.reach r).state = .dark → (e.reach r).lightPending = true →
        (d.reach r).state = .lit ∧ (d.reach r).lightPending = false)

/-- TF_CMD (R115, R116, R125, R137, R149) on a tree of the reach that the source may reach, in a ready window: the state commands and
SET_SFC wait for the boundary, the XGEM ports are added, deleted and read, and the defects and PM bins are read and reset. -/
def Obligations.TreeCommandsComplete : Prop := ∀ (s : State) (c : CmdArgs) (r t : Nat), r < 8 → Quiet s.dev →
  ready s.dev (.tf r) c.src = true → t / 8 = r → s.dev.reachExists r = true → s.dev.treeOpen c.src t = true →
  (bits c.obj 15 0 = t →
    (s.dev.lit t = true →
      ((s.dev.tf t).state ≠ .off → Answers (.treeOff r c) s fun d => waits d (.tf r) c 1 ∧ d.tf t = s.dev.tf t) ∧
      ((s.dev.tf t).state ≠ .standby → (s.dev.tf t).protCtrl = false → Answers (.treeStandby r c) s fun d => waits d (.tf r) c 2 ∧
        d.tf t = s.dev.tf t) ∧
      ((s.dev.tf t).state ≠ .active → (s.dev.tf t).protCtrl = false → Answers (.treeActive r c) s fun d => waits d (.tf r) c 3 ∧
        d.tf t = s.dev.tf t) ∧
      ((s.dev.tf t).state = .off ∨ (s.dev.tf t).state = .standby ∧ (s.dev.tf t).protCtrl = false → Answers (.setSfc r c) s fun d =>
        waits d (.tf r) c 4 ∧ d.tf t = s.dev.tf t)) ∧
    (∀ port < 0xFFFF, ∀ slot omcc, word c 0 % 2 ^ 16 = port → word c 0 / 2 ^ 16 % 512 = slot → bit (word c 0) 28 = omcc →
      s.dev.copyTree t = false → (s.dev.tf t).ports.get? port = none → (s.dev.tf t).ports.length < 8192 →
      (omcc = true → ((s.dev.tf t).ports.any fun p => p.2.omcc && p.2.slot == slot) = false) → Answers (.xgemPortAdd r c) s fun d =>
        done d (.tf r) c .ok [] ∧ (d.tf t).ports.get? port = some ⟨slot, omcc⟩) ∧
    (∀ p, (s.dev.tf t).ports.get? (word c 0 % 2 ^ 16) = some p →
      (s.dev.copyTree t = false → Answers (.xgemPortDel r c) s fun d => done d (.tf r) c .ok [] ∧
        (d.tf t).ports.get? (word c 0 % 2 ^ 16) = none ∧ (d.tf t).openPkts.get? (word c 0 % 2 ^ 16) = none) ∧
      Answers (.xgemPortRead r c) s fun d =>
        done d (.tf r) c .ok [(0, word c 0 % 2 ^ 16 + 2 ^ 16 * p.slot + 2 ^ 28 * b2n p.omcc + 2 ^ 31)] ∧ d.tf t = s.dev.tf t)) ∧
  (∀ g, g / 512 = t → bits c.obj 15 0 = g → Answers (.termDefects r c) s fun d =>
    done d (.tf r) c .ok [(0, ((s.dev.tf t).terms.getD (g % 512) TermDef.rest).declared % 1024),
      (1, ((s.dev.tf t).terms.getD (g % 512) TermDef.rest).reported % 1024), (2, unsigned 32 (s.dev.term g).o)]) ∧
  (∀ key, (if bit c.obj 16 then bits c.obj 15 0 = t ∧ key = pmTreeKey t else bits c.obj 15 0 / 512 = t ∧ key = pmTermKey (bits c.obj 15 0)) →
    (∀ bin ≤ 34, ∀ part, word c 0 % 64 = bin → word c 0 / 256 % 4 = part → (key < 4096 → part ≤ 1) →
      (2 ≤ bin → (s.dev.reach r).state ≠ .loading) → ∀ b, s.dev.pmRead r key bin = some b →
      (∀ cell, s.dev.pmCell r key bin = some cell → s.dev.bp.resBad.contains cell = false) →
      Answers (.pmRead r c) s fun d => done d (.tf r) c .ok (outBytes 0 8 (b.drop (32 * part)))) ∧
    ((s.dev.pm r).running = true → Answers (.pmResetCurrent r c) s fun d => done d (.tf r) c .ok [] ∧
      (d.pm r).qObjs.get? key = some ⟨(d.pm r).q.frames, (d.pm r).q.discs, true, false, []⟩ ∧
      (d.pm r).dObjs.get? key = some ⟨(d.pm r).d.frames, (d.pm r).d.discs, true, false, []⟩))

/-- Framing events (R82, R121, R124, R132, R135, R147, R171, R188): an OK burst of an ACTIVE tree is counted for its frame and writes its values
back to the profile in force, ungranted energy shows its position, an open packet times out, closed PM bins reach the history, and
DEFECT_POP removes the head of the queue. -/
def Obligations.FramingEventsTakeEffect : Prop := ∀ (s : State) (dt : Nat) (e : Dev), e = s.dev.elapse dt → Quiet e →
  (e.alive = true → ∀ t < 64, e.lit t = true →
    (∀ (i : BurstIn) (b : GBurst) (o : Int × Nat) (a : FrameAcc), i.tree = t → (e.tf t).state = .active →
      e.findBurst t i.frame i.start = some b → b.kind = .data → a ∈ (e.tf t).accs → a.frame = i.frame → a.pmTree.length = 14 →
      50 * e.fld (R .LX_PB_BURST_CFG t) 7 0 ≤ i.amp → cdrQualifies b.cdrLimit 0 i.edges = true →
      e.delimit t b (e.usCfg t i.frame i.start) none i.cands = some o → i.held = true →
      Answers (.burstOutcome dt i) s fun d =>
        (∃ x ∈ (d.tf t).accs, x.frame = i.frame ∧ x.pmTree.getD 4 0 = a.pmTree.getD 4 0 + 1 ∧ x.pmTree.getD 5 0 = a.pmTree.getD 5 0) ∧
        ∀ u, e.lx.pbSetup.get? t = some u → u.burst.frame = i.frame → u.burst.start = i.start → u.profile.isSome = true →
          (e.prof (512 * t + b.slot)).valid = true → (d.prof (512 * t + b.slot)).amp = i.amp ∧ (d.prof (512 * t + b.slot)).dc = i.dc ∧
            (d.prof (512 * t + b.slot)).phase = i.phase % 64 ∧ (d.prof (512 * t + b.slot)).taps = i.taps ∧
            (d.prof (512 * t + b.slot)).arr = o.1) ∧
    (∀ frame pos amp len, (e.tf t).state ≠ .off → 50 * e.fld (R .LX_PB_BURST_CFG t) 7 0 < amp → 32 ≤ len →
      (∀ m ∈ (e.gs t).sent, ∀ b ∈ m.bursts, b.kind = .data →
        (m.frame = frame → 32 * b.fin ≤ pos ∨ (pos : Int) + 32 ≤ b.a - 32) ∧
        (m.frame = frame + 1 → (pos : Int) + 32 ≤ e.frameBits t + b.a - 32)) →
      e.inDiscSpan t (frame * e.frameBits t + pos) = false → Answers (.ungrantedEnergy dt t frame ⟨pos, amp, len⟩) s fun d => d.fld (R .RG_ROGUE_STATUS t) 20 0 = pos % 2 ^ 21)) ∧
  (e.alive = true → ∀ t < 64, ∀ port < 65536, ∀ p, (e.tf t).openPkts.get? port = some p →
    max 1 (bits (e.usCfgNow t) 15 8) ≤ p.age → Answers (.reasmTimeout dt t port) s fun d => (d.tf t).openPkts.get? port = none) ∧
  (e.alive = true → ∀ r < 8, (e.pm r).waiting ≠ [] → Answers (.pmHistoryWrite dt r) s fun d => (d.pm r).waiting = [] ∧
    (∀ b, (e.pm r).waiting = [(false, b)] → (d.pm r).hist = (b :: (e.pm r).hist).take 32) ∧
    (∀ b, (e.pm r).waiting = [(true, b)] → (d.pm r).histDay = some b) ∧
    ∀ t < 64, t / 8 = r → e.treeExists t = true → d.flag (R .TF_FLAGS t) 5 = true) ∧
  (Quiet s.dev → ∀ src t, opens s.dev src (R .TF_DEFECT_POP t) true = true → Answers (.defectPop src t) s fun d =>
    (d.tf t).events = (s.dev.tf t).events.drop 1)

/-- RG_CMD on a terminal (R156, R162, R173, R178, R192) of an ACTIVE tree of the reach that the source may reach, in a ready window:
each command moves the slot to the state that R156 gives it, and the read commands return what they read. -/
def Obligations.TerminalCommandsFollowTheSlotStates : Prop := ∀ (s : State) (c : CmdArgs) (r g : Nat), r < 8 → Quiet s.dev →
  ready s.dev (.rg r) c.src = true → bits c.obj 15 0 = g → bit c.obj 16 = false → g / 4096 = r → s.dev.reachExists r = true →
  s.dev.treeOpen c.src (g / 512) = true → (s.dev.tf (g / 512)).state = .active →
  ((s.dev.term g).state = .free → s.dev.slotOfSn (g / 512) (word c 0 + 2 ^ 32 * word c 1) = none →
    Answers (.termProvision r c) s fun d => done d (.rg r) c .ok [] ∧ (d.term g).state = .provisioned ∧
      (d.term g).sn = word c 0 + 2 ^ 32 * word c 1) ∧
  ((s.dev.term g).state = .provisioned → (s.dev.term g).rtdSn.isSome = true → (s.dev.rg (g / 512)).hwq.length < 32 →
    Answers (.termAssign r c) s fun d => done d (.rg r) c .ok [] ∧ (d.term g).state = .assigned ∧ g % 512 ∈ (d.gs (g / 512)).rangeReq ∧
      ∃ q, (d.rg (g / 512)).hwq = (s.dev.rg (g / 512)).hwq ++ [q] ∧ q.kind = 0 ∧ q.slot = g % 512 ∧ q.value = (s.dev.term g).sn) ∧
  ((s.dev.term g).state = .assigned ∨ (s.dev.term g).state = .operation ∨ (s.dev.term g).state = .lost →
    Answers (.termDeactivate r c) s fun d => done d (.rg r) c .ok [] ∧ (d.term g).state = .provisioned ∧ (d.term g).eqd = 0 ∧
      (d.prof g).valid = false) ∧
  ((s.dev.term g).state ≠ .free → (s.dev.term g).state ≠ .disabled → Answers (.termDisable r c) s fun d =>
    done d (.rg r) c .ok [] ∧ (d.term g).state = .disabled ∧ (d.prof g).valid = false) ∧
  ((s.dev.term g).state = .disabled → Answers (.termEnable r c) s fun d => done d (.rg r) c .ok [] ∧ (d.term g).state = .provisioned) ∧
  ((s.dev.term g).state ≠ .free → Answers (.termRelease r c) s fun d => done d (.rg r) c .ok [] ∧ (d.term g).state = .free ∧
    (d.term g).sn = 0) ∧
  ((s.dev.term g).state = .assigned ∨ (s.dev.term g).state = .operation ∨ (s.dev.term g).state = .lost →
    Answers (.termSetIk r c) s fun d => done d (.rg r) c .ok [] ∧
      (d.term g).ik = some (word c 0 + 2 ^ 32 * word c 1 + 2 ^ 64 * (word c 2 + 2 ^ 32 * word c 3))) ∧
  Answers (.termRead r c) s (fun d => done d (.rg r) c .ok ([(0, (s.dev.term g).state.code + 2 ^ 8 * (s.dev.term g).fails +
      2 ^ 16 * b2n (s.dev.term g).ik.isSome + 2 ^ 17 * b2n (s.dev.term g).adj.isSome + 2 ^ 18 * b2n (s.dev.prof g).valid),
      (1, (s.dev.term g).eqd % 2 ^ 24), (2, unsigned 32 (s.dev.term g).o), (3, unsigned 24 (s.dev.term g).rtd)] ++
      outWords 4 2 (s.dev.term g).sn) ∧ d.term g = s.dev.term g) ∧
  ((s.dev.prof g).ue = false → Answers (.profileRead r c) s fun d => done d (.rg r) c .ok (outBytes 0 8 (s.dev.prof g).bytes) ∧
    d.prof g = s.dev.prof g) ∧
  Answers (.profileInvalidate r c) s fun d => done d (.rg r) c .ok [] ∧ (d.prof g).valid = false ∧ (d.term g) = s.dev.term g

/-- PLOAM of the host (R178, R180, R191, R192): PLOAM_TAIL keeps the last content bytes, PLOAM_SEND queues a message with the next
number of its terminal or of the broadcast counter, and the pops remove the heads of the host's queues. -/
def Obligations.PloamCommandsAndPopsActOnTheQueues : Prop := ∀ (s : State), Quiet s.dev →
  (∀ (c : CmdArgs) (r t : Nat), r < 8 → ready s.dev (.rg r) c.src = true → t / 8 = r → s.dev.reachExists r = true →
    s.dev.treeOpen c.src t = true →
    ((if bit c.obj 16 then bits c.obj 15 0 = t else bits c.obj 15 0 / 512 = t) → Answers (.ploamTail r c) s fun d =>
      done d (.rg r) c .ok [] ∧ d.rx.tails.get? (tailKey r c.src) = some (leBytes 4 (word c 0) ++ leBytes 1 (word c 1))) ∧
    (bit c.obj 16 = true → bits c.obj 15 0 = t → (s.dev.tf t).state = .active → hwIdent (word c 0 % 256) = false →
      (s.dev.rg t).hostq.length < 64 → Answers (.ploamSend r c) s fun d => done d (.rg r) c .ok [(0, (s.dev.rg t).bcastSeq)] ∧
        (d.rg t).bcastSeq = ((s.dev.rg t).bcastSeq + 1) % 256 ∧ ∃ m, (d.rg t).hostq = (s.dev.rg t).hostq ++ [m] ∧ m.onu = 1023 ∧
          m.ident = word c 0 % 256 ∧ m.seq = (s.dev.rg t).bcastSeq) ∧
    ∀ g, bit c.obj 16 = false → bits c.obj 15 0 = g → g / 512 = t → (s.dev.tf t).state = .active →
      (s.dev.term g).state = .assigned ∨ (s.dev.term g).state = .operation ∨ (s.dev.term g).state = .lost →
      hwIdent (word c 0 % 256) = false → (s.dev.rg t).hostq.length < 64 → Answers (.ploamSend r c) s fun d =>
        done d (.rg r) c .ok [(0, (s.dev.term g).seq)] ∧ (d.term g).seq = ((s.dev.term g).seq + 1) % 256 ∧
          ∃ m, (d.rg t).hostq = (s.dev.rg t).hostq ++ [m] ∧ m.onu = g % 512 ∧ m.ident = word c 0 % 256 ∧
            m.seq = (s.dev.term g).seq ∧ m.key = (s.dev.term g).ik) ∧
  (∀ src t, opens s.dev src (R .RG_PLOAMU_POP t) true = true → Answers (.ploamuPop src t) s fun d =>
    (d.rg t).upq = (s.dev.rg t).upq.drop 1) ∧
  (∀ src r, opens s.dev src (R .RG_DISC_POP r) true = true → (s.dev.discHead src r).isSome = true → Answers (.discPop src r) s fun d =>
    d.rx.disc.getD r [] = (s.dev.rx.disc.getD r []).drop 1)

/-- Ranging events (R156, R160, R161, R165, R167, R177, R180) of terminal g or tree t of a device that runs: discovery, assignment and
ranging, the time-outs, and the messages for the host. -/
def Obligations.RangingEventsTakeEffect : Prop := ∀ (s : State) (dt : Nat) (e : Dev), e = s.dev.elapse dt → Quiet e →
  e.alive = true →
  (∀ t < 64, ∀ sn diff content, content.length = 40 → leAt content 4 8 = sn → (e.tf t).state = .active → ∀ rtd : Int, rtd = e.teq t + (if e.xg t then 4 * diff else diff) →
    e.minRtd t ≤ rtd → rtd ≤ (e.maxRtd t + e.rand t : Nat) →
    (e.slotOfSn t sn = none → (e.rx.disc.getD (t / 8) []).length < 16 →
      ((e.rx.disc.getD (t / 8) []).any fun x => x.tree == t && x.sn == sn) = false → Answers (.serialNumberOnu dt t diff content (ploamMic none 2 content)) s fun d =>
        d.rx.disc.getD (t / 8) [] = e.rx.disc.getD (t / 8) [] ++ [⟨t, sn, rtd, 1⟩] ∧ d.flag (R .RG_FLAGS t) 0 = true) ∧
    (∀ g, e.slotOfSn t sn = some g → (e.term g).state = .provisioned → e.flag (R .RG_TREE_CFG t) 31 = true → (e.rg t).hwq.length < 32 →
      Answers (.serialNumberOnu dt t diff content (ploamMic none 2 content)) s fun d => (d.term g).state = .assigned ∧ (d.term g).rtdSn = some rtd)) ∧
  (∀ g < 32768, ∀ diff content, content.length = 40 → (e.term g).state = .assigned → (e.term g).rangedEqd = none → (e.tf (g / 512)).state = .active →
    ∀ eqd : Nat, (eqd : Int) = -(if e.xg (g / 512) then 4 * diff else diff) → eqd ≤ e.teq (g / 512) →
    e.minRtd (g / 512) ≤ (e.teq (g / 512) : Int) - eqd → (e.teq (g / 512) : Int) - eqd ≤ e.maxRtd (g / 512) →
    Answers (.registration dt g diff content (ploamMic none 2 content)) s fun d => (d.term g).eqd = eqd ∧ (d.term g).rangedEqd = some eqd ∧
      (d.term g).rtd = (e.teq (g / 512) : Int) - eqd) ∧
  (∀ g < 32768, ∀ head rest, head.length = 4 → rest.length = 36 → (e.term g).hwSeqs.contains (leAt head 3 1) = true →
    Answers (.acknowledge dt g head rest (ploamMic (e.term g).ik 2 (head ++ rest))) s fun d => leAt head 3 1 ∉ (d.term g).hwSeqs ∧ (d.rg (g / 512)).upq = (e.rg (g / 512)).upq) ∧
  (∀ t < 64, ∀ slot < 512, ∀ content mic, content.length = 40 → mic.length = 8 → (e.rg t).upq.length < 64 → Answers (.ploamuHostMessage dt t slot content mic) s fun d =>
    (∃ good, (d.rg t).upq = (e.rg t).upq ++ [⟨slot, good, content ++ mic⟩] ∧
      (mic = ploamMic (e.term (512 * t + slot)).ik 2 content → good = true)) ∧ d.flag (R .RG_FLAGS t) 7 = true) ∧
  (∀ g < 32768, (e.tf (g / 512)).state = .active → (e.term g).state = .assigned → (e.term g).rangedEqd = none →
    ((e.term g).granted = false ∧ 64 ≤ (e.term g).since) ∨ ((e.term g).granted = true ∧ e.rangeTries (g / 512) < (e.term g).tries) →
    Answers (.activationFail dt g) s fun d => (d.term g).state = .provisioned ∧ (d.term g).fails = min ((e.term g).fails + 1) 255 ∧
      d.flag (R .RG_FLAGS (g / 512)) 3 = true) ∧
  (∀ g < 32768, (e.tf (g / 512)).state = .active → (e.term g).state = .lost → e.fld (R .RG_TREE_CFG (g / 512)) 15 10 ≠ 0 →
    8000 * e.fld (R .RG_TREE_CFG (g / 512)) 15 10 ≤ (e.term g).lostFrames → Answers (.lostTimeout dt g) s fun d =>
      (d.term g).state = .provisioned) ∧
  (∀ g < 32768, ∀ a, (e.term g).adj = some a → a.retry = false → max 1 (e.fld (R .RG_TRACK_CFG (g / 512)) 23 16) ≤ a.age →
    (a.resent = true → Answers (.adjWaitExpiry dt g) s fun d => (d.term g).adj = none ∧ d.flag (R .RG_FLAGS (g / 512)) 4 = true) ∧
    (a.resent = false → (e.rg (g / 512)).hwq.length < 32 → Answers (.adjWaitExpiry dt g) s fun d =>
      (d.term g).adj = some { a with age := 0, resent := true, retry := false } ∧
        ∃ q, (d.rg (g / 512)).hwq = (e.rg (g / 512)).hwq ++ [q] ∧ q.kind = 1 ∧ q.slot = g % 512 ∧ q.value = a.eqd))

/-- GS_ALLOC_CMD (R198, R200, R204, R230) on a tree that the source may reach, in a ready window: entries are added, changed and freed,
and entries, predictors and the last map are read. -/
def Obligations.AllocationCommandsComplete : Prop := ∀ (s : State) (c : CmdArgs) (t i : Nat), t < 64 → Quiet s.dev →
  ready s.dev (.gs t) c.src = true → s.dev.treeOpen c.src t = true → bits c.obj 10 0 = i →
  (bit c.obj 16 = false → s.dev.copyTree t = false →
    (∀ p, p = parOf (latched 1 c) → s.dev.parBad t p = false → (s.dev.gs t).allocs.get? i = none → (s.dev.gs t).keyOf p.id = none →
      s.dev.sumRates t i + p.fixed + p.assured ≤ s.dev.lineRate t * 9 / 10 → Answers (.allocAdd t c) s fun d => done d (.gs t) c .ok [] ∧
        (d.gs t).allocs.get? i = some ⟨p, AllocRun.reset (s.dev.sfc t)⟩) ∧
    (∀ p x, p = parOf (latched 2 c) → s.dev.parBad t p = false → (s.dev.gs t).allocs.get? i = some x → x.par.id = p.id →
      x.par.slot = p.slot → s.dev.sumRates t i + p.fixed + p.assured ≤ s.dev.lineRate t * 9 / 10 → Answers (.allocModify t c) s fun d =>
        done d (.gs t) c .ok [] ∧ ∃ y, (d.gs t).allocs.get? i = some y ∧ y.par = p ∧ y.run.cf = min x.run.cf (8 * p.fixed) ∧
          y.run.ca = min x.run.ca (8 * p.assured)) ∧
    (∀ x, (s.dev.gs t).allocs.get? i = some x → Answers (.allocDel t c) s (fun d => done d (.gs t) c .ok [] ∧
        (d.gs t).allocs.get? i = none) ∧
      (x.par.pred = true → Answers (.predReset t c) s fun d => done d (.gs t) c .ok [] ∧
        (d.gs t).allocs.get? i = some { x with run := { x.run with pred := Pred.reset (s.dev.sfc t) } }))) ∧
  (∀ x, bit c.obj 16 = false → (s.dev.gs t).allocs.get? i = some x →
    Answers (.allocRead t c) s (fun d => done d (.gs t) c .ok (outPar x.par ++ [(6, x.run.cf), (7, x.run.ca)]) ∧ d.gs t = s.dev.gs t) ∧
    (x.par.pred = true → Answers (.predRead t c) s fun d => done d (.gs t) c .ok ([(0, x.run.pred.rateQ), (1, x.run.pred.prevB),
      (2, x.run.pred.prevF), (3, x.run.pred.mDay)] ++ outBytes 4 4 (x.run.pred.mSec.map fun m => BitVec.ofNat 8 m)) ∧ d.gs t = s.dev.gs t)) ∧
  (bit c.obj 16 = true → Answers (.allocRead t c) s fun d => done d (.gs t) c .ok (outPar (s.dev.defaultPar t (bits c.obj 8 0)) ++
    [(6, ((s.dev.gs t).runOf (bits c.obj 8 0)).cf), (7, ((s.dev.gs t).runOf (bits c.obj 8 0)).ca)])) ∧
  ∀ m x b, (s.dev.gs t).sent.head? = some m → m.structs[word c 0 % 512]? = some (x, b) → Answers (.mapRead t c) s fun d =>
    done d (.gs t) c .ok [(0, x.alloc + 2 ^ 16 * b2n x.dbru + 2 ^ 17 * b2n x.ploamu + 2 ^ 18 * x.prof), (1, x.start + 2 ^ 16 * x.size),
      (2, unsigned 21 (b.a % (s.dev.frameBits t : Int)) + 2 ^ 31 * b2n b.stamp.isNone), (3, b.stamp.getD 0), (4, m.frame % 2 ^ 32)]

/-- Grant scheduling events and registers (R193, R195, R204, R205, R216, R220, R229) of tree t of a device that runs: a computation
builds the map of its frame or is late, a missed deadline replays, the predictors' bins end and load, and the cooperative ring's PI and enable are written. -/
def Obligations.GrantSchedulingEventsTakeEffect : Prop := ∀ (s : State) (dt t : Nat) (e : Dev), e = s.dev.elapse dt → Quiet e →
  (e.alive = true → t < 64 →
    ((e.tf t).state = .active → e.lit t = true → (e.reach (t / 8)).darkenIn = none →
      ((∀ m ∈ (e.gs t).built, m.frame ≠ e.mapTarget t) → (e.gs t).lateFor.get? (e.mapTarget t) = none →
        ((e.gs t).takeoverLeft ≠ 0 → e.mapTarget t ≠ e.sfc t + 1) → ∀ waits, Answers (.mapComputationStart dt t waits) s fun d =>
        (d.gs t).maps = (e.gs t).maps + 1 ∧
        ((∃ m, (d.gs t).built = (e.gs t).built ++ [m] ∧ m.frame = e.mapTarget t ∧ m.replayed = false) ∨
          (d.gs t).built = (e.gs t).built ∧ (d.gs t).lateFor.get? (e.mapTarget t) ≠ none) ∧
        (149299 < waits → (d.gs t).built = (e.gs t).built ∧ (d.gs t).lateFor.get? (e.mapTarget t) ≠ none)) ∧
      ((e.gs t).emptyLeft = 0 → (∀ m ∈ (e.gs t).built, m.frame ≠ e.sfc t + 1) → Answers (.mapDeadline dt t) s fun d =>
        (∃ m, (d.gs t).built = (e.gs t).built ++ [m] ∧ m.frame = e.sfc t + 1 ∧ m.replayed = true) ∧ (d.gs t).lateFor.get? (e.sfc t + 1) = none ∧
          d.flag (R .GS_FLAGS t) 0 = true)) ∧
    (∀ i a, (e.gs t).allocs.get? i = some a →
      (a.par.pred = true →
        Answers (.predictorBinEnd dt t false) s (fun d => ∃ b, (d.gs t).allocs.get? i = some b ∧ b.run.pred.sArr = 0 ∧
          b.run.pred.sFrm = 0 ∧ ((e.gs t).stepCut = true → b.run.pred.mSec = a.run.pred.mSec.set (e.gs t).secBin (a.run.pred.mSec.getD (e.gs t).secBin 64))) ∧
        Answers (.predictorBinEnd dt t true) s fun d => ∃ b, (d.gs t).allocs.get? i = some b ∧ b.run.pred.dArr = 0 ∧
          b.run.pred.dFrm = 0 ∧ b.run.pred.day = a.run.pred.day.put 64 (e.gs t).dayBin b.run.pred.mDay) ∧
      Answers (.dayProfileLoad dt t) s fun d => ∃ b, (d.gs t).allocs.get? i = some b ∧ b.par = a.par ∧ b.run.pred.mDay =
        if e.bp.resBad.contains (dayCell t i (e.gs t).dayBin) then 64 else a.run.pred.day.getD (e.gs t).dayBin 64)) ∧
  (Quiet s.dev → ∀ src r v, opens s.dev src (R .GS_COOP_PI r) true = true → Answers (.coopPiWrite src r v) s fun d =>
    if s.dev.coopSize r < (v % 2048 + 2048 - s.dev.fld (R .GS_COOP_CI r) 10 0) % 2048 then
      d.fld (R .GS_COOP_PI r) 10 0 = s.dev.fld (R .GS_COOP_PI r) 10 0 ∧ d.flag (R .GS_RFLAGS r) 2 = true
    else d.fld (R .GS_COOP_PI r) 10 0 = v % 2048) ∧
  (Quiet s.dev → ∀ src r, opens s.dev src (R .GS_MAP_CFG r) true = true →
    (s.dev.flag (R .GS_MAP_CFG r) 31 = false → s.dev.fld (R .GS_COOP_CI r) 10 0 = s.dev.fld (R .GS_COOP_RD r) 10 0 →
      Answers (.coopEnWrite src r true) s fun d => d.flag (R .GS_MAP_CFG r) 31 = true ∧
        d.fld (R .GS_COOP_RD r) 10 0 = s.dev.fld (R .GS_COOP_PI r) 10 0 ∧ d.fld (R .GS_COOP_CI r) 10 0 = s.dev.fld (R .GS_COOP_PI r) 10 0) ∧
    (s.dev.flag (R .GS_MAP_CFG r) 31 = false → s.dev.fld (R .GS_COOP_CI r) 10 0 ≠ s.dev.fld (R .GS_COOP_RD r) 10 0 →
      Answers (.coopEnWrite src r true) s fun d => d.flag (R .GS_MAP_CFG r) 31 = false ∧ d.flag (R .GS_RFLAGS r) 4 = true) ∧
    (s.dev.flag (R .GS_MAP_CFG r) 31 = true → Answers (.coopEnWrite src r false) s fun d => d.flag (R .GS_MAP_CFG r) 31 = false))

/-- PC_CMD (R244, R256, R258, R260) from PF0 or a core, in a ready window: rules, key profiles and mirror sessions of a bank that is
not active and holds no packet are written, copied and cleared, all are read, and BANK_SWAP makes the idle bank active. -/
def Obligations.ClassifierCommandsComplete : Prop := ∀ (s : State) (c : CmdArgs) (bk : Nat), Quiet s.dev → ready s.dev .pc c.src = true →
  trusted c.src = true → bits c.obj 16 16 = bk →
  (s.dev.bankBusy bk = false →
    (ruleClean (words c) = true → (bits (ruleAct (words c)) 79 78 = 1 → bits (ruleAct (words c)) 51 33 < s.dev.nQueues) →
      Answers (.ruleWrite c) s fun d => done d .pc c .ok [] ∧
        (d.bank bk).rules.getD (c.obj % 64) (List.replicate 7 0) = (words c).take 7) ∧
    (∀ ids : List Nat, ids = (((words c).take 3).flatMap fun w => leBytes 4 w).map BitVec.toNat →
      (∀ i ∈ ids, (fieldWidth i).isSome = true) → (ids.map fun i => (fieldWidth i).getD 0).foldl (· + ·) 0 ≤ 168 →
      Answers (.keyProfileWrite c) s fun d => done d .pc c .ok [] ∧
        (d.bank bk).profs.getD (c.obj % 16) KeyProf.rest = ⟨if ids.all (· == 0) then [] else ids, bit (word c 3) 0⟩) ∧
    ((bit (word c 0) 31 = true → bits (word c 0) 18 0 < s.dev.nQueues ∧
        s.dev.sliceOfQueue (bits (word c 0) 18 0) = some (c.obj % 128 / 8)) → Answers (.mirrorWrite c) s fun d => done d .pc c .ok [] ∧
      (d.bank bk).mirrors.getD (c.obj % 128) 0 = bits (word c 0) 18 0 + 2 ^ 31 * b2n (bit (word c 0) 31)) ∧
    Answers (.bankCopy c) s (fun d => done d .pc c .ok [] ∧ d.bank bk = s.dev.bank s.dev.activeBank) ∧
    Answers (.bankClear c) s (fun d => done d .pc c .ok [] ∧ (d.bank bk).profs = [] ∧
      (∀ k, bit ((d.bank bk).mirrors.getD k 0) 31 = false) ∧
      ∀ k, bit (((d.bank bk).rules.getD k (List.replicate 7 0)).getD 0 0) 31 = false)) ∧
  Answers (.ruleRead c) s (fun d => d.pc = s.dev.pc ∧
    done d .pc c .ok ((List.range 7).map fun i => (i, ((s.dev.bank bk).rules.getD (c.obj % 64) []).getD i 0))) ∧
  Answers (.keyProfileRead c) s (fun d => d.pc = s.dev.pc ∧ done d .pc c .ok
    ((3, b2n ((s.dev.bank bk).profs.getD (c.obj % 16) KeyProf.rest).scope) ::
      outBytes 0 3 (((s.dev.bank bk).profs.getD (c.obj % 16) KeyProf.rest).ids.map fun x => BitVec.ofNat 8 x))) ∧
  Answers (.mirrorRead c) s (fun d => d.pc = s.dev.pc ∧ done d .pc c .ok [(0, (s.dev.bank bk).mirrors.getD (c.obj % 128) 0)]) ∧
  (s.dev.reg (R .PC_INFLIGHT (1 - s.dev.activeBank)) = 0 → Answers (.bankSwap c) s fun d =>
    done d .pc c .ok [(0, (s.dev.epoch + 1) % 65536)] ∧ d.activeBank = 1 - s.dev.activeBank ∧
      d.epoch = (s.dev.epoch + 1) % 65536 ∧ d.flag (R .PC_FLAGS) 0 = true)

/-- FS_CMD (R263, R265 to R268, R270, R276, R277, R280, R282) in a ready window, where the issuer's slice is the object's and no read meets an
uncorrectable error: entries are inserted, updated, deleted and looked up, a rebuild starts, and policers and profiles are written and read. -/
def Obligations.FlowStoreCommandsComplete : Prop := ∀ (s : State) (c : CmdArgs), Quiet s.dev → ready s.dev .fs c.src = true →
  (∀ key act e, key = (latched 1 c).fsKey → act = (latched 1 c).fsAct → e = s.dev.fsReadKey key → e.fs.errs s.dev.lay key = [] →
    (∀ st loc, s.dev.fsCheck (latched 1 c) (some act) = none → e.fs.find s.dev.lay key = none →
      e.fs.place s.dev.lay false [] true key act = .at st loc → Answers (.insert c) s fun d => done d .fs c .ok [(0, loc)] ∧
        (d.fs.entry loc).valid = true ∧ (d.fs.entry loc).key = key ∧ (d.fs.entry loc).act = act) ∧
    ∀ loc, e.fs.find s.dev.lay key = some loc →
      (s.dev.fsCheck (latched 2 c) (some act) = none → Answers (.update c) s fun d => done d .fs c .ok [(0, loc)] ∧
        (d.fs.entry loc).act = act ∧ (d.fs.entry loc).key = (e.fs.entry loc).key) ∧
      (foreignSlice c.src (bits key 175 172) = false →
        Answers (.delete c) s (fun d => done d .fs c .ok [] ∧ d.fs.entry loc = FsSlot.rest) ∧
        Answers (.lookup c) s fun d => done d .fs c .ok ((0, loc) :: outWords 1 3 (e.fs.entry loc).act) ∧ d.fs = e.fs)) ∧
  (∀ loc e, trusted c.src = true → loc = (if bit c.obj 31 then stashLoc (c.obj % 256) else bits c.obj 21 0) →
    (bit c.obj 31 = false → loc < 2097152 * s.dev.units 0 / 256) → e = (s.dev.fsRead fun x => x.mendLoc loc) →
    (e.fs.entry loc).failed = false → (e.fs.entry loc).valid = true → Answers (.slotRead c) s fun d =>
      done d .fs c .ok (outWords 0 8 ((e.fs.entry loc).key + (e.fs.entry loc).act * 2 ^ 176)) ∧ d.fs = e.fs) ∧
  (∀ n, n = word c 1 % 32 → trusted c.src = true → 17 ≤ n → n ≤ s.dev.fsCarved → s.dev.flag (R .FS_STATUS) 31 = false →
    16 * (s.dev.fld (R .FS_COUNT) 21 0 + s.dev.fld (R .FS_STATUS) 8 0) ≤ 15 * 2 ^ n →
    s.dev.fs.bucketErrs (0, s.dev.fs.gen) = [] → s.dev.fs.stashErrs = [] → Answers (.rebuild c) s fun d =>
      done d .fs c .ok [] ∧ d.flag (R .FS_STATUS) 31 = true ∧ d.fld (R .FS_STATUS) 20 16 = n ∧ d.reg (R .FS_NEW_SEED) = word c 0 ∧
        d.reg (R .FS_MIG_PTR) = 0) ∧
  (∀ n, n = bits c.obj 19 0 → n < s.dev.nPolicers → (∀ v, sliceOf? c.src = some v → s.dev.sliceOfPolicer n = some v) →
    (∀ p pr, p = word c 0 % 8192 → pr = s.dev.polProf p → (∀ v, s.dev.sliceOfPolicer n = some v → p / 512 = v) →
      Answers (.policerWrite c) s fun d => done d .fs c .ok [] ∧ (d.policer n).prof = p ∧ (d.policer n).last = s.dev.tick32 ∧
        (bit (word c 0) 16 = false → (d.policer n).tc = pr.cbs * 4096 ∧ (d.policer n).tp = pr.pbs * 4096)) ∧
    Answers (.policerRead c) s fun d => done d .fs c .ok [(0, (s.dev.policer n).prof), (1, (s.dev.policer n).tc % 2 ^ 32),
      (2, (s.dev.policer n).tc / 2 ^ 32), (3, (s.dev.policer n).tp % 2 ^ 32), (4, (s.dev.policer n).tp / 2 ^ 32),
      (5, (s.dev.policer n).last), (6, s.dev.tick32)] ∧ d.fs = s.dev.fs) ∧
  ∀ n, n = bits c.obj 12 0 → foreignSlice c.src (n / 512) = false →
    (word c 0 ≤ 1600000000 → word c 1 ≤ 1600000000 → word c 2 ≤ 0x0FFFFFFF → word c 3 ≤ 0x0FFFFFFF →
      -32 ≤ signed 8 (bits (word c 4) 15 8) → signed 8 (bits (word c 4) 15 8) ≤ 63 → (bit (word c 4) 0 = false → word c 0 ≤ word c 1) →
      Answers (.profWrite c) s fun d => done d .fs c .ok [] ∧ d.polProf n = ⟨word c 0, word c 1, word c 2, word c 3, bit (word c 4) 0,
        bit (word c 4) 1, bit (word c 4) 2, bits (word c 4) 15 8⟩) ∧
    Answers (.profRead c) s fun d => done d .fs c .ok [(0, (s.dev.polProf n).cir), (1, (s.dev.polProf n).pir), (2, (s.dev.polProf n).cbs),
      (3, (s.dev.polProf n).pbs), (4, b2n (s.dev.polProf n).alg + 2 * b2n (s.dev.polProf n).aware + 4 * b2n (s.dev.polProf n).redDrop +
        256 * (s.dev.polProf n).adj)] ∧ d.fs = s.dev.fs

/-- The classifier and the flow store at work (R24, R246, R248, R250, R258, R265, R272, R274, R279) on a device that runs: a packet enters and
takes its rule's action unless a full seam stalls its pipeline, a migration step moves a bucket, the scrub reports what it finds, and a policer is refilled. -/
def Obligations.ClassifierEventsTakeEffect : Prop := ∀ (s : State) (dt : Nat) (e : Dev), e = s.dev.elapse dt → Quiet e → e.alive = true →
  (∀ pipe < 4, e.pipeStalled pipe = true → Answers (.packetIngress dt pipe) s fun d => d.pc = e.pc) ∧
  (∀ pipe < 4, e.pipeStalled pipe = false → ∀ p rest, takeFirst (fun p => e.pktPipe p == pipe) e.pc.arrivals = some (p, rest) →
    Answers (.packetIngress dt pipe) s fun d => d.pc.arrivals = rest ∧
      (p.second = false → (e.bank e.activeBank).rules = [] → if (parse e.parseCfg p.bytes).reason = 0 then d.flag (R .PC_FLAGS) 3 = true
        else d.flag (R .PC_FLAGS) 2 = true) ∧
      ∀ r act, p.second = false → (parse e.parseCfg p.bytes).reason = 0 → (e.bank e.activeBank).pick p (parse e.parseCfg p.bytes) = some r →
        act = ruleAct r → bit (ruleWord r 3) 9 = false → bits act 79 78 = 1 → bit act 72 = false → bits act 77 76 = 0 →
        e.actQueueOk act (e.sliceFor p r) = true → ∃ f, d.pc.flights = e.pc.flights ++ [f] ∧ f.pipe = pipe ∧
          f.outs.map Out.queue = [bits act 51 33]) ∧
  (dt = 0 → s.dev.flag (R .FS_STATUS) 31 = true → ∀ p, p = s.dev.fld (R .FS_MIG_PTR) 18 0 →
    ∀ x, x = s.dev.fs.mendBucket (p, s.dev.fs.gen) → x.bucketErrs (p, x.gen) = [] →
    ∀ old st z, old = (bucketSlots p).filter (fun i => (x.slot i).valid && (x.slot i).gen == x.gen) →
    FsState.placeAll { s.dev.lay with p := p + 1 } old { x with mended := 0 } (old.map x.slot) = (st, true, z) →
    Answers .migrationStep s fun d =>
      if p + 1 = 2 ^ (s.dev.fld (R .FS_STATUS) 28 24 - 2) then d.flag (R .FS_STATUS) 31 = false ∧
        d.reg (R .FS_SEED) = s.dev.reg (R .FS_NEW_SEED) ∧ d.fs.gen = !s.dev.fs.gen ∧ d.flag (R .FS_FLAGS) 0 = true
      else d.fld (R .FS_MIG_PTR) 18 0 = (p + 1) % 2 ^ 19 ∧ d.flag (R .FS_STATUS) 31 = true ∧ ∀ i ∈ old, (d.fs.slot i).valid = false) ∧
  (∀ b < 2 ^ 19, ∀ i < 4, ∀ j, j = 4 * b + i → j < 2097152 * e.units 0 / 256 →
    ((e.fs.slot j).ent = 0 → Answers (.flowStoreScrub dt b [(j, 1)] []) s fun d => d.flag (R .FS_FLAGS) 4 = true ∧ (d.fs.slot j).ent = 0) ∧
    ((e.fs.slot j).tag = 0 → Answers (.flowStoreScrub dt b [] [(j, 1)]) s fun d => d.flag (R .FS_FLAGS) 4 = true ∧ (d.fs.slot j).tag = 0) ∧
    ((e.fs.slot j).ent < 3 → Answers (.flowStoreScrub dt b [(j, 2)] []) s fun d => (d.fs.slot j).ent = 2 ∧ d.flag (R .FS_FLAGS) 5 = true) ∧
    ((e.fs.slot j).tag < 3 → Answers (.flowStoreScrub dt b [] [(j, 2)]) s fun d => (d.fs.slot j).tag = 2 ∧ d.flag (R .FS_FLAGS) 5 = true)) ∧
  ∀ n < e.nPolicers, Answers (.policerRefresh dt n) s fun d =>
    d.policer n = (e.policer n).refill (e.polProf (e.policer n).prof) e.tick32

/-- The traffic manager and the buffers at work (R25, R288 to R292, R294, R297, R304, R305, R326 to R331, R336, R339) on a device that runs:
commits, rounds (`way` is what a packet under way carries but for its tail mark), decisions, refills, aging, prefetches, scrubs, and the ends of a flush and of a reclaim. -/
def Obligations.QueueAndBufferEventsTakeEffect : Prop := ∀ (s : State) (dt : Nat) (e : Dev), e = s.dev.elapse dt → Quiet e →
  e.alive = true → ∀ way : Flight → Nat × List Out × Option (Nat × List Nat), (∀ f, way f = (f.pipe, f.outs, f.chain)) →
  (e.im.state = .running →
    (∀ k < 4, ∀ f rest, takeFirst (fun f => f.pipe == k) e.pc.flights = some (f, rest) → Answers (.enqueueCommit dt k) s fun d =>
      d.pc.flights.map way = (if e.chainWaits f then e.pc.flights else rest).map way ∧ ∀ (o : Out) (q n : Nat) (p : Pkt), f.outs = [o] → p = o.pkt → f.pkt.sa = none → f.chain = none →
        p.eapol = false → e.lagRedirect o.queue p.hash = .queue q → e.admission [] q p.len p.colour = none → n = e.tierFor [] q p.len →
        e.poolGrants (e.queue q).pool n (cellsFor n p.len) = true → ((d.queue q).list n).length = ((e.queue q).list n).length + 1 ∧
          (((d.queue q).list n).getLast?.map Held.len) = some p.len) ∧
    ((∀ f ∈ e.pc.flights, f.chain = none) → ∀ pipes pf, Answers (.allocationRound dt pipes ⟨pf, none⟩) s fun d => ∀ k < 4, (d.pc.flights.filter fun f => f.pipe == k).map way =
      ((e.pc.flights.filter fun f => f.pipe == k).drop (b2n (k ∈ pipes))).map way)) ∧
  (∀ p < 78, ∀ at_ ecc q hops h, e.portOpen p = true → (e.walk p 3 p []).2 = some (q, hops) → (e.queue q).all.head? = some h →
    (∀ n x, x ∈ h.cells → (e.cell n x).linkErr = 0 ∧ (e.cell n x).dataErr = 0) → e.aged (e.queue q) h = false →
    ((e.queue q).launch = 2 → e.late p (e.queue q) h = false) → e.queueReady p q = true →
    Answers (.dequeueDecision dt p at_ ecc) s fun d => (d.queue q).all = (e.queue q).all.drop 1 ∧ (d.queue q).lastDec = e.tick16) ∧
  (∀ q, (e.queue q).valid = true → (e.queue q).lastDec + 625000 ≤ e.tick16 →
    (∀ h ∈ (e.queue q).all, e.aged (e.queue q) h = true) → Answers (.agingScan dt q) s fun d => (d.queue q).all = []) ∧
  (∀ node n, ∀ k < 2, ∀ (x : Child) (b : Bucket), x = (if node then .node n else .queue n) →
    b = (if k = 0 then (e.buckets x).1 else (e.buckets x).2) → b.en = true → Answers (.shaperRefresh dt node n k) s fun d =>
      (if k = 0 then (d.buckets x).1 else (d.buckets x).2) = b.refill e.tick) ∧
  (∀ q h rest, (e.queue q).far = h :: rest → e.fetchOrder.fetchNext = some q → e.poolGrants (e.queue q).pool 0 (cellsFor 0 h.len) = true →
    (∀ x ∈ h.cells, (e.cell 1 x).linkErr = 0 ∧ (e.cell 1 x).dataErr = 0) → (Answers (.prefetch dt true) s fun d =>
      (d.queue q).far = rest ∧ (d.queue q).near.length = (e.queue q).near.length + 1) ∧
    Answers (.prefetch dt false) s fun d => d.bp.copy.map Prod.fst = some q ∧ (d.queue q).far = h :: rest) ∧
  (∀ n < 2, ∀ err link k, e.flag (R .BP_SCRUB_CFG) 31 = true → 0 < e.scrubEnd n → k = e.bp.scrub.getD n 0 →
    Answers (.memoryScrub dt n err link) s fun d => d.bp.scrub.getD n 0 = (k + 1) % e.scrubEnd n ∧
      (err = 1 → k ∉ e.bp.resBad → (e.cell n k).linkErr = 0 → (e.cell n k).dataErr = 0 → d.flag (R .BP_FLAGS) n = true)) ∧
  (dt = 0 → ∀ a, s.dev.waitingCmd .tm 3 = some a → a.drop = false → (s.dev.win .tm).queue.length ≤ 1 → Answers .queueFlushDone s fun d =>
    ended d .tm a.src .ok ∧ d.flag (R .TM_FLAGS) 5 = true) ∧
  (dt = 0 → ∀ a, s.dev.waitingCmd .bp 0x20 = some a → a.drop = false → (s.dev.win .bp).queue.length ≤ 1 → Answers .reclaimDone s fun d =>
    ended d .bp a.src .ok ∧ d.flag (R .BP_FLAGS) 12 = true ∧ ∀ n < 2, ∀ x, (s.dev.cell n x).used = true → (s.dev.cell n x).retired = false →
      reservedCell n x = false → x ∉ s.dev.reached n → (d.cell n x).used = false)

/-- Buffer faults and pops (R320, R345, R347, R49): an over-temperature trip of the HBM2E fails the device, a hot memory is shown, and
the pop removes the head of the ECC log. -/
def Obligations.MemoryTemperatureAndEccLogAct : Prop := ∀ (s : State) (dt : Nat) (e : Dev), e = s.dev.elapse dt → Quiet e →
  (e.im.state ≠ .held → e.im.state ≠ .failed → (e.win .im).queue.length ≤ 1 → Answers (.cattrip dt) s fun d => d.im.state = .failed ∧
    d.flag (R .BP_HBM_STATUS) 30 = true) ∧
  (e.laneLive = true → ∀ temp tenths, Answers (.memoryTemperatureHot dt 0 temp tenths) s (fun d => d.flag (R .BP_HBM_STATUS) 29 = decide (850 < 10 * temp + tenths) ∧
      d.fld (R .BP_HBM_STATUS) 23 16 = min 255 temp) ∧
    ∀ ch < 4, Answers (.memoryTemperatureHot dt (1 + ch) temp tenths) s fun d => d.flag (R .BP_DDR_STATUS ch) 30 = decide (850 < 10 * temp + tenths)) ∧
  (dt = 0 → ∀ src, opens s.dev src (R .BP_ECC_POP) true = true → Answers (.eccPop src) s fun d => d.bp.log = s.dev.bp.log.drop 1)

/-- TM_CMD (R283, R286, R294, R295, R305, R306, R314) on a queue or node that the issuer may name, in a ready window: the object takes
its words and its place below its parent, a flush empties the queue, and holds and buckets are written and read. -/
def Obligations.TrafficManagerCommandsComplete : Prop := ∀ (s : State) (c : CmdArgs), Quiet s.dev → ready s.dev .tm c.src = true →
  (∀ q, q = bits c.obj 18 0 → bit c.obj 20 = false → q < s.dev.nQueues → (∀ v, sliceOf? c.src = some v → s.dev.sliceOfQueue q = some v) →
    (∀ on par, on = bit (word c 0) 31 → par = bits (word c 0) 15 0 → s.dev.queueWordsBad (latched 1 c) q = false →
      (∀ v, sliceOf? c.src = some v → s.dev.poolSlice (bits (word c 0) 24 19) = v) → (on = true → s.dev.parentDenied c.src par = false) →
      (s.dev.queue q).all = [] → Answers (.queueWrite c) s fun d => done d .tm c .ok [] ∧ (d.queue q).valid = on ∧
        (d.queue q).w0 = word c 0 ∧ (d.queue q).w1 = word c 1 % 2 ^ 20 ∧ (d.queue q).thG = word c 2 % 2 ^ 24 ∧
        (d.queue q).thY = word c 3 % 2 ^ 24 ∧ (d.queue q).thR = word c 4 % 2 ^ 24 ∧ (d.queue q).w5 = word c 5 % 2 ^ 31 ∧
        (on = true → (s.dev.queue q).valid = false → Child.queue q ∈ (d.node par).children)) ∧
    Answers (.queueRead c) s (fun d => d.queue q = s.dev.queue q ∧ done d .tm c .ok [(0, (s.dev.queue q).w0), (1, (s.dev.queue q).w1),
      (2, (s.dev.queue q).thG), (3, (s.dev.queue q).thY), (4, (s.dev.queue q).thR), (5, (s.dev.queue q).w5),
      (6, s.dev.queueOcc q % 2 ^ 32), (7, s.dev.queueOcc q / 2 ^ 32 % 64 + 64 * b2n (s.dev.held q) + 128 * b2n (s.dev.queue q).hold +
        256 * min 0xFFFFFF (s.dev.queue q).all.length)]) ∧
    ((s.dev.queue q).valid = true →
      ((s.dev.queue q).all = [] → Answers (.queueFlush c) s fun d => done d .tm c .ok [] ∧ d.flag (R .TM_FLAGS) 5 = true) ∧
      ((s.dev.queue q).all ≠ [] → Answers (.queueFlush c) s fun d => waits d .tm c 3 ∧ (d.queue q).all = []) ∧
      Answers (.queueHold c) s fun d => done d .tm c .ok [] ∧ (d.queue q).hold = bit (word c 0) 0)) ∧
  (∀ n, n = bits c.obj 15 0 → bit c.obj 20 = true → s.dev.nodeExists n = true → (∀ v, sliceOf? c.src = some v → s.dev.nodeSlice n = some v) →
    (bits (word c 0) 22 19 ≤ 8 →
      (n < 128 → Answers (.nodeWrite c) s fun d => done d .tm c .ok [] ∧ (d.node n).qshift = bits (word c 0) 22 19 ∧
        (d.node n).rings = (s.dev.node n).rings) ∧
      ∀ on par, on = bit (word c 0) 31 → par = bits (word c 0) 15 0 → 128 ≤ n → bits (word c 1) 15 0 ≠ 0 →
        (on = true → s.dev.parentDenied c.src par = false ∧ s.dev.nodeParentOk n par = true) →
        (s.dev.node n).children = [] → Answers (.nodeWrite c) s fun d => done d .tm c .ok [] ∧ (d.node n).valid = on ∧
          (d.node n).parent = par ∧ (d.node n).prio = bits (word c 0) 18 16 ∧ (d.node n).weight = bits (word c 1) 15 0 ∧
          (on = true → (s.dev.node n).valid = false → Child.node n ∈ (d.node par).children)) ∧
    Answers (.nodeRead c) s fun d => d.node n = s.dev.node n ∧ done d .tm c .ok [(0, (s.dev.node n).parent + (s.dev.node n).prio * 2 ^ 16 +
      (s.dev.node n).qshift * 2 ^ 19 + 2 ^ 31 * b2n (s.dev.nodeValid n)), (1, (s.dev.node n).weight),
      (2, s.dev.level n + 256 * min 0xFFFFFF (s.dev.node n).children.length)]) ∧
  ∀ (x : Child) (b o : Bucket), (if bit c.obj 20 then x = .node (bits c.obj 15 0) ∧ s.dev.nodeExists (bits c.obj 15 0) = true ∧
      ∀ v, sliceOf? c.src = some v → s.dev.nodeSlice (bits c.obj 15 0) = some v
    else x = .queue (bits c.obj 18 0) ∧ bits c.obj 18 0 < s.dev.nQueues ∧
      ∀ v, sliceOf? c.src = some v → s.dev.sliceOfQueue (bits c.obj 18 0) = some v) →
    (b, o) = (if bit c.obj 21 then ((s.dev.buckets x).2, (s.dev.buckets x).1) else s.dev.buckets x) →
    Answers (.shaperRead c) s (fun d => d.buckets x = s.dev.buckets x ∧ done d .tm c .ok [(0, b.rate), (1, b.burst + b.mode * 2 ^ 28 +
      2 ^ 31 * b2n b.en), (2, unsigned 48 b.tok % 2 ^ 32), (3, unsigned 48 b.tok / 2 ^ 32), (4, b.last), (5, s.dev.tick)]) ∧
    (bits (word c 1) 29 28 ≠ 3 → (bit (word c 1) 31 = true → 0 < word c 0 ∧ word c 0 ≤ 1600000000 ∧
        (o.en = true → if bit c.obj 21 then o.rate ≤ word c 0 else word c 0 ≤ o.rate)) →
      (bit c.obj 20 = true → bits c.obj 15 0 < 128 → bit c.obj 21 = true) → Answers (.shaperWrite c) s fun d => done d .tm c .ok [] ∧
        (if bit c.obj 21 then (d.buckets x).2 else (d.buckets x).1) = b.write s.dev.tick (word c 0) (bits (word c 1) 27 0)
          (bits (word c 1) 29 28) (bit (word c 1) 31))

/-- BP_CMD (R316, R322, R328, R338, R339, R348) from PF0 or a core, in a ready window: cells are granted whole and chained, freed,
read, written, retired and listed; RECLAIM waits in QUIESCED, and an injection is armed. -/
def Obligations.BufferCommandsComplete : Prop := ∀ (s : State) (c : CmdArgs) (n k : Nat), Quiet s.dev → ready s.dev .bp c.src = true →
  trusted c.src = true → n = bits c.obj 27 27 → k = bits c.obj 26 0 →
  (∀ p m, p = bits c.obj 5 0 → m = word c 0 % 128 → s.dev.poolExists p = true → 1 ≤ m → m ≤ (if n = 0 then 67 else 9) →
    s.dev.poolGrants p n m = true → Answers (.bufAlloc c) s fun d => ∃ cs : List Nat, cs.length = m ∧ done d .bp c .ok [(0, cs.headD 0)] ∧
      (∀ x ∈ cs, (d.cell n x).used = true ∧ (d.cell n x).owner = p) ∧ d.poolUsed p n = s.dev.poolUsed p n + m) ∧
  (k < s.dev.tierCells n →
    (∀ d1 cs, s.dev.freeWalk n (if bit (word c 0) 8 then 16384 else 1) k [] = (d1, some cs) →
      (∀ x ∈ cs, d1.freeFault n x (word c 0 % 64) = none) → Answers (.bufFree c) s fun d => done d .bp c .ok [] ∧
        ∀ x ∈ cs, (d.cell n x).used = false) ∧
    ((n = 0 → word c 0 % 64 ≤ 7) → (reservedCell n k = true → k ∉ s.dev.bp.resBad) → (s.dev.cell n k).linkErr ≠ 2 →
      (s.dev.cell n k).dataErr ≠ 2 → Answers (.cellRead c) s fun d => done d .bp c .ok (outBytes 0 8 (s.dev.cellPart n k (word c 0 % 64)))) ∧
    (∀ part data bytes, part = word c 0 % 128 → data = sub (s.dev.cell n k).data 0 (cellRoom n) → (n = 0 → part ≤ 15) →
      bytes = ((List.range 4).flatMap fun i => leBytes 4 (word c (1 + i))) → reservedCell n k = false → (s.dev.cell n k).used = true →
      (s.dev.cell n k).retired = false → Answers (.cellWrite c) s fun d => done d .bp c .ok [] ∧
        (d.cell n k).data = (if part = 0 then bytes.drop 8 ++ data.drop 8
          else data.take (16 * part - 8) ++ bytes ++ data.drop (16 * part + 8)) ∧
        (d.cell n k).next = (s.dev.cell n k).next ∧ (d.cell n k).eop = (s.dev.cell n k).eop) ∧
    (reservedCell n k = false → (s.dev.cell n k).retired = false → (s.dev.cell n k).used = false → (s.dev.retList n).length < 4096 →
      Answers (.cellRetire c) s fun d => done d .bp c .ok [] ∧ (d.cell n k).retired = true ∧ d.retList n = s.dev.retList n ++ [k] ∧
        d.flag (R .BP_FLAGS) 6 = true) ∧
    (s.dev.bp.armed.get? n = none → Answers (.eccInject c) s fun d => done d .bp c .ok [] ∧
      d.bp.armed.get? n = some (k, bit (word c 0) 0, bit (word c 0) 1))) ∧
  (∀ x, (s.dev.retList (word c 0 % 2))[bits (word c 0) 27 16]? = some x → Answers (.retireRead c) s fun d =>
    done d .bp c .ok [(0, x)] ∧ d.bp = s.dev.bp) ∧
  (s.dev.im.state = .quiesced → Answers (.reclaim c) s fun d => waits d .bp c 0x20 ∧ d.bp = s.dev.bp)

/-- Uplink ports at work (R87, R91, R380, R383, R385, R387 to R390, R396) on a device that runs: received frames are taken or discarded and counted, pause
timers set and end, flow-control frames repeat once half their quanta have passed, ports go DOWN and UP with their conditions (LOS
as their lanes have it), and the statistics clear. Statistics 10 to 13 also count the flow-control frames that a step sends. -/
def Obligations.UplinkEventsTakeEffect : Prop := ∀ (s : State) (dt : Nat) (e : Dev), e = s.dev.elapse dt → Quiet e →
  (e.alive = true → ∀ u < 12,
    (∀ f : FrameIn, f.port = u → e.portUp u = true → ∀ stat, stat = (fun d i => (Dev.ulPort d u).stats.getD i 0) →
      (f.fcsOk = false → Answers (.uplinkFrameReceive dt f) s fun d => stat d 2 = (stat e 2 + 1) % 2 ^ 64 ∧ d.pc.arrivals = e.pc.arrivals) ∧
      (f.fcsOk = true → f.bytes.length + 4 < 64 → Answers (.uplinkFrameReceive dt f) s fun d => stat d 3 = (stat e 3 + 1) % 2 ^ 64 ∧
        d.pc.arrivals = e.pc.arrivals) ∧
      (f.fcsOk = true → 64 ≤ f.bytes.length + 4 → f.bytes.length + 4 ≤ e.fld (R .UL_PORT_CFG u) 29 16 → f.codeErr = false →
        beAt f.bytes 12 2 ≠ 0x8808 → e.notCollecting u = false → e.im.state = .running → e.msOn u = false →
        Answers (.uplinkFrameReceive dt f) s fun d => stat d 0 = (stat e 0 + 1) % 2 ^ 64 ∧
          stat d 1 = (stat e 1 + f.bytes.length + 4) % 2 ^ 64 ∧ d.pc.arrivals =
            e.pc.arrivals ++ [{ Pkt.of (64 + u) f.bytes with rx := some (corrected f.at_ (e.reg (R .UL_TS_CORR_RX u))) }])) ∧
    (e.portUp u = true → ∀ q < 65536, (e.fcMode u = 1 → Answers (.pauseFrame dt u q) s fun d =>
        (d.ulPort u).pause = if q = 0 then none else some (e.tb.ticks + e.quantaTicks u q)) ∧
      (e.fcMode u ≠ 1 → Answers (.pauseFrame dt u q) s fun d => (d.ulPort u).pause = (e.ulPort u).pause ∧
        (d.ulPort u).stats.getD 8 0 = ((e.ulPort u).stats.getD 8 0 + 1) % 2 ^ 64)) ∧
    (e.portUp u = true → e.fcMode u = 2 → ∀ en qs, Answers (.pfcFrame dt u en qs) s fun d => ∀ c < 8, (d.ulPort u).pfc.get? c =
      if bit en c then (if qs.getD c 0 = 0 then none else some (e.tb.ticks + e.quantaTicks u (qs.getD c 0))) else (e.ulPort u).pfc.get? c) ∧
    Answers (.pauseTimerExpiry dt u) s (fun d => (d.ulPort u).pause = (e.ulPort u).pause.filter (fun x => decide (e.tb.ticks < x)) ∧
      ∀ c x, (d.ulPort u).pfc.get? c = some x → e.tb.ticks < x) ∧
    (∀ c < 8, e.portUp u = true → bit (e.ulPort u).xoff c = true → e.fld (R .UL_FC_CFG u) 15 0 ≠ 0 → e.fcEnabled u c = true →
      (e.ulPort u).fcAt.getD c 0 + e.quantaTicks u (e.fld (R .UL_FC_CFG u) 15 0) / 2 ≤ e.tb.ticks → Answers (.xoffRepeat dt u c) s fun d =>
        ∃ more, d.ul.fcSent = more ++ ⟨u, e.fcMode u == 2, [(c, e.fld (R .UL_FC_CFG u) 15 0)]⟩ :: e.ul.fcSent) ∧
    ((e.portDef u).isSome = true → (e.ulPort u).state ≠ .disabled → ∀ code on a b c lanes, 1 ≤ code → code ≤ 5 →
      (on = true ∨ (code ≠ 2 ∧ (code = 4 → bit (e.ulPort u).cond 2 = false))) →
      (code = 1 → on = e.portLos u ∧ bit (e.ulPort u).cond 1 = !on) →
      Answers (.portConditionChange dt u ⟨code, lanes⟩ on a b c) s fun d => bit (d.ulPort u).cond code = on ∧
        (on = true → (d.ulPort u).state = .down ∧ ((e.ulPort u).state = .up → d.flag (R .UL_FLAGS u) 1 = true)) ∧
        (on = false → (e.ulPort u).state = .down → bits (putBits (e.ulPort u).cond code code 0) 5 1 = 0 →
          e.fld (R .UL_PORT_CFG u) 15 8 = 0 → (d.ulPort u).state = .up ∧ d.flag (R .UL_FLAGS u) 0 = true)) ∧
    ((e.portDef u).isSome = true → (e.ulPort u).state ≠ .disabled → u + e.portLanes u ≤ 12 → ∀ a b c lanes, Answers (.portConditionChange dt u ⟨2, lanes⟩ false a b c) s
      fun d => if e.portAligns u lanes then bits (d.ulPort u).cond 5 1 = bits (putBits (putBits (e.ulPort u).cond 4 4 0) 2 2 0) 5 1 ∧
        (∀ i < e.portLanes u, d.flag (R .LX_UL_STATUS (u + i)) 6 = true ∧ d.flag (R .LX_UL_SKEW (u + i)) 15 = true)
      else (d.ulPort u).cond = (e.ulPort u).cond ∧ ∀ x ∈ e.portGroup u lanes,
        d.flag (R .LX_UL_SKEW x.1) 15 = false) ∧
    (∀ t, (e.ulPort u).state = .down → (e.ulPort u).clearAt = some t → bits (e.ulPort u).cond 5 1 = 0 →
      e.fld (R .UL_PORT_CFG u) 15 8 * 781250 ≤ e.tb.ticks - t → Answers (.portUp dt u) s fun d => (d.ulPort u).state = .up ∧
        d.flag (R .UL_FLAGS u) 0 = true) ∧
    ((e.portDef u).isSome = true → (e.ulPort u).state ≠ .disabled → ∀ corr uncorr syms n, corr + uncorr ≤ e.winWords u →
      (e.ulPort u).winAt + e.winWords u * 40 / e.portLanes u ≤ e.tb.ticks → n = (syms.take (e.portLanes u)).foldl (· + ·) 0 → Answers (.degradedWindowEnd dt u corr uncorr syms) s fun d =>
        (d.ulPort u).ser = e.reg (R .UL_SER_CFG u) ∧ (d.ulPort u).stats.getD 15 0 = ((e.ulPort u).stats.getD 15 0 + corr) % 2 ^ 64 ∧
          bit (d.ulPort u).cond 6 = if bits (e.ulPort u).ser 27 14 ≤ n then true
            else if n < bits (e.ulPort u).ser 13 0 then false else bit (e.ulPort u).cond 6)) ∧
  (dt = 0 → ∀ src u incs, opens s.dev src (R .UL_PORT_CFG u) true = true → (s.dev.portDef u).isSome = true →
    Answers (.clrStats src u incs) s fun d => ∀ i < 22, ¬(10 ≤ i ∧ i ≤ 13) →
      (d.ulPort u).stats.getD i 0 = if i ∈ incs then 1 else 0)

/-- PON keys (R349, R355, R357, R360, R378) of a pair that the source may reach, on a tree that is not ruled by the mate's copy: a slot
that is neither ACTIVE nor a switch's target takes a key and is READY, a switch waits for its SFC or is cancelled, a slot is emptied,
and every slot is read without its key. -/
def Obligations.PonKeyCommandsFollowTheSlotStates : Prop := ∀ (s : State) (c : CmdArgs) (pr i n : Nat), Quiet s.dev →
  ready s.dev .ce c.src = true → pr = (if bit c.obj 16 then bcastPair (c.obj % 64) else uniPair (bits c.obj 14 0)) →
  i = bits c.obj 19 18 → n = pairSlot pr i → s.dev.treeOpen c.src (slotTree (2 * pr)) = true → s.dev.treeExists (slotTree (2 * pr)) = true →
  (s.dev.copyTree (slotTree (2 * pr)) = false →
    ((i = 1 ∨ i = 2) → s.dev.keyTarget pr i = false →
      (∀ limit warn, limit = word c 4 + 2 ^ 32 * bits (word c 5) 15 0 → warn = bits (word c 5) 23 16 → 16384 ≤ limit → warn ≠ 0 →
        (s.dev.key n).state ≠ .active → s.dev.keyable pr = true → Answers (.ponKeyInstall c) s fun d => done d .ce c .ok [] ∧
          d.key n = { KeySlot.rest with
            state := .ready, key := beNat (((words c).take 4).flatMap fun x => leBytes 4 x), limit := limit
            warn256 := warn, life := word c 6 }) ∧
      Answers (.ponKeyClear c) s fun d => done d .ce c .ok [] ∧ (d.key n).state = .empty ∧
        ((s.dev.key n).state ≠ .empty → (d.key n).key = 0)) ∧
    (∀ j, j = word c 0 % 4 →
      (j = 1 ∨ j = 2 → (s.dev.key (pairSlot pr j)).state = .ready →
        signed 32 (word c 1 + 2 ^ 32 - s.dev.sfc (slotTree (2 * pr)) % 2 ^ 32) ≤ 80000 →
        Answers (.ponKeySwitch c) s fun d => done d .ce c .ok [] ∧ (d.pair pr).pend = some (j, word c 1) ∧
          d.key (pairSlot pr j) = s.dev.key (pairSlot pr j)) ∧
      (j = 0 → Answers (.ponKeySwitch c) s fun d => done d .ce c .ok [] ∧ (d.pair pr).pend = none))) ∧
  ((i = 1 ∨ i = 2) → Answers (.ponKeyRead c) s fun d => done d .ce c .ok [(0, (s.dev.key n).state.code + 8 * b2n (s.dev.key n).memErr +
      16 * b2n (s.dev.keyTarget pr i) + 32 * b2n (s.dev.key n).hwm.isSome), (1, (s.dev.key n).count % 2 ^ 32),
      (2, (s.dev.key n).count / 2 ^ 32 % 65536 + 65536 * (s.dev.key n).warn256), (3, (s.dev.key n).limit % 2 ^ 32),
      (4, (s.dev.key n).limit / 2 ^ 32), (5, (s.dev.key n).life), (6, (s.dev.key n).frames), (7, (s.dev.key n).hwm.getD 0 % 2 ^ 32)] ∧
    d.ce = s.dev.ce)

/-- MACsec and look-aside keys (R362, R369, R378): PF0 and the cores load, parameterise, number, enable, disable and read SA slots;
every source writes, clears and reads the look-aside keys that are not another slice's. -/
def Obligations.SaAndLookAsideKeyCommandsComplete : Prop := ∀ (s : State) (c : CmdArgs), Quiet s.dev → ready s.dev .ce c.src = true →
  (∀ n x, trusted c.src = true → n = bits c.obj 11 0 → x = s.dev.sa n →
    (x.state ≠ 2 → Answers (.msSaKey c) s fun d => done d .ce c .ok [] ∧
      d.sa n = { x with state := 1, key := (latched 0x10 c).bytesBe 0 8 }) ∧
    (x.state = 1 → (s.dev.portDef (bits (word c 0) 3 0)).isSome = true → (bit (word c 0) 9 = false → x.key % 2 ^ 128 = 0) →
      Answers (.msSaParam c) s fun d => done d .ce c .ok [] ∧ d.sa n = { x with
          w0 := bits (word c 0) 5 0 + 256 * bits (word c 0) 10 8, sci := word c 1 + 2 ^ 32 * word c 2, ssci := word c 3
          salt := (latched 0x11 c).bytesBe 4 3 }) ∧
    (x.state = 1 → word c 0 + 2 ^ 32 * word c 1 ≠ 0 → Answers (.msSaPn c) s fun d => done d .ce c .ok [] ∧
      d.sa n = { x with pn := word c 0 + 2 ^ 32 * word c 1, rekeyed := false, exhausted := false }) ∧
    (x.state = 1 → (x.tx = true → Answers (.msSaEnable c) s fun d => done d .ce c .ok [] ∧ d.txSa x.port = some n ∧
        (d.sa n) = { x with state := 2 } ∧ ∀ m ≠ n, s.dev.txSa x.port = some m → (d.sa m).state = 1) ∧
      (x.tx = false → s.dev.rxSa x.port (fun y => y.sci == x.sci && y.an == x.an) = none → Answers (.msSaEnable c) s fun d =>
        done d .ce c .ok [] ∧ d.sa n = { x with state := 2 })) ∧
    (∀ z, z = bit (word c 0) 0 → x.state ≠ 0 → (x.state = 1 → z = true) → Answers (.msSaDisable c) s fun d => done d .ce c .ok [] ∧
      d.sa n = (if z then SaSlot.rest else { x with state := 1 }) ∧ d.txSa x.port ≠ some n) ∧
    Answers (.msSaRead c) s fun d => done d .ce c .ok ([(0, x.w0 + 2 ^ 31 * b2n (x.state == 2)), (3, x.ssci), (6, x.ok), (7, x.fail)] ++
      outWords 1 2 x.sci ++ outWords 4 2 x.pn) ∧ d.ce = s.dev.ce) ∧
  ∀ n, n = bits c.obj 9 0 → (∀ v, sliceOf? c.src = some v → ∀ k, s.dev.ce.la.get? n = some k → k.owner = v) →
    (∀ owner key, owner = (sliceOf? c.src).getD (bits c.obj 24 20) → key = (latched 0x20 c).bytesBe 0 8 → owner ≤ 16 →
      (bit c.obj 16 = false → key % 2 ^ 128 = 0) → Answers (.laKeyWrite c) s fun d => done d .ce c .ok [] ∧
        d.ce.la.get? n = some ⟨bit c.obj 16, owner, key⟩) ∧
    Answers (.laKeyClear c) s (fun d => done d .ce c .ok [] ∧ d.ce.la.get? n = none) ∧
    Answers (.laKeyRead c) s fun d => done d .ce c .ok [(0, (s.dev.ce.la.get? n).elim 0 fun k => 1 + 2 * b2n k.long + 16 * k.owner)] ∧
      d.ce = s.dev.ce

/-- The look-aside rings and the key events (R367, R368, R371, R375, R377): a producer index within the ring's size is taken and one
beyond it refused with LA_PI_BAD; a served descriptor of an enabled ring always completes, CI moves on with LA_DONE, and DONE and
STATUS stand in its bytes 56 and 57; the pop removes the head of the events. -/
def Obligations.LookAsideRingsAndKeyEventsAct : Prop := ∀ (s : State), Quiet s.dev →
  (∀ src n v, opens s.dev src (R .CE_LA_PI n) true = true → Answers (.laPiWrite src n v) s fun d =>
    if (v % 8192 + 8192 - s.dev.reg (R .CE_LA_CI n)) % 8192 ≤ 2 ^ s.dev.fld (R .CE_LA_SIZE n) 3 0 then
      d.reg (R .CE_LA_PI n) = v % 8192 ∧ d.flag (R .CE_FLAGS) 15 = s.dev.flag (R .CE_FLAGS) 15
    else d.reg (R .CE_LA_PI n) = s.dev.reg (R .CE_LA_PI n) ∧ d.flag (R .CE_FLAGS) 15 = true) ∧
  (∀ src, opens s.dev src (R .CE_KEY_EVT_POP) true = true → (s.dev.keyEvtSeen src).isSome = true → Answers (.keyEvtPop src) s fun d =>
    d.ce.evts = s.dev.ce.evts.drop 1) ∧
  ∀ dt n e a fault tagFault ecc, e = s.dev.elapse dt → Quiet e → e.alive = true → n < 16 → a = e.laDesc n →
    e.flag (R .CE_LA_SIZE n) 31 = true → e.laFill n ≠ 0 → (∀ v, e.laSlice n = some v → e.inAperture v a 64 = true) →
    (Answers (.laDescriptor dt n fault ⟨tagFault, ecc⟩) s fun d => d.reg (R .CE_LA_CI n) = (e.reg (R .CE_LA_CI n) + 1) % 8192 ∧
      d.flag (R .CE_FLAGS) 14 = true ∧ (e.mc.spMiss = [] → d.rdMem true (a + 56) 1 = [1])) ∧
    ∀ x, x = laParse (e.rdMem true a 64) → e.mc.spMiss = [] → e.spFault (spOff a) 64 = false → e.laSlice n = none →
      (x.bad = true → Answers (.laDescriptor dt n fault ⟨tagFault, ecc⟩) s fun d =>
        (d.rdMem true (a + 57) 1) = leBytes 1 Status.badArgument.code) ∧
      (x.bad = false → e.ce.la.get? x.key = none → Answers (.laDescriptor dt n fault ⟨tagFault, ecc⟩) s fun d =>
        (d.rdMem true (a + 57) 1) = leBytes 1 Status.notInState.code) ∧
      (∀ k, x.bad = false → e.ce.la.get? x.key = some k → Answers (.laDescriptor dt n fault ⟨tagFault, 2⟩) s fun d =>
        (d.rdMem true (a + 57) 1) = leBytes 1 Status.memoryFault.code) ∧
      ∀ k, ecc ≠ 2 → x.bad = false → e.ce.la.get? x.key = some k → x.mode = 1 → x.srcSp = true → x.dstSp = false →
        e.spFirst x.src x.srcLen = none → Answers (.laDescriptor dt n fault ⟨tagFault, ecc⟩) s fun d =>
          (d.rdMem true (a + 57) 1) = leBytes 1 Status.ok.code ∧
            d.rdMem false x.dst x.len = ctrCrypt k.cipher x.iv (e.rdMem true x.src x.len)

/-- TB_CMD (R406, R407, R413, R420, R422, R434) from PF0 or a core, in a ready window: TIME_SET and TIME_STEP give C its new integer
part and keep its fraction, TIME_SLEW takes remainder and rate, FRAME_ALIGN waits for its instant, and the gate-list commands write,
commit, cancel, stop and read the lists of a port. -/
def Obligations.TimebaseCommandsComplete : Prop := ∀ (s : State) (c : CmdArgs), Quiet s.dev → ready s.dev .tb c.src = true →
  trusted c.src = true →
  (word c 0 % 2 ^ 30 < 1000000000 → Answers (.timeSet c) s fun d => done d .tb c .ok [] ∧
    d.tb.c / 2 ^ 40 = ((word c 1 + 2 ^ 32 * (word c 2 % 2 ^ 16)) * 1000000000 + word c 0 % 2 ^ 30) % 2 ^ 64 ∧
      d.tb.c % 2 ^ 40 = s.dev.tb.c % 2 ^ 40 ∧ d.ob.todUnset = false) ∧
  (s.dev.tb.c < 2 ^ 104 → Answers (.timeStep c) s fun d => done d .tb c .ok [] ∧
    ((d.tb.c / 2 ^ 40 : Nat) : Int) = ((s.dev.tb.c / 2 ^ 40 : Nat) + signed 64 (word c 0 + 2 ^ 32 * word c 1)) % 2 ^ 64 ∧
      d.tb.c % 2 ^ 40 = s.dev.tb.c % 2 ^ 40) ∧
  ((signed 32 (word c 0)).natAbs ≤ 1000000 → 1 ≤ word c 1 % 1024 → word c 1 % 1024 ≤ 1000 → Answers (.timeSlew c) s fun d =>
    done d .tb c .ok [] ∧ d.tb.rho = signed 32 (word c 0) * 2 ^ 40 ∧ d.tb.rate = word c 1 % 1024 ∧ d.tb.c = s.dev.tb.c) ∧
  ((∀ t < 64, s.dev.lit t = true → (s.dev.tf t).state = .off) → Answers (.frameAlign c) s fun d =>
    waits d .tb c 4 ∧ d.tb.align = some s.dev.tb.ticks ∧ d.tb.alignOff = s.dev.fld (R .TB_FRAME_CFG) 16 0) ∧
  (∀ u, (s.dev.portDef u).isSome → c.obj % 16 = u →
    ((s.dev.gates u).pending = none → 64 ≤ word c 0 % 2 ^ 24 → Answers (.gclWrite c) s fun d => done d .tb c .ok [] ∧
      (d.gates u).admin.get? (c.obj / 256 % 256) = some ⟨word c 0 / 2 ^ 24, word c 0 % 2 ^ 24⟩) ∧
    ((s.dev.gates u).pending = none → 256 ≤ word c 2 → 1 ≤ word c 3 % 512 → word c 3 % 512 ≤ 256 → Answers (.gclCommit c) s fun d =>
      done d .tb c .ok [] ∧ ∃ g, (d.gates u).pending = some g ∧ g.cycle = word c 2 ∧ g.entries.length = word c 3 % 512) ∧
    ((s.dev.gates u).pending ≠ none → Answers (.gclCancel c) s fun d => done d .tb c .ok [] ∧ (d.gates u).pending = none ∧
      (d.gates u).oper = (s.dev.gates u).oper) ∧
    ((s.dev.gates u).oper ≠ none → Answers (.gclStop c) s fun d => done d .tb c .ok [] ∧ (d.gates u).oper = none ∧
      (d.gates u).pending = (s.dev.gates u).pending) ∧
    (∀ g, (s.dev.gates u).pending = some g → c.obj / 2 ^ 16 % 2 = 0 → ∀ e, g.entries[c.obj / 256 % 256]? = some e →
      Answers (.gclRead c) s fun d => done d .tb c .ok ([(0, e.gates * 2 ^ 24 + e.ns), (1, 1)] ++ outWords 2 2 g.start ++
        [(4, g.cycle), (5, g.entries.length)]) ∧ d.gates u = s.dev.gates u))

/-- What the timebase does of itself (R407, R408, R409, R412, R413, R422, R426), on the device as it is when the event comes: a slew
ends with no remainder, a due compare fires and disarms, an enabled edge captures C, a due gate list starts, the aligned instant that a
FRAME_ALIGN waits for takes the offset that the command took and completes it, that of a START enters RUNNING, a bad recovered clock falls back, and a quiet chain takes its written mode. -/
def Obligations.TimebaseEventsTakeEffect : Prop := ∀ (s : State) (dt : Nat), (Quiet (s.dev.elapse dt) → (s.dev.elapse dt).alive = true →
  (dt = 0 → s.dev.tb.incPending = none → 0 < s.dev.inc * s.dev.tb.rate / 1000000 → Answers .slewComplete s fun d => d.tb.rho = 0 ∧
    d.tb.rate = s.dev.tb.rate) ∧
  (∀ n < 8, (s.dev.elapse dt).flag (R .TB_CMP_CFG n) 0 = true → 0 ≤ (s.dev.elapse dt).sinceC ((s.dev.elapse dt).cmpTarget n) →
    (s.dev.elapse dt).reg (R .TB_CMP_PERIOD n) = 0 → Answers (.compareFire dt n) s fun d =>
      d.flag (R .TB_FLAGS) (3 + n) = true ∧ d.flag (R .TB_CMP_CFG n) 0 = false) ∧
  (∀ n < 5, ∀ falling, (s.dev.elapse dt).flag (R .TB_CAP_CFG n) 31 = true → (s.dev.elapse dt).flag (R .TB_CAP_CFG n) 30 = falling →
    (n = 4 → falling = false → (s.dev.elapse dt).flag (R .TB_CAP_CFG n) 29 = false) → Answers (.captureEdge dt n falling) s fun d =>
      d.tb.capture.getD n 0 = (s.dev.elapse dt).tb.c / 2 ^ 40 % 2 ^ 64 ∧ d.flag (R .TB_CAP_CFG n) 28 = true ∧
        d.flag (R .TB_FLAGS) (11 + n) = true) ∧
  (∀ u < 12, ∀ g, ((s.dev.elapse dt).gates u).pending = some g → 0 ≤ (s.dev.elapse dt).sinceC g.start → Answers (.gclStart dt u) s fun d =>
    (d.gates u).oper = some g ∧ (d.gates u).pending = none ∧ d.flag (R .TB_FLAGS) 21 = true) ∧
  (dt = 0 → s.dev.flag (R .TB_CTL) 0 = true → s.dev.flag (R .TB_STATUS) 28 = false → s.dev.rec0Bad = true →
    Answers .clockFallback s fun d => d.flag (R .TB_STATUS) 28 = true ∧ d.flag (R .TB_FLAGS) 2 = true ∧ d.tb.c = s.dev.tb.c) ∧
  ((∀ e, (s.dev.elapse dt).tb.lastChainEdge = some e → e + 390625000 ≤ (s.dev.elapse dt).tb.ticks) →
    Answers (.chainModeChange dt) s fun d => d.tb.chainMode = (s.dev.elapse dt).fld (R .TB_CHAIN_CFG) 0 0) ∧
  Answers (.chainInPpsEdge dt) s fun d => d.tb.lastChainEdge = some (s.dev.elapse dt).tb.ticks ∧
    (bits ((s.dev.elapse dt).reg (R .TB_CAP_CFG 4)) 31 29 = 5 → d.tb.capture.getD 4 0 = (s.dev.elapse dt).tb.c / 2 ^ 40 % 2 ^ 64 ∧
      d.flag (R .TB_FLAGS) 15 = true)) ∧
  ∀ n e, n = s.dev.alignBy dt → e = s.dev.elapse n → Quiet e → e.alive = true → (∀ w ∈ e.wins, w.2.queue.length ≤ 1) →
    (s.dev.alignTicks = some n → Answers (.alignedInstant dt) s fun d => d.tb.offset = e.tb.alignOff ∧ d.tb.align = none ∧
      ∀ a, e.waitingCmd .tb 4 = some a → a.drop = false → ended d .tb a.src .ok) ∧
    (s.dev.startTicks = some n → ∀ a, e.waitingCmd .im 1 = some a → a.drop = false → Answers (.alignedInstant dt) s fun d =>
      d.im.state = .running ∧ d.tb.startAt = none ∧ ended d .im a.src .ok)

/-- Captures and timestamps (R415, R416, R433): ARM arms a time-of-day slot for a tree and the target SFC, POP removes the head of the
port's timestamps, and CLR_LOST zeroes the port's LOST, which a loss in the same cycle leaves at 1. -/
def Obligations.TimestampRegistersAct : Prop := ∀ (s : State) (src : Src), Quiet s.dev →
  (∀ n t, t < 64 → opens s.dev src (R .TB_TODCAP_CTL n) true = true → Answers (.todcapArm src n t) s fun d =>
    d.tb.todTarget.get? n = some ⟨t, s.dev.reg (R .TB_TODCAP_SFC n)⟩ ∧ d.fld (R .TB_TODCAP_CTL n) 30 29 = 1) ∧
  ∀ u, opens s.dev src (R .TB_TXTS_POP u) true = true →
    Answers (.txtsPop src u) s (fun d => d.tb.txts.getD u [] = (s.dev.tb.txts.getD u []).drop 1) ∧
    ∀ lossNow, Answers (.clrLost src u lossNow) s fun d => d.reg (R .TB_TXTS_LOST u) = b2n lossNow ∧ d.tb.txts = s.dev.tb.txts

/-- PX_CMD (R439 to R442, R455, R460, R469) from PF0 or a core, in a ready window: an eligible SWITCH commits its boundary or asks the
mate, a refused one, or one in a wrong state, waits to say so, LOCKOUT and its clear set the tree's lockout, JOIN and RESYNC wait for
their boundary, and the pair key is installed and zeroed. -/
def Obligations.ProtectionCommandsComplete : Prop := ∀ (s : State) (c : CmdArgs), Quiet s.dev → ready s.dev .px c.src = true →
  trusted c.src = true →
  (∀ t, c.obj % 64 = t → s.dev.isProt t = true →
    (s.dev.cold = false → (s.dev.pt t).state = .active → (s.dev.pt t).change = none → s.dev.eligibleSwitch t = true →
      Answers (.switch c) s fun d => waits d .px c 1 ∧
        (d.pt t).change = some (s.dev.rx.bnd + (if s.dev.sinceBnd 115 then 1 else 2), 2)) ∧
    (s.dev.cold = false → (s.dev.pt t).state = .standby → s.dev.eligibleSwitch t = true → Answers (.switch c) s fun d =>
      waits d .px c 1 ∧ d.px.ctlQ.getLast? = some ⟨2, t, s.dev.sfc t % 2 ^ 32, 0, 1, [2]⟩ ∧
      d.pt t = { s.dev.pt t with askWait := 2 }) ∧
    (s.dev.cold = false → (s.dev.pt t).state = .active → ∀ b cause, (s.dev.pt t).change = some (b, cause) → Answers (.switch c) s fun d =>
      waits d .px c 1 ∧ (d.pt t).change = some (b, cause)) ∧
    (s.dev.cold = false → ((s.dev.pt t).state = .active ∧ (s.dev.pt t).change = none) ∨ (s.dev.pt t).state = .standby →
      s.dev.eligibleSwitch t = false → Answers (.switch c) s fun d => waits d .px c 1 ∧ (d.pt t).deny = true ∧
        d.flag (R .PX_FLAGS) 5 = true) ∧
    (s.dev.cold = true → (s.dev.pt t).state = .active → s.dev.reg (R .PX_SNAP_OUT_LEN) ≠ 0 → Answers (.switch c) s fun d =>
      waits d .px c 1 ∧ (d.pt t).snapWait = 2) ∧
    ((if s.dev.cold then (s.dev.pt t).state ≠ .active ∨ s.dev.reg (R .PX_SNAP_OUT_LEN) = 0
        else (s.dev.pt t).state ≠ .active ∧ (s.dev.pt t).state ≠ .standby) → Answers (.switch c) s fun d =>
      waits d .px c 1 ∧ (d.pt t).deny = true ∧ (d.pt t).state = (s.dev.pt t).state) ∧
    ((s.dev.pt t).state ≠ .active → Answers (.lockout c) s fun d => done d .px c .ok [] ∧ (d.pt t).lockout = true ∧
      (d.pt t).state = (s.dev.pt t).state) ∧
    ((s.dev.pt t).lockout = true → Answers (.lockoutClear c) s fun d => done d .px c .ok [] ∧ (d.pt t).lockout = false) ∧
    Answers (.join c) s fun d => waits d .px c 4 ∧
      ((d.pt t).denyJoin = true ↔ ¬((s.dev.pt t).state = .off ∧ s.dev.lit t = true))) ∧
  (s.dev.source = true → Answers (.resync c) s fun d => waits d .px c 5 ∧ d.px.passDue = true) ∧
  (s.dev.pairFree = true → Answers (.pairKey c) s (fun d => done d .px c .ok [] ∧
      d.px.pairKey = some (beNat ((words c).flatMap fun w => leBytes 4 w))) ∧
    Answers (.pairKeyClear c) s fun d => done d .px c .ok [] ∧ d.px.pairKey = none)

/-- What the mate's cells do (R87, R88, R436, R439, R441, R443, R447, R449, R453, R455, R456, R524) to a device that runs. -/
def Obligations.MateCellsTakeEffect : Prop := ∀ (s : State) (dt : Nat) (e : Dev), e = s.dev.elapse dt → Quiet e → e.alive = true →
  (∀ h : HelloIn, e.hot = true → e.goodMateLanes ≠ [] → Answers (.helloCell dt h) s fun d =>
    (d.px.matched = true ↔ h.structId = e.structId ∧ h.role = 3 - e.im.str.role ∧ h.mode = e.im.str.mode ∧ h.trees = e.im.str.protTrees ∧
      ∃ k, e.px.pairKey = some k ∧ h.check = some (pairCheck k)) ∧ d.px.helloAge = some 0 ∧ d.px.lastRx = some (h.c, e.cPs) ∧
    (∀ t, e.isProt t = true → (d.pt t).mate = PxTreeState.ofCode (bits h.states (2 * t + 1) (2 * t)) ∧ (d.pt t).mateFit = bit h.fit t) ∧
    ∀ p, e.matePhase h = some p → d.reg (R .PX_MATE_PHASE) = unsigned 32 p) ∧
  (∀ m < 4, ∀ lane < 4, ∀ delay mask seq, e.laneRole .ml m = 5 → e.rxOff .ml m = false →
    (e.flag (R .LX_ML_STATUS m) 6 = true → ∀ a, e.px.markers.get? m = some a → markerSpaced a e.tb.ticks = true) →
    Answers (.markerCell dt ⟨m, lane, delay⟩ mask seq) s fun d => d.px.mateMask = mask % 16 ∧ d.lx.delays.get? m = some (lane, delay) ∧
    (d.lx.mateUp = e.lx.mateUp → d.px.rxSeq = some (e.px.rxSeq.getD (seq % 2 ^ 32))) ∧
    (∀ a, e.px.markers.get? m = some a → (e.tb.ticks - a + 40) / 80 = 1024 → d.flag (R .LX_ML_STATUS m) 6 = true) ∧ (∀ x ∈ d.mateGroup,
      d.flag (R .LX_ML_SKEW x.1) 15 = groupAligns .ml d.mateGroup ∧
      (groupAligns .ml d.mateGroup = true → ∀ y ∈ d.mateGroup, x.2.2 ≤ y.2.2 + skewLimit .ml))) ∧
  (e.linkUp = true →
    (∀ t < 64, e.isProt t = true →
      (∀ cause, (e.pt t).state = .active → (e.pt t).change = none → e.eligibleSwitch t = true → Answers (.switchReqCell dt t cause) s fun d =>
        (d.pt t).change = some (e.rx.bnd + (if e.sinceBnd 115 then 1 else 2), cause)) ∧
      (∀ sfc cause n, (e.pt t).state = .standby → n = signed 32 (sfc + 2 ^ 32 - e.sfc t % 2 ^ 32) → 1 < n →
        Answers (.commitCell dt t sfc cause) s fun d => (d.pt t).change = some (e.rx.bnd + n.toNat, cause)) ∧
      (∀ sfc part parts replayed ss n, (e.pt t).state = .standby → parts ≠ 0 → n = signed 32 (sfc + 2 ^ 32 - e.sfc t % 2 ^ 32) → 0 < n →
        Answers (.mapCell dt t sfc part parts replayed ss) s fun d =>
          ∃ m ∈ d.px.mapsIn, m.tree = t ∧ m.frame = e.sfc t + n.toNat ∧ m.got.get? part = some (ss.take 75)) ∧
      ∀ slots, Answers (.needCell dt t slots) s fun d => (d.gs t).need = slots.filter fun x => decide (x < 512)) ∧
    (∀ bytes, e.ob.pwrFail = false → e.ob.stagedBytes + 32 + bytes.length ≤ 65536 → Answers (.recordCell dt bytes) s fun d =>
      ∃ r rest, d.ob.staging = e.ob.staging ++ r :: rest ∧ (e.ob.loss = none → rest = []) ∧ r.typ = 6 ∧ r.body = bytes) ∧
    (dt = 0 → e.driven ≠ [] → Answers .resyncReqCell s fun d => d.px.passDue = true) ∧
    ∀ cells lost bad, bad = (fun d : Dev => d.copyState = 1 ∧ d.px.lastNo = none ∧ d.px.buf = e.px.buf ∧ d.flag (R .PX_FLAGS) 7 = true) →
      ((e.copyBytes cells).bind (parseCopy (e.px.pairKey.getD 0)) = none → Answers (.copyFrame dt cells lost) s bad) ∧
      ∀ f, (e.copyBytes cells).bind (parseCopy (e.px.pairKey.getD 0)) = some f → Answers (.copyFrame dt cells lost) s fun d =>
        if lost = false ∧ f.structId = e.structId ∧ f.frameNo = (e.px.lastNo.map fun n => n + f.cadence).getD f.frameNo
        then d.px.buf = some f ∧ d.px.lastNo = some f.frameNo else bad d)

/-- The mate link and the takeovers (R438, R445, R448, R457, R459 to R461) on a device that runs. -/
def Obligations.LinkChangesAndTakeoversTakeEffect : Prop := ∀ (s : State) (dt : Nat) (e : Dev), e = s.dev.elapse dt → Quiet e →
  e.alive = true →
  (dt = 0 → (∀ a, e.hot = true → e.lx.mateUp = false → e.goodMateLanes ≠ [] → e.mateAligns = true → e.px.helloAge = some a → a ≤ 2 →
      Answers .mateLinkUp s fun d => d.lx.mateUp = true ∧ d.px.passDue = true ∧ d.flag (R .PX_FLAGS) 0 = true) ∧
    (e.lx.mateUp = true → (e.goodMateLanes = [] ∨ e.mateAligns = false ∨ e.px.helloAge = none ∨ ∃ a, e.px.helloAge = some a ∧ 2 < a) →
      Answers .mateLinkDown s fun d => d.lx.mateUp = false ∧ d.px.helloAge = none ∧ d.px.copyQ = [] ∧ d.flag (R .PX_FLAGS) 1 = true)) ∧
  (∀ t < 64, e.isProt t = true →
    (∀ n, (e.pt t).wtr = some n → e.wtrS ≤ (e.now - n) / 1000000000 → Answers (.wtrExpiry dt t) s fun d => (d.pt t).wtr = some e.now ∧
      ((e.pt t).state = .standby → e.eligibleSwitch t = true → d.px.ctlQ.getLast? = some ⟨2, t, e.sfc t % 2 ^ 32, 0, 1, [3]⟩)) ∧
    (e.hot = true → (e.pt t).state = .standby → e.linkUp = false → e.holdoff ≤ (e.pt t).silent → (e.pt t).change = none →
      Answers (.linkTakeover dt t) s fun d => (d.pt t).change = some (e.rx.bnd + 1, 5) ∧
        (d.pt t).restore = if e.copyState = 2 ∧ e.copyAge ≤ e.copyAgeMax then none else some ((e.pt t).copySfc, e.px.copyC)) ∧
    ((e.pt t).state = .isolated → e.linkUp = false → e.fit t = true → e.startup ≤ (e.pt t).silent → (e.pt t).change = none →
      Answers (.startupTakeover dt t) s fun d => (d.pt t).change = some (e.rx.bnd + 1, 0)) ∧
    ((e.pt t).state = .active → e.linkUp = false → e.tb.ticks = e.px.bndTick → (∀ w ∈ e.wins, w.2.queue.length ≤ 1) →
      bit (e.tf t).reported 0 = true ∨ (e.im.str.role = 2 ∧ 2 ≤ (e.pt t).foreign) → Answers (.standdown dt t) s fun d =>
        (d.pt t).state = .isolated ∧ (d.pt t).cause = 6 ∧ d.flag (R .PX_FLAGS) 6 = true) ∧
    (e.cold = true → (e.pt t).state = .standby → e.holdoff ≤ (e.pt t).silent → (e.pt t).change = none →
      (Answers (.coldTakeover dt t true) s fun d => (d.pt t).change = some (e.rx.bnd + 1, 7) ∧ d.flag (R .PX_FLAGS) 14 = true) ∧
      ∀ f, e.reg (R .PX_SNAP_IN_SEQ) ≠ 0 → parseCopy (e.px.pairKey.getD 0) (e.mc.hostMem.readN (e.reg (R .PX_SNAP_IN_LO) +
        2 ^ 32 * e.reg (R .PX_SNAP_IN_HI)) (e.reg (R .PX_SNAP_IN_LEN))) = some f → f.structId = e.structId →
        Answers (.coldTakeover dt t false) s fun d => (d.pt t).change = some (e.rx.bnd + 1, 7) ∧ d.flag (R .PX_FLAGS) 13 = true)) ∧
  ∀ b, e.px.snap = some b →
    (∀ a, a = e.reg (R .PX_SNAP_OUT_LO) + 2 ^ 32 * e.reg (R .PX_SNAP_OUT_HI) + e.reg (R .PX_SNAP_OUT_SEQ) % 2 * e.reg (R .PX_SNAP_OUT_LEN) →
      e.reg (R .PX_SNAP_OUT_LEN) ≠ 0 → b.length ≤ e.reg (R .PX_SNAP_OUT_LEN) → Answers (.snapshotWrite dt false) s fun d => d.px.snap = none ∧
        d.mc.hostMem.readN a b.length = b ∧ d.flag (R .PX_FLAGS) 11 = true ∧
          d.reg (R .PX_SNAP_OUT_SEQ) = (e.reg (R .PX_SNAP_OUT_SEQ) + 1) % 2 ^ 32) ∧
    ∀ fault, fault = true ∨ e.reg (R .PX_SNAP_OUT_LEN) < b.length → Answers (.snapshotWrite dt fault) s fun d => d.px.snap = none ∧
      (e.reg (R .PX_SNAP_OUT_LEN) ≠ 0 → d.flag (R .PX_FLAGS) 12 = true) ∧ d.mc.hostMem = e.mc.hostMem ∧
      d.reg (R .PX_SNAP_OUT_SEQ) = e.reg (R .PX_SNAP_OUT_SEQ)

/-- The update session (R501, R502, R505): UPD_BEGIN erases the other slot and opens, UPD_WRITE programs scratchpad bytes into it,
UPD_VERIFY answers what the checks find, UPD_COMMIT makes it ACTIVE on trial, UPD_ABORT ends the session, and UPD_CONFIRM confirms the
slot that runs on trial. -/
def Obligations.UpdateSessionCommandsComplete : Prop := ∀ (s : State) (c : CmdArgs) (k : Nat), Quiet s.dev → ready s.dev .upd c.src = true →
  k = s.dev.otherSlot →
  (s.dev.session = 0 → s.dev.mc.trial = false → Answers (.updBegin c) s fun d => done d .upd c .ok [] ∧ d.session = 1 ∧
    ∀ a, slotBase k ≤ a → a < slotBase k + 0x2800000 → d.mc.flash.cells.read a = 0) ∧
  (∀ region off dst n, region = bits (word c 3) 0 0 → off = bits (word c 0) 21 0 → dst = word c 1 → n = bits (word c 2) 16 0 →
    n ≠ 0 → n ≤ 65536 → dst + n ≤ regionSize region → off + n ≤ 4194304 → s.dev.session = 1 → s.dev.spFault off n = false →
    Answers (.updWrite true c) s (fun d => done d .upd c .memoryFault [] ∧ d.mc.flash = s.dev.mc.flash) ∧
    Answers (.updWrite false c) s fun d => done d .upd c .ok [] ∧
      d.mc.flash.cells.readN (regionBase k region + dst) n = s.dev.mc.scratch.readN off n) ∧
  (s.dev.session = 1 → ∀ im fw, im = loadErrOf (loadFull s.dev.mc.fuses ⟨s.dev.mc.flash.cells, regionBase k 1, some 33554432, 0⟩) →
    fw = loadErrOf (loadFirmware s.dev.mc.fuses ⟨s.dev.mc.flash.cells, regionBase k 0, some 8388608, 0⟩) → Answers (.updVerify c) s fun d =>
      (if im.1 = 0 ∧ fw.1 = 0 then done d .upd c .ok [(0, 2 ^ 16 * fw.2)] ∧ d.session = 2
        else done d .upd c .badArgument [(0, im.1 + 2 ^ 8 * fw.1 + 2 ^ 16 * (if im.1 ≠ 0 then im.2 else fw.2))] ∧ d.session = 1)) ∧
  (s.dev.session = 2 → Answers (.updCommit c) s fun d => done d .upd c .ok [] ∧ d.session = 0 ∧ d.mc.flash.ruling.active = k ∧
    d.mc.flash.ruling.trial = true ∧ d.mc.flash.ruling.failCount = 0) ∧
  Answers (.updAbort c) s (fun d => done d .upd c .ok [] ∧ d.session = 0 ∧ d.mc.flash = s.dev.mc.flash) ∧
  (s.dev.mc.trial = true → Answers (.updConfirm c) s fun d => done d .upd c .ok [] ∧ d.mc.trial = false ∧
    d.mc.flash.ruling.trial = false ∧ (if s.dev.mc.runSlot = 0 then d.mc.flash.ruling.aConfirmed else d.mc.flash.ruling.bConfirmed) = true ∧
      d.mc.fuses.security = if bits (word c 0) 0 0 = 1 then s.dev.mc.runSec else s.dev.mc.fuses.security)

/-- Cores, DMA and scratchpad (R472, R474, R475, R478, R510, R513): KICK restarts a watchdog, RESET holds a core, GO starts a copy or is
refused while BUSY, a watchdog expires, a copy completes, and a plain or alias write and a read of a scratchpad word, or of a core's local memory, take effect. -/
def Obligations.CoresDmaAndScratchpadAct : Prop := ∀ (s : State),
  (Quiet s.dev → ∀ src c,
    (opens s.dev src (R .MC_CORE_CTL c) true = true → Answers (.kick src c) s (fun d => d.mc.wdt.getD c 0 = s.dev.tb.ticks) ∧
      ∀ held, Answers (.coreReset src c held) s fun d => d.flag (R .MC_CORE_CTL c) 31 = held ∧
        (d.core c).running = ((s.dev.core c).hasFw && !held && s.dev.mc.coresUp)) ∧
    (opens s.dev src (R .MC_DMA_CTL c) true = true → Answers (.dmaGo src c) s fun d => d.flag (R .MC_DMA_CTL c) 30 = true ∧
      (if s.dev.flag (R .MC_DMA_CTL c) 30 then d.flag (R .MC_FLAGS) 20 = true ∧ d.mc.dma = s.dev.mc.dma
      else d.mc.dma.get? c = some ⟨s.dev.reg (R .MC_DMA_SRC_LO c) + 2 ^ 32 * s.dev.reg (R .MC_DMA_SRC_HI c),
        s.dev.reg (R .MC_DMA_DST_LO c) + 2 ^ 32 * s.dev.reg (R .MC_DMA_DST_HI c), s.dev.fld (R .MC_DMA_LEN c) 23 0,
        s.dev.flag (R .MC_DMA_CTL c) 29, s.dev.flag (R .MC_DMA_CTL c) 28, s.dev.fld (R .MC_DMA_CTL c) 12 8⟩))) ∧
  ∀ dt e, e = s.dev.elapse dt → Quiet e → e.im.state ≠ .held →
    (∀ c < 4, e.flag (R .MC_CORE_CTL c) 30 = true →
      e.mc.wdt.getD c 0 + max 1 (e.fld (R .MC_CORE_CTL c) 15 0) * 781250 ≤ e.tb.ticks → Answers (.watchdogExpiry dt c) s fun d =>
        if e.flag (R .MC_CORE_CTL c) 29 then d.im.state = .booting
        else d.im.state = e.im.state ∧ d.flag (R .MC_FLAGS) (11 + c) = true ∧ d.mc.wdt.getD c 0 = e.tb.ticks) ∧
    (∀ c < 4, ∀ fault x, e.flag (R .MC_DMA_CTL c) 30 = true → e.mc.dma.get? c = some x → Answers (.dmaComplete dt c fault) s fun d =>
      d.flag (R .MC_DMA_CTL c) 30 = false ∧ d.flag (R .MC_FLAGS) (15 + c) = true ∧ d.mc.dma.get? c = none ∧
      (x.len ≠ 0 → x.dst + x.len ≤ 2 ^ 22 → fault = none → x.srcSp = false → x.dstSp = true → e.spFault x.dst x.len = false →
        d.mc.scratch.readN x.dst x.len = e.mc.hostMem.readN x.src x.len ∧ d.fld (R .MC_DMA_CTL c) 3 0 = Status.ok.code) ∧
      (x.len = 0 → d.fld (R .MC_DMA_CTL c) 3 0 = Status.badArgument.code ∧ d.mc.scratch = e.mc.scratch)) ∧
    (∀ off be data w k, off < 3 * 2 ^ 22 → e.busUp .pf0 = true → e.mc.spWait = [] → w = off % 2 ^ 22 / 8 → w ∉ e.mc.scratchUe →
      spWinOf (off / 2 ^ 22) = some k →
      Answers (.scratchpadAccess dt [⟨.pf0, off, true, false, be, data, .pad⟩] 0) s (fun d =>
        d.mc.scratch.le (8 * w) 8 = spApply k (beMask be) (e.mc.scratch.le (8 * w) 8) data) ∧
      Answers (.scratchpadAccess dt [⟨.pf0, off, false, false, be, data, .pad⟩] 0) s fun d =>
        d.mc.completion = some (.data (e.mc.scratch.le (8 * w) 8)) ∧ d.mc.scratch = e.mc.scratch) ∧
    ∀ c < 4, ∀ off be data w, off < 2 ^ 18 → e.mc.spWait = [] → w = off / 8 →
      Answers (.scratchpadAccess dt [⟨.core c, off, true, false, be, data, .loc⟩] 0) s (fun d =>
        (d.core c).localMem.le (8 * w) 8 = spApply .plain (beMask be) ((e.core c).localMem.le (8 * w) 8) data ∧ d.mc.scratch = e.mc.scratch) ∧
      Answers (.scratchpadAccess dt [⟨.core c, off, false, false, be, data, .loc⟩] 0) s fun d =>
        d.mc.spOut = [(c, .data ((e.core c).localMem.le (8 * w) 8))] ∧ d.core c = e.core c

/-- Rings and the management port (R479, R482, R483, R488 to R490): a producer index within the ring's size is taken and one beyond
it refused; an injection descriptor always completes, and a plain one hands its packet to the parser; management frames are received,
counted or discarded, and sent; and the port's link follows synchronisation and auto-negotiation. -/
def Obligations.RingsAndManagementPortAct : Prop := ∀ (s : State),
  (Quiet s.dev → ∀ src n tx v, opens s.dev src (ringReg n tx .pi) true = true → Answers (.ringPiWrite src n tx v) s fun d =>
    if (v % 65536 + 65536 - s.dev.reg (ringReg n tx .ci) % 65536) % 65536 ≤ 2 ^ s.dev.fld (ringReg n tx .cfg) 3 0 then
      d.reg (ringReg n tx .pi) = v % 65536
    else d.reg (ringReg n tx .pi) = s.dev.reg (ringReg n tx .pi) ∧ (if n = 21 then d.flag (R .MC_MGMT_FLAGS) 4
      else if n < 5 then d.flag (R .MC_RING_FLAGS) (16 + n) else d.flag (R .VF_FLAGS (n - 5)) 2) = true) ∧
  ∀ dt e, e = s.dev.elapse dt → Quiet e →
    (e.alive = true → ∀ n ≤ 20, ∀ fault, e.ringReady n true = true →
      Answers (.injectionDescriptor dt n fault) s (fun d =>
        d.reg (ringReg n true .ci) = (e.reg (ringReg n true .ci) + 1) % 65536 ∧
          ((ringSp n = true → e.mc.spMiss = []) → d.rdMem (ringSp n) (e.ringDesc n true + 48) 1 = [1])) ∧
      ∀ t, n < 5 → (ringSp n = true → e.spFault (spOff (e.ringDesc n true)) 64 = false) →
        t = txDesc (e.rdMem (ringSp n) (e.ringDesc n true) 64) → t.clean = true → t.len ≠ 0 → t.len ≤ 16383 → t.chained = false →
        t.bypass = false → (if ringSp n then e.spFault (spOff t.src) t.len = false else fault = false) →
        Answers (.injectionDescriptor dt n fault) s fun d =>
          d.pc.arrivals = e.pc.arrivals ++ [t.pkt n (e.rdMem (ringSp n) t.src t.len)]) ∧
    (e.im.state ≠ .held →
      (∀ bytes fcs code at_, e.flag (R .MC_MGMT_CFG) 31 = true →
        (fcs = false ∨ code = true ∨ bytes.length + 4 < 64 ∨ e.fld (R .MC_MGMT_CFG) 13 0 < bytes.length + 4 →
          Answers (.mgmtFrameReceive dt bytes fcs code at_) s fun d =>
            d.mc.mgmtStat.getD 2 0 = (e.mc.mgmtStat.getD 2 0 + 1) % 2 ^ 64) ∧
        (fcs = true → code = false → 64 ≤ bytes.length + 4 → bytes.length + 4 ≤ e.fld (R .MC_MGMT_CFG) 13 0 → beAt bytes 12 2 ≠ 0x8808 →
          (e.ringReady 21 false = true → e.spFault (spOff (e.ringDesc 21 false)) 16 = false → Answers (.mgmtFrameReceive dt bytes fcs code at_) s fun d =>
            d.mc.mgmtStat.getD 0 0 = (e.mc.mgmtStat.getD 0 0 + 1) % 2 ^ 64 ∧
              d.reg (R .MC_MGMT_RING_RX_CI) = (e.reg (R .MC_MGMT_RING_RX_CI) + 1) % 65536 ∧ d.flag (R .MC_MGMT_FLAGS) 2 = true) ∧
          (e.ringReady 21 false = false → Answers (.mgmtFrameReceive dt bytes fcs code at_) s fun d =>
            d.mc.mgmtStat.getD 3 0 = (e.mc.mgmtStat.getD 3 0 + 1) % 2 ^ 64 ∧ d.flag (R .MC_MGMT_FLAGS) 5 = true))) ∧
      (dt = 0 → ∀ t, e.ringReady 21 true = true → e.spFault (spOff (e.ringDesc 21 true)) 64 = false →
        t = txDesc (e.rdMem true (e.ringDesc 21 true) 64) → t.flags = 0 → 60 ≤ t.len → t.len ≤ e.fld (R .MC_MGMT_CFG) 13 0 - 4 →
        e.flag (R .MC_MGMT_CFG) 31 = true → e.flag (R .MC_MGMT_STATUS) 31 = true → e.spFault (spOff t.src) t.len = false →
        e.mgmtPaused = false → Answers .mgmtTransmit s fun d => d.mc.mgmtTx = e.rdMem true t.src t.len ∧
          d.reg (R .MC_MGMT_RING_TX_CI) = (e.reg (R .MC_MGMT_RING_TX_CI) + 1) % 65536 ∧ d.flag (R .MC_MGMT_FLAGS) 3 = true) ∧
      ∀ sync an pause, Answers (.mgmtLinkChange dt sync an pause) s fun d => d.flag (R .MC_MGMT_STATUS) 29 = sync ∧
        d.flag (R .MC_MGMT_STATUS) 30 = an ∧ d.flag (R .MC_MGMT_STATUS) 27 = pause ∧ d.flag (R .MC_MGMT_STATUS) 31 =
          (sync && (e.flag (R .MC_MGMT_CFG) 30 || !e.flag (R .MC_MGMT_CFG) 29 || an)))

/-- Function resets, interrupts, sensors and planning (R487, R494, R495, R497 to R499): an FLR disables the function's rings and clears its
flags and banks; EOI arms a vector, whose message goes out again while its sources stand; a sample is shown, and a second critical
one fails the device; and a margin run starts and shows what it finds. -/
def Obligations.FunctionResetsInterruptsAndSensorsAct : Prop := ∀ (s : State),
  (Quiet s.dev → ∀ src,
    (∀ cmd i v, (cmd = .intEoi src v ∧ i = v % 64 ∧ opens s.dev src (R .MC_INT_EOI) true = true) ∨
        (∃ f < 16, cmd = .vfEoi src f v ∧ i = 64 + 4 * f + v % 4 ∧ opens s.dev src (R .VF_EOI f) true = true) → Answers cmd s fun d =>
      if d.vecOr i then (bit (d.msixWord (msixEntry i + 12)) 0 = false → d.mc.sent.count i = s.dev.mc.sent.count i + 1)
      else (d.mc.vecs.getD i Vec.rest).armed = true ∧ d.mc.sent.count i = s.dev.mc.sent.count i) ∧
    (opens s.dev src (R .MC_AVS_CFG) true = true → Answers (.replan src) s fun d => d.flag (R .MC_AVS_STATUS) 31 = true ∧
      (s.dev.flag (R .MC_AVS_STATUS) 31 = true → d.flag (R .MC_FLAGS) 20 = true))) ∧
  ∀ dt e, e = s.dev.elapse dt → Quiet e → e.im.state ≠ .held →
    (∀ n < 16, Answers (.vfFlr dt n) s fun d => d.ringEn (5 + n) false = false ∧ d.ringEn (5 + n) true = false ∧
      d.reg (R .VF_FLAGS n) = 0 ∧ d.reg (R .VF_FLAGS_EN n) = 0 ∧ ∀ w, (d.win w).bank (1 + n) = Bank.rest) ∧
    (dt = 0 → Answers .pfFlr s fun d => d.mc.pcie.vfEnable = false ∧ (∀ k, 4 ≤ k → k ≤ 20 → d.ringEn k false = false ∧ d.ringEn k true = false) ∧
      ∀ w, ∀ b < 17, (d.win w).bank b = Bank.rest) ∧
    (∀ temps mv, (∀ n < 24, tempAbove (temps.getD n 0) (e.fld (R .MC_THERM_CFG) 31 24) = true → e.mc.overCrit.getD n 0 ≠ 1) →
      Answers (.thermalSample dt temps mv) s fun d => d.im.state = e.im.state ∧
        (∀ n < 24, d.reg (R .MC_TEMP n) = 2 ^ 31 + unsigned 10 (temps.getD n 0)) ∧
        ∀ n < 16, d.reg (R .MC_VOLT n) = 2 ^ 31 + mv.getD n 0 % 4096) ∧
    (∀ temps mv, (∀ w ∈ e.wins, w.2.queue.length ≤ 1) → (∃ n < 24, tempAbove (temps.getD n 0) (e.fld (R .MC_THERM_CFG) 31 24) = true ∧
      e.mc.overCrit.getD n 0 = 1) → Answers (.thermalSample dt temps mv) s fun d => d.im.state = .failed ∧
        d.flag (R .MC_FLAGS) 8 = true) ∧
    (∀ ppm, e.im.state ≠ .booting →
      (e.mc.run = none → e.marginDue = true → Answers (.marginRun dt ppm) s fun d => d.mc.marginDay = e.ob.opSec / 86400 + 1 ∧
        (∀ n < 32, d.reg (R .MC_AGE n) = 2 ^ 31 + min (ppm.getD n 0) 65535) ∧
        (e.pins.avsAck = true → d.flag (R .MC_AVS_STATUS) 31 = false ∧ d.flag (R .MC_FLAGS) 9 = true ∧ d.mc.run = none) ∧
        (d.mc.run ≠ none → e.pins.avsAck = false ∧ d.flag (R .MC_AVS_STATUS) 31 = true ∧ d.mc.avsTarget = e.mc.avsTarget + 5)) ∧
      (∀ x, e.mc.run = some x → e.pins.avsAck = true → Answers (.marginRun dt ppm) s fun d =>
        d.flag (R .MC_AVS_STATUS) 31 = false ∧ d.flag (R .MC_FLAGS) 9 = true ∧ d.mc.run = none))

/-- OB_CMD (R525, R527, R531, R533, R539) in a ready window: records are read, written and cleared, counters cleared, statistics sets
bound, read and cleared, and the sampling buffers read and restarted. -/
def Obligations.ObservabilityCommandsComplete : Prop := ∀ (s : State) (c : CmdArgs), Quiet s.dev → ready s.dev .ob c.src = true →
  (∀ b k, s.dev.ob.findRec (c.obj % 2 ^ 32) = some b → k = bits (word c 0) 5 0 → 32 * k < b.length → Answers (.recRead c) s fun d =>
    done d .ob c (if recSound b then .ok else .memoryFault) (outBytes 0 8 (b.drop (32 * k)))) ∧
  (s.dev.ob.clearBusy = false → Answers (.recClear c) s fun d => done d .ob c .ok [(0, s.dev.ob.nextSeq)] ∧
    d.ob.lost = s.dev.ob.staging.length ∧ d.ob.loss = none ∧
    (s.dev.ob.pwrFail = false → ∃ r rest, d.ob.staging = r :: rest ∧ r.typ = 1 ∧ r.seq = 0) ∧
    (s.dev.ob.failed = false → d.ob.tide = [] ∧ d.ob.cairn = [] ∧ d.ob.wrapped = false ∧ d.ob.half = 1 - s.dev.ob.half ∧
      d.ob.tideStart = s.dev.ob.wp ∧ d.ob.clearBusy = !s.dev.ob.mem.ctlBad)) ∧
  (∀ typ off len, typ = bits (word c 0) 15 0 → off = bits (word c 1) 21 0 → len = bits (word c 2) 10 0 →
    (∀ v, sliceOf? c.src = some v → s.dev.inAperture v off len = true) → 0x8000 ≤ typ → 16 ≤ len → len ≤ 1024 → len % 8 = 0 →
    off + len ≤ 4194304 → s.dev.ob.pwrFail = false → s.dev.spFault off len = false → s.dev.ob.stagedBytes + 32 + len ≤ 65536 →
    Answers (.recWrite c) s fun d => done d .ob c .ok [(0, s.dev.ob.nextSeq)] ∧ ∃ r rest,
      d.ob.staging = s.dev.ob.staging ++ r :: rest ∧ (s.dev.ob.loss = none → rest = []) ∧
      r.typ = typ ∧ r.seq = s.dev.ob.nextSeq ∧ r.body = s.dev.mc.scratch.readN off len ∧ (r.src, r.inst) = recWriter c.src) ∧
  (trusted c.src = true →
    (∀ n, n = bits c.obj 10 0 → Answers (.cntClear c) s fun d => done d .ob c .ok [] ∧
      d.ob.cnt.getD n 0 = 0 ∧ d.fld (R .OB_CNT_OVF (n / 32)) (n % 32) (n % 32) = 0 ∧
        (bit c.obj 31 = true → ∀ k < 2048, d.ob.cnt.getD k 0 = 0)) ∧
    (∀ q k, q = c.obj % 2 ^ 32 → q < s.dev.nQueues → k = bits (word c 0) 20 0 →
      (bit (word c 0) 31 = false → k < s.dev.nStatSets → Answers (.statBind c) s fun d => done d .ob c .ok [] ∧
        d.ob.statBind.get? q = some k) ∧
      (bit (word c 0) 31 = true → (s.dev.ob.statBind.get? q).isSome = true → Answers (.statBind c) s fun d => done d .ob c .ok [] ∧
        d.ob.statBind.get? q = none)) ∧
    (∀ k, k = c.obj % 2 ^ 32 → k < s.dev.nStatSets →
      Answers (.statRead c) s (fun d => done d .ob c .ok ((List.range 4).flatMap fun i =>
        outWords (2 * i) 2 (((s.dev.ob.stats.getD k statRest).drop (4 * bits (word c 0) 0 0)).getD i 0)) ∧ d.ob.stats = s.dev.ob.stats) ∧
      Answers (.statClear c) s fun d => done d .ob c .ok [] ∧ d.ob.stats.getD k statRest = statRest) ∧
    ∀ b, b = bits (word c 0) 2 0 →
      (∀ e, b = 4 → c.obj % 2 ^ 32 < 4096 → (s.dev.ob.pkt.filter PktSample.written)[c.obj % 2 ^ 32]? = some e →
        Answers (.sampleRead c) s fun d => done d .ob c .ok (outBytes 0 8 e.bytes) ∧ d.ob.pkt = s.dev.ob.pkt) ∧
      (∀ e, b < 4 → c.obj % 2 ^ 32 < 256 → (s.dev.ob.insBuf.getD b [])[c.obj % 2 ^ 32]? = some e → Answers (.sampleRead c) s fun d =>
        done d .ob c .ok (outBytes 0 4 e) ∧ d.ob.insBuf = s.dev.ob.insBuf) ∧
      (b ≤ 4 → Answers (.sampleRestart c) s fun d => done d .ob c .ok [] ∧
        (if b = 4 then d.ob.pkt = [] ∧ d.ob.pktRun = 0 else d.ob.insBuf.getD b [] = [])))

/-- The recorder and the programmable counters of themselves (R522 to R526, R530): what is due is written to the memory, the record at the
write point, or the memory is marked failed; nothing is written while PWRFAIL_N is low; operating seconds are logged at a multiple of 64,
the background erase ends, and a counter is reconfigured. -/
def Obligations.RecorderEventsAndCounterWritesAct : Prop := ∀ (s : State),
  (∀ dt e, e = s.dev.elapse dt → Quiet e → e.im.state ≠ .held →
    (e.ob.failed = false → e.ob.pwrFail = false →
      (e.ob.mem.ctlBad = false → e.ob.loss = none → (256 ≤ e.ob.stagedBytes ∨
          (∃ r, e.ob.staging.head? = some r ∧ r.entered + 78125000 ≤ e.tb.ticks) ∨ ∃ r, e.ob.staging.getLast? = some r ∧ r.fault = true) →
        Answers (.recordFlush dt [] false false) s fun d => d.ob.staging = [] ∧ ∀ r, e.ob.staging = [r] → r.len ≤ 1056 → e.ob.wp < tideSize →
          e.ob.wp ∈ d.ob.tide ∧ d.ob.tideRec e.ob.wp = r.bytes ∧ d.ob.wp = (e.ob.wp + r.len) % tideSize) ∧
      ∀ fails eraseFail ctlFail, e.flushDue ≠ 0 → ((eraseFail = true ∧ e.ob.kind = 1) ∨ ctlFail = true ∨ 2 ≤ fails.length) →
        Answers (.recordFlush dt fails eraseFail ctlFail) s fun d => d.ob.failed = true ∧ d.ob.cycle = 0 ∧ d.ob.opSec = 0) ∧
    (e.ob.pwrFail = true → ∀ fails eraseFail ctlFail, Answers (.recordFlush dt fails eraseFail ctlFail) s fun d =>
      d.ob.mem = e.ob.mem ∧ d.ob.staging = e.ob.staging) ∧
    (dt = 0 → (e.ob.failed = false → e.ob.opSec % 64 = 0 → e.ob.opPos < 1048576 → e.ob.opPos % 8 = 0 → Answers .opSecondsPersist s fun d =>
        d.ob.opSec = e.ob.opSec ∧ d.ob.mem.rd ((d.ob.opPos + 0xFFFF8) % 0x100000) 8 = e.ob.opEntry) ∧
      (e.ob.failed = false → e.ob.pwrFail = false → Answers .clearEraseDone s fun d => d.ob.clearBusy = false ∧
        (e.ob.erasing = true → d.ob.mem.isBlank (cairnBase (1 - e.ob.half)) 0x900000 = true)) ∧
      (e.ob.pwrFail = true → Answers .clearEraseDone s fun d => d.ob.erasing = e.ob.erasing ∧ d.ob.mem = e.ob.mem))) ∧
  (Quiet s.dev → ∀ src k v occ, opens s.dev src (R .OB_PCNT_CFG k) true = true → Answers (.pcntCfgWrite src k v occ) s fun d =>
    d.fld (R .OB_PCNT_CFG k) 11 0 = bits v 11 0 ∧ d.fld (R .OB_PCNT_CFG k) 31 30 = bits v 31 30 ∧ d.ob.pcnt.getD k 0 =
      if bits v 11 0 = s.dev.fld (R .OB_PCNT_CFG k) 11 0 ∧ bits v 30 30 = s.dev.fld (R .OB_PCNT_CFG k) 30 30 then s.dev.ob.pcnt.getD k 0
      else 0)

/-- A command window's command touches its own block and what it reports to (R36, R53, R58): whatever its outcome, refusals included, the
other windows and the other sources' banks stand as they were, and so does every part of the device and every register but those named
(those of the control window, whose commands act on the whole device, have their own statements). -/
def Obligations.CommandsTouchOnlyTheirBlock : Prop := ∀ (s : State) (c : CmdArgs), Quiet s.dev →
  (ready s.dev .tb c.src = true → ∀ i ∈ [
      Instr.timeSet c, .timeStep c, .timeSlew c, .frameAlign c, .gclWrite c, .gclCommit c, .gclCancel c, .gclStop c, .gclRead c],
    Answers i s fun d => Frame [.tb, .ob, .rx] (block 0x200000 0x300000) s.dev d ∧ othersKept s.dev d .tb c.src) ∧
  (ready s.dev .ob c.src = true → ∀ i ∈ [
      Instr.recRead c, .recClear c, .recWrite c, .cntClear c, .statBind c, .statRead c, .statClear c, .sampleRead c,
      .sampleRestart c],
    Answers i s fun d => Frame [.ob] (fun _ => false) s.dev d ∧ othersKept s.dev d .ob c.src) ∧
  (ready s.dev .upd c.src = true → ∀ fails, ∀ i ∈ [
      Instr.updBegin c, .updWrite fails c, .updVerify c, .updCommit c, .updAbort c, .updConfirm c],
    Answers i s fun d => Frame [.mc, .ob] (fun a => a == (R .MC_UPD_STATUS).addr) s.dev d ∧ othersKept s.dev d .upd c.src) ∧
  (ready s.dev .pc c.src = true → ∀ i ∈ [
      Instr.ruleWrite c, .ruleRead c, .keyProfileWrite c, .keyProfileRead c, .mirrorWrite c, .mirrorRead c, .bankCopy c,
      .bankSwap c, .bankClear c],
    Answers i s fun d => Frame [.pc, .ob] (block 0x1800000 0x1C00000) s.dev d ∧ othersKept s.dev d .pc c.src) ∧
  (ready s.dev .fs c.src = true → ∀ i ∈ [
      Instr.insert c, .update c, .delete c, .lookup c, .slotRead c, .rebuild c, .policerWrite c, .policerRead c, .profWrite c,
      .profRead c],
    Answers i s fun d => Frame [.fs, .ob] (block 0x1C00000 0x2000000) s.dev d ∧ othersKept s.dev d .fs c.src) ∧
  (ready s.dev .tm c.src = true → ∀ i ∈ [
      Instr.queueWrite c, .queueRead c, .queueFlush c, .queueHold c, .nodeWrite c, .nodeRead c, .shaperWrite c, .shaperRead c],
    Answers i s fun d => Frame [.tm, .bp, .ob] (fun a => block 0x1800000 0x1C00000 a || block 0x2000000 0x3000000 a) s.dev d ∧ othersKept s.dev d .tm c.src) ∧
  (ready s.dev .bp c.src = true → ∀ i ∈ [
      Instr.bufAlloc c, .bufFree c, .cellRead c, .cellWrite c, .cellRetire c, .retireRead c, .reclaim c, .eccInject c],
    Answers i s fun d => Frame [.bp, .ob] (block 0x2800000 0x3000000) s.dev d ∧ othersKept s.dev d .bp c.src) ∧
  (ready s.dev .ce c.src = true → ∀ i ∈ [
      Instr.ponKeyInstall c, .ponKeySwitch c, .ponKeyClear c, .ponKeyRead c, .msSaKey c, .msSaParam c, .msSaPn c,
      .msSaEnable c, .msSaDisable c, .msSaRead c, .laKeyWrite c, .laKeyClear c, .laKeyRead c],
    Answers i s fun d => Frame [.ce, .px, .ob] (fun a => block 0x300000 0x400000 a || block 0x2000000 0x2800000 a || block 0x3000000 0x3400000 a) s.dev d ∧ othersKept s.dev d .ce c.src) ∧
  (ready s.dev .px c.src = true → ∀ i ∈ [
      Instr.switch c, .lockout c, .lockoutClear c, .join c, .resync c, .pairKey c, .pairKeyClear c],
    Answers i s fun d => Frame [.px, .ob] (block 0x300000 0x400000) s.dev d ∧ othersKept s.dev d .px c.src) ∧
  (∀ r, ready s.dev (.tf r) c.src = true → ∀ i ∈ [
      Instr.treeOff r c, .treeStandby r c, .treeActive r c, .setSfc r c, .termDefects r c, .pmRead r c, .pmResetCurrent r c,
      .xgemPortAdd r c, .xgemPortDel r c, .xgemPortRead r c],
    Answers i s fun d => Frame [.rx, .px, .bp, .ob]
      (fun a => block 0x300000 0x400000 a || block 0x1000000 0x1800000 a || block 0x2800000 0x3000000 a) s.dev d ∧
      othersKept s.dev d (.tf r) c.src) ∧
  (∀ r, ready s.dev (.rg r) c.src = true → ∀ i ∈ [
      Instr.termProvision r c, .termAssign r c, .termDeactivate r c, .termDisable r c, .termEnable r c, .termRelease r c,
      .termSetIk r c, .termRead r c, .profileRead r c, .profileInvalidate r c, .ploamTail r c, .ploamSend r c],
    Answers i s fun d => Frame [.lx, .rx, .px, .ce, .ob]
      (fun a => block 0x300000 0x800000 a || block 0x1000000 0x1800000 a || block 0x2000000 0x2800000 a || block 0x3000000 0x3400000 a) s.dev d ∧
      othersKept s.dev d (.rg r) c.src) ∧
  (∀ t, ready s.dev (.gs t) c.src = true → ∀ i ∈ [
      Instr.allocAdd t c, .allocModify t c, .allocDel t c, .allocRead t c, .predRead t c, .predReset t c, .mapRead t c],
    Answers i s fun d => Frame [.rx, .px, .ob] (fun a => block 0x300000 0x400000 a || block 0x1000000 0x1800000 a) s.dev d ∧
      othersKept s.dev d (.gs t) c.src)

/-- A read that latches, and a register write with an effect of its own, touches its own block (R11, R36): every window, every part of the
device and every register but those named stand as they were. -/
def Obligations.RegisterCommandsTouchOnlyTheirBlock : Prop := ∀ (s : State) (src : Src) (v : Nat), Quiet s.dev →
  (∀ t, opens s.dev src (R .TF_SFC_LO t) false = true → Answers (.sfcLoRead src t) s (Only [.rx] (fun _ => false) s.dev)) ∧
  (∀ u j, opens s.dev src (R .UL_STAT_LO u j) false = true →
    Answers (.ulStatLoRead src u j) s (Only [.ul] (fun _ => false) s.dev)) ∧
  (∀ j, opens s.dev src (R .MC_MGMT_STAT_LO j) false = true →
    Answers (.mgmtStatLoRead src j) s (Only [] (fun a => a == (R .MC_MGMT_STAT_HI j).addr) s.dev)) ∧
  (∀ n, opens s.dev src (R .OB_CNT_LO n) false = true → Answers (.cntLoRead src false n) s (Only [.ob] (fun _ => false) s.dev)) ∧
  (∀ n, opens s.dev src (R .OB_PCNT_LO n) false = true → Answers (.cntLoRead src true n) s (Only [.ob] (fun _ => false) s.dev)) ∧
  (opens s.dev src (R .TB_NOW_LO) false = true → Answers (.nowLoRead src) s (Only [] (block 0x200000 0x300000) s.dev)) ∧
  (opens s.dev src (R .TB_TOD_NS) false = true → Answers (.todNsRead src) s (Only [] (block 0x200000 0x300000) s.dev)) ∧
  (∀ n, opens s.dev src (R .TB_CAP_LO n) false = true → Answers (.capLoRead src n) s (Only [] (block 0x200000 0x300000) s.dev)) ∧
  (∀ n, opens s.dev src (R .TB_TODCAP_T_LO n) false = true →
    Answers (.todcapTLoRead src n) s (Only [] (block 0x200000 0x300000) s.dev)) ∧
  (opens s.dev src (R .BP_FREE_ERR) false = true →
    Answers (.freeErrRead src) s (Only [] (fun a => a == (R .BP_FREE_ERR_CELL).addr) s.dev)) ∧
  (∀ p, p.ok = true → opens s.dev src (lowReg p) true = true →
    Answers (.lowWordWrite src p v) s (Only [.tb, .rx, .ce] (fun _ => false) s.dev)) ∧
  (∀ t, opens s.dev src (R .TF_PONID_HI t) true = true → Answers (.ponidHiWrite src t v) s (Only [.rx] (fun _ => false) s.dev)) ∧
  (opens s.dev src (R .TB_INC_HI) true = true → Answers (.incHiWrite src v) s (Only [.tb, .ob] (fun _ => false) s.dev)) ∧
  (∀ n, opens s.dev src (R .TB_CMP_TGT_HI n) true = true →
    Answers (.cmpTgtHiWrite src n v) s (Only [.tb] (block 0x200000 0x300000) s.dev)) ∧
  (opens s.dev src (R .CE_MS_PN_THRESH_HI) true = true →
    Answers (.pnThreshHiWrite src v) s (Only [.ce] (block 0x3000000 0x3400000) s.dev)) ∧
  (∀ t, opens s.dev src (R .RG_PLOAMU_POP t) true = true → Answers (.ploamuPop src t) s (Only [.rx] (fun _ => false) s.dev)) ∧
  (∀ r, opens s.dev src (R .RG_DISC_POP r) true = true → Answers (.discPop src r) s (Only [.rx] (fun _ => false) s.dev)) ∧
  (∀ t, opens s.dev src (R .TF_DEFECT_POP t) true = true → Answers (.defectPop src t) s (Only [.rx] (fun _ => false) s.dev)) ∧
  (opens s.dev src (R .BP_ECC_POP) true = true → Answers (.eccPop src) s (Only [.bp] (fun _ => false) s.dev)) ∧
  (opens s.dev src (R .CE_KEY_EVT_POP) true = true → Answers (.keyEvtPop src) s (Only [.ce] (fun _ => false) s.dev)) ∧
  (∀ u, opens s.dev src (R .TB_TXTS_POP u) true = true → Answers (.txtsPop src u) s (Only [.tb] (fun _ => false) s.dev)) ∧
  (∀ u b, opens s.dev src (R .TB_TXTS_POP u) true = true →
    Answers (.clrLost src u b) s (Only [] (fun a => a == (R .TB_TXTS_LOST u).addr) s.dev)) ∧
  (∀ n t, opens s.dev src (R .TB_TODCAP_CTL n) true = true →
    Answers (.todcapArm src n t) s (Only [.tb] (block 0x200000 0x300000) s.dev)) ∧
  (∀ r, opens s.dev src (R .GS_COOP_PI r) true = true →
    Answers (.coopPiWrite src r v) s (Only [.ob] (block 0x1000000 0x1800000) s.dev)) ∧
  (∀ n, opens s.dev src (R .CE_LA_PI n) true = true →
    Answers (.laPiWrite src n v) s (Only [.ob] (block 0x3000000 0x3400000) s.dev)) ∧
  (∀ n tx, opens s.dev src (ringReg n tx .pi) true = true →
    Answers (.ringPiWrite src n tx v) s (Only [.ob] (block 0 0x100000) s.dev)) ∧
  (∀ c, opens s.dev src (R .MC_CORE_CTL c) true = true → Answers (.kick src c) s (Only [.mc] (block 0 0x100000) s.dev)) ∧
  (∀ c h, opens s.dev src (R .MC_CORE_CTL c) true = true → Answers (.coreReset src c h) s (Only [.mc] (block 0 0x100000) s.dev)) ∧
  (∀ c, opens s.dev src (R .MC_DMA_CTL c) true = true → Answers (.dmaGo src c) s (Only [.mc, .ob] (block 0 0x100000) s.dev)) ∧
  (opens s.dev src (R .MC_AVS_CFG) true = true → Answers (.replan src) s (Only [.ob] (block 0 0x100000) s.dev)) ∧
  (opens s.dev src (R .MC_INT_EOI) true = true → Answers (.intEoi src v) s (Only [] (fun _ => false) s.dev)) ∧
  (∀ n, opens s.dev src (R .VF_EOI n) true = true → Answers (.vfEoi src n v) s (Only [] (fun _ => false) s.dev)) ∧
  (∀ k occ, opens s.dev src (R .OB_PCNT_CFG k) true = true →
    Answers (.pcntCfgWrite src k v occ) s (Only [.ob] (fun _ => false) s.dev))

/-- An event touches its own block and what it reports to, beside the time that passes before it (R36): every window, every part of the device
and every register but those named stand as they were when it came, whether or not its condition holds. -/
def Obligations.EventsTouchOnlyTheirBlock : Prop := ∀ (s : State) (dt : Nat), Quiet (s.dev.elapse dt) →
  (∀ u q qs, ∀ i ∈ [Instr.pauseFrame dt u q, .pfcFrame dt u q qs, .pauseTimerExpiry dt u, .xoffRepeat dt u q],
    Answers i s (Only [.ul] (fun _ => false) (s.dev.elapse dt))) ∧
  (∀ n < 8, ∀ u < 12, ∀ f, ∀ i ∈ [Instr.compareFire dt n, .captureEdge dt n f, .gclStart dt u, .chainModeChange dt, .chainInPpsEdge dt],
    Answers i s (Only [.tb, .ob] (block 0x200000 0x300000) (s.dev.elapse dt))) ∧
  (∀ n node k, ∀ i ∈ [Instr.policerRefresh dt n, .shaperRefresh dt node n k],
    Answers i s (Only [.fs, .tm] (fun _ => false) (s.dev.elapse dt))) ∧
  (∀ c < 4, ∀ fault accs err an sync pause bytes fcsOk ce at_, (∀ x ∈ accs, ∀ v, x.src = .vf v → v < 16) →
    ∀ i ∈ [Instr.dmaComplete dt c fault, .scratchpadAccess dt accs err, .mgmtLinkChange dt sync an pause,
      .mgmtFrameReceive dt bytes fcsOk ce at_],
    Answers i s (Only [.mc, .ob] (block 0 0x100000) (s.dev.elapse dt))) ∧
  (∀ fails e c, Answers (.recordFlush dt fails e c) s (Only [.ob] (fun _ => false) (s.dev.elapse dt))) ∧
  (∀ t slots sfc part parts rep ss, ∀ i ∈ [Instr.needCell dt t slots, .mapCell dt t sfc part parts rep ss],
    Answers i s (Only [.px, .rx] (fun _ => false) (s.dev.elapse dt))) ∧
  (∀ m, m.lane < 4 → m.named < 4 → ∀ mask seq, Answers (.markerCell dt m mask seq) s (Only [.lx, .px, .ob] (block 0x300000 0x800000) (s.dev.elapse dt))) ∧
  (∀ t sfc cause, Answers (.commitCell dt t sfc cause) s (Only [.px] (fun _ => false) (s.dev.elapse dt))) ∧
  (∀ bytes lost t cause h cells, ∀ i ∈ [Instr.recordCell dt bytes, .switchReqCell dt t cause, .helloCell dt h, .copyFrame dt cells lost],
    Answers i s (Only [.px, .ob] (block 0x300000 0x400000) (s.dev.elapse dt))) ∧
  (∀ g < 32768, ∀ head bytes mic, Answers (.acknowledge dt g head bytes mic) s (Only [.rx, .ob] (block 0x1000000 0x1800000) (s.dev.elapse dt))) ∧
  (∀ k, ∀ j < 64, ∀ left right down up n rx, ∀ i ∈ [Instr.eyeScanDone dt k j left right down up, .prbsLockLoss dt k j n rx, .prbsCheckerLock dt k ⟨j, n, rx⟩],
    Answers i s (Only [.lx, .ob] (block 0x400000 0x800000) (s.dev.elapse dt))) ∧
  (∀ n < 16, ∀ fault x ppm, ∀ i ∈ [Instr.laDescriptor dt n fault x, .marginRun dt ppm],
    Answers i s (Only [.free, .ce, .mc, .ob] (fun a => block 0 0x100000 a || block 0x3000000 0x3400000 a) (s.dev.elapse dt))) ∧
  (∀ u < 12, ∀ corr uncorr syms,
    Answers (.degradedWindowEnd dt u corr uncorr syms) s (Only [.ul, .ob] (block 0x3400000 0x3800000) (s.dev.elapse dt))) ∧
  (dt = 0 → Answers (.clockFallback) s (Only [.ob] (block 0x200000 0x300000) s.dev)) ∧
  (dt = 0 → ∀ i ∈ [Instr.opSecondsPersist, .clearEraseDone], Answers i s (Only [.ob] (fun _ => false) s.dev)) ∧
  (dt = 0 → Answers .resyncReqCell s (Only [.px] (fun _ => false) s.dev)) ∧
  (dt = 0 → Answers .mgmtTransmit s (Only [.mc, .ob] (block 0 0x100000) s.dev))
end

