-- ==== Sys2Proof/Laws/Bits.lean ====
section
/-! SUPPORT. The laws of bit fields: a field written reads as written, and every other bit as before. -/

namespace Sys2Proof

theorem bit_eq_testBit (v i : Nat) : bit v i = v.testBit i := by
  rw [bit, Nat.testBit_eq_decide_div_mod_eq]
  by_cases h : v / 2 ^ i % 2 = 1 <;> simp [h]

theorem putBits_eq (v hi lo x : Nat) (h : lo ≤ hi + 1) :
    putBits v hi lo x = 2 ^ (hi + 1) * (v / 2 ^ (hi + 1)) + (2 ^ lo * (x % 2 ^ (hi + 1 - lo)) + v % 2 ^ lo) := by
  have hp : 2 ^ (hi + 1) = 2 ^ lo * 2 ^ (hi + 1 - lo) := by rw [← Nat.pow_add]; congr 1; omega
  have h1 := Nat.div_add_mod v (2 ^ lo)
  have h2 := Nat.div_add_mod (v / 2 ^ lo) (2 ^ (hi + 1 - lo))
  rw [Nat.div_div_eq_div_mul, ← hp] at h2
  have h3 : 2 ^ lo * (v / 2 ^ lo) = 2 ^ (hi + 1) * (v / 2 ^ (hi + 1)) + 2 ^ lo * (v / 2 ^ lo % 2 ^ (hi + 1 - lo)) := by
    conv_lhs => rw [← h2]
    rw [Nat.mul_add, ← Nat.mul_assoc, ← hp]
  simp only [putBits, bits]
  rw [Nat.mul_comm (v / 2 ^ lo % 2 ^ (hi + 1 - lo)), Nat.mul_comm (x % 2 ^ (hi + 1 - lo))]
  omega

/-- Bit i of a number with a field replaced. -/
theorem testBit_putBits (v hi lo x i : Nat) (h : lo ≤ hi + 1) :
    (putBits v hi lo x).testBit i = if lo ≤ i ∧ i ≤ hi then x.testBit (i - lo) else v.testBit i := by
  have hlt : 2 ^ lo * (x % 2 ^ (hi + 1 - lo)) + v % 2 ^ lo < 2 ^ (hi + 1) := by
    have hp : 2 ^ (hi + 1) = 2 ^ lo * 2 ^ (hi + 1 - lo) := by rw [← Nat.pow_add]; congr 1; omega
    have h1 : x % 2 ^ (hi + 1 - lo) + 1 ≤ 2 ^ (hi + 1 - lo) := Nat.mod_lt _ (Nat.two_pow_pos _)
    have h2 : v % 2 ^ lo < 2 ^ lo := Nat.mod_lt _ (Nat.two_pow_pos _)
    have h3 := Nat.mul_le_mul_left (2 ^ lo) h1
    rw [hp]
    rw [Nat.mul_add] at h3
    omega
  rw [putBits_eq v hi lo x h, Nat.testBit_two_pow_mul_add _ hlt]
  have hm : v % 2 ^ lo < 2 ^ lo := Nat.mod_lt _ (Nat.two_pow_pos _)
  by_cases h1 : i < hi + 1
  · rw [if_pos h1, Nat.testBit_two_pow_mul_add _ hm]
    by_cases h2 : i < lo
    · rw [if_pos h2, if_neg (by omega), Nat.testBit_mod_two_pow]
      simp [h2]
    · rw [if_neg h2, if_pos ⟨by omega, by omega⟩, Nat.testBit_mod_two_pow]
      simp only [Bool.and_eq_right_iff_imp, decide_eq_true_eq]
      intro _
      omega
  · rw [if_neg h1, if_neg (by omega), Nat.testBit_div_two_pow]
    congr 1
    omega

/-- A bit set reads 1. -/
@[simp] theorem bit_putBits_self (v b : Nat) : bit (putBits v b b 1) b = true := by
  rw [bit_eq_testBit, testBit_putBits _ _ _ _ _ (by omega), if_pos ⟨Nat.le_refl _, Nat.le_refl _⟩]
  simp

/-- A bit cleared reads 0. -/
@[simp] theorem bit_putBits_zero (v b : Nat) : bit (putBits v b b 0) b = false := by
  rw [bit_eq_testBit, testBit_putBits _ _ _ _ _ (by omega), if_pos ⟨Nat.le_refl _, Nat.le_refl _⟩]
  simp

/-- A bit outside a field written is as before. -/
theorem bit_putBits_ne (v hi lo x i : Nat) (hl : lo ≤ hi + 1) (h : i < lo ∨ hi < i) : bit (putBits v hi lo x) i = bit v i := by
  rw [bit_eq_testBit, bit_eq_testBit, testBit_putBits _ _ _ _ _ hl, if_neg (by omega)]

theorem testBit_bits (v hi lo i : Nat) : (bits v hi lo).testBit i = (decide (i < hi + 1 - lo) && v.testBit (lo + i)) := by
  rw [bits, Nat.testBit_mod_two_pow, Nat.testBit_div_two_pow, Nat.add_comm i lo]

/-- A field written reads as written. -/
theorem bits_putBits_self (v hi lo x : Nat) (h : lo ≤ hi + 1) : bits (putBits v hi lo x) hi lo = x % 2 ^ (hi + 1 - lo) := by
  apply Nat.eq_of_testBit_eq
  intro i
  rw [testBit_bits, testBit_putBits _ _ _ _ _ h, Nat.testBit_mod_two_pow]
  by_cases hi' : i < hi + 1 - lo
  · rw [if_pos ⟨by omega, by omega⟩]
    simp [hi']
  · simp [hi']

/-- A field that does not meet the one written is as before. -/
theorem bits_putBits_ne (v hi lo x hi' lo' : Nat) (hl : lo ≤ hi + 1) (h : hi' < lo ∨ hi < lo') :
    bits (putBits v hi lo x) hi' lo' = bits v hi' lo' := by
  apply Nat.eq_of_testBit_eq
  intro i
  rw [testBit_bits, testBit_bits, testBit_putBits _ _ _ _ _ hl]
  by_cases hi'' : i < hi' + 1 - lo'
  · rw [if_neg (by omega)]
  · simp [hi'']

/-- A field of a 32-bit word written in it keeps it a 32-bit word. -/
theorem putBits_lt {v hi lo x : Nat} (hv : v < 2 ^ 32) (hh : hi < 32) (hl : lo ≤ hi + 1) : putBits v hi lo x < 2 ^ 32 := by
  apply Nat.lt_pow_two_of_testBit
  intro i hi'
  rw [testBit_putBits _ _ _ _ _ hl, if_neg (by omega)]
  exact Nat.testBit_lt_two_pow (Nat.lt_of_lt_of_le hv (Nat.pow_le_pow_right (by omega) hi'))

end Sys2Proof
end

