-- ==== Sys2Proof/Laws/Order.lean ====
section
/-! SUPPORT. The laws of an ordered list: it holds what the list held, in order. -/

namespace Sys2Proof.Machine

variable {α : Type} (le : α → α → Bool)

theorem insertBy_perm (x : α) (l : List α) : (insertBy le x l).Perm (x :: l) := by
  induction l with
  | nil => exact .refl _
  | cons y ys ih =>
    simp only [insertBy]
    split
    · exact .refl _
    · exact (ih.cons y).trans (.swap x y ys)

/-- An ordered list holds the elements of the list, as often as it does. -/
theorem sortBy_perm (l : List α) : (sortBy le l).Perm l := by
  induction l with
  | nil => exact .refl _
  | cons x xs ih => exact (insertBy_perm le x _).trans (ih.cons x)

@[simp] theorem mem_sortBy (x : α) (l : List α) : x ∈ sortBy le l ↔ x ∈ l := (sortBy_perm le l).mem_iff

@[simp] theorem length_sortBy (l : List α) : (sortBy le l).length = l.length := (sortBy_perm le l).length_eq

/-- A list in order has each element precede the next. -/
theorem sortBy_pairwise (htotal : ∀ a b, le a b || le b a) (htrans : ∀ a b c, le a b → le b c → le a c) (l : List α) :
    (sortBy le l).Pairwise fun a b => le a b := by
  induction l with
  | nil => exact .nil
  | cons x xs ih =>
    suffices h : ∀ ys : List α, ys.Pairwise (fun a b => le a b) → (insertBy le x ys).Pairwise fun a b => le a b from h _ ih
    intro ys hys
    induction ys with
    | nil => simp [insertBy]
    | cons y ys ihy =>
      simp only [insertBy]
      obtain ⟨hy, hys⟩ := List.pairwise_cons.1 hys
      split
      · rename_i h
        exact List.pairwise_cons.2 ⟨fun z hz => (List.mem_cons.1 hz).elim (fun e => e ▸ h) fun hz => htrans _ _ _ h (hy z hz),
          List.pairwise_cons.2 ⟨hy, hys⟩⟩
      · rename_i h
        refine List.pairwise_cons.2 ⟨fun z hz => ?_, ihy hys⟩
        rcases List.mem_cons.1 ((insertBy_perm le x ys).mem_iff.1 hz) with rfl | hz
        · simpa [h] using htotal z y
        · exact hy z hz

end Sys2Proof.Machine
end

