-- ==== Sys2Proof/Laws/Table.lean ====
section
/-! SUPPORT. The laws of sparse tables and byte memories: read after write, and the canonical form that every operation keeps. -/

namespace Sys2Proof.Machine

variable {α : Type}

@[simp] theorem Table.get?_nil (k : Nat) : Table.get? ([] : Table α) k = none := rfl

theorem Table.get?_cons (p : Nat × α) (t : Table α) (k : Nat) :
    Table.get? (p :: t) k = if p.1 = k then some p.2 else Table.get? t k := rfl

/-- A read after a write: the value written, and every other key as before. -/
@[simp] theorem Table.get?_set (t : Table α) (k j : Nat) (v : α) :
    (t.set k v).get? j = if k = j then some v else t.get? j := by
  induction t with
  | nil => simp [Table.set, Table.get?_cons]
  | cons p t ih =>
    simp only [Table.set]
    split
    · simp [Table.get?_cons]
    · split
      · rename_i h; subst h
        simp only [Table.get?_cons]
        split <;> simp_all
      · simp only [Table.get?_cons, ih]
        split <;> split <;> simp_all

@[simp] theorem Table.get?_erase (t : Table α) (k j : Nat) :
    (t.erase k).get? j = if k = j then none else t.get? j := by
  induction t with
  | nil => simp [Table.erase]
  | cons p t ih =>
    simp only [Table.erase]
    split
    · rw [ih]
      split <;> simp_all [Table.get?_cons]
    · simp only [Table.get?_cons, ih]
      split <;> split <;> simp_all

theorem Table.get?_put [DecidableEq α] (t : Table α) (x : α) (k j : Nat) (v : α) :
    (t.put x k v).get? j = if k = j then (if v = x then none else some v) else t.get? j := by
  unfold Table.put
  split <;> simp_all

/-- A read with the resting value after a write: the value written, and every other key as before. -/
@[simp] theorem Table.getD_put [DecidableEq α] (t : Table α) (x : α) (k j : Nat) (v : α) :
    (t.put x k v).getD j x = if k = j then v else t.getD j x := by
  unfold Table.getD
  rw [Table.get?_put]
  by_cases h : k = j <;> by_cases hv : v = x <;> simp_all

@[simp] theorem Table.getD_set (t : Table α) (x : α) (k j : Nat) (v : α) :
    (t.set k v).getD j x = if k = j then v else t.getD j x := by
  unfold Table.getD
  rw [Table.get?_set]
  split <;> simp_all

@[simp] theorem Table.getD_nil (k : Nat) (x : α) : Table.getD ([] : Table α) k x = x := rfl

@[simp] theorem Table.getD_erase (t : Table α) (x : α) (k j : Nat) :
    (t.erase k).getD j x = if k = j then x else t.getD j x := by
  unfold Table.getD
  rw [Table.get?_erase]
  split <;> simp_all

/-- The last write at a key is the one that stands. -/
@[simp] theorem Table.set_set (t : Table α) (k : Nat) (v w : α) : (t.set k v).set k w = t.set k w := by
  induction t with
  | nil => simp [Table.set]
  | cons p t ih =>
    simp only [Table.set]
    split
    · simp [Table.set]
    · split
      · simp [Table.set]
      · simp [Table.set, *]

/-! ### The canonical form -/

/-- What a mapped table holds at a key: the changed value where the key was listed. -/
theorem Table.getD_mapPut [DecidableEq α] (t : Table α) (x : α) (f : Nat → α → α) (k : Nat) :
    (t.mapPut x f).getD k x = ((t.get? k).map (f k)).getD x := by
  induction t with
  | nil => rfl
  | cons p t ih =>
    obtain ⟨k', v⟩ := p
    show Table.getD (Table.put (Table.mapPut t x f) x k' (f k' v)) k x = _
    simp only [Table.getD, Table.get?_put] at ih ⊢
    by_cases hk : k = k'
    · subst hk
      by_cases hv : f k v = x <;> simp [Table.get?, hv]
    · have hk' : k' ≠ k := fun h => hk h.symm
      simp only [Table.get?, hk', if_false]
      exact ih


theorem Table.sortedFrom_mono {t : Table α} {a b : Nat} (h : a ≤ b) (hs : t.sortedFrom b = true) : t.sortedFrom a = true := by
  cases t with
  | nil => rfl
  | cons p t =>
    simp only [Table.sortedFrom, Bool.and_eq_true, decide_eq_true_eq] at hs ⊢
    exact ⟨by omega, hs.2⟩

theorem Table.set_sortedFrom {t : Table α} {lo k : Nat} (v : α) (hk : lo ≤ k) (hs : t.sortedFrom lo = true) :
    (t.set k v).sortedFrom lo = true := by
  induction t generalizing lo with
  | nil => simp [Table.set, Table.sortedFrom, hk]
  | cons p t ih =>
    simp only [Table.sortedFrom, Bool.and_eq_true, decide_eq_true_eq] at hs
    simp only [Table.set]
    split
    · simp only [Table.sortedFrom, Bool.and_eq_true, decide_eq_true_eq]
      exact ⟨hk, by omega, hs.2⟩
    · split
      · subst_vars
        simp only [Table.sortedFrom, Bool.and_eq_true, decide_eq_true_eq]
        exact ⟨hk, hs.2⟩
      · simp only [Table.sortedFrom, Bool.and_eq_true, decide_eq_true_eq]
        exact ⟨hs.1, ih (by omega) hs.2⟩

theorem Table.erase_sortedFrom {t : Table α} {lo : Nat} (k : Nat) (hs : t.sortedFrom lo = true) :
    (t.erase k).sortedFrom lo = true := by
  induction t generalizing lo with
  | nil => rfl
  | cons p t ih =>
    simp only [Table.sortedFrom, Bool.and_eq_true, decide_eq_true_eq] at hs
    simp only [Table.erase]
    split
    · exact Table.sortedFrom_mono (by omega) (ih hs.2)
    · simp only [Table.sortedFrom, Bool.and_eq_true, decide_eq_true_eq]
      exact ⟨hs.1, ih hs.2⟩

/-- Setting a key keeps the keys rising. -/
theorem Table.set_wf {t : Table α} (k : Nat) (v : α) (h : t.wf = true) : (t.set k v).wf = true :=
  Table.set_sortedFrom v (Nat.zero_le k) h

/-- Erasing a key keeps the keys rising. -/
theorem Table.erase_wf {t : Table α} (k : Nat) (h : t.wf = true) : (t.erase k).wf = true := Table.erase_sortedFrom k h

theorem Table.mem_set {t : Table α} {k : Nat} {v : α} {p : Nat × α} (h : p ∈ t.set k v) : p = (k, v) ∨ p ∈ t := by
  induction t with
  | nil => simpa [Table.set] using h
  | cons q t ih =>
    simp only [Table.set] at h
    split at h
    · simpa using h
    · split at h
      · rcases List.mem_cons.mp h with h | h <;> simp [h]
      · rcases List.mem_cons.mp h with h | h
        · simp [h]
        · rcases ih h with h | h <;> simp [h]

theorem Table.mem_erase {t : Table α} {k : Nat} {p : Nat × α} (h : p ∈ t.erase k) : p ∈ t := by
  induction t with
  | nil => simp [Table.erase] at h
  | cons q t ih =>
    simp only [Table.erase] at h
    split at h
    · exact List.mem_cons_of_mem _ (ih h)
    · rcases List.mem_cons.mp h with h | h
      · simp [h]
      · exact List.mem_cons_of_mem _ (ih h)

/-- Putting a value keeps the canonical form: keys rise, and no entry rests. -/
theorem Table.put_wfPut [DecidableEq α] {t : Table α} {x : α} (k : Nat) (v : α) (h : t.wfPut x = true) :
    (t.put x k v).wfPut x = true := by
  simp only [Table.wfPut, Bool.and_eq_true, List.all_eq_true] at h ⊢
  unfold Table.put
  split
  · exact ⟨Table.erase_wf k h.1, fun p hp => h.2 p (Table.mem_erase hp)⟩
  · refine ⟨Table.set_wf k v h.1, fun p hp => ?_⟩
    rcases Table.mem_set hp with rfl | hp
    · simpa using ‹¬v = x›
    · exact h.2 p hp

/-! ### Byte memories -/

/-- A byte read after a byte written. -/
@[simp] theorem Mem.read_write (m : Mem) (a b : Nat) (v : Byte) : (m.write a v).read b = if a = b then v else m.read b := by
  simp [Mem.read, Mem.write]

/-- A write keeps the canonical form. -/
theorem Mem.write_wf {m : Mem} (a : Nat) (v : Byte) (h : m.wf = true) : (m.write a v).wf = true := Table.put_wfPut a v h

/-- Writes of several bytes keep the canonical form. -/
theorem Mem.writeL_wf {m : Mem} (a : Nat) (bs : List Byte) (h : m.wf = true) : (m.writeL a bs).wf = true := by
  induction bs generalizing m a with
  | nil => exact h
  | cons b bs ih => exact ih (a + 1) (Mem.write_wf a b h)

/-- Every byte outside those written reads as before. -/
theorem Mem.read_writeL_frame (m : Mem) (a b : Nat) (bs : List Byte) (h : b < a ∨ a + bs.length ≤ b) :
    (m.writeL a bs).read b = m.read b := by
  induction bs generalizing m a with
  | nil => rfl
  | cons v bs ih =>
    simp only [Mem.writeL, List.length_cons] at h ⊢
    rw [ih _ (a + 1) (by omega), Mem.read_write, if_neg (by omega)]

/-- A byte written reads as written. -/
theorem Mem.read_writeL (m : Mem) (a i : Nat) (bs : List Byte) (h : i < bs.length) :
    (m.writeL a bs).read (a + i) = bs.getD i 0 := by
  induction bs generalizing m a i with
  | nil => simp at h
  | cons v bs ih =>
    cases i with
    | zero =>
      simp only [Mem.writeL, Nat.add_zero]
      rw [Mem.read_writeL_frame _ _ _ _ (by omega)]
      simp
    | succ i =>
      simp only [Mem.writeL]
      rw [show a + (i + 1) = a + 1 + i by omega, ih _ (a + 1) i (by simpa using h)]
      simp

end Sys2Proof.Machine
end

