-- ==== Sys2Proof/Laws/State.lean ====
section
/-! SUPPORT. One lemma per field per update of the device, so that no proof unfolds a record update. -/

namespace Sys2Proof.Machine

section

variable (d : Dev)

@[simp] theorem Dev.onTb_regs (f : TbState → TbState) : (d.onTb f).regs = d.regs := (rfl)
@[simp] theorem Dev.onTb_wins (f : TbState → TbState) : (d.onTb f).wins = d.wins := (rfl)
@[simp] theorem Dev.onTb_kicks (f : TbState → TbState) : (d.onTb f).kicks = d.kicks := (rfl)
@[simp] theorem Dev.onTb_free (f : TbState → TbState) : (d.onTb f).free = d.free := (rfl)
@[simp] theorem Dev.onTb_pins (f : TbState → TbState) : (d.onTb f).pins = d.pins := (rfl)
@[simp] theorem Dev.onTb_im (f : TbState → TbState) : (d.onTb f).im = d.im := (rfl)
@[simp] theorem Dev.onTb_tb (f : TbState → TbState) : (d.onTb f).tb = f d.tb := (rfl)
@[simp] theorem Dev.onTb_mc (f : TbState → TbState) : (d.onTb f).mc = d.mc := (rfl)
@[simp] theorem Dev.onTb_ob (f : TbState → TbState) : (d.onTb f).ob = d.ob := (rfl)
@[simp] theorem Dev.onTb_lx (f : TbState → TbState) : (d.onTb f).lx = d.lx := (rfl)
@[simp] theorem Dev.onTb_rx (f : TbState → TbState) : (d.onTb f).rx = d.rx := (rfl)
@[simp] theorem Dev.onTb_pc (f : TbState → TbState) : (d.onTb f).pc = d.pc := (rfl)
@[simp] theorem Dev.onTb_fs (f : TbState → TbState) : (d.onTb f).fs = d.fs := (rfl)
@[simp] theorem Dev.onTb_tm (f : TbState → TbState) : (d.onTb f).tm = d.tm := (rfl)
@[simp] theorem Dev.onTb_bp (f : TbState → TbState) : (d.onTb f).bp = d.bp := (rfl)
@[simp] theorem Dev.onTb_ce (f : TbState → TbState) : (d.onTb f).ce = d.ce := (rfl)
@[simp] theorem Dev.onTb_ul (f : TbState → TbState) : (d.onTb f).ul = d.ul := (rfl)
@[simp] theorem Dev.onTb_px (f : TbState → TbState) : (d.onTb f).px = d.px := (rfl)

@[simp] theorem Dev.onMc_regs (f : McState → McState) : (d.onMc f).regs = d.regs := (rfl)
@[simp] theorem Dev.onMc_wins (f : McState → McState) : (d.onMc f).wins = d.wins := (rfl)
@[simp] theorem Dev.onMc_kicks (f : McState → McState) : (d.onMc f).kicks = d.kicks := (rfl)
@[simp] theorem Dev.onMc_free (f : McState → McState) : (d.onMc f).free = d.free := (rfl)
@[simp] theorem Dev.onMc_pins (f : McState → McState) : (d.onMc f).pins = d.pins := (rfl)
@[simp] theorem Dev.onMc_im (f : McState → McState) : (d.onMc f).im = d.im := (rfl)
@[simp] theorem Dev.onMc_tb (f : McState → McState) : (d.onMc f).tb = d.tb := (rfl)
@[simp] theorem Dev.onMc_mc (f : McState → McState) : (d.onMc f).mc = f d.mc := (rfl)
@[simp] theorem Dev.onMc_ob (f : McState → McState) : (d.onMc f).ob = d.ob := (rfl)
@[simp] theorem Dev.onMc_lx (f : McState → McState) : (d.onMc f).lx = d.lx := (rfl)
@[simp] theorem Dev.onMc_rx (f : McState → McState) : (d.onMc f).rx = d.rx := (rfl)
@[simp] theorem Dev.onMc_pc (f : McState → McState) : (d.onMc f).pc = d.pc := (rfl)
@[simp] theorem Dev.onMc_fs (f : McState → McState) : (d.onMc f).fs = d.fs := (rfl)
@[simp] theorem Dev.onMc_tm (f : McState → McState) : (d.onMc f).tm = d.tm := (rfl)
@[simp] theorem Dev.onMc_bp (f : McState → McState) : (d.onMc f).bp = d.bp := (rfl)
@[simp] theorem Dev.onMc_ce (f : McState → McState) : (d.onMc f).ce = d.ce := (rfl)
@[simp] theorem Dev.onMc_ul (f : McState → McState) : (d.onMc f).ul = d.ul := (rfl)
@[simp] theorem Dev.onMc_px (f : McState → McState) : (d.onMc f).px = d.px := (rfl)

@[simp] theorem Dev.onOb_regs (f : ObState → ObState) : (d.onOb f).regs = d.regs := (rfl)
@[simp] theorem Dev.onOb_wins (f : ObState → ObState) : (d.onOb f).wins = d.wins := (rfl)
@[simp] theorem Dev.onOb_kicks (f : ObState → ObState) : (d.onOb f).kicks = d.kicks := (rfl)
@[simp] theorem Dev.onOb_free (f : ObState → ObState) : (d.onOb f).free = d.free := (rfl)
@[simp] theorem Dev.onOb_pins (f : ObState → ObState) : (d.onOb f).pins = d.pins := (rfl)
@[simp] theorem Dev.onOb_im (f : ObState → ObState) : (d.onOb f).im = d.im := (rfl)
@[simp] theorem Dev.onOb_tb (f : ObState → ObState) : (d.onOb f).tb = d.tb := (rfl)
@[simp] theorem Dev.onOb_mc (f : ObState → ObState) : (d.onOb f).mc = d.mc := (rfl)
@[simp] theorem Dev.onOb_ob (f : ObState → ObState) : (d.onOb f).ob = f d.ob := (rfl)
@[simp] theorem Dev.onOb_lx (f : ObState → ObState) : (d.onOb f).lx = d.lx := (rfl)
@[simp] theorem Dev.onOb_rx (f : ObState → ObState) : (d.onOb f).rx = d.rx := (rfl)
@[simp] theorem Dev.onOb_pc (f : ObState → ObState) : (d.onOb f).pc = d.pc := (rfl)
@[simp] theorem Dev.onOb_fs (f : ObState → ObState) : (d.onOb f).fs = d.fs := (rfl)
@[simp] theorem Dev.onOb_tm (f : ObState → ObState) : (d.onOb f).tm = d.tm := (rfl)
@[simp] theorem Dev.onOb_bp (f : ObState → ObState) : (d.onOb f).bp = d.bp := (rfl)
@[simp] theorem Dev.onOb_ce (f : ObState → ObState) : (d.onOb f).ce = d.ce := (rfl)
@[simp] theorem Dev.onOb_ul (f : ObState → ObState) : (d.onOb f).ul = d.ul := (rfl)
@[simp] theorem Dev.onOb_px (f : ObState → ObState) : (d.onOb f).px = d.px := (rfl)

@[simp] theorem Dev.onIm_regs (f : ImState → ImState) : (d.onIm f).regs = d.regs := (rfl)
@[simp] theorem Dev.onIm_wins (f : ImState → ImState) : (d.onIm f).wins = d.wins := (rfl)
@[simp] theorem Dev.onIm_kicks (f : ImState → ImState) : (d.onIm f).kicks = d.kicks := (rfl)
@[simp] theorem Dev.onIm_free (f : ImState → ImState) : (d.onIm f).free = d.free := (rfl)
@[simp] theorem Dev.onIm_pins (f : ImState → ImState) : (d.onIm f).pins = d.pins := (rfl)
@[simp] theorem Dev.onIm_im (f : ImState → ImState) : (d.onIm f).im = f d.im := (rfl)
@[simp] theorem Dev.onIm_tb (f : ImState → ImState) : (d.onIm f).tb = d.tb := (rfl)
@[simp] theorem Dev.onIm_mc (f : ImState → ImState) : (d.onIm f).mc = d.mc := (rfl)
@[simp] theorem Dev.onIm_ob (f : ImState → ImState) : (d.onIm f).ob = d.ob := (rfl)
@[simp] theorem Dev.onIm_lx (f : ImState → ImState) : (d.onIm f).lx = d.lx := (rfl)
@[simp] theorem Dev.onIm_rx (f : ImState → ImState) : (d.onIm f).rx = d.rx := (rfl)
@[simp] theorem Dev.onIm_pc (f : ImState → ImState) : (d.onIm f).pc = d.pc := (rfl)
@[simp] theorem Dev.onIm_fs (f : ImState → ImState) : (d.onIm f).fs = d.fs := (rfl)
@[simp] theorem Dev.onIm_tm (f : ImState → ImState) : (d.onIm f).tm = d.tm := (rfl)
@[simp] theorem Dev.onIm_bp (f : ImState → ImState) : (d.onIm f).bp = d.bp := (rfl)
@[simp] theorem Dev.onIm_ce (f : ImState → ImState) : (d.onIm f).ce = d.ce := (rfl)
@[simp] theorem Dev.onIm_ul (f : ImState → ImState) : (d.onIm f).ul = d.ul := (rfl)
@[simp] theorem Dev.onIm_px (f : ImState → ImState) : (d.onIm f).px = d.px := (rfl)

@[simp] theorem Dev.onLx_regs (f : LxState → LxState) : (d.onLx f).regs = d.regs := (rfl)
@[simp] theorem Dev.onLx_wins (f : LxState → LxState) : (d.onLx f).wins = d.wins := (rfl)
@[simp] theorem Dev.onLx_kicks (f : LxState → LxState) : (d.onLx f).kicks = d.kicks := (rfl)
@[simp] theorem Dev.onLx_free (f : LxState → LxState) : (d.onLx f).free = d.free := (rfl)
@[simp] theorem Dev.onLx_pins (f : LxState → LxState) : (d.onLx f).pins = d.pins := (rfl)
@[simp] theorem Dev.onLx_im (f : LxState → LxState) : (d.onLx f).im = d.im := (rfl)
@[simp] theorem Dev.onLx_tb (f : LxState → LxState) : (d.onLx f).tb = d.tb := (rfl)
@[simp] theorem Dev.onLx_mc (f : LxState → LxState) : (d.onLx f).mc = d.mc := (rfl)
@[simp] theorem Dev.onLx_ob (f : LxState → LxState) : (d.onLx f).ob = d.ob := (rfl)
@[simp] theorem Dev.onLx_lx (f : LxState → LxState) : (d.onLx f).lx = f d.lx := (rfl)
@[simp] theorem Dev.onLx_rx (f : LxState → LxState) : (d.onLx f).rx = d.rx := (rfl)
@[simp] theorem Dev.onLx_pc (f : LxState → LxState) : (d.onLx f).pc = d.pc := (rfl)
@[simp] theorem Dev.onLx_fs (f : LxState → LxState) : (d.onLx f).fs = d.fs := (rfl)
@[simp] theorem Dev.onLx_tm (f : LxState → LxState) : (d.onLx f).tm = d.tm := (rfl)
@[simp] theorem Dev.onLx_bp (f : LxState → LxState) : (d.onLx f).bp = d.bp := (rfl)
@[simp] theorem Dev.onLx_ce (f : LxState → LxState) : (d.onLx f).ce = d.ce := (rfl)
@[simp] theorem Dev.onLx_ul (f : LxState → LxState) : (d.onLx f).ul = d.ul := (rfl)
@[simp] theorem Dev.onLx_px (f : LxState → LxState) : (d.onLx f).px = d.px := (rfl)

@[simp] theorem Dev.onRx_regs (f : RxState → RxState) : (d.onRx f).regs = d.regs := (rfl)
@[simp] theorem Dev.onRx_wins (f : RxState → RxState) : (d.onRx f).wins = d.wins := (rfl)
@[simp] theorem Dev.onRx_kicks (f : RxState → RxState) : (d.onRx f).kicks = d.kicks := (rfl)
@[simp] theorem Dev.onRx_free (f : RxState → RxState) : (d.onRx f).free = d.free := (rfl)
@[simp] theorem Dev.onRx_pins (f : RxState → RxState) : (d.onRx f).pins = d.pins := (rfl)
@[simp] theorem Dev.onRx_im (f : RxState → RxState) : (d.onRx f).im = d.im := (rfl)
@[simp] theorem Dev.onRx_tb (f : RxState → RxState) : (d.onRx f).tb = d.tb := (rfl)
@[simp] theorem Dev.onRx_mc (f : RxState → RxState) : (d.onRx f).mc = d.mc := (rfl)
@[simp] theorem Dev.onRx_ob (f : RxState → RxState) : (d.onRx f).ob = d.ob := (rfl)
@[simp] theorem Dev.onRx_lx (f : RxState → RxState) : (d.onRx f).lx = d.lx := (rfl)
@[simp] theorem Dev.onRx_rx (f : RxState → RxState) : (d.onRx f).rx = f d.rx := (rfl)
@[simp] theorem Dev.onRx_pc (f : RxState → RxState) : (d.onRx f).pc = d.pc := (rfl)
@[simp] theorem Dev.onRx_fs (f : RxState → RxState) : (d.onRx f).fs = d.fs := (rfl)
@[simp] theorem Dev.onRx_tm (f : RxState → RxState) : (d.onRx f).tm = d.tm := (rfl)
@[simp] theorem Dev.onRx_bp (f : RxState → RxState) : (d.onRx f).bp = d.bp := (rfl)
@[simp] theorem Dev.onRx_ce (f : RxState → RxState) : (d.onRx f).ce = d.ce := (rfl)
@[simp] theorem Dev.onRx_ul (f : RxState → RxState) : (d.onRx f).ul = d.ul := (rfl)
@[simp] theorem Dev.onRx_px (f : RxState → RxState) : (d.onRx f).px = d.px := (rfl)

@[simp] theorem Dev.onPc_regs (f : PcState → PcState) : (d.onPc f).regs = d.regs := (rfl)
@[simp] theorem Dev.onPc_wins (f : PcState → PcState) : (d.onPc f).wins = d.wins := (rfl)
@[simp] theorem Dev.onPc_kicks (f : PcState → PcState) : (d.onPc f).kicks = d.kicks := (rfl)
@[simp] theorem Dev.onPc_free (f : PcState → PcState) : (d.onPc f).free = d.free := (rfl)
@[simp] theorem Dev.onPc_pins (f : PcState → PcState) : (d.onPc f).pins = d.pins := (rfl)
@[simp] theorem Dev.onPc_im (f : PcState → PcState) : (d.onPc f).im = d.im := (rfl)
@[simp] theorem Dev.onPc_tb (f : PcState → PcState) : (d.onPc f).tb = d.tb := (rfl)
@[simp] theorem Dev.onPc_mc (f : PcState → PcState) : (d.onPc f).mc = d.mc := (rfl)
@[simp] theorem Dev.onPc_ob (f : PcState → PcState) : (d.onPc f).ob = d.ob := (rfl)
@[simp] theorem Dev.onPc_lx (f : PcState → PcState) : (d.onPc f).lx = d.lx := (rfl)
@[simp] theorem Dev.onPc_rx (f : PcState → PcState) : (d.onPc f).rx = d.rx := (rfl)
@[simp] theorem Dev.onPc_pc (f : PcState → PcState) : (d.onPc f).pc = f d.pc := (rfl)
@[simp] theorem Dev.onPc_fs (f : PcState → PcState) : (d.onPc f).fs = d.fs := (rfl)
@[simp] theorem Dev.onPc_tm (f : PcState → PcState) : (d.onPc f).tm = d.tm := (rfl)
@[simp] theorem Dev.onPc_bp (f : PcState → PcState) : (d.onPc f).bp = d.bp := (rfl)
@[simp] theorem Dev.onPc_ce (f : PcState → PcState) : (d.onPc f).ce = d.ce := (rfl)
@[simp] theorem Dev.onPc_ul (f : PcState → PcState) : (d.onPc f).ul = d.ul := (rfl)
@[simp] theorem Dev.onPc_px (f : PcState → PcState) : (d.onPc f).px = d.px := (rfl)

@[simp] theorem Dev.onFs_regs (f : FsState → FsState) : (d.onFs f).regs = d.regs := (rfl)
@[simp] theorem Dev.onFs_wins (f : FsState → FsState) : (d.onFs f).wins = d.wins := (rfl)
@[simp] theorem Dev.onFs_kicks (f : FsState → FsState) : (d.onFs f).kicks = d.kicks := (rfl)
@[simp] theorem Dev.onFs_free (f : FsState → FsState) : (d.onFs f).free = d.free := (rfl)
@[simp] theorem Dev.onFs_pins (f : FsState → FsState) : (d.onFs f).pins = d.pins := (rfl)
@[simp] theorem Dev.onFs_im (f : FsState → FsState) : (d.onFs f).im = d.im := (rfl)
@[simp] theorem Dev.onFs_tb (f : FsState → FsState) : (d.onFs f).tb = d.tb := (rfl)
@[simp] theorem Dev.onFs_mc (f : FsState → FsState) : (d.onFs f).mc = d.mc := (rfl)
@[simp] theorem Dev.onFs_ob (f : FsState → FsState) : (d.onFs f).ob = d.ob := (rfl)
@[simp] theorem Dev.onFs_lx (f : FsState → FsState) : (d.onFs f).lx = d.lx := (rfl)
@[simp] theorem Dev.onFs_rx (f : FsState → FsState) : (d.onFs f).rx = d.rx := (rfl)
@[simp] theorem Dev.onFs_pc (f : FsState → FsState) : (d.onFs f).pc = d.pc := (rfl)
@[simp] theorem Dev.onFs_fs (f : FsState → FsState) : (d.onFs f).fs = f d.fs := (rfl)
@[simp] theorem Dev.onFs_tm (f : FsState → FsState) : (d.onFs f).tm = d.tm := (rfl)
@[simp] theorem Dev.onFs_bp (f : FsState → FsState) : (d.onFs f).bp = d.bp := (rfl)
@[simp] theorem Dev.onFs_ce (f : FsState → FsState) : (d.onFs f).ce = d.ce := (rfl)
@[simp] theorem Dev.onFs_ul (f : FsState → FsState) : (d.onFs f).ul = d.ul := (rfl)
@[simp] theorem Dev.onFs_px (f : FsState → FsState) : (d.onFs f).px = d.px := (rfl)

@[simp] theorem Dev.onTm_regs (f : TmState → TmState) : (d.onTm f).regs = d.regs := (rfl)
@[simp] theorem Dev.onTm_wins (f : TmState → TmState) : (d.onTm f).wins = d.wins := (rfl)
@[simp] theorem Dev.onTm_kicks (f : TmState → TmState) : (d.onTm f).kicks = d.kicks := (rfl)
@[simp] theorem Dev.onTm_free (f : TmState → TmState) : (d.onTm f).free = d.free := (rfl)
@[simp] theorem Dev.onTm_pins (f : TmState → TmState) : (d.onTm f).pins = d.pins := (rfl)
@[simp] theorem Dev.onTm_im (f : TmState → TmState) : (d.onTm f).im = d.im := (rfl)
@[simp] theorem Dev.onTm_tb (f : TmState → TmState) : (d.onTm f).tb = d.tb := (rfl)
@[simp] theorem Dev.onTm_mc (f : TmState → TmState) : (d.onTm f).mc = d.mc := (rfl)
@[simp] theorem Dev.onTm_ob (f : TmState → TmState) : (d.onTm f).ob = d.ob := (rfl)
@[simp] theorem Dev.onTm_lx (f : TmState → TmState) : (d.onTm f).lx = d.lx := (rfl)
@[simp] theorem Dev.onTm_rx (f : TmState → TmState) : (d.onTm f).rx = d.rx := (rfl)
@[simp] theorem Dev.onTm_pc (f : TmState → TmState) : (d.onTm f).pc = d.pc := (rfl)
@[simp] theorem Dev.onTm_fs (f : TmState → TmState) : (d.onTm f).fs = d.fs := (rfl)
@[simp] theorem Dev.onTm_tm (f : TmState → TmState) : (d.onTm f).tm = f d.tm := (rfl)
@[simp] theorem Dev.onTm_bp (f : TmState → TmState) : (d.onTm f).bp = d.bp := (rfl)
@[simp] theorem Dev.onTm_ce (f : TmState → TmState) : (d.onTm f).ce = d.ce := (rfl)
@[simp] theorem Dev.onTm_ul (f : TmState → TmState) : (d.onTm f).ul = d.ul := (rfl)
@[simp] theorem Dev.onTm_px (f : TmState → TmState) : (d.onTm f).px = d.px := (rfl)

@[simp] theorem Dev.onBp_regs (f : BpState → BpState) : (d.onBp f).regs = d.regs := (rfl)
@[simp] theorem Dev.onBp_wins (f : BpState → BpState) : (d.onBp f).wins = d.wins := (rfl)
@[simp] theorem Dev.onBp_kicks (f : BpState → BpState) : (d.onBp f).kicks = d.kicks := (rfl)
@[simp] theorem Dev.onBp_free (f : BpState → BpState) : (d.onBp f).free = d.free := (rfl)
@[simp] theorem Dev.onBp_pins (f : BpState → BpState) : (d.onBp f).pins = d.pins := (rfl)
@[simp] theorem Dev.onBp_im (f : BpState → BpState) : (d.onBp f).im = d.im := (rfl)
@[simp] theorem Dev.onBp_tb (f : BpState → BpState) : (d.onBp f).tb = d.tb := (rfl)
@[simp] theorem Dev.onBp_mc (f : BpState → BpState) : (d.onBp f).mc = d.mc := (rfl)
@[simp] theorem Dev.onBp_ob (f : BpState → BpState) : (d.onBp f).ob = d.ob := (rfl)
@[simp] theorem Dev.onBp_lx (f : BpState → BpState) : (d.onBp f).lx = d.lx := (rfl)
@[simp] theorem Dev.onBp_rx (f : BpState → BpState) : (d.onBp f).rx = d.rx := (rfl)
@[simp] theorem Dev.onBp_pc (f : BpState → BpState) : (d.onBp f).pc = d.pc := (rfl)
@[simp] theorem Dev.onBp_fs (f : BpState → BpState) : (d.onBp f).fs = d.fs := (rfl)
@[simp] theorem Dev.onBp_tm (f : BpState → BpState) : (d.onBp f).tm = d.tm := (rfl)
@[simp] theorem Dev.onBp_bp (f : BpState → BpState) : (d.onBp f).bp = f d.bp := (rfl)
@[simp] theorem Dev.onBp_ce (f : BpState → BpState) : (d.onBp f).ce = d.ce := (rfl)
@[simp] theorem Dev.onBp_ul (f : BpState → BpState) : (d.onBp f).ul = d.ul := (rfl)
@[simp] theorem Dev.onBp_px (f : BpState → BpState) : (d.onBp f).px = d.px := (rfl)

@[simp] theorem Dev.onCe_regs (f : CeState → CeState) : (d.onCe f).regs = d.regs := (rfl)
@[simp] theorem Dev.onCe_wins (f : CeState → CeState) : (d.onCe f).wins = d.wins := (rfl)
@[simp] theorem Dev.onCe_kicks (f : CeState → CeState) : (d.onCe f).kicks = d.kicks := (rfl)
@[simp] theorem Dev.onCe_free (f : CeState → CeState) : (d.onCe f).free = d.free := (rfl)
@[simp] theorem Dev.onCe_pins (f : CeState → CeState) : (d.onCe f).pins = d.pins := (rfl)
@[simp] theorem Dev.onCe_im (f : CeState → CeState) : (d.onCe f).im = d.im := (rfl)
@[simp] theorem Dev.onCe_tb (f : CeState → CeState) : (d.onCe f).tb = d.tb := (rfl)
@[simp] theorem Dev.onCe_mc (f : CeState → CeState) : (d.onCe f).mc = d.mc := (rfl)
@[simp] theorem Dev.onCe_ob (f : CeState → CeState) : (d.onCe f).ob = d.ob := (rfl)
@[simp] theorem Dev.onCe_lx (f : CeState → CeState) : (d.onCe f).lx = d.lx := (rfl)
@[simp] theorem Dev.onCe_rx (f : CeState → CeState) : (d.onCe f).rx = d.rx := (rfl)
@[simp] theorem Dev.onCe_pc (f : CeState → CeState) : (d.onCe f).pc = d.pc := (rfl)
@[simp] theorem Dev.onCe_fs (f : CeState → CeState) : (d.onCe f).fs = d.fs := (rfl)
@[simp] theorem Dev.onCe_tm (f : CeState → CeState) : (d.onCe f).tm = d.tm := (rfl)
@[simp] theorem Dev.onCe_bp (f : CeState → CeState) : (d.onCe f).bp = d.bp := (rfl)
@[simp] theorem Dev.onCe_ce (f : CeState → CeState) : (d.onCe f).ce = f d.ce := (rfl)
@[simp] theorem Dev.onCe_ul (f : CeState → CeState) : (d.onCe f).ul = d.ul := (rfl)
@[simp] theorem Dev.onCe_px (f : CeState → CeState) : (d.onCe f).px = d.px := (rfl)

@[simp] theorem Dev.onUl_regs (f : UlState → UlState) : (d.onUl f).regs = d.regs := (rfl)
@[simp] theorem Dev.onUl_wins (f : UlState → UlState) : (d.onUl f).wins = d.wins := (rfl)
@[simp] theorem Dev.onUl_kicks (f : UlState → UlState) : (d.onUl f).kicks = d.kicks := (rfl)
@[simp] theorem Dev.onUl_free (f : UlState → UlState) : (d.onUl f).free = d.free := (rfl)
@[simp] theorem Dev.onUl_pins (f : UlState → UlState) : (d.onUl f).pins = d.pins := (rfl)
@[simp] theorem Dev.onUl_im (f : UlState → UlState) : (d.onUl f).im = d.im := (rfl)
@[simp] theorem Dev.onUl_tb (f : UlState → UlState) : (d.onUl f).tb = d.tb := (rfl)
@[simp] theorem Dev.onUl_mc (f : UlState → UlState) : (d.onUl f).mc = d.mc := (rfl)
@[simp] theorem Dev.onUl_ob (f : UlState → UlState) : (d.onUl f).ob = d.ob := (rfl)
@[simp] theorem Dev.onUl_lx (f : UlState → UlState) : (d.onUl f).lx = d.lx := (rfl)
@[simp] theorem Dev.onUl_rx (f : UlState → UlState) : (d.onUl f).rx = d.rx := (rfl)
@[simp] theorem Dev.onUl_pc (f : UlState → UlState) : (d.onUl f).pc = d.pc := (rfl)
@[simp] theorem Dev.onUl_fs (f : UlState → UlState) : (d.onUl f).fs = d.fs := (rfl)
@[simp] theorem Dev.onUl_tm (f : UlState → UlState) : (d.onUl f).tm = d.tm := (rfl)
@[simp] theorem Dev.onUl_bp (f : UlState → UlState) : (d.onUl f).bp = d.bp := (rfl)
@[simp] theorem Dev.onUl_ce (f : UlState → UlState) : (d.onUl f).ce = d.ce := (rfl)
@[simp] theorem Dev.onUl_ul (f : UlState → UlState) : (d.onUl f).ul = f d.ul := (rfl)
@[simp] theorem Dev.onUl_px (f : UlState → UlState) : (d.onUl f).px = d.px := (rfl)

@[simp] theorem Dev.onPx_regs (f : PxState → PxState) : (d.onPx f).regs = d.regs := (rfl)
@[simp] theorem Dev.onPx_wins (f : PxState → PxState) : (d.onPx f).wins = d.wins := (rfl)
@[simp] theorem Dev.onPx_kicks (f : PxState → PxState) : (d.onPx f).kicks = d.kicks := (rfl)
@[simp] theorem Dev.onPx_free (f : PxState → PxState) : (d.onPx f).free = d.free := (rfl)
@[simp] theorem Dev.onPx_pins (f : PxState → PxState) : (d.onPx f).pins = d.pins := (rfl)
@[simp] theorem Dev.onPx_im (f : PxState → PxState) : (d.onPx f).im = d.im := (rfl)
@[simp] theorem Dev.onPx_tb (f : PxState → PxState) : (d.onPx f).tb = d.tb := (rfl)
@[simp] theorem Dev.onPx_mc (f : PxState → PxState) : (d.onPx f).mc = d.mc := (rfl)
@[simp] theorem Dev.onPx_ob (f : PxState → PxState) : (d.onPx f).ob = d.ob := (rfl)
@[simp] theorem Dev.onPx_lx (f : PxState → PxState) : (d.onPx f).lx = d.lx := (rfl)
@[simp] theorem Dev.onPx_rx (f : PxState → PxState) : (d.onPx f).rx = d.rx := (rfl)
@[simp] theorem Dev.onPx_pc (f : PxState → PxState) : (d.onPx f).pc = d.pc := (rfl)
@[simp] theorem Dev.onPx_fs (f : PxState → PxState) : (d.onPx f).fs = d.fs := (rfl)
@[simp] theorem Dev.onPx_tm (f : PxState → PxState) : (d.onPx f).tm = d.tm := (rfl)
@[simp] theorem Dev.onPx_bp (f : PxState → PxState) : (d.onPx f).bp = d.bp := (rfl)
@[simp] theorem Dev.onPx_ce (f : PxState → PxState) : (d.onPx f).ce = d.ce := (rfl)
@[simp] theorem Dev.onPx_ul (f : PxState → PxState) : (d.onPx f).ul = d.ul := (rfl)
@[simp] theorem Dev.onPx_px (f : PxState → PxState) : (d.onPx f).px = f d.px := (rfl)

@[simp] theorem Dev.setReg_wins (r : Reg) (v : Nat) : (d.setReg r v).wins = d.wins := (rfl)
@[simp] theorem Dev.setReg_kicks (r : Reg) (v : Nat) : (d.setReg r v).kicks = d.kicks := (rfl)
@[simp] theorem Dev.setReg_free (r : Reg) (v : Nat) : (d.setReg r v).free = d.free := (rfl)
@[simp] theorem Dev.setReg_pins (r : Reg) (v : Nat) : (d.setReg r v).pins = d.pins := (rfl)
@[simp] theorem Dev.setReg_im (r : Reg) (v : Nat) : (d.setReg r v).im = d.im := (rfl)
@[simp] theorem Dev.setReg_tb (r : Reg) (v : Nat) : (d.setReg r v).tb = d.tb := (rfl)
@[simp] theorem Dev.setReg_mc (r : Reg) (v : Nat) : (d.setReg r v).mc = d.mc := (rfl)
@[simp] theorem Dev.setReg_ob (r : Reg) (v : Nat) : (d.setReg r v).ob = d.ob := (rfl)
@[simp] theorem Dev.setReg_lx (r : Reg) (v : Nat) : (d.setReg r v).lx = d.lx := (rfl)
@[simp] theorem Dev.setReg_rx (r : Reg) (v : Nat) : (d.setReg r v).rx = d.rx := (rfl)
@[simp] theorem Dev.setReg_pc (r : Reg) (v : Nat) : (d.setReg r v).pc = d.pc := (rfl)
@[simp] theorem Dev.setReg_fs (r : Reg) (v : Nat) : (d.setReg r v).fs = d.fs := (rfl)
@[simp] theorem Dev.setReg_tm (r : Reg) (v : Nat) : (d.setReg r v).tm = d.tm := (rfl)
@[simp] theorem Dev.setReg_bp (r : Reg) (v : Nat) : (d.setReg r v).bp = d.bp := (rfl)
@[simp] theorem Dev.setReg_ce (r : Reg) (v : Nat) : (d.setReg r v).ce = d.ce := (rfl)
@[simp] theorem Dev.setReg_ul (r : Reg) (v : Nat) : (d.setReg r v).ul = d.ul := (rfl)
@[simp] theorem Dev.setReg_px (r : Reg) (v : Nat) : (d.setReg r v).px = d.px := (rfl)

@[simp] theorem Dev.setFld_wins (r : Reg) (hi lo v : Nat) : (d.setFld r hi lo v).wins = d.wins := (rfl)
@[simp] theorem Dev.setFld_kicks (r : Reg) (hi lo v : Nat) : (d.setFld r hi lo v).kicks = d.kicks := (rfl)
@[simp] theorem Dev.setFld_free (r : Reg) (hi lo v : Nat) : (d.setFld r hi lo v).free = d.free := (rfl)
@[simp] theorem Dev.setFld_pins (r : Reg) (hi lo v : Nat) : (d.setFld r hi lo v).pins = d.pins := (rfl)
@[simp] theorem Dev.setFld_im (r : Reg) (hi lo v : Nat) : (d.setFld r hi lo v).im = d.im := (rfl)
@[simp] theorem Dev.setFld_tb (r : Reg) (hi lo v : Nat) : (d.setFld r hi lo v).tb = d.tb := (rfl)
@[simp] theorem Dev.setFld_mc (r : Reg) (hi lo v : Nat) : (d.setFld r hi lo v).mc = d.mc := (rfl)
@[simp] theorem Dev.setFld_ob (r : Reg) (hi lo v : Nat) : (d.setFld r hi lo v).ob = d.ob := (rfl)
@[simp] theorem Dev.setFld_lx (r : Reg) (hi lo v : Nat) : (d.setFld r hi lo v).lx = d.lx := (rfl)
@[simp] theorem Dev.setFld_rx (r : Reg) (hi lo v : Nat) : (d.setFld r hi lo v).rx = d.rx := (rfl)
@[simp] theorem Dev.setFld_pc (r : Reg) (hi lo v : Nat) : (d.setFld r hi lo v).pc = d.pc := (rfl)
@[simp] theorem Dev.setFld_fs (r : Reg) (hi lo v : Nat) : (d.setFld r hi lo v).fs = d.fs := (rfl)
@[simp] theorem Dev.setFld_tm (r : Reg) (hi lo v : Nat) : (d.setFld r hi lo v).tm = d.tm := (rfl)
@[simp] theorem Dev.setFld_bp (r : Reg) (hi lo v : Nat) : (d.setFld r hi lo v).bp = d.bp := (rfl)
@[simp] theorem Dev.setFld_ce (r : Reg) (hi lo v : Nat) : (d.setFld r hi lo v).ce = d.ce := (rfl)
@[simp] theorem Dev.setFld_ul (r : Reg) (hi lo v : Nat) : (d.setFld r hi lo v).ul = d.ul := (rfl)
@[simp] theorem Dev.setFld_px (r : Reg) (hi lo v : Nat) : (d.setFld r hi lo v).px = d.px := (rfl)

@[simp] theorem Dev.resetReg_wins (r : Reg) : (d.resetReg r).wins = d.wins := (rfl)
@[simp] theorem Dev.resetReg_kicks (r : Reg) : (d.resetReg r).kicks = d.kicks := (rfl)
@[simp] theorem Dev.resetReg_free (r : Reg) : (d.resetReg r).free = d.free := (rfl)
@[simp] theorem Dev.resetReg_pins (r : Reg) : (d.resetReg r).pins = d.pins := (rfl)
@[simp] theorem Dev.resetReg_im (r : Reg) : (d.resetReg r).im = d.im := (rfl)
@[simp] theorem Dev.resetReg_tb (r : Reg) : (d.resetReg r).tb = d.tb := (rfl)
@[simp] theorem Dev.resetReg_mc (r : Reg) : (d.resetReg r).mc = d.mc := (rfl)
@[simp] theorem Dev.resetReg_ob (r : Reg) : (d.resetReg r).ob = d.ob := (rfl)
@[simp] theorem Dev.resetReg_lx (r : Reg) : (d.resetReg r).lx = d.lx := (rfl)
@[simp] theorem Dev.resetReg_rx (r : Reg) : (d.resetReg r).rx = d.rx := (rfl)
@[simp] theorem Dev.resetReg_pc (r : Reg) : (d.resetReg r).pc = d.pc := (rfl)
@[simp] theorem Dev.resetReg_fs (r : Reg) : (d.resetReg r).fs = d.fs := (rfl)
@[simp] theorem Dev.resetReg_tm (r : Reg) : (d.resetReg r).tm = d.tm := (rfl)
@[simp] theorem Dev.resetReg_bp (r : Reg) : (d.resetReg r).bp = d.bp := (rfl)
@[simp] theorem Dev.resetReg_ce (r : Reg) : (d.resetReg r).ce = d.ce := (rfl)
@[simp] theorem Dev.resetReg_ul (r : Reg) : (d.resetReg r).ul = d.ul := (rfl)
@[simp] theorem Dev.resetReg_px (r : Reg) : (d.resetReg r).px = d.px := (rfl)

@[simp] theorem Dev.onWin_regs (w : Win) (f : Window → Window) : (d.onWin w f).regs = d.regs := (rfl)
@[simp] theorem Dev.onWin_kicks (w : Win) (f : Window → Window) : (d.onWin w f).kicks = d.kicks := (rfl)
@[simp] theorem Dev.onWin_free (w : Win) (f : Window → Window) : (d.onWin w f).free = d.free := (rfl)
@[simp] theorem Dev.onWin_pins (w : Win) (f : Window → Window) : (d.onWin w f).pins = d.pins := (rfl)
@[simp] theorem Dev.onWin_im (w : Win) (f : Window → Window) : (d.onWin w f).im = d.im := (rfl)
@[simp] theorem Dev.onWin_tb (w : Win) (f : Window → Window) : (d.onWin w f).tb = d.tb := (rfl)
@[simp] theorem Dev.onWin_mc (w : Win) (f : Window → Window) : (d.onWin w f).mc = d.mc := (rfl)
@[simp] theorem Dev.onWin_ob (w : Win) (f : Window → Window) : (d.onWin w f).ob = d.ob := (rfl)
@[simp] theorem Dev.onWin_lx (w : Win) (f : Window → Window) : (d.onWin w f).lx = d.lx := (rfl)
@[simp] theorem Dev.onWin_rx (w : Win) (f : Window → Window) : (d.onWin w f).rx = d.rx := (rfl)
@[simp] theorem Dev.onWin_pc (w : Win) (f : Window → Window) : (d.onWin w f).pc = d.pc := (rfl)
@[simp] theorem Dev.onWin_fs (w : Win) (f : Window → Window) : (d.onWin w f).fs = d.fs := (rfl)
@[simp] theorem Dev.onWin_tm (w : Win) (f : Window → Window) : (d.onWin w f).tm = d.tm := (rfl)
@[simp] theorem Dev.onWin_bp (w : Win) (f : Window → Window) : (d.onWin w f).bp = d.bp := (rfl)
@[simp] theorem Dev.onWin_ce (w : Win) (f : Window → Window) : (d.onWin w f).ce = d.ce := (rfl)
@[simp] theorem Dev.onWin_ul (w : Win) (f : Window → Window) : (d.onWin w f).ul = d.ul := (rfl)
@[simp] theorem Dev.onWin_px (w : Win) (f : Window → Window) : (d.onWin w f).px = d.px := (rfl)

@[simp] theorem Dev.onReach_regs (r : Nat) (f : Reach → Reach) : (d.onReach r f).regs = d.regs := (rfl)
@[simp] theorem Dev.onReach_wins (r : Nat) (f : Reach → Reach) : (d.onReach r f).wins = d.wins := (rfl)
@[simp] theorem Dev.onReach_kicks (r : Nat) (f : Reach → Reach) : (d.onReach r f).kicks = d.kicks := (rfl)
@[simp] theorem Dev.onReach_free (r : Nat) (f : Reach → Reach) : (d.onReach r f).free = d.free := (rfl)
@[simp] theorem Dev.onReach_pins (r : Nat) (f : Reach → Reach) : (d.onReach r f).pins = d.pins := (rfl)
@[simp] theorem Dev.onReach_tb (r : Nat) (f : Reach → Reach) : (d.onReach r f).tb = d.tb := (rfl)
@[simp] theorem Dev.onReach_mc (r : Nat) (f : Reach → Reach) : (d.onReach r f).mc = d.mc := (rfl)
@[simp] theorem Dev.onReach_ob (r : Nat) (f : Reach → Reach) : (d.onReach r f).ob = d.ob := (rfl)
@[simp] theorem Dev.onReach_lx (r : Nat) (f : Reach → Reach) : (d.onReach r f).lx = d.lx := (rfl)
@[simp] theorem Dev.onReach_rx (r : Nat) (f : Reach → Reach) : (d.onReach r f).rx = d.rx := (rfl)
@[simp] theorem Dev.onReach_pc (r : Nat) (f : Reach → Reach) : (d.onReach r f).pc = d.pc := (rfl)
@[simp] theorem Dev.onReach_fs (r : Nat) (f : Reach → Reach) : (d.onReach r f).fs = d.fs := (rfl)
@[simp] theorem Dev.onReach_tm (r : Nat) (f : Reach → Reach) : (d.onReach r f).tm = d.tm := (rfl)
@[simp] theorem Dev.onReach_bp (r : Nat) (f : Reach → Reach) : (d.onReach r f).bp = d.bp := (rfl)
@[simp] theorem Dev.onReach_ce (r : Nat) (f : Reach → Reach) : (d.onReach r f).ce = d.ce := (rfl)
@[simp] theorem Dev.onReach_ul (r : Nat) (f : Reach → Reach) : (d.onReach r f).ul = d.ul := (rfl)
@[simp] theorem Dev.onReach_px (r : Nat) (f : Reach → Reach) : (d.onReach r f).px = d.px := (rfl)

@[simp] theorem Dev.respond_regs (c : Completion) : (d.respond c).regs = d.regs := (rfl)
@[simp] theorem Dev.respond_wins (c : Completion) : (d.respond c).wins = d.wins := (rfl)
@[simp] theorem Dev.respond_kicks (c : Completion) : (d.respond c).kicks = d.kicks := (rfl)
@[simp] theorem Dev.respond_free (c : Completion) : (d.respond c).free = d.free := (rfl)
@[simp] theorem Dev.respond_pins (c : Completion) : (d.respond c).pins = d.pins := (rfl)
@[simp] theorem Dev.respond_im (c : Completion) : (d.respond c).im = d.im := (rfl)
@[simp] theorem Dev.respond_tb (c : Completion) : (d.respond c).tb = d.tb := (rfl)
@[simp] theorem Dev.respond_ob (c : Completion) : (d.respond c).ob = d.ob := (rfl)
@[simp] theorem Dev.respond_lx (c : Completion) : (d.respond c).lx = d.lx := (rfl)
@[simp] theorem Dev.respond_rx (c : Completion) : (d.respond c).rx = d.rx := (rfl)
@[simp] theorem Dev.respond_pc (c : Completion) : (d.respond c).pc = d.pc := (rfl)
@[simp] theorem Dev.respond_fs (c : Completion) : (d.respond c).fs = d.fs := (rfl)
@[simp] theorem Dev.respond_tm (c : Completion) : (d.respond c).tm = d.tm := (rfl)
@[simp] theorem Dev.respond_bp (c : Completion) : (d.respond c).bp = d.bp := (rfl)
@[simp] theorem Dev.respond_ce (c : Completion) : (d.respond c).ce = d.ce := (rfl)
@[simp] theorem Dev.respond_ul (c : Completion) : (d.respond c).ul = d.ul := (rfl)
@[simp] theorem Dev.respond_px (c : Completion) : (d.respond c).px = d.px := (rfl)
@[simp] theorem Dev.respond_completion (c : Completion) : (d.respond c).mc.completion = some c := (rfl)

end

/-! ### Registers -/

theorem Dev.reg_def (d : Dev) (r : Reg) : d.reg r = match d.regs.get? r.addr with | some v => v.toNat | none => r.reset := rfl

/-- Registers of two devices with one register file. -/
theorem Dev.reg_congr {d d' : Dev} (h : d'.regs = d.regs) (r : Reg) : d'.reg r = d.reg r := by simp [Dev.reg_def, h]

/-- A register after a write of it: the value's low 32 bits. -/
theorem Dev.reg_setReg (d : Dev) (r : Reg) (v : Nat) (h : r.reset < 2 ^ 32) : (d.setReg r v).reg r = v % 2 ^ 32 := by
  simp only [Dev.reg_def, Dev.setReg, Table.get?_put, if_true]
  split
  · rename_i w hw
    split at hw
    · cases hw
    · cases hw; simp
  · rename_i hw
    split at hw
    · rename_i hv
      have := congrArg BitVec.toNat hv
      simp only [BitVec.toNat_ofNat] at this
      omega
    · cases hw

/-- Every register's value after PORST_N has 32 bits (R7). -/
theorem Reg.reset_lt (r : Reg) : r.reset < 2 ^ 32 := by
  obtain ⟨n, i, j⟩ := r
  cases n <;> simp only [Reg.reset] <;> (try split) <;> (try split) <;> decide

/-- A register holds 32 bits (R7). -/
theorem Dev.reg_lt (d : Dev) (r : Reg) : d.reg r < 2 ^ 32 := by
  rw [Dev.reg_def]
  split
  · exact BitVec.isLt _
  · exact r.reset_lt

/-- A register after a field of it is written. -/
theorem Dev.reg_setFld (d : Dev) (r : Reg) (hi lo v : Nat) (hh : hi < 32) (hl : lo ≤ hi + 1) :
    (d.setFld r hi lo v).reg r = putBits (d.reg r) hi lo v := by
  rw [Dev.setFld, Dev.reg_setReg _ _ _ r.reset_lt, Nat.mod_eq_of_lt (putBits_lt (d.reg_lt r) hh hl)]

/-- A field written reads as written. -/
theorem Dev.fld_setFld (d : Dev) (r : Reg) (hi lo v : Nat) (hh : hi < 32) (hl : lo ≤ hi + 1) :
    (d.setFld r hi lo v).fld r hi lo = v % 2 ^ (hi + 1 - lo) := by
  rw [Dev.fld, Dev.reg_setFld _ _ _ _ _ hh hl, bits_putBits_self _ _ _ _ hl]

/-- A field beside the one written is as before. -/
theorem Dev.fld_setFld_ne (d : Dev) (r : Reg) (hi lo v hi' lo' : Nat) (hh : hi < 32) (hl : lo ≤ hi + 1) (h : hi' < lo ∨ hi < lo') :
    (d.setFld r hi lo v).fld r hi' lo' = d.fld r hi' lo' := by
  rw [Dev.fld, Dev.fld, Dev.reg_setFld _ _ _ _ _ hh hl, bits_putBits_ne _ _ _ _ _ _ hl h]

/-- A flag set reads 1. -/
theorem Dev.flag_setFld (d : Dev) (r : Reg) (b : Nat) (hb : b < 32) : (d.setFld r b b 1).flag r b = true := by
  rw [Dev.flag, Dev.reg_setFld _ _ _ _ _ hb (by omega), bit_putBits_self]

/-- A bit beside the field written is as before. -/
theorem Dev.flag_setFld_ne (d : Dev) (r : Reg) (hi lo v i : Nat) (hh : hi < 32) (hl : lo ≤ hi + 1) (h : i < lo ∨ hi < i) :
    (d.setFld r hi lo v).flag r i = d.flag r i := by
  rw [Dev.flag, Dev.flag, Dev.reg_setFld _ _ _ _ _ hh hl, bit_putBits_ne _ _ _ _ _ hl h]

/-- A register after a write of another. -/
theorem Dev.reg_setReg_ne (d : Dev) (r r' : Reg) (v : Nat) (h : r.addr ≠ r'.addr) : (d.setReg r v).reg r' = d.reg r' := by
  simp [Dev.reg_def, Dev.setReg, Table.get?_put, h]

theorem Dev.get?_setReg_ne (d : Dev) (r : Reg) (v a : Nat) (h : r.addr ≠ a) : (d.setReg r v).regs.get? a = d.regs.get? a := by
  simp [Dev.setReg, Table.get?_put, h]

theorem Dev.reg_setFld_ne (d : Dev) (r r' : Reg) (hi lo v : Nat) (h : r.addr ≠ r'.addr) :
    (d.setFld r hi lo v).reg r' = d.reg r' := Dev.reg_setReg_ne d r r' _ h

theorem Dev.get?_setFld_ne (d : Dev) (r : Reg) (hi lo v a : Nat) (h : r.addr ≠ a) :
    (d.setFld r hi lo v).regs.get? a = d.regs.get? a := Dev.get?_setReg_ne d r _ a h

@[simp] theorem Dev.onTb_reg (d : Dev) (f : TbState → TbState) (r : Reg) : (d.onTb f).reg r = d.reg r := (rfl)
@[simp] theorem Dev.onMc_reg (d : Dev) (f : McState → McState) (r : Reg) : (d.onMc f).reg r = d.reg r := (rfl)
@[simp] theorem Dev.onOb_reg (d : Dev) (f : ObState → ObState) (r : Reg) : (d.onOb f).reg r = d.reg r := (rfl)
@[simp] theorem Dev.onIm_reg (d : Dev) (f : ImState → ImState) (r : Reg) : (d.onIm f).reg r = d.reg r := (rfl)
@[simp] theorem Dev.onLx_reg (d : Dev) (f : LxState → LxState) (r : Reg) : (d.onLx f).reg r = d.reg r := (rfl)
@[simp] theorem Dev.onRx_reg (d : Dev) (f : RxState → RxState) (r : Reg) : (d.onRx f).reg r = d.reg r := (rfl)
@[simp] theorem Dev.onPc_reg (d : Dev) (f : PcState → PcState) (r : Reg) : (d.onPc f).reg r = d.reg r := (rfl)
@[simp] theorem Dev.onFs_reg (d : Dev) (f : FsState → FsState) (r : Reg) : (d.onFs f).reg r = d.reg r := (rfl)
@[simp] theorem Dev.onTm_reg (d : Dev) (f : TmState → TmState) (r : Reg) : (d.onTm f).reg r = d.reg r := (rfl)
@[simp] theorem Dev.onBp_reg (d : Dev) (f : BpState → BpState) (r : Reg) : (d.onBp f).reg r = d.reg r := (rfl)
@[simp] theorem Dev.onCe_reg (d : Dev) (f : CeState → CeState) (r : Reg) : (d.onCe f).reg r = d.reg r := (rfl)
@[simp] theorem Dev.onUl_reg (d : Dev) (f : UlState → UlState) (r : Reg) : (d.onUl f).reg r = d.reg r := (rfl)
@[simp] theorem Dev.onPx_reg (d : Dev) (f : PxState → PxState) (r : Reg) : (d.onPx f).reg r = d.reg r := (rfl)
@[simp] theorem Dev.onWin_reg (d : Dev) (w : Win) (f : Window → Window) (r : Reg) : (d.onWin w f).reg r = d.reg r := (rfl)
@[simp] theorem Dev.respond_reg (d : Dev) (c : Completion) (r : Reg) : (d.respond c).reg r = d.reg r := (rfl)

/-! ### Windows -/

@[simp] theorem Dev.win_onWin (d : Dev) (w : Win) (f : Window → Window) : (d.onWin w f).win w = f (d.win w) := by
  simp [Dev.win, Dev.onWin]

@[simp] theorem Dev.onWin_onWin (d : Dev) (w : Win) (f g : Window → Window) :
    (d.onWin w f).onWin w g = d.onWin w fun x => g (f x) := by
  simp [Dev.onWin, Dev.win]

theorem Dev.win_congr {d d' : Dev} (h : d'.wins = d.wins) (w : Win) : d'.win w = d.win w := by simp [Dev.win, h]

@[simp] theorem Window.bank_onBank (x : Window) (k : Nat) (f : Bank → Bank) : (x.onBank k f).bank k = f (x.bank k) := by
  simp [Window.bank, Window.onBank]

theorem Window.bank_onBank_ne (x : Window) (j k : Nat) (f : Bank → Bank) (h : j ≠ k) : (x.onBank j f).bank k = x.bank k := by
  simp [Window.bank, Window.onBank, h]

@[simp] theorem Window.onBank_onBank (x : Window) (k : Nat) (f g : Bank → Bank) :
    (x.onBank k f).onBank k g = x.onBank k fun b => g (f b) := by
  simp [Window.onBank, Window.bank]

@[simp] theorem Window.onBank_queue (x : Window) (k : Nat) (f : Bank → Bank) : (x.onBank k f).queue = x.queue := rfl
@[simp] theorem Window.onBank_waiting (x : Window) (k : Nat) (f : Bank → Bank) : (x.onBank k f).waiting = x.waiting := rfl

end Sys2Proof.Machine
end

