-- ==== Sys2Proof/Laws/Report.lean ====
section
/-! SUPPORT. What reports change: flags, event counters and records touch the register file and the observability block alone. -/

section
set_option Elab.async false

namespace Sys2Proof.Machine

open Sys2Proof.Safety (obAddr reportAddr)

/-- A projection that every step of a fold keeps is kept by the fold. -/
theorem foldl_keeps {α β γ : Type} (proj : α → γ) (f : α → β → α) (h : ∀ a b, proj (f a b) = proj a) (l : List β) (a : α) :
    proj (l.foldl f a) = proj a := by
  induction l generalizing a with
  | nil => rfl
  | cons b l ih => simp only [List.foldl_cons, ih, h]

/-- As `foldl_keeps`, where the step keeps it for the elements of the list. -/
theorem foldl_keeps_mem {α β γ : Type} (proj : α → γ) (f : α → β → α) (l : List β) (a : α)
    (h : ∀ a, ∀ b ∈ l, proj (f a b) = proj a) : proj (l.foldl f a) = proj a := by
  induction l generalizing a with
  | nil => rfl
  | cons b l ih =>
    simp only [List.foldl_cons]
    rw [ih _ fun a b hb => h a b (List.mem_cons_of_mem _ hb), h a b (List.mem_cons_self ..)]

/-- A projection that every step of `upTo` keeps is kept. -/
theorem upTo_keeps {α γ : Type} (proj : α → γ) (n : Nat) (f : Nat → α → α) (h : ∀ i a, proj (f i a) = proj a) (a : α) :
    proj (upTo n a f) = proj a := foldl_keeps proj _ (fun a i => h i a) _ a

section

variable (d : Dev)

@[simp] theorem Dev.cntAdd_wins (e n : Nat) : (d.cntAdd e n).1.wins = d.wins := by unfold Dev.cntAdd; split <;> rfl
@[simp] theorem Dev.cntAdd_kicks (e n : Nat) : (d.cntAdd e n).1.kicks = d.kicks := by unfold Dev.cntAdd; split <;> rfl
@[simp] theorem Dev.cntAdd_free (e n : Nat) : (d.cntAdd e n).1.free = d.free := by unfold Dev.cntAdd; split <;> rfl
@[simp] theorem Dev.cntAdd_pins (e n : Nat) : (d.cntAdd e n).1.pins = d.pins := by unfold Dev.cntAdd; split <;> rfl
@[simp] theorem Dev.cntAdd_im (e n : Nat) : (d.cntAdd e n).1.im = d.im := by unfold Dev.cntAdd; split <;> rfl
@[simp] theorem Dev.cntAdd_tb (e n : Nat) : (d.cntAdd e n).1.tb = d.tb := by unfold Dev.cntAdd; split <;> rfl
@[simp] theorem Dev.cntAdd_mc (e n : Nat) : (d.cntAdd e n).1.mc = d.mc := by unfold Dev.cntAdd; split <;> rfl
@[simp] theorem Dev.cntAdd_lx (e n : Nat) : (d.cntAdd e n).1.lx = d.lx := by unfold Dev.cntAdd; split <;> rfl
@[simp] theorem Dev.cntAdd_rx (e n : Nat) : (d.cntAdd e n).1.rx = d.rx := by unfold Dev.cntAdd; split <;> rfl
@[simp] theorem Dev.cntAdd_pc (e n : Nat) : (d.cntAdd e n).1.pc = d.pc := by unfold Dev.cntAdd; split <;> rfl
@[simp] theorem Dev.cntAdd_fs (e n : Nat) : (d.cntAdd e n).1.fs = d.fs := by unfold Dev.cntAdd; split <;> rfl
@[simp] theorem Dev.cntAdd_tm (e n : Nat) : (d.cntAdd e n).1.tm = d.tm := by unfold Dev.cntAdd; split <;> rfl
@[simp] theorem Dev.cntAdd_bp (e n : Nat) : (d.cntAdd e n).1.bp = d.bp := by unfold Dev.cntAdd; split <;> rfl
@[simp] theorem Dev.cntAdd_ce (e n : Nat) : (d.cntAdd e n).1.ce = d.ce := by unfold Dev.cntAdd; split <;> rfl
@[simp] theorem Dev.cntAdd_ul (e n : Nat) : (d.cntAdd e n).1.ul = d.ul := by unfold Dev.cntAdd; split <;> rfl
@[simp] theorem Dev.cntAdd_px (e n : Nat) : (d.cntAdd e n).1.px = d.px := by unfold Dev.cntAdd; split <;> rfl
@[simp] theorem Dev.cntAdd_regs (e n : Nat) : (d.cntAdd e n).1.regs = d.regs := by unfold Dev.cntAdd; split <;> rfl
@[simp] theorem Dev.cntAdd_ob (e n : Nat) : (d.cntAdd e n).1.ob.sansCnt = d.ob.sansCnt := by unfold Dev.cntAdd; split <;> rfl

@[simp] theorem Dev.pcntGrow_wins (k n : Nat) : (d.pcntGrow k n).wins = d.wins := by unfold Dev.pcntGrow; extract_lets; split <;> (try simp only [Dev.setFld_wins]) <;> exact d.onOb_wins _
@[simp] theorem Dev.pcntGrow_kicks (k n : Nat) : (d.pcntGrow k n).kicks = d.kicks := by unfold Dev.pcntGrow; extract_lets; split <;> (try simp only [Dev.setFld_kicks]) <;> exact d.onOb_kicks _
@[simp] theorem Dev.pcntGrow_free (k n : Nat) : (d.pcntGrow k n).free = d.free := by unfold Dev.pcntGrow; extract_lets; split <;> (try simp only [Dev.setFld_free]) <;> exact d.onOb_free _
@[simp] theorem Dev.pcntGrow_pins (k n : Nat) : (d.pcntGrow k n).pins = d.pins := by unfold Dev.pcntGrow; extract_lets; split <;> (try simp only [Dev.setFld_pins]) <;> exact d.onOb_pins _
@[simp] theorem Dev.pcntGrow_im (k n : Nat) : (d.pcntGrow k n).im = d.im := by unfold Dev.pcntGrow; extract_lets; split <;> (try simp only [Dev.setFld_im]) <;> exact d.onOb_im _
@[simp] theorem Dev.pcntGrow_tb (k n : Nat) : (d.pcntGrow k n).tb = d.tb := by unfold Dev.pcntGrow; extract_lets; split <;> (try simp only [Dev.setFld_tb]) <;> exact d.onOb_tb _
@[simp] theorem Dev.pcntGrow_mc (k n : Nat) : (d.pcntGrow k n).mc = d.mc := by unfold Dev.pcntGrow; extract_lets; split <;> (try simp only [Dev.setFld_mc]) <;> exact d.onOb_mc _
@[simp] theorem Dev.pcntGrow_lx (k n : Nat) : (d.pcntGrow k n).lx = d.lx := by unfold Dev.pcntGrow; extract_lets; split <;> (try simp only [Dev.setFld_lx]) <;> exact d.onOb_lx _
@[simp] theorem Dev.pcntGrow_rx (k n : Nat) : (d.pcntGrow k n).rx = d.rx := by unfold Dev.pcntGrow; extract_lets; split <;> (try simp only [Dev.setFld_rx]) <;> exact d.onOb_rx _
@[simp] theorem Dev.pcntGrow_pc (k n : Nat) : (d.pcntGrow k n).pc = d.pc := by unfold Dev.pcntGrow; extract_lets; split <;> (try simp only [Dev.setFld_pc]) <;> exact d.onOb_pc _
@[simp] theorem Dev.pcntGrow_fs (k n : Nat) : (d.pcntGrow k n).fs = d.fs := by unfold Dev.pcntGrow; extract_lets; split <;> (try simp only [Dev.setFld_fs]) <;> exact d.onOb_fs _
@[simp] theorem Dev.pcntGrow_tm (k n : Nat) : (d.pcntGrow k n).tm = d.tm := by unfold Dev.pcntGrow; extract_lets; split <;> (try simp only [Dev.setFld_tm]) <;> exact d.onOb_tm _
@[simp] theorem Dev.pcntGrow_bp (k n : Nat) : (d.pcntGrow k n).bp = d.bp := by unfold Dev.pcntGrow; extract_lets; split <;> (try simp only [Dev.setFld_bp]) <;> exact d.onOb_bp _
@[simp] theorem Dev.pcntGrow_ce (k n : Nat) : (d.pcntGrow k n).ce = d.ce := by unfold Dev.pcntGrow; extract_lets; split <;> (try simp only [Dev.setFld_ce]) <;> exact d.onOb_ce _
@[simp] theorem Dev.pcntGrow_ul (k n : Nat) : (d.pcntGrow k n).ul = d.ul := by unfold Dev.pcntGrow; extract_lets; split <;> (try simp only [Dev.setFld_ul]) <;> exact d.onOb_ul _
@[simp] theorem Dev.pcntGrow_px (k n : Nat) : (d.pcntGrow k n).px = d.px := by unfold Dev.pcntGrow; extract_lets; split <;> (try simp only [Dev.setFld_px]) <;> exact d.onOb_px _
@[simp] theorem Dev.pcntGrow_ob (k n : Nat) : (d.pcntGrow k n).ob.sansCnt = d.ob.sansCnt := by unfold Dev.pcntGrow; extract_lets; split <;> (try simp only [Dev.setFld_ob]) <;> rfl

@[simp] theorem Dev.pcntAdd_wins (e n m : Nat) : (d.pcntAdd e n m).wins = d.wins := by
  rw [Dev.pcntAdd]; exact foldl_keeps (·.wins) _ (fun d _ => d.pcntGrow_wins _ _) _ d
@[simp] theorem Dev.pcntAdd_kicks (e n m : Nat) : (d.pcntAdd e n m).kicks = d.kicks := by
  rw [Dev.pcntAdd]; exact foldl_keeps (·.kicks) _ (fun d _ => d.pcntGrow_kicks _ _) _ d
@[simp] theorem Dev.pcntAdd_free (e n m : Nat) : (d.pcntAdd e n m).free = d.free := by
  rw [Dev.pcntAdd]; exact foldl_keeps (·.free) _ (fun d _ => d.pcntGrow_free _ _) _ d
@[simp] theorem Dev.pcntAdd_pins (e n m : Nat) : (d.pcntAdd e n m).pins = d.pins := by
  rw [Dev.pcntAdd]; exact foldl_keeps (·.pins) _ (fun d _ => d.pcntGrow_pins _ _) _ d
@[simp] theorem Dev.pcntAdd_im (e n m : Nat) : (d.pcntAdd e n m).im = d.im := by
  rw [Dev.pcntAdd]; exact foldl_keeps (·.im) _ (fun d _ => d.pcntGrow_im _ _) _ d
@[simp] theorem Dev.pcntAdd_tb (e n m : Nat) : (d.pcntAdd e n m).tb = d.tb := by
  rw [Dev.pcntAdd]; exact foldl_keeps (·.tb) _ (fun d _ => d.pcntGrow_tb _ _) _ d
@[simp] theorem Dev.pcntAdd_mc (e n m : Nat) : (d.pcntAdd e n m).mc = d.mc := by
  rw [Dev.pcntAdd]; exact foldl_keeps (·.mc) _ (fun d _ => d.pcntGrow_mc _ _) _ d
@[simp] theorem Dev.pcntAdd_lx (e n m : Nat) : (d.pcntAdd e n m).lx = d.lx := by
  rw [Dev.pcntAdd]; exact foldl_keeps (·.lx) _ (fun d _ => d.pcntGrow_lx _ _) _ d
@[simp] theorem Dev.pcntAdd_rx (e n m : Nat) : (d.pcntAdd e n m).rx = d.rx := by
  rw [Dev.pcntAdd]; exact foldl_keeps (·.rx) _ (fun d _ => d.pcntGrow_rx _ _) _ d
@[simp] theorem Dev.pcntAdd_pc (e n m : Nat) : (d.pcntAdd e n m).pc = d.pc := by
  rw [Dev.pcntAdd]; exact foldl_keeps (·.pc) _ (fun d _ => d.pcntGrow_pc _ _) _ d
@[simp] theorem Dev.pcntAdd_fs (e n m : Nat) : (d.pcntAdd e n m).fs = d.fs := by
  rw [Dev.pcntAdd]; exact foldl_keeps (·.fs) _ (fun d _ => d.pcntGrow_fs _ _) _ d
@[simp] theorem Dev.pcntAdd_tm (e n m : Nat) : (d.pcntAdd e n m).tm = d.tm := by
  rw [Dev.pcntAdd]; exact foldl_keeps (·.tm) _ (fun d _ => d.pcntGrow_tm _ _) _ d
@[simp] theorem Dev.pcntAdd_bp (e n m : Nat) : (d.pcntAdd e n m).bp = d.bp := by
  rw [Dev.pcntAdd]; exact foldl_keeps (·.bp) _ (fun d _ => d.pcntGrow_bp _ _) _ d
@[simp] theorem Dev.pcntAdd_ce (e n m : Nat) : (d.pcntAdd e n m).ce = d.ce := by
  rw [Dev.pcntAdd]; exact foldl_keeps (·.ce) _ (fun d _ => d.pcntGrow_ce _ _) _ d
@[simp] theorem Dev.pcntAdd_ul (e n m : Nat) : (d.pcntAdd e n m).ul = d.ul := by
  rw [Dev.pcntAdd]; exact foldl_keeps (·.ul) _ (fun d _ => d.pcntGrow_ul _ _) _ d
@[simp] theorem Dev.pcntAdd_px (e n m : Nat) : (d.pcntAdd e n m).px = d.px := by
  rw [Dev.pcntAdd]; exact foldl_keeps (·.px) _ (fun d _ => d.pcntGrow_px _ _) _ d
@[simp] theorem Dev.pcntAdd_ob (e n m : Nat) : (d.pcntAdd e n m).ob.sansCnt = d.ob.sansCnt := by
  rw [Dev.pcntAdd]; exact foldl_keeps (·.ob.sansCnt) _ (fun d _ => d.pcntGrow_ob _ _) _ d

/-- A counter that grows leaves every register outside observability as it was. -/
theorem Dev.pcntGrow_get? (k n a : Nat) (hk : k < 64) (h : obAddr a = false) : (d.pcntGrow k n).regs.get? a = d.regs.get? a := by
  simp only [obAddr, decide_eq_false_iff_not] at h
  have h1 : (R .OB_PCNT_CFG k).addr ≠ a := by
    show 0x100200 + 4 * k ≠ a
    omega
  have h2 : (R .OB_FLAGS).addr ≠ a := by
    show 0x100010 ≠ a
    omega
  unfold Dev.pcntGrow
  extract_lets
  split <;> (try simp only [Dev.get?_setFld_ne _ _ _ _ _ _ h2, Dev.get?_setFld_ne _ _ _ _ _ _ h1]) <;> rfl

theorem Dev.pcntAdd_get? (e n m a : Nat) (h : obAddr a = false) : (d.pcntAdd e n m).regs.get? a = d.regs.get? a := by
  rw [Dev.pcntAdd]
  refine foldl_keeps_mem (·.regs.get? a) _ _ d fun d kv hkv => ?_
  simp only [List.mem_filter, pcntHit, Bool.and_eq_true, decide_eq_true_eq] at hkv
  exact d.pcntGrow_get? _ _ a (by omega) h

@[simp] theorem Dev.countBy_wins (k : Nat) (d : Dev) (e n p m : Nat) : (Dev.countBy k d e n p m).wins = d.wins := by
  induction k generalizing d e n p m with
  | zero => rfl
  | succ k ih => rw [Dev.countBy]; split <;> [rfl; (dsimp only; rw [ih]; split <;> simp [ih])]
@[simp] theorem Dev.countBy_kicks (k : Nat) (d : Dev) (e n p m : Nat) : (Dev.countBy k d e n p m).kicks = d.kicks := by
  induction k generalizing d e n p m with
  | zero => rfl
  | succ k ih => rw [Dev.countBy]; split <;> [rfl; (dsimp only; rw [ih]; split <;> simp [ih])]
@[simp] theorem Dev.countBy_free (k : Nat) (d : Dev) (e n p m : Nat) : (Dev.countBy k d e n p m).free = d.free := by
  induction k generalizing d e n p m with
  | zero => rfl
  | succ k ih => rw [Dev.countBy]; split <;> [rfl; (dsimp only; rw [ih]; split <;> simp [ih])]
@[simp] theorem Dev.countBy_pins (k : Nat) (d : Dev) (e n p m : Nat) : (Dev.countBy k d e n p m).pins = d.pins := by
  induction k generalizing d e n p m with
  | zero => rfl
  | succ k ih => rw [Dev.countBy]; split <;> [rfl; (dsimp only; rw [ih]; split <;> simp [ih])]
@[simp] theorem Dev.countBy_im (k : Nat) (d : Dev) (e n p m : Nat) : (Dev.countBy k d e n p m).im = d.im := by
  induction k generalizing d e n p m with
  | zero => rfl
  | succ k ih => rw [Dev.countBy]; split <;> [rfl; (dsimp only; rw [ih]; split <;> simp [ih])]
@[simp] theorem Dev.countBy_tb (k : Nat) (d : Dev) (e n p m : Nat) : (Dev.countBy k d e n p m).tb = d.tb := by
  induction k generalizing d e n p m with
  | zero => rfl
  | succ k ih => rw [Dev.countBy]; split <;> [rfl; (dsimp only; rw [ih]; split <;> simp [ih])]
@[simp] theorem Dev.countBy_mc (k : Nat) (d : Dev) (e n p m : Nat) : (Dev.countBy k d e n p m).mc = d.mc := by
  induction k generalizing d e n p m with
  | zero => rfl
  | succ k ih => rw [Dev.countBy]; split <;> [rfl; (dsimp only; rw [ih]; split <;> simp [ih])]
@[simp] theorem Dev.countBy_lx (k : Nat) (d : Dev) (e n p m : Nat) : (Dev.countBy k d e n p m).lx = d.lx := by
  induction k generalizing d e n p m with
  | zero => rfl
  | succ k ih => rw [Dev.countBy]; split <;> [rfl; (dsimp only; rw [ih]; split <;> simp [ih])]
@[simp] theorem Dev.countBy_rx (k : Nat) (d : Dev) (e n p m : Nat) : (Dev.countBy k d e n p m).rx = d.rx := by
  induction k generalizing d e n p m with
  | zero => rfl
  | succ k ih => rw [Dev.countBy]; split <;> [rfl; (dsimp only; rw [ih]; split <;> simp [ih])]
@[simp] theorem Dev.countBy_pc (k : Nat) (d : Dev) (e n p m : Nat) : (Dev.countBy k d e n p m).pc = d.pc := by
  induction k generalizing d e n p m with
  | zero => rfl
  | succ k ih => rw [Dev.countBy]; split <;> [rfl; (dsimp only; rw [ih]; split <;> simp [ih])]
@[simp] theorem Dev.countBy_fs (k : Nat) (d : Dev) (e n p m : Nat) : (Dev.countBy k d e n p m).fs = d.fs := by
  induction k generalizing d e n p m with
  | zero => rfl
  | succ k ih => rw [Dev.countBy]; split <;> [rfl; (dsimp only; rw [ih]; split <;> simp [ih])]
@[simp] theorem Dev.countBy_tm (k : Nat) (d : Dev) (e n p m : Nat) : (Dev.countBy k d e n p m).tm = d.tm := by
  induction k generalizing d e n p m with
  | zero => rfl
  | succ k ih => rw [Dev.countBy]; split <;> [rfl; (dsimp only; rw [ih]; split <;> simp [ih])]
@[simp] theorem Dev.countBy_bp (k : Nat) (d : Dev) (e n p m : Nat) : (Dev.countBy k d e n p m).bp = d.bp := by
  induction k generalizing d e n p m with
  | zero => rfl
  | succ k ih => rw [Dev.countBy]; split <;> [rfl; (dsimp only; rw [ih]; split <;> simp [ih])]
@[simp] theorem Dev.countBy_ce (k : Nat) (d : Dev) (e n p m : Nat) : (Dev.countBy k d e n p m).ce = d.ce := by
  induction k generalizing d e n p m with
  | zero => rfl
  | succ k ih => rw [Dev.countBy]; split <;> [rfl; (dsimp only; rw [ih]; split <;> simp [ih])]
@[simp] theorem Dev.countBy_ul (k : Nat) (d : Dev) (e n p m : Nat) : (Dev.countBy k d e n p m).ul = d.ul := by
  induction k generalizing d e n p m with
  | zero => rfl
  | succ k ih => rw [Dev.countBy]; split <;> [rfl; (dsimp only; rw [ih]; split <;> simp [ih])]
@[simp] theorem Dev.countBy_px (k : Nat) (d : Dev) (e n p m : Nat) : (Dev.countBy k d e n p m).px = d.px := by
  induction k generalizing d e n p m with
  | zero => rfl
  | succ k ih => rw [Dev.countBy]; split <;> [rfl; (dsimp only; rw [ih]; split <;> simp [ih])]
@[simp] theorem Dev.countBy_ob (k : Nat) (d : Dev) (e n p m : Nat) : (Dev.countBy k d e n p m).ob.sansCnt = d.ob.sansCnt := by
  induction k generalizing d e n p m with
  | zero => rfl
  | succ k ih => rw [Dev.countBy]; split <;> [rfl; (dsimp only; rw [ih]; split <;> simp [ih])]

@[simp] theorem Dev.countN_wins (e n : Nat) : (d.countN e n).wins = d.wins := Dev.countBy_wins 68 d e n n _
@[simp] theorem Dev.countBytes_wins (e n : Nat) : (d.countBytes e n).wins = d.wins := Dev.countBy_wins 68 d e n 1 _
@[simp] theorem Dev.countN_kicks (e n : Nat) : (d.countN e n).kicks = d.kicks := Dev.countBy_kicks 68 d e n n _
@[simp] theorem Dev.countBytes_kicks (e n : Nat) : (d.countBytes e n).kicks = d.kicks := Dev.countBy_kicks 68 d e n 1 _
@[simp] theorem Dev.countN_free (e n : Nat) : (d.countN e n).free = d.free := Dev.countBy_free 68 d e n n _
@[simp] theorem Dev.countBytes_free (e n : Nat) : (d.countBytes e n).free = d.free := Dev.countBy_free 68 d e n 1 _
@[simp] theorem Dev.countN_pins (e n : Nat) : (d.countN e n).pins = d.pins := Dev.countBy_pins 68 d e n n _
@[simp] theorem Dev.countBytes_pins (e n : Nat) : (d.countBytes e n).pins = d.pins := Dev.countBy_pins 68 d e n 1 _
@[simp] theorem Dev.countN_im (e n : Nat) : (d.countN e n).im = d.im := Dev.countBy_im 68 d e n n _
@[simp] theorem Dev.countBytes_im (e n : Nat) : (d.countBytes e n).im = d.im := Dev.countBy_im 68 d e n 1 _
@[simp] theorem Dev.countN_tb (e n : Nat) : (d.countN e n).tb = d.tb := Dev.countBy_tb 68 d e n n _
@[simp] theorem Dev.countBytes_tb (e n : Nat) : (d.countBytes e n).tb = d.tb := Dev.countBy_tb 68 d e n 1 _
@[simp] theorem Dev.countN_mc (e n : Nat) : (d.countN e n).mc = d.mc := Dev.countBy_mc 68 d e n n _
@[simp] theorem Dev.countBytes_mc (e n : Nat) : (d.countBytes e n).mc = d.mc := Dev.countBy_mc 68 d e n 1 _
@[simp] theorem Dev.countN_lx (e n : Nat) : (d.countN e n).lx = d.lx := Dev.countBy_lx 68 d e n n _
@[simp] theorem Dev.countBytes_lx (e n : Nat) : (d.countBytes e n).lx = d.lx := Dev.countBy_lx 68 d e n 1 _
@[simp] theorem Dev.countN_rx (e n : Nat) : (d.countN e n).rx = d.rx := Dev.countBy_rx 68 d e n n _
@[simp] theorem Dev.countBytes_rx (e n : Nat) : (d.countBytes e n).rx = d.rx := Dev.countBy_rx 68 d e n 1 _
@[simp] theorem Dev.countN_pc (e n : Nat) : (d.countN e n).pc = d.pc := Dev.countBy_pc 68 d e n n _
@[simp] theorem Dev.countBytes_pc (e n : Nat) : (d.countBytes e n).pc = d.pc := Dev.countBy_pc 68 d e n 1 _
@[simp] theorem Dev.countN_fs (e n : Nat) : (d.countN e n).fs = d.fs := Dev.countBy_fs 68 d e n n _
@[simp] theorem Dev.countBytes_fs (e n : Nat) : (d.countBytes e n).fs = d.fs := Dev.countBy_fs 68 d e n 1 _
@[simp] theorem Dev.countN_tm (e n : Nat) : (d.countN e n).tm = d.tm := Dev.countBy_tm 68 d e n n _
@[simp] theorem Dev.countBytes_tm (e n : Nat) : (d.countBytes e n).tm = d.tm := Dev.countBy_tm 68 d e n 1 _
@[simp] theorem Dev.countN_bp (e n : Nat) : (d.countN e n).bp = d.bp := Dev.countBy_bp 68 d e n n _
@[simp] theorem Dev.countBytes_bp (e n : Nat) : (d.countBytes e n).bp = d.bp := Dev.countBy_bp 68 d e n 1 _
@[simp] theorem Dev.countN_ce (e n : Nat) : (d.countN e n).ce = d.ce := Dev.countBy_ce 68 d e n n _
@[simp] theorem Dev.countBytes_ce (e n : Nat) : (d.countBytes e n).ce = d.ce := Dev.countBy_ce 68 d e n 1 _
@[simp] theorem Dev.countN_ul (e n : Nat) : (d.countN e n).ul = d.ul := Dev.countBy_ul 68 d e n n _
@[simp] theorem Dev.countBytes_ul (e n : Nat) : (d.countBytes e n).ul = d.ul := Dev.countBy_ul 68 d e n 1 _
@[simp] theorem Dev.countN_px (e n : Nat) : (d.countN e n).px = d.px := Dev.countBy_px 68 d e n n _
@[simp] theorem Dev.countBytes_px (e n : Nat) : (d.countBytes e n).px = d.px := Dev.countBy_px 68 d e n 1 _
@[simp] theorem Dev.countN_ob (e n : Nat) : (d.countN e n).ob.sansCnt = d.ob.sansCnt := Dev.countBy_ob 68 d e n n _
@[simp] theorem Dev.countBytes_ob (e n : Nat) : (d.countBytes e n).ob.sansCnt = d.ob.sansCnt := Dev.countBy_ob 68 d e n 1 _

theorem Dev.countBy_get? (k : Nat) (d : Dev) (e n p m a : Nat) (h : obAddr a = false) :
    (Dev.countBy k d e n p m).regs.get? a = d.regs.get? a := by
  induction k generalizing d e n p m with
  | zero => rfl
  | succ k ih =>
    rw [Dev.countBy]
    split
    · rfl
    · dsimp only
      rw [ih]
      split
      · rename_i hw
        have he : e < 0x800 := by
          by_contra hc
          simp [Dev.cntAdd, hc] at hw
        have h' := h
        simp only [obAddr, decide_eq_false_iff_not] at h'
        have h1 : (R .OB_CNT_OVF (e / 32)).addr ≠ a := by
          show 0x101000 + 4 * (e / 32) ≠ a
          omega
        have h2 : (R .OB_FLAGS).addr ≠ a := by
          show 0x100010 ≠ a
          omega
        rw [ih, Dev.get?_setFld_ne _ _ _ _ _ _ h2, Dev.get?_setFld_ne _ _ _ _ _ _ h1, Dev.pcntAdd_get? _ _ _ _ _ h, Dev.cntAdd_regs]
      · rw [Dev.pcntAdd_get? _ _ _ _ _ h, Dev.cntAdd_regs]

theorem Dev.countN_get? (e n a : Nat) (h : obAddr a = false) : (d.countN e n).regs.get? a = d.regs.get? a :=
  Dev.countBy_get? 68 d e n n _ a h

@[simp] theorem Dev.count_wins (e : Nat) : (d.count e).wins = d.wins := d.countN_wins e 1
@[simp] theorem Dev.count_kicks (e : Nat) : (d.count e).kicks = d.kicks := d.countN_kicks e 1
@[simp] theorem Dev.count_free (e : Nat) : (d.count e).free = d.free := d.countN_free e 1
@[simp] theorem Dev.count_pins (e : Nat) : (d.count e).pins = d.pins := d.countN_pins e 1
@[simp] theorem Dev.count_im (e : Nat) : (d.count e).im = d.im := d.countN_im e 1
@[simp] theorem Dev.count_tb (e : Nat) : (d.count e).tb = d.tb := d.countN_tb e 1
@[simp] theorem Dev.count_mc (e : Nat) : (d.count e).mc = d.mc := d.countN_mc e 1
@[simp] theorem Dev.count_lx (e : Nat) : (d.count e).lx = d.lx := d.countN_lx e 1
@[simp] theorem Dev.count_rx (e : Nat) : (d.count e).rx = d.rx := d.countN_rx e 1
@[simp] theorem Dev.count_pc (e : Nat) : (d.count e).pc = d.pc := d.countN_pc e 1
@[simp] theorem Dev.count_fs (e : Nat) : (d.count e).fs = d.fs := d.countN_fs e 1
@[simp] theorem Dev.count_tm (e : Nat) : (d.count e).tm = d.tm := d.countN_tm e 1
@[simp] theorem Dev.count_bp (e : Nat) : (d.count e).bp = d.bp := d.countN_bp e 1
@[simp] theorem Dev.count_ce (e : Nat) : (d.count e).ce = d.ce := d.countN_ce e 1
@[simp] theorem Dev.count_ul (e : Nat) : (d.count e).ul = d.ul := d.countN_ul e 1
@[simp] theorem Dev.count_px (e : Nat) : (d.count e).px = d.px := d.countN_px e 1
@[simp] theorem Dev.count_ob (e : Nat) : (d.count e).ob.sansCnt = d.ob.sansCnt := d.countN_ob e 1

@[simp] theorem Dev.raise_wins (r : Reg) (b : Nat) : (d.raise r b).wins = d.wins := by unfold Dev.raise; dsimp only; split <;> simp
@[simp] theorem Dev.raise_kicks (r : Reg) (b : Nat) : (d.raise r b).kicks = d.kicks := by unfold Dev.raise; dsimp only; split <;> simp
@[simp] theorem Dev.raise_free (r : Reg) (b : Nat) : (d.raise r b).free = d.free := by unfold Dev.raise; dsimp only; split <;> simp
@[simp] theorem Dev.raise_pins (r : Reg) (b : Nat) : (d.raise r b).pins = d.pins := by unfold Dev.raise; dsimp only; split <;> simp
@[simp] theorem Dev.raise_im (r : Reg) (b : Nat) : (d.raise r b).im = d.im := by unfold Dev.raise; dsimp only; split <;> simp
@[simp] theorem Dev.raise_tb (r : Reg) (b : Nat) : (d.raise r b).tb = d.tb := by unfold Dev.raise; dsimp only; split <;> simp
@[simp] theorem Dev.raise_mc (r : Reg) (b : Nat) : (d.raise r b).mc = d.mc := by unfold Dev.raise; dsimp only; split <;> simp
@[simp] theorem Dev.raise_lx (r : Reg) (b : Nat) : (d.raise r b).lx = d.lx := by unfold Dev.raise; dsimp only; split <;> simp
@[simp] theorem Dev.raise_rx (r : Reg) (b : Nat) : (d.raise r b).rx = d.rx := by unfold Dev.raise; dsimp only; split <;> simp
@[simp] theorem Dev.raise_pc (r : Reg) (b : Nat) : (d.raise r b).pc = d.pc := by unfold Dev.raise; dsimp only; split <;> simp
@[simp] theorem Dev.raise_fs (r : Reg) (b : Nat) : (d.raise r b).fs = d.fs := by unfold Dev.raise; dsimp only; split <;> simp
@[simp] theorem Dev.raise_tm (r : Reg) (b : Nat) : (d.raise r b).tm = d.tm := by unfold Dev.raise; dsimp only; split <;> simp
@[simp] theorem Dev.raise_bp (r : Reg) (b : Nat) : (d.raise r b).bp = d.bp := by unfold Dev.raise; dsimp only; split <;> simp
@[simp] theorem Dev.raise_ce (r : Reg) (b : Nat) : (d.raise r b).ce = d.ce := by unfold Dev.raise; dsimp only; split <;> simp
@[simp] theorem Dev.raise_ul (r : Reg) (b : Nat) : (d.raise r b).ul = d.ul := by unfold Dev.raise; dsimp only; split <;> simp
@[simp] theorem Dev.raise_px (r : Reg) (b : Nat) : (d.raise r b).px = d.px := by unfold Dev.raise; dsimp only; split <;> simp
@[simp] theorem Dev.raise_ob (r : Reg) (b : Nat) : (d.raise r b).ob.sansCnt = d.ob.sansCnt := by unfold Dev.raise; dsimp only; split <;> simp

/-- A flag that sets leaves every register but its own and those of observability as they were. -/
theorem Dev.raise_get? (r : Reg) (b a : Nat) (h : obAddr a = false) (hr : r.addr ≠ a) :
    (d.raise r b).regs.get? a = d.regs.get? a := by
  unfold Dev.raise
  dsimp only
  split
  · rw [show ∀ (x : Dev) (e : Nat), x.count e = x.countN e 1 from fun _ _ => rfl, Dev.countN_get? _ _ _ _ h, Dev.get?_setFld_ne _ _ _ _ _ _ hr]
  · rw [Dev.get?_setFld_ne _ _ _ _ _ _ hr]

/-- A flag that sets reads 1 with the rest of its register as it was. -/
theorem Dev.raise_reg_self (r : Reg) (b : Nat) (h : obAddr r.addr = false) :
    (d.raise r b).reg r = (d.setFld r b b 1).reg r := by
  unfold Dev.raise
  dsimp only
  split
  · simp only [Dev.reg_def, show ∀ (x : Dev) (e : Nat), x.count e = x.countN e 1 from fun _ _ => rfl, Dev.countN_get? _ _ _ _ h]
  · rfl

theorem Dev.raise_reg_ne (r q : Reg) (b : Nat) (h : obAddr q.addr = false) (hr : r.addr ≠ q.addr) :
    (d.raise r b).reg q = d.reg q := by simp only [Dev.reg_def, Dev.raise_get? _ _ _ _ h hr]

theorem Dev.count_get? (e a : Nat) (h : obAddr a = false) : (d.count e).regs.get? a = d.regs.get? a := d.countN_get? e 1 a h

theorem Dev.count_reg (e : Nat) (q : Reg) (h : obAddr q.addr = false) : (d.count e).reg q = d.reg q := by
  simp only [Dev.reg_def, Dev.count_get? _ _ _ h]

theorem makeRoom_sans (k n : Nat) (o : ObState) :
    (makeRoom k n o).1 = { o with staging := (makeRoom k n o).1.staging, lost := (makeRoom k n o).1.lost, loss := (makeRoom k n o).1.loss } := by
  induction k generalizing o with
  | zero => rfl
  | succ k ih =>
    simp only [makeRoom]
    split
    · rfl
    · split
      · rfl
      · dsimp only
        rw [ih]

@[simp] theorem Dev.stage_wins (r : Rec) : (d.stage r).wins = d.wins := by
  unfold Dev.stage; generalize (if d.ob.pwrFail = true then 0 else d.ob.staging.length) = k; dsimp only; split <;> simp [upTo_keeps (·.wins) _ _ (fun _ a => Dev.raise_wins a _ _)]
@[simp] theorem Dev.stage_kicks (r : Rec) : (d.stage r).kicks = d.kicks := by
  unfold Dev.stage; generalize (if d.ob.pwrFail = true then 0 else d.ob.staging.length) = k; dsimp only; split <;> simp [upTo_keeps (·.kicks) _ _ (fun _ a => Dev.raise_kicks a _ _)]
@[simp] theorem Dev.stage_free (r : Rec) : (d.stage r).free = d.free := by
  unfold Dev.stage; generalize (if d.ob.pwrFail = true then 0 else d.ob.staging.length) = k; dsimp only; split <;> simp [upTo_keeps (·.free) _ _ (fun _ a => Dev.raise_free a _ _)]
@[simp] theorem Dev.stage_pins (r : Rec) : (d.stage r).pins = d.pins := by
  unfold Dev.stage; generalize (if d.ob.pwrFail = true then 0 else d.ob.staging.length) = k; dsimp only; split <;> simp [upTo_keeps (·.pins) _ _ (fun _ a => Dev.raise_pins a _ _)]
@[simp] theorem Dev.stage_im (r : Rec) : (d.stage r).im = d.im := by
  unfold Dev.stage; generalize (if d.ob.pwrFail = true then 0 else d.ob.staging.length) = k; dsimp only; split <;> simp [upTo_keeps (·.im) _ _ (fun _ a => Dev.raise_im a _ _)]
@[simp] theorem Dev.stage_tb (r : Rec) : (d.stage r).tb = d.tb := by
  unfold Dev.stage; generalize (if d.ob.pwrFail = true then 0 else d.ob.staging.length) = k; dsimp only; split <;> simp [upTo_keeps (·.tb) _ _ (fun _ a => Dev.raise_tb a _ _)]
@[simp] theorem Dev.stage_mc (r : Rec) : (d.stage r).mc = d.mc := by
  unfold Dev.stage; generalize (if d.ob.pwrFail = true then 0 else d.ob.staging.length) = k; dsimp only; split <;> simp [upTo_keeps (·.mc) _ _ (fun _ a => Dev.raise_mc a _ _)]
@[simp] theorem Dev.stage_lx (r : Rec) : (d.stage r).lx = d.lx := by
  unfold Dev.stage; generalize (if d.ob.pwrFail = true then 0 else d.ob.staging.length) = k; dsimp only; split <;> simp [upTo_keeps (·.lx) _ _ (fun _ a => Dev.raise_lx a _ _)]
@[simp] theorem Dev.stage_rx (r : Rec) : (d.stage r).rx = d.rx := by
  unfold Dev.stage; generalize (if d.ob.pwrFail = true then 0 else d.ob.staging.length) = k; dsimp only; split <;> simp [upTo_keeps (·.rx) _ _ (fun _ a => Dev.raise_rx a _ _)]
@[simp] theorem Dev.stage_pc (r : Rec) : (d.stage r).pc = d.pc := by
  unfold Dev.stage; generalize (if d.ob.pwrFail = true then 0 else d.ob.staging.length) = k; dsimp only; split <;> simp [upTo_keeps (·.pc) _ _ (fun _ a => Dev.raise_pc a _ _)]
@[simp] theorem Dev.stage_fs (r : Rec) : (d.stage r).fs = d.fs := by
  unfold Dev.stage; generalize (if d.ob.pwrFail = true then 0 else d.ob.staging.length) = k; dsimp only; split <;> simp [upTo_keeps (·.fs) _ _ (fun _ a => Dev.raise_fs a _ _)]
@[simp] theorem Dev.stage_tm (r : Rec) : (d.stage r).tm = d.tm := by
  unfold Dev.stage; generalize (if d.ob.pwrFail = true then 0 else d.ob.staging.length) = k; dsimp only; split <;> simp [upTo_keeps (·.tm) _ _ (fun _ a => Dev.raise_tm a _ _)]
@[simp] theorem Dev.stage_bp (r : Rec) : (d.stage r).bp = d.bp := by
  unfold Dev.stage; generalize (if d.ob.pwrFail = true then 0 else d.ob.staging.length) = k; dsimp only; split <;> simp [upTo_keeps (·.bp) _ _ (fun _ a => Dev.raise_bp a _ _)]
@[simp] theorem Dev.stage_ce (r : Rec) : (d.stage r).ce = d.ce := by
  unfold Dev.stage; generalize (if d.ob.pwrFail = true then 0 else d.ob.staging.length) = k; dsimp only; split <;> simp [upTo_keeps (·.ce) _ _ (fun _ a => Dev.raise_ce a _ _)]
@[simp] theorem Dev.stage_ul (r : Rec) : (d.stage r).ul = d.ul := by
  unfold Dev.stage; generalize (if d.ob.pwrFail = true then 0 else d.ob.staging.length) = k; dsimp only; split <;> simp [upTo_keeps (·.ul) _ _ (fun _ a => Dev.raise_ul a _ _)]
@[simp] theorem Dev.stage_px (r : Rec) : (d.stage r).px = d.px := by
  unfold Dev.stage; generalize (if d.ob.pwrFail = true then 0 else d.ob.staging.length) = k; dsimp only; split <;> simp [upTo_keeps (·.px) _ _ (fun _ a => Dev.raise_px a _ _)]

@[simp] theorem Dev.makeRec_wins (typ src inst : Nat) (fault mate : Bool) (body : List Byte) :
    (d.makeRec typ src inst fault mate body).wins = d.wins := by unfold Dev.makeRec; split <;> simp
@[simp] theorem Dev.makeRec_kicks (typ src inst : Nat) (fault mate : Bool) (body : List Byte) :
    (d.makeRec typ src inst fault mate body).kicks = d.kicks := by unfold Dev.makeRec; split <;> simp
@[simp] theorem Dev.makeRec_free (typ src inst : Nat) (fault mate : Bool) (body : List Byte) :
    (d.makeRec typ src inst fault mate body).free = d.free := by unfold Dev.makeRec; split <;> simp
@[simp] theorem Dev.makeRec_pins (typ src inst : Nat) (fault mate : Bool) (body : List Byte) :
    (d.makeRec typ src inst fault mate body).pins = d.pins := by unfold Dev.makeRec; split <;> simp
@[simp] theorem Dev.makeRec_im (typ src inst : Nat) (fault mate : Bool) (body : List Byte) :
    (d.makeRec typ src inst fault mate body).im = d.im := by unfold Dev.makeRec; split <;> simp
@[simp] theorem Dev.makeRec_tb (typ src inst : Nat) (fault mate : Bool) (body : List Byte) :
    (d.makeRec typ src inst fault mate body).tb = d.tb := by unfold Dev.makeRec; split <;> simp
@[simp] theorem Dev.makeRec_mc (typ src inst : Nat) (fault mate : Bool) (body : List Byte) :
    (d.makeRec typ src inst fault mate body).mc = d.mc := by unfold Dev.makeRec; split <;> simp
@[simp] theorem Dev.makeRec_lx (typ src inst : Nat) (fault mate : Bool) (body : List Byte) :
    (d.makeRec typ src inst fault mate body).lx = d.lx := by unfold Dev.makeRec; split <;> simp
@[simp] theorem Dev.makeRec_rx (typ src inst : Nat) (fault mate : Bool) (body : List Byte) :
    (d.makeRec typ src inst fault mate body).rx = d.rx := by unfold Dev.makeRec; split <;> simp
@[simp] theorem Dev.makeRec_pc (typ src inst : Nat) (fault mate : Bool) (body : List Byte) :
    (d.makeRec typ src inst fault mate body).pc = d.pc := by unfold Dev.makeRec; split <;> simp
@[simp] theorem Dev.makeRec_fs (typ src inst : Nat) (fault mate : Bool) (body : List Byte) :
    (d.makeRec typ src inst fault mate body).fs = d.fs := by unfold Dev.makeRec; split <;> simp
@[simp] theorem Dev.makeRec_tm (typ src inst : Nat) (fault mate : Bool) (body : List Byte) :
    (d.makeRec typ src inst fault mate body).tm = d.tm := by unfold Dev.makeRec; split <;> simp
@[simp] theorem Dev.makeRec_bp (typ src inst : Nat) (fault mate : Bool) (body : List Byte) :
    (d.makeRec typ src inst fault mate body).bp = d.bp := by unfold Dev.makeRec; split <;> simp
@[simp] theorem Dev.makeRec_ce (typ src inst : Nat) (fault mate : Bool) (body : List Byte) :
    (d.makeRec typ src inst fault mate body).ce = d.ce := by unfold Dev.makeRec; split <;> simp
@[simp] theorem Dev.makeRec_ul (typ src inst : Nat) (fault mate : Bool) (body : List Byte) :
    (d.makeRec typ src inst fault mate body).ul = d.ul := by unfold Dev.makeRec; split <;> simp
@[simp] theorem Dev.makeRec_px (typ src inst : Nat) (fault mate : Bool) (body : List Byte) :
    (d.makeRec typ src inst fault mate body).px = d.px := by unfold Dev.makeRec; split <;> simp

@[simp] theorem Dev.record_wins (e : Nat) (s : RSrc) (inst : Nat) (fault : Bool) (fs : List (Nat × Nat)) :
    (d.record e s inst fault fs).wins = d.wins := by simp [Dev.record]
@[simp] theorem Dev.record_kicks (e : Nat) (s : RSrc) (inst : Nat) (fault : Bool) (fs : List (Nat × Nat)) :
    (d.record e s inst fault fs).kicks = d.kicks := by simp [Dev.record]
@[simp] theorem Dev.record_free (e : Nat) (s : RSrc) (inst : Nat) (fault : Bool) (fs : List (Nat × Nat)) :
    (d.record e s inst fault fs).free = d.free := by simp [Dev.record]
@[simp] theorem Dev.record_pins (e : Nat) (s : RSrc) (inst : Nat) (fault : Bool) (fs : List (Nat × Nat)) :
    (d.record e s inst fault fs).pins = d.pins := by simp [Dev.record]
@[simp] theorem Dev.record_im (e : Nat) (s : RSrc) (inst : Nat) (fault : Bool) (fs : List (Nat × Nat)) :
    (d.record e s inst fault fs).im = d.im := by simp [Dev.record]
@[simp] theorem Dev.record_tb (e : Nat) (s : RSrc) (inst : Nat) (fault : Bool) (fs : List (Nat × Nat)) :
    (d.record e s inst fault fs).tb = d.tb := by simp [Dev.record]
@[simp] theorem Dev.record_mc (e : Nat) (s : RSrc) (inst : Nat) (fault : Bool) (fs : List (Nat × Nat)) :
    (d.record e s inst fault fs).mc = d.mc := by simp [Dev.record]
@[simp] theorem Dev.record_lx (e : Nat) (s : RSrc) (inst : Nat) (fault : Bool) (fs : List (Nat × Nat)) :
    (d.record e s inst fault fs).lx = d.lx := by simp [Dev.record]
@[simp] theorem Dev.record_rx (e : Nat) (s : RSrc) (inst : Nat) (fault : Bool) (fs : List (Nat × Nat)) :
    (d.record e s inst fault fs).rx = d.rx := by simp [Dev.record]
@[simp] theorem Dev.record_pc (e : Nat) (s : RSrc) (inst : Nat) (fault : Bool) (fs : List (Nat × Nat)) :
    (d.record e s inst fault fs).pc = d.pc := by simp [Dev.record]
@[simp] theorem Dev.record_fs (e : Nat) (s : RSrc) (inst : Nat) (fault : Bool) (fs : List (Nat × Nat)) :
    (d.record e s inst fault fs).fs = d.fs := by simp [Dev.record]
@[simp] theorem Dev.record_tm (e : Nat) (s : RSrc) (inst : Nat) (fault : Bool) (fs : List (Nat × Nat)) :
    (d.record e s inst fault fs).tm = d.tm := by simp [Dev.record]
@[simp] theorem Dev.record_bp (e : Nat) (s : RSrc) (inst : Nat) (fault : Bool) (fs : List (Nat × Nat)) :
    (d.record e s inst fault fs).bp = d.bp := by simp [Dev.record]
@[simp] theorem Dev.record_ce (e : Nat) (s : RSrc) (inst : Nat) (fault : Bool) (fs : List (Nat × Nat)) :
    (d.record e s inst fault fs).ce = d.ce := by simp [Dev.record]
@[simp] theorem Dev.record_ul (e : Nat) (s : RSrc) (inst : Nat) (fault : Bool) (fs : List (Nat × Nat)) :
    (d.record e s inst fault fs).ul = d.ul := by simp [Dev.record]
@[simp] theorem Dev.record_px (e : Nat) (s : RSrc) (inst : Nat) (fault : Bool) (fs : List (Nat × Nat)) :
    (d.record e s inst fault fs).px = d.px := by simp [Dev.record]

@[simp] theorem Dev.raiseRec_wins (r : Reg) (b : Nat) (s : RSrc) (inst : Nat) (fault : Bool) (fs : List (Nat × Nat)) :
    (d.raiseRec r b s inst fault fs).wins = d.wins := by unfold Dev.raiseRec; dsimp only; split <;> simp
@[simp] theorem Dev.raiseRec_kicks (r : Reg) (b : Nat) (s : RSrc) (inst : Nat) (fault : Bool) (fs : List (Nat × Nat)) :
    (d.raiseRec r b s inst fault fs).kicks = d.kicks := by unfold Dev.raiseRec; dsimp only; split <;> simp
@[simp] theorem Dev.raiseRec_free (r : Reg) (b : Nat) (s : RSrc) (inst : Nat) (fault : Bool) (fs : List (Nat × Nat)) :
    (d.raiseRec r b s inst fault fs).free = d.free := by unfold Dev.raiseRec; dsimp only; split <;> simp
@[simp] theorem Dev.raiseRec_pins (r : Reg) (b : Nat) (s : RSrc) (inst : Nat) (fault : Bool) (fs : List (Nat × Nat)) :
    (d.raiseRec r b s inst fault fs).pins = d.pins := by unfold Dev.raiseRec; dsimp only; split <;> simp
@[simp] theorem Dev.raiseRec_im (r : Reg) (b : Nat) (s : RSrc) (inst : Nat) (fault : Bool) (fs : List (Nat × Nat)) :
    (d.raiseRec r b s inst fault fs).im = d.im := by unfold Dev.raiseRec; dsimp only; split <;> simp
@[simp] theorem Dev.raiseRec_tb (r : Reg) (b : Nat) (s : RSrc) (inst : Nat) (fault : Bool) (fs : List (Nat × Nat)) :
    (d.raiseRec r b s inst fault fs).tb = d.tb := by unfold Dev.raiseRec; dsimp only; split <;> simp
@[simp] theorem Dev.raiseRec_mc (r : Reg) (b : Nat) (s : RSrc) (inst : Nat) (fault : Bool) (fs : List (Nat × Nat)) :
    (d.raiseRec r b s inst fault fs).mc = d.mc := by unfold Dev.raiseRec; dsimp only; split <;> simp
@[simp] theorem Dev.raiseRec_lx (r : Reg) (b : Nat) (s : RSrc) (inst : Nat) (fault : Bool) (fs : List (Nat × Nat)) :
    (d.raiseRec r b s inst fault fs).lx = d.lx := by unfold Dev.raiseRec; dsimp only; split <;> simp
@[simp] theorem Dev.raiseRec_rx (r : Reg) (b : Nat) (s : RSrc) (inst : Nat) (fault : Bool) (fs : List (Nat × Nat)) :
    (d.raiseRec r b s inst fault fs).rx = d.rx := by unfold Dev.raiseRec; dsimp only; split <;> simp
@[simp] theorem Dev.raiseRec_pc (r : Reg) (b : Nat) (s : RSrc) (inst : Nat) (fault : Bool) (fs : List (Nat × Nat)) :
    (d.raiseRec r b s inst fault fs).pc = d.pc := by unfold Dev.raiseRec; dsimp only; split <;> simp
@[simp] theorem Dev.raiseRec_fs (r : Reg) (b : Nat) (s : RSrc) (inst : Nat) (fault : Bool) (fs : List (Nat × Nat)) :
    (d.raiseRec r b s inst fault fs).fs = d.fs := by unfold Dev.raiseRec; dsimp only; split <;> simp
@[simp] theorem Dev.raiseRec_tm (r : Reg) (b : Nat) (s : RSrc) (inst : Nat) (fault : Bool) (fs : List (Nat × Nat)) :
    (d.raiseRec r b s inst fault fs).tm = d.tm := by unfold Dev.raiseRec; dsimp only; split <;> simp
@[simp] theorem Dev.raiseRec_bp (r : Reg) (b : Nat) (s : RSrc) (inst : Nat) (fault : Bool) (fs : List (Nat × Nat)) :
    (d.raiseRec r b s inst fault fs).bp = d.bp := by unfold Dev.raiseRec; dsimp only; split <;> simp
@[simp] theorem Dev.raiseRec_ce (r : Reg) (b : Nat) (s : RSrc) (inst : Nat) (fault : Bool) (fs : List (Nat × Nat)) :
    (d.raiseRec r b s inst fault fs).ce = d.ce := by unfold Dev.raiseRec; dsimp only; split <;> simp
@[simp] theorem Dev.raiseRec_ul (r : Reg) (b : Nat) (s : RSrc) (inst : Nat) (fault : Bool) (fs : List (Nat × Nat)) :
    (d.raiseRec r b s inst fault fs).ul = d.ul := by unfold Dev.raiseRec; dsimp only; split <;> simp
@[simp] theorem Dev.raiseRec_px (r : Reg) (b : Nat) (s : RSrc) (inst : Nat) (fault : Bool) (fs : List (Nat × Nat)) :
    (d.raiseRec r b s inst fault fs).px = d.px := by unfold Dev.raiseRec; dsimp only; split <;> simp

@[simp] theorem Dev.reportRefusal_wins (w : Win) (a : Accepted) (st : Status) (obj : Nat) :
    (d.reportRefusal w a st obj).wins = d.wins := by cases st <;> simp only [Dev.reportRefusal] <;> (try split) <;> simp
@[simp] theorem Dev.reportRefusal_kicks (w : Win) (a : Accepted) (st : Status) (obj : Nat) :
    (d.reportRefusal w a st obj).kicks = d.kicks := by cases st <;> simp only [Dev.reportRefusal] <;> (try split) <;> simp
@[simp] theorem Dev.reportRefusal_free (w : Win) (a : Accepted) (st : Status) (obj : Nat) :
    (d.reportRefusal w a st obj).free = d.free := by cases st <;> simp only [Dev.reportRefusal] <;> (try split) <;> simp
@[simp] theorem Dev.reportRefusal_pins (w : Win) (a : Accepted) (st : Status) (obj : Nat) :
    (d.reportRefusal w a st obj).pins = d.pins := by cases st <;> simp only [Dev.reportRefusal] <;> (try split) <;> simp
@[simp] theorem Dev.reportRefusal_im (w : Win) (a : Accepted) (st : Status) (obj : Nat) :
    (d.reportRefusal w a st obj).im = d.im := by cases st <;> simp only [Dev.reportRefusal] <;> (try split) <;> simp
@[simp] theorem Dev.reportRefusal_tb (w : Win) (a : Accepted) (st : Status) (obj : Nat) :
    (d.reportRefusal w a st obj).tb = d.tb := by cases st <;> simp only [Dev.reportRefusal] <;> (try split) <;> simp
@[simp] theorem Dev.reportRefusal_mc (w : Win) (a : Accepted) (st : Status) (obj : Nat) :
    (d.reportRefusal w a st obj).mc = d.mc := by cases st <;> simp only [Dev.reportRefusal] <;> (try split) <;> simp
@[simp] theorem Dev.reportRefusal_lx (w : Win) (a : Accepted) (st : Status) (obj : Nat) :
    (d.reportRefusal w a st obj).lx = d.lx := by cases st <;> simp only [Dev.reportRefusal] <;> (try split) <;> simp
@[simp] theorem Dev.reportRefusal_rx (w : Win) (a : Accepted) (st : Status) (obj : Nat) :
    (d.reportRefusal w a st obj).rx = d.rx := by cases st <;> simp only [Dev.reportRefusal] <;> (try split) <;> simp
@[simp] theorem Dev.reportRefusal_pc (w : Win) (a : Accepted) (st : Status) (obj : Nat) :
    (d.reportRefusal w a st obj).pc = d.pc := by cases st <;> simp only [Dev.reportRefusal] <;> (try split) <;> simp
@[simp] theorem Dev.reportRefusal_fs (w : Win) (a : Accepted) (st : Status) (obj : Nat) :
    (d.reportRefusal w a st obj).fs = d.fs := by cases st <;> simp only [Dev.reportRefusal] <;> (try split) <;> simp
@[simp] theorem Dev.reportRefusal_tm (w : Win) (a : Accepted) (st : Status) (obj : Nat) :
    (d.reportRefusal w a st obj).tm = d.tm := by cases st <;> simp only [Dev.reportRefusal] <;> (try split) <;> simp
@[simp] theorem Dev.reportRefusal_bp (w : Win) (a : Accepted) (st : Status) (obj : Nat) :
    (d.reportRefusal w a st obj).bp = d.bp := by cases st <;> simp only [Dev.reportRefusal] <;> (try split) <;> simp
@[simp] theorem Dev.reportRefusal_ce (w : Win) (a : Accepted) (st : Status) (obj : Nat) :
    (d.reportRefusal w a st obj).ce = d.ce := by cases st <;> simp only [Dev.reportRefusal] <;> (try split) <;> simp
@[simp] theorem Dev.reportRefusal_ul (w : Win) (a : Accepted) (st : Status) (obj : Nat) :
    (d.reportRefusal w a st obj).ul = d.ul := by cases st <;> simp only [Dev.reportRefusal] <;> (try split) <;> simp
@[simp] theorem Dev.reportRefusal_px (w : Win) (a : Accepted) (st : Status) (obj : Nat) :
    (d.reportRefusal w a st obj).px = d.px := by cases st <;> simp only [Dev.reportRefusal] <;> (try split) <;> simp

theorem Dev.stage_get? (r : Rec) (a : Nat) (h : obAddr a = false) : (d.stage r).regs.get? a = d.regs.get? a := by
  have hf : (R .OB_FLAGS).addr ≠ a := by
    simp only [obAddr, decide_eq_false_iff_not] at h
    show 0x100010 ≠ a
    omega
  have hm : ∀ (m : Nat) (x : Dev), (upTo m x fun _ d => d.raise (R .OB_FLAGS) 1).regs.get? a = x.regs.get? a := fun m x =>
    upTo_keeps (·.regs.get? a) m _ (fun _ y => Dev.raise_get? y _ _ _ h hf) x
  unfold Dev.stage
  generalize (if d.ob.pwrFail = true then 0 else d.ob.staging.length) = k
  dsimp only
  split
  · rw [Dev.onOb_regs, hm]
  · rw [Dev.onOb_regs, Dev.raise_get? _ _ _ _ h hf, Dev.onOb_regs, hm]

/-- A record leaves every register but those of observability as it was. -/
theorem Dev.record_get? (e : Nat) (s : RSrc) (inst : Nat) (fault : Bool) (fs : List (Nat × Nat)) (a : Nat) (h : obAddr a = false) :
    (d.record e s inst fault fs).regs.get? a = d.regs.get? a := by
  unfold Dev.record Dev.makeRec
  split
  · rfl
  · simp only [Dev.stage_get? _ _ _ h, Dev.onOb_regs]

theorem Dev.record_reg (e : Nat) (s : RSrc) (inst : Nat) (fault : Bool) (fs : List (Nat × Nat)) (q : Reg) (h : obAddr q.addr = false) :
    (d.record e s inst fault fs).reg q = d.reg q := by simp only [Dev.reg_def, Dev.record_get? _ _ _ _ _ _ _ h]

theorem Dev.raiseRec_get? (r : Reg) (b : Nat) (s : RSrc) (inst : Nat) (fault : Bool) (fs : List (Nat × Nat)) (a : Nat)
    (h : obAddr a = false) (hr : r.addr ≠ a) : (d.raiseRec r b s inst fault fs).regs.get? a = d.regs.get? a := by
  unfold Dev.raiseRec
  dsimp only
  split
  · rw [Dev.record_get? _ _ _ _ _ _ _ h, Dev.raise_get? _ _ _ _ h hr]
  · rw [Dev.raise_get? _ _ _ _ h hr]

theorem Dev.raiseRec_reg_ne (r : Reg) (b : Nat) (s : RSrc) (inst : Nat) (fault : Bool) (fs : List (Nat × Nat)) (q : Reg)
    (h : obAddr q.addr = false) (hr : r.addr ≠ q.addr) : (d.raiseRec r b s inst fault fs).reg q = d.reg q := by
  simp only [Dev.reg_def, Dev.raiseRec_get? _ _ _ _ _ _ _ _ h hr]

theorem Dev.raiseRec_reg_self (r : Reg) (b : Nat) (s : RSrc) (inst : Nat) (fault : Bool) (fs : List (Nat × Nat))
    (h : obAddr r.addr = false) : (d.raiseRec r b s inst fault fs).reg r = (d.setFld r b b 1).reg r := by
  unfold Dev.raiseRec
  dsimp only
  split
  · rw [Dev.record_reg _ _ _ _ _ _ _ h, Dev.raise_reg_self _ _ _ h]
  · rw [Dev.raise_reg_self _ _ _ h]

end

end Sys2Proof.Machine

end
end

