-- ==== Sys2Proof/Laws/Settle.lean ====
section
/-! SUPPORT. What follows a command within its step, and what that leaves as the command left it: with no window to run on and no
change of a distributing set, the step's end touches flags and event counters, flow-control state, and interrupt delivery. -/

section
set_option Elab.async false

namespace Sys2Proof.Machine

open Sys2Proof.Safety (obAddr reportAddr)

/-- The registers of level-set flags that the step's end may set (R68). -/
def levelRegs : List Reg :=
  [R .TB_FLAGS, R .PX_FLAGS, R .FS_FLAGS, R .MC_FLAGS] ++ (List.range 64).map (fun t => R .GS_FLAGS t) ++
    (List.range 8).map (fun r => R .GS_RFLAGS r) ++ (List.range 12).map (fun n => R .LX_UL_FLAGS n) ++
    (List.range 4).map fun n => R .LX_ML_FLAGS n

theorem levelRegs_apart : levelRegs.Pairwise fun r q => r.addr ≠ q.addr := by decide +kernel

theorem levelRegs_ne {r q : Reg} (hr : r ∈ levelRegs) (hq : q ∈ levelRegs) (h : r ≠ q) : r.addr ≠ q.addr :=
  haveI : Std.Symm fun r q : Reg => r.addr ≠ q.addr := ⟨fun _ _ h => h.symm⟩
  levelRegs_apart.forall hr hq h

theorem levelRegs_ob : ∀ r ∈ levelRegs, obAddr r.addr = false ∧ reportAddr r.addr = true := by decide +kernel

/-- d' is d but for what the step's end may change. -/
structure Dev.Kept (d d' : Dev) : Prop where
  wins : d'.wins = d.wins
  free : d'.free = d.free
  pins : d'.pins = d.pins
  im : d'.im = d.im
  tb : d'.tb = d.tb
  lx : d'.lx = d.lx
  pc : d'.pc = d.pc
  fs : d'.fs = d.fs
  tm : d'.tm = d.tm
  bp : d'.bp = d.bp
  ce : d'.ce = d.ce
  px : d'.px = d.px
  mc : d'.mc.sansVec = d.mc.sansVec
  ob : d'.ob.sansTime = d.ob.sansTime
  rx : d'.rx.sansCoop = d.rx.sansCoop
  lagDist : d'.ul.lagDist = d.ul.lagDist
  sent : d'.ul.sent = d.ul.sent
  port : ∀ u, (d'.ulPort u).sansFc = (d.ulPort u).sansFc
  regs : ∀ a, reportAddr a = false → d'.regs.get? a = d.regs.get? a
  flags : ∀ r ∈ levelRegs, ∀ b, d.flag r b = true → d'.flag r b = true

theorem Dev.Kept.refl (d : Dev) : d.Kept d := by constructor <;> intros <;> first | rfl | assumption

theorem Dev.Kept.trans {a b c : Dev} (h : a.Kept b) (k : b.Kept c) : a.Kept c where

  wins := k.wins.trans h.wins
  free := k.free.trans h.free
  pins := k.pins.trans h.pins
  im := k.im.trans h.im
  tb := k.tb.trans h.tb
  lx := k.lx.trans h.lx
  pc := k.pc.trans h.pc
  fs := k.fs.trans h.fs
  tm := k.tm.trans h.tm
  bp := k.bp.trans h.bp
  ce := k.ce.trans h.ce
  px := k.px.trans h.px
  mc := k.mc.trans h.mc
  ob := k.ob.trans h.ob
  rx := k.rx.trans h.rx
  lagDist := k.lagDist.trans h.lagDist
  sent := k.sent.trans h.sent
  port u := (k.port u).trans (h.port u)
  regs a ha := (k.regs a ha).trans (h.regs a ha)
  flags r hr b hb := k.flags r hr b (h.flags r hr b hb)

/-- A flag that sets leaves the flags that are set. -/
theorem Dev.flag_setFld_up (d : Dev) {r q : Reg} (hr : r ∈ levelRegs) (hq : q ∈ levelRegs) {b i : Nat} (hb : b < 32)
    (h : d.flag q i = true) : (d.setFld r b b 1).flag q i = true := by
  by_cases hrq : r = q
  · subst hrq
    by_cases hi : i = b
    · subst hi
      exact Dev.flag_setFld d r i hb
    · rw [Dev.flag_setFld_ne _ _ _ _ _ _ hb (by omega) (by omega)]
      exact h
  · rw [Dev.flag, Dev.reg_setFld_ne _ _ _ _ _ _ (levelRegs_ne hr hq hrq)]
    exact h

theorem Dev.Kept.foldl {β : Type} {f : Dev → β → Dev} (h : ∀ (d : Dev) (b : β), d.Kept (f d b)) (l : List β) (d : Dev) :
    d.Kept (l.foldl f d) := by
  induction l generalizing d with
  | nil => exact Dev.Kept.refl d
  | cons b l ih => exact (h d b).trans (ih _)

theorem Dev.Kept.foldl_mem {β : Type} {f : Dev → β → Dev} (l : List β) (h : ∀ (d : Dev), ∀ b ∈ l, d.Kept (f d b)) (d : Dev) :
    d.Kept (l.foldl f d) := by
  induction l generalizing d with
  | nil => exact Dev.Kept.refl d
  | cons b l ih => exact (h d b (List.mem_cons_self ..)).trans (ih (fun d b hb => h d b (List.mem_cons_of_mem _ hb)) _)

theorem reportAddr_ob {a : Nat} (h : reportAddr a = false) : obAddr a = false := by
  simp only [reportAddr, Bool.or_eq_false_iff] at h
  exact h.1.1.1.1.1.1

/-- What leaves the observability state but for the event counters leaves it but for the counters and the samples. -/
theorem ObState.sansTime_congr {o p : ObState} (h : p.sansCnt = o.sansCnt) : p.sansTime = o.sansTime :=
  congrArg (fun x : ObState => { x with insBuf := [], insRun := [], coreDraw := 0 }) h

@[simp] theorem Dev.raise_obTime (d : Dev) (r : Reg) (b : Nat) : (d.raise r b).ob.sansTime = d.ob.sansTime :=
  ObState.sansTime_congr (d.raise_ob r b)
@[simp] theorem Dev.pcntGrow_obTime (d : Dev) (k n : Nat) : (d.pcntGrow k n).ob.sansTime = d.ob.sansTime :=
  ObState.sansTime_congr (d.pcntGrow_ob k n)
@[simp] theorem Dev.countBy_obTime (d : Dev) (k e n p m : Nat) : (Dev.countBy k d e n p m).ob.sansTime = d.ob.sansTime :=
  ObState.sansTime_congr (Dev.countBy_ob k d e n p m)
@[simp] theorem Dev.countN_obTime (d : Dev) (e n : Nat) : (d.countN e n).ob.sansTime = d.ob.sansTime :=
  ObState.sansTime_congr (d.countN_ob e n)

/-- A flag of a level register that sets. -/
theorem Dev.Kept.raise (d : Dev) (r : Reg) (b : Nat) (h : r ∈ levelRegs) (hb : b < 32) : d.Kept (d.raise r b) := by
  have ho := levelRegs_ob r h
  constructor <;> intros <;> try simp [Dev.ulPort]
  · rename_i a ha
    exact Dev.raise_get? d r b a (reportAddr_ob ha) (by rintro rfl; simp [ho.2] at ha)
  · rename_i q hq i hi
    have hu := Dev.flag_setFld_up d h hq hb hi
    by_cases hrq : r = q
    · subst hrq
      rw [Dev.flag, Dev.raise_reg_self _ _ _ ho.1]
      exact hu
    · rw [Dev.flag, Dev.raise_reg_ne _ _ _ _ (levelRegs_ob q hq).1 (levelRegs_ne h hq hrq)]
      exact hi

/-- A bit of a level register set. -/
theorem Dev.Kept.setBit (d : Dev) (r : Reg) (b : Nat) (h : r ∈ levelRegs) (hb : b < 32) : d.Kept (d.setFld r b b 1) := by
  have ho := levelRegs_ob r h
  constructor <;> intros <;> try simp [Dev.ulPort]
  · rename_i a ha
    exact Dev.get?_setFld_ne d r b b 1 a (by rintro rfl; simp [ho.2] at ha)
  · rename_i q hq i hi
    exact Dev.flag_setFld_up d h hq hb hi

theorem mem_levelRegs_gs {t : Nat} (h : t < 64) : R .GS_FLAGS t ∈ levelRegs := by
  simp only [levelRegs, List.mem_append, List.mem_map, List.mem_range]
  exact Or.inl (Or.inl (Or.inl (Or.inr ⟨t, h, rfl⟩)))

theorem mem_levelRegs_rf {r : Nat} (h : r < 8) : R .GS_RFLAGS r ∈ levelRegs := by
  simp only [levelRegs, List.mem_append, List.mem_map, List.mem_range]
  exact Or.inl (Or.inl (Or.inr ⟨r, h, rfl⟩))

theorem mem_levelRegs_lane {n : Nat} (h : n < 16) :
    (if n < 12 then R .LX_UL_FLAGS n else R .LX_ML_FLAGS (n - 12)) ∈ levelRegs := by
  simp only [levelRegs, List.mem_append, List.mem_map, List.mem_range]
  split
  · exact Or.inl (Or.inr ⟨n, ‹_›, rfl⟩)
  · exact Or.inr ⟨n - 12, by omega, rfl⟩

theorem mem_levelRegs_one {r : Reg} (h : r ∈ [R .TB_FLAGS, R .PX_FLAGS, R .FS_FLAGS, R .MC_FLAGS]) : r ∈ levelRegs := by
  simp only [levelRegs, List.mem_append]
  exact Or.inl (Or.inl (Or.inl (Or.inl h)))

theorem Dev.Kept.holdLevel (d : Dev) (c : Bool) (r : Reg) (b : Nat) (h : c = true → r ∈ levelRegs) (hb : b < 32) :
    d.Kept (d.holdLevel c r b) := by
  unfold Dev.holdLevel
  split
  · exact Dev.Kept.setBit d r b (h ‹_›) hb
  · exact Dev.Kept.refl d

theorem Dev.Kept.stepLevel (d : Dev) (x y : Bool) (r : Reg) (b : Nat) (h : r ∈ levelRegs) (hb : b < 32) :
    d.Kept (d.stepLevel x y r b) := by
  unfold Dev.stepLevel Dev.raiseLevel
  split
  · split
    · exact Dev.Kept.raise d r b h hb
    · exact Dev.Kept.setBit d r b h hb
  · exact Dev.Kept.refl d

theorem Dev.Kept.coopLevel (d : Dev) (r : Nat) (h : r < 8) : d.Kept (d.coopLevel r) := by
  unfold Dev.coopLevel
  split
  · split
    · exact Dev.Kept.setBit d _ 3 (mem_levelRegs_rf h) (by omega)
    · constructor <;> intros <;> first | rfl | assumption
  · exact Dev.Kept.refl d

/-- A programmable counter that grows. -/
theorem Dev.Kept.pcntGrow (d : Dev) (k n : Nat) (hk : k < 64) : d.Kept (d.pcntGrow k n) := by
  constructor <;> intros <;> try simp [Dev.ulPort]
  · rename_i a ha
    exact d.pcntGrow_get? k n a hk (reportAddr_ob ha)
  · rename_i q hq i hi
    rw [Dev.flag, Dev.reg_def, d.pcntGrow_get? k n _ hk (levelRegs_ob q hq).1]
    exact hi

/-- Occurrences that are counted. -/
theorem Dev.Kept.countN (d : Dev) (e n : Nat) : d.Kept (d.countN e n) := by
  constructor <;> intros <;> try simp [Dev.ulPort]
  · rename_i a ha
    exact d.countN_get? e n a (reportAddr_ob ha)
  · rename_i q hq i hi
    rw [Dev.flag, Dev.reg_def, d.countN_get? e n _ (levelRegs_ob q hq).1]
    exact hi

/-- The level conditions over the time of a step touch the programmable counters. -/
theorem Dev.levelTime_kept (d0 d : Dev) : d.Kept (Dev.levelTime d0 d) := by
  unfold Dev.levelTime
  refine Dev.Kept.foldl (fun d kv => ?_) _ _
  unfold Dev.levelStep
  extract_lets
  split
  · extract_lets
    split
    · exact (Dev.Kept.pcntGrow d _ _ (by omega)).trans (Dev.Kept.countN _ _ _)
    · exact Dev.Kept.refl d
  · exact Dev.Kept.refl d

/-- A flag of observability that sets. -/
theorem Dev.Kept.raiseOb (d : Dev) (r : Reg) (b : Nat) (h : obAddr r.addr = true) : d.Kept (d.raise r b) := by
  constructor <;> intros <;> try simp [Dev.ulPort]
  · rename_i a ha
    exact Dev.raise_get? d r b a (reportAddr_ob ha) (by rintro rfl; simp [reportAddr_ob ha] at h)
  · rename_i q hq i hi
    have hne : r.addr ≠ q.addr := fun hc => by simp [hc, (levelRegs_ob q hq).1] at h
    rw [Dev.flag, Dev.raise_reg_ne _ _ _ _ (levelRegs_ob q hq).1 hne]
    exact hi

/-- Occurrences that are counted, over several cycles too. -/
theorem Dev.Kept.countBy (d : Dev) (k e n p m : Nat) : d.Kept (Dev.countBy k d e n p m) := by
  constructor <;> intros <;> try simp [Dev.ulPort]
  · rename_i a ha
    exact Dev.countBy_get? k d e n p m a (reportAddr_ob ha)
  · rename_i q hq i hi
    rw [Dev.flag, Dev.reg_def, Dev.countBy_get? k d e n p m _ (levelRegs_ob q hq).1]
    exact hi

/-- What the cores' time leaves in the observability state. -/
theorem Dev.Kept.coreOb (d : Dev) (f : ObState → ObState) (h : ∀ o, (f o).sansTime = o.sansTime) : d.Kept (d.onOb f) := by
  constructor <;> intros <;> first | rfl | assumption | exact h _

theorem Dev.coreSample_kept (c k : Nat) (d : Dev) (left : Nat) : d.Kept (Dev.coreSample c k d left) := by
  induction k generalizing d left with
  | zero => exact Dev.Kept.refl d
  | succ k ih =>
    have he : d.Kept (d.coreEntry c) := by
      unfold Dev.coreEntry Dev.raiseIf
      extract_lets
      split
      · exact (Dev.Kept.coreOb d _ fun _ => by simp [ObState.sansTime, ObState.sansCnt]).trans (Dev.Kept.raiseOb _ _ _ (by decide))
      · exact Dev.Kept.coreOb d _ fun _ => by simp [ObState.sansTime, ObState.sansCnt]
    unfold Dev.coreSample
    split
    · exact Dev.Kept.refl d
    · extract_lets log2 x place done d1 d2
      have h1 : d.Kept d1 := by
        show d.Kept (if _ then _ else _)
        split
        · exact he
        · exact Dev.Kept.refl d
      exact (h1.trans (Dev.Kept.coreOb _ _ fun _ => by simp [ObState.sansTime, ObState.sansCnt])).trans (ih _ _)

theorem Dev.coreStep_kept (d0 d : Dev) (c : Nat) : d.Kept (Dev.coreStep d0 d c) := by
  unfold Dev.coreStep
  extract_lets n k runs idle busy retired d1 d2
  split
  · exact Dev.Kept.refl d
  · have h1 : d.Kept d2 := ((Dev.Kept.coreOb d _ fun _ => by simp [ObState.sansTime, ObState.sansCnt]).trans (Dev.Kept.countBy _ _ _ _ _ _)).trans
      (Dev.Kept.countBy _ _ _ _ _ _)
    split
    · exact h1.trans (Dev.coreSample_kept _ _ _ _)
    · exact h1

/-- The cores over the time of a step touch event counters and sampling buffers. -/
theorem Dev.coreTime_kept (d0 d : Dev) : d.Kept (Dev.coreTime d0 d) := by
  unfold Dev.coreTime upTo
  exact Dev.Kept.foldl (fun d c => Dev.coreStep_kept d0 d c) _ _

/-- In a step that lets no time pass the cores leave everything as it is. -/
theorem Dev.coreTime_still {d0 d : Dev} (h : d.tb.ticks = d0.tb.ticks) : Dev.coreTime d0 d = d := by
  unfold Dev.coreTime upTo
  have : ∀ (l : List Nat) (x : Dev), x.tb.ticks = d0.tb.ticks → l.foldl (fun d c => Dev.coreStep d0 d c) x = x := by
    intro l
    induction l with
    | nil => intros; rfl
    | cons c l ih =>
      intro x hx
      rw [List.foldl_cons, show Dev.coreStep d0 x c = x from by simp [Dev.coreStep, hx]]
      exact ih x hx
  exact this _ d h

/-- The level-set flags touch flags and event counters. -/
theorem Dev.levels_kept (d0 d : Dev) : d.Kept (Dev.levels d0 d) := by
  unfold Dev.levels
  extract_lets d1 d2 d3 d4 d5 d6
  have k1 : d.Kept d1 := (Dev.levelTime_kept d0 d).trans (Dev.coreTime_kept d0 _)
  have k2 : d1.Kept d2 := Dev.Kept.foldl (fun d n => by
    refine Dev.Kept.holdLevel d _ _ 5 (fun hc => ?_) (by omega)
    exact mem_levelRegs_lane (by simpa using hc)) _ _
  have k3 : d2.Kept d3 := Dev.Kept.foldl (fun d g => Dev.Kept.holdLevel d _ _ _ (fun hc => by
    simp only [Bool.and_eq_true, decide_eq_true_eq] at hc
    exact mem_levelRegs_gs hc.1) (by omega)) _ _
  have k4 : d3.Kept d4 := Dev.Kept.foldl_mem _ (fun d r hr => Dev.Kept.coopLevel d r (by simpa using hr)) _
  have k5 : d4.Kept d5 := (Dev.Kept.holdLevel _ _ _ _ (fun _ => mem_levelRegs_one (by simp)) (by omega)).trans
    (Dev.Kept.holdLevel _ _ _ _ (fun _ => mem_levelRegs_one (by simp)) (by omega))
  have k6 : d5.Kept d6 := Dev.Kept.stepLevel _ _ _ _ _ (mem_levelRegs_one (by simp)) (by omega)
  exact ((((k1.trans k2).trans k3).trans k4).trans k5).trans
    (k6.trans (Dev.Kept.stepLevel _ _ _ _ _ (mem_levelRegs_one (by simp)) (by omega)))

/-- Interrupt delivery touches the vectors and the messages sent. -/
theorem Dev.deliver_kept (d : Dev) : d.Kept d.deliver := by
  unfold Dev.deliver
  refine Dev.Kept.foldl (fun d i => ?_) _ _
  unfold Dev.deliverVec
  constructor <;> intros <;> first | rfl | assumption

/-- A statistic of a port that grows. -/
theorem Dev.Kept.ulStat (d : Dev) (u k n : Nat) : d.Kept (d.ulStat u k n) := by
  constructor <;> intros <;> first | rfl | assumption | skip
  rename_i w
  simp only [Dev.ulStat, Dev.onPort, Dev.ulPort, Dev.onUl, Table.getD_put]
  split <;> simp_all [UlPort.sansFc]

theorem Dev.sendFc_kept (d : Dev) (f : FcFrame) : d.Kept (d.sendFc f) := by
  unfold Dev.sendFc
  split
  · exact Dev.Kept.refl d
  · have h0 : d.Kept (d.onUl fun x => { x with fcSent := f :: x.fcSent }) := by
      constructor <;> intros <;> first | rfl | assumption
    exact ((h0.trans (Dev.Kept.ulStat _ _ _ _)).trans (Dev.Kept.ulStat _ _ _ _)).trans (Dev.Kept.ulStat _ _ _ _)

theorem Dev.fcPort_kept (d : Dev) (u : Nat) : d.Kept (d.fcPort u) := by
  have hx : ∀ n (t : UlPort → Table Nat), d.Kept (d.onPort u fun p => { p with xoff := n, fcAt := t p }) := fun n t => by
    constructor <;> intros <;> first | rfl | assumption | skip
    rename_i w
    simp only [Dev.onPort, Dev.ulPort, Dev.onUl, Table.getD_put]
    split <;> simp_all [UlPort.sansFc]
  rw [Dev.fcPort]
  dsimp only
  split
  · exact Dev.Kept.refl d
  · split
    · exact hx _ _
    · exact (hx _ _).trans (Dev.sendFc_kept _ _)

/-- Flow control touches the XOFF states and the statistics of ports, and the frames they send. -/
theorem Dev.fcEvaluate_kept (d : Dev) : d.Kept d.fcEvaluate := by
  unfold Dev.fcEvaluate
  exact Dev.Kept.foldl (fun d u => Dev.fcPort_kept d u) _ _

/-- No distributing set differs from the one last flushed for (R393). -/
def Dev.lagStill (d : Dev) : Prop := ∀ g < 8, d.ul.lagDist.getD g 0 = d.lagDist g

theorem Dev.lagSync_still {d : Dev} (h : d.lagStill) : d.lagSync = d := by
  let base : Nat → Nat → Nat := fun g m => bits (d.lagMember g m) 18 0
  have : ∀ l : List Nat, (∀ g ∈ l, g < 8) → l.foldl (fun d g =>
      let old := d.ul.lagDist.getD g 0
      let new := d.lagDist g
      if old = new then d
      else
        let d1 := d.onUl fun x => { x with lagDist := x.lagDist.put 0 g new }
        if d1.flag (R .UL_LAG_CFG g) 30 then
          upTo 8 d1 fun m d => if bit old m && !bit new m then d.lagFlush g (base g m) else d else d1) d = d := by
    intro l hl
    induction l with
    | nil => rfl
    | cons g l ih =>
      rw [List.foldl_cons, if_pos (h g (hl g (List.mem_cons_self ..)))]
      exact ih fun g hg => hl g (List.mem_cons_of_mem _ hg)
  exact this _ fun g hg => by simpa using hg

theorem Dev.Kept.reg {d d' : Dev} (h : d.Kept d') {r : Reg} (hr : reportAddr r.addr = false) : d'.reg r = d.reg r := by
  simp only [Dev.reg_def, h.regs _ hr]

theorem Dev.Kept.lagDist_eq {d d' : Dev} (h : d.Kept d') (g : Nat) (hg : g < 8) : d'.lagDist g = d.lagDist g := by
  have hr : ∀ m < 8, d'.lagMember g m = d.lagMember g m := fun m hm => h.reg (by
    have : (R .UL_LAG_MEMBER g m).addr = 0x3500010 + 0x40 * g + 4 * m := rfl
    interval_cases g <;> interval_cases m <;> decide)
  have hp : ∀ u, d'.portUp u = d.portUp u := fun u => by
    have := congrArg UlPort.state (h.port u)
    simp only [UlPort.sansFc] at this
    simp [Dev.portUp, Dev.portDef, h.im, this]
  unfold Dev.lagDist
  congr 1
  refine List.map_congr_left fun m hm => ?_
  simp only [List.mem_range] at hm
  simp only [Dev.lagDistributes, hr m hm, hp]

theorem Dev.Kept.still {d d' : Dev} (h : d.Kept d') (hs : d.lagStill) : d'.lagStill := fun g hg => by
  rw [h.lagDist, h.lagDist_eq g hg]
  exact hs g hg

theorem Dev.runKicks_nil {d : Dev} (h : d.kicks = []) (n : Nat) : d.runKicks n = d := by
  cases n with
  | zero => cases d; simp_all [Dev.runKicks]
  | succ n => simp [Dev.runKicks, h]

/-- With no window to run on and the distributing sets still, the step's end keeps what the command left. -/
theorem Dev.settle_kept (d0 : Dev) {d : Dev} (hk : d.kicks = []) (hl : d.lagStill) : d.Kept (Dev.settle d0 d) := by
  unfold Dev.settle
  split
  · constructor <;> intros <;> first | rfl | assumption
  · rw [Dev.runKicks_nil hk]
    refine Dev.Kept.trans ?_ (Dev.deliver_kept _)
    refine Dev.Kept.trans ?_ (Dev.levels_kept _ _)
    have hf : d.Kept (if d.alive then d.fcEvaluate else d) := by
      split
      · exact Dev.fcEvaluate_kept d
      · exact Dev.Kept.refl d
    rw [Dev.lagSync_still (hf.still hl)]
    exact hf

theorem Dev.sendFc_ob (d : Dev) (f : FcFrame) : (d.sendFc f).ob = d.ob := by
  unfold Dev.sendFc
  split
  · rfl
  · show (Dev.ulStat _ _ _ _).ob = _
    rfl

theorem Dev.fcPort_ob (d : Dev) (u : Nat) : (d.fcPort u).ob = d.ob := by
  rw [Dev.fcPort]
  dsimp only
  split
  · rfl
  · split
    · rfl
    · rw [Dev.sendFc_ob]
      rfl

theorem Dev.fcEvaluate_ob (d : Dev) : d.fcEvaluate.ob = d.ob := by
  unfold Dev.fcEvaluate
  exact foldl_keeps (·.ob) _ (fun d u => Dev.fcPort_ob d u) _ d

/-- In a step that lets no time pass the step's end keeps the observability state but for the event counters. -/
theorem Dev.settle_ob (d0 : Dev) {d : Dev} (hk : d.kicks = []) (hl : d.lagStill) (ht : d.tb.ticks = d0.tb.ticks) :
    (Dev.settle d0 d).ob.sansCnt = d.ob.sansCnt := by
  have hold : ∀ (d : Dev) c r b, (d.holdLevel c r b).ob = d.ob := fun d c r b => by unfold Dev.holdLevel; split <;> rfl
  have step : ∀ (d : Dev) x y r b, (d.stepLevel x y r b).ob.sansCnt = d.ob.sansCnt := fun d x y r b => by
    unfold Dev.stepLevel Dev.raiseLevel
    split
    · split
      · exact Dev.raise_ob _ _ _
      · rfl
    · rfl
  have coop : ∀ (d : Dev) r, (d.coopLevel r).ob = d.ob := fun d r => by
    unfold Dev.coopLevel
    split
    · split <;> rfl
    · rfl
  have time : ∀ (d : Dev), (Dev.levelTime d0 d).ob.sansCnt = d.ob.sansCnt := fun d => by
    unfold Dev.levelTime
    refine foldl_keeps (·.ob.sansCnt) _ (fun d kv => ?_) _ d
    unfold Dev.levelStep
    extract_lets
    split
    · extract_lets
      split
      · rw [Dev.countN_ob, Dev.pcntGrow_ob]
      · rfl
    · rfl
  have deliver : ∀ d : Dev, d.deliver.ob = d.ob := fun d => by
    unfold Dev.deliver
    exact foldl_keeps (·.ob) Dev.deliverVec (fun _ _ => rfl) _ d
  have levels : ∀ d : Dev, d.tb.ticks = d0.tb.ticks → (Dev.levels d0 d).ob.sansCnt = d.ob.sansCnt := fun d h => by
    unfold Dev.levels
    extract_lets d1 d2 d3 d4 d5 d6
    have h1 : d1.ob.sansCnt = d.ob.sansCnt := by
      show (Dev.coreTime d0 (Dev.levelTime d0 d)).ob.sansCnt = _
      rw [Dev.coreTime_still (by rw [(Dev.levelTime_kept d0 d).tb]; exact h), time]
    have h2 : d2.ob = d1.ob := foldl_keeps (·.ob) _ (fun d n => hold _ _ _ _) _ d1
    have h3 : d3.ob = d2.ob := foldl_keeps (·.ob) _ (fun d g => hold _ _ _ _) _ d2
    have h4 : d4.ob = d3.ob := upTo_keeps (·.ob) 8 _ (fun r d => coop d r) d3
    have h5 : d5.ob = d4.ob := (hold _ _ _ _).trans (hold _ _ _ _)
    rw [step, step, h5, h4, h3, h2, h1]
  unfold Dev.settle
  split
  · rfl
  · rw [Dev.runKicks_nil hk, deliver]
    have hf : d.Kept (if d.alive then d.fcEvaluate else d) := by
      split
      · exact Dev.fcEvaluate_kept d
      · exact Dev.Kept.refl d
    rw [Dev.lagSync_still (hf.still hl), levels _ (by rw [hf.tb]; exact ht)]
    split
    · rw [Dev.fcEvaluate_ob]
    · rfl

/-! ### Fields that the step's end keeps -/

theorem Dev.Kept.mc_cores {d d' : Dev} (h : d.Kept d') : d'.mc.cores = d.mc.cores := by have k := congrArg McState.cores h.mc; exact k
theorem Dev.Kept.mc_scratch {d d' : Dev} (h : d.Kept d') : d'.mc.scratch = d.mc.scratch := by have k := congrArg McState.scratch h.mc; exact k
theorem Dev.Kept.mc_scratchUe {d d' : Dev} (h : d.Kept d') : d'.mc.scratchUe = d.mc.scratchUe := by have k := congrArg McState.scratchUe h.mc; exact k
theorem Dev.Kept.mc_msix {d d' : Dev} (h : d.Kept d') : d'.mc.msix = d.mc.msix := by have k := congrArg McState.msix h.mc; exact k
theorem Dev.Kept.mc_history {d d' : Dev} (h : d.Kept d') : d'.mc.history = d.mc.history := by have k := congrArg McState.history h.mc; exact k
theorem Dev.Kept.mc_avsTarget {d d' : Dev} (h : d.Kept d') : d'.mc.avsTarget = d.mc.avsTarget := by have k := congrArg McState.avsTarget h.mc; exact k
theorem Dev.Kept.mc_marginDay {d d' : Dev} (h : d.Kept d') : d'.mc.marginDay = d.mc.marginDay := by have k := congrArg McState.marginDay h.mc; exact k
theorem Dev.Kept.mc_overCrit {d d' : Dev} (h : d.Kept d') : d'.mc.overCrit = d.mc.overCrit := by have k := congrArg McState.overCrit h.mc; exact k
theorem Dev.Kept.mc_flash {d d' : Dev} (h : d.Kept d') : d'.mc.flash = d.mc.flash := by have k := congrArg McState.flash h.mc; exact k
theorem Dev.Kept.mc_fuses {d d' : Dev} (h : d.Kept d') : d'.mc.fuses = d.mc.fuses := by have k := congrArg McState.fuses h.mc; exact k
theorem Dev.Kept.mc_runSlot {d d' : Dev} (h : d.Kept d') : d'.mc.runSlot = d.mc.runSlot := by have k := congrArg McState.runSlot h.mc; exact k
theorem Dev.Kept.mc_trial {d d' : Dev} (h : d.Kept d') : d'.mc.trial = d.mc.trial := by have k := congrArg McState.trial h.mc; exact k
theorem Dev.Kept.mc_rolledBack {d d' : Dev} (h : d.Kept d') : d'.mc.rolledBack = d.mc.rolledBack := by have k := congrArg McState.rolledBack h.mc; exact k
theorem Dev.Kept.mc_mgmtPause {d d' : Dev} (h : d.Kept d') : d'.mc.mgmtPause = d.mc.mgmtPause := by have k := congrArg McState.mgmtPause h.mc; exact k
theorem Dev.Kept.mc_mgmtStat {d d' : Dev} (h : d.Kept d') : d'.mc.mgmtStat = d.mc.mgmtStat := by have k := congrArg McState.mgmtStat h.mc; exact k
theorem Dev.Kept.mc_mgmtTx {d d' : Dev} (h : d.Kept d') : d'.mc.mgmtTx = d.mc.mgmtTx := by have k := congrArg McState.mgmtTx h.mc; exact k
theorem Dev.Kept.mc_aer {d d' : Dev} (h : d.Kept d') : d'.mc.aer = d.mc.aer := by have k := congrArg McState.aer h.mc; exact k
theorem Dev.Kept.mc_hostMem {d d' : Dev} (h : d.Kept d') : d'.mc.hostMem = d.mc.hostMem := by have k := congrArg McState.hostMem h.mc; exact k
theorem Dev.Kept.mc_completion {d d' : Dev} (h : d.Kept d') : d'.mc.completion = d.mc.completion := by have k := congrArg McState.completion h.mc; exact k
theorem Dev.Kept.mc_spOut {d d' : Dev} (h : d.Kept d') : d'.mc.spOut = d.mc.spOut := by have k := congrArg McState.spOut h.mc; exact k
theorem Dev.Kept.mc_wdt {d d' : Dev} (h : d.Kept d') : d'.mc.wdt = d.mc.wdt := by have k := congrArg McState.wdt h.mc; exact k
theorem Dev.Kept.mc_runSec {d d' : Dev} (h : d.Kept d') : d'.mc.runSec = d.mc.runSec := by have k := congrArg McState.runSec h.mc; exact k
theorem Dev.Kept.ob_mem {d d' : Dev} (h : d.Kept d') : d'.ob.mem = d.ob.mem := by have k := congrArg ObState.mem h.ob; exact k
theorem Dev.Kept.ob_failed {d d' : Dev} (h : d.Kept d') : d'.ob.failed = d.ob.failed := by have k := congrArg ObState.failed h.ob; exact k
theorem Dev.Kept.ob_staging {d d' : Dev} (h : d.Kept d') : d'.ob.staging = d.ob.staging := by have k := congrArg ObState.staging h.ob; exact k
theorem Dev.Kept.ob_nextSeq {d d' : Dev} (h : d.Kept d') : d'.ob.nextSeq = d.ob.nextSeq := by have k := congrArg ObState.nextSeq h.ob; exact k
theorem Dev.Kept.ob_lost {d d' : Dev} (h : d.Kept d') : d'.ob.lost = d.ob.lost := by have k := congrArg ObState.lost h.ob; exact k
theorem Dev.Kept.ob_loss {d d' : Dev} (h : d.Kept d') : d'.ob.loss = d.ob.loss := by have k := congrArg ObState.loss h.ob; exact k
theorem Dev.Kept.ob_opSec {d d' : Dev} (h : d.Kept d') : d'.ob.opSec = d.ob.opSec := by have k := congrArg ObState.opSec h.ob; exact k
theorem Dev.Kept.ob_cycle {d d' : Dev} (h : d.Kept d') : d'.ob.cycle = d.ob.cycle := by have k := congrArg ObState.cycle h.ob; exact k
theorem Dev.Kept.ob_pwrFail {d d' : Dev} (h : d.Kept d') : d'.ob.pwrFail = d.ob.pwrFail := by have k := congrArg ObState.pwrFail h.ob; exact k
theorem Dev.Kept.ob_todUnset {d d' : Dev} (h : d.Kept d') : d'.ob.todUnset = d.ob.todUnset := by have k := congrArg ObState.todUnset h.ob; exact k
theorem Dev.Kept.ob_stepped {d d' : Dev} (h : d.Kept d') : d'.ob.stepped = d.ob.stepped := by have k := congrArg ObState.stepped h.ob; exact k
theorem Dev.Kept.ob_cntHi {d d' : Dev} (h : d.Kept d') : d'.ob.cntHi = d.ob.cntHi := by have k := congrArg ObState.cntHi h.ob; exact k
theorem Dev.Kept.ob_partialNoted {d d' : Dev} (h : d.Kept d') : d'.ob.partialNoted = d.ob.partialNoted := by have k := congrArg ObState.partialNoted h.ob; exact k
theorem Dev.Kept.ob_statBind {d d' : Dev} (h : d.Kept d') : d'.ob.statBind = d.ob.statBind := by have k := congrArg ObState.statBind h.ob; exact k
theorem Dev.Kept.ob_stats {d d' : Dev} (h : d.Kept d') : d'.ob.stats = d.ob.stats := by have k := congrArg ObState.stats h.ob; exact k
theorem Dev.Kept.ob_pkt {d d' : Dev} (h : d.Kept d') : d'.ob.pkt = d.ob.pkt := by have k := congrArg ObState.pkt h.ob; exact k
theorem Dev.Kept.ob_pktRun {d d' : Dev} (h : d.Kept d') : d'.ob.pktRun = d.ob.pktRun := by have k := congrArg ObState.pktRun h.ob; exact k
theorem Dev.Kept.ob_pktRuns {d d' : Dev} (h : d.Kept d') : d'.ob.pktRuns = d.ob.pktRuns := by have k := congrArg ObState.pktRuns h.ob; exact k
theorem Dev.Kept.rx_tf {d d' : Dev} (h : d.Kept d') : d'.rx.tf = d.rx.tf := by have k := congrArg RxState.tf h.rx; exact k
theorem Dev.Kept.rx_pm {d d' : Dev} (h : d.Kept d') : d'.rx.pm = d.rx.pm := by have k := congrArg RxState.pm h.rx; exact k
theorem Dev.Kept.rx_rg {d d' : Dev} (h : d.Kept d') : d'.rx.rg = d.rx.rg := by have k := congrArg RxState.rg h.rx; exact k
theorem Dev.Kept.rx_terms {d d' : Dev} (h : d.Kept d') : d'.rx.terms = d.rx.terms := by have k := congrArg RxState.terms h.rx; exact k
theorem Dev.Kept.rx_profs {d d' : Dev} (h : d.Kept d') : d'.rx.profs = d.rx.profs := by have k := congrArg RxState.profs h.rx; exact k
theorem Dev.Kept.rx_disc {d d' : Dev} (h : d.Kept d') : d'.rx.disc = d.rx.disc := by have k := congrArg RxState.disc h.rx; exact k
theorem Dev.Kept.rx_tails {d d' : Dev} (h : d.Kept d') : d'.rx.tails = d.rx.tails := by have k := congrArg RxState.tails h.rx; exact k
theorem Dev.Kept.rx_psw {d d' : Dev} (h : d.Kept d') : d'.rx.psw = d.rx.psw := by have k := congrArg RxState.psw h.rx; exact k
theorem Dev.Kept.rx_bnd {d d' : Dev} (h : d.Kept d') : d'.rx.bnd = d.rx.bnd := by have k := congrArg RxState.bnd h.rx; exact k
theorem Dev.Kept.rx_gs {d d' : Dev} (h : d.Kept d') : d'.rx.gs = d.rx.gs := by have k := congrArg RxState.gs h.rx; exact k
theorem Dev.Kept.rx_days {d d' : Dev} (h : d.Kept d') : d'.rx.days = d.rx.days := by have k := congrArg RxState.days h.rx; exact k

end Sys2Proof.Machine

end
end

