-- ==== Sys2Proof/Laws/View.lean ====
section
/-! SUPPORT. Accesses and command windows: an access that is open reaches its register, and a command issued in a ready window is
accepted, runs at once, and its bank answers (R9, R53 to R57, R485). -/

section
set_option Elab.async false

namespace Sys2Proof.Machine

open Sys2Proof.Safety

/-! ### A VF's view -/

/-- The VF offsets and sizes of the ranges, which no VF's number moves. -/
def vfSpans : List (Nat × Nat) := (vfRanges 0).map fun x => (x.1, x.2.1)

theorem vfSpans_eq (s : Nat) : (vfRanges s).map (fun x => (x.1, x.2.1)) = vfSpans := rfl

theorem vfSpans_apart : vfSpans.Pairwise fun x y => x.1 + x.2 ≤ y.1 ∨ y.1 + y.2 ≤ x.1 := by decide +kernel

theorem vfSpans_aperture : ∀ x ∈ vfSpans, x.1 + x.2 ≤ 0x20000 ∨ 0x30000 ≤ x.1 := by decide +kernel

/-- A find over intervals that lie apart finds the one that holds the number. -/
theorem find?_apart {l : List (Nat × Nat × Nat)} (h : l.Pairwise fun x y => x.1 + x.2.1 ≤ y.1 ∨ y.1 + y.2.1 ≤ x.1)
    {x : Nat × Nat × Nat} (hx : x ∈ l) {n : Nat} (h1 : x.1 ≤ n) (h2 : n < x.1 + x.2.1) :
    l.find? (fun x => decide (x.1 ≤ n ∧ n < x.1 + x.2.1)) = some x := by
  induction l with
  | nil => cases hx
  | cons y l ih =>
    rw [List.pairwise_cons] at h
    rcases List.mem_cons.mp hx with rfl | hx'
    · simp [h1, h2]
    · have := h.1 x hx'
      rw [List.find?_cons_of_neg (by simp only [decide_eq_true_eq]; omega)]
      exact ih h.2 hx'

/-- A VF reaches a PF0 address at the offset at which it sees it (R485). -/
theorem vfToPf_of_pfToVf {s a off : Nat} (h : pfToVf s a = some off) : vfToPf s off = some a ∧ ¬(0x20000 ≤ off ∧ off < 0x30000) := by
  simp only [pfToVf, Option.map_eq_some_iff] at h
  obtain ⟨x, hx, rfl⟩ := h
  have hm := List.mem_of_find?_eq_some hx
  have hp := List.find?_some hx
  simp only [decide_eq_true_eq] at hp
  have hap : (vfRanges s).Pairwise fun x y => x.1 + x.2.1 ≤ y.1 ∨ y.1 + y.2.1 ≤ x.1 := by
    have := vfSpans_apart
    rw [← vfSpans_eq s, List.pairwise_map] at this
    exact this
  have hsp := vfSpans_aperture (x.1, x.2.1) (by rw [← vfSpans_eq s]; exact List.mem_map.mpr ⟨x, hm, rfl⟩)
  constructor
  · simp only [vfToPf, find?_apart hap hm (n := x.1 + (a - x.2.2)) (by omega) (by omega), Option.map_some]
    congr 1
    omega
  · dsimp only at hsp
    omega

/-! ### Register accesses -/

/-- Registers lie within the 64 MiB of the register space (R36). -/
theorem Reg.ofAddr_lt {a : Nat} {r : Reg} (h : Reg.ofAddr a = some r) : a < 0x4000000 := by
  by_contra hc
  have : regsNear a = [] := by
    unfold regsNear
    repeat rw [if_neg (by omega)]
  simp [Reg.ofAddr, this] at h

/-- A write of a register that is open to its source is the register's write. -/
theorem Dev.writeReg_open {d : Dev} {src : Src} {r : Reg} (h : opens d src r true = true) (v : Nat) :
    d.writeReg src r v = d.regWrite src r (v % 2 ^ 32) := by
  simp only [opens, Bool.and_eq_true, beq_iff_eq] at h
  obtain ⟨⟨⟨hb, ho⟩, hr⟩, hv⟩ := h
  have hp : d.placeAt r.addr = .reg r := by simp [Dev.placeAt, hr]
  unfold Dev.writeReg
  rw [if_neg (by simp [ho])]
  cases src with
  | vf s =>
    simp only [Bool.and_eq_true] at hv
    obtain ⟨off, hoff⟩ := Option.isSome_iff_exists.mp hv.1
    obtain ⟨h1, h2⟩ := vfToPf_of_pfToVf hoff
    simp [srcOff, hoff, Dev.busWrite, hb, h1, h2, hp, Dev.placeOpen, hv.2, Dev.placeWrite]
  | pf0 => simp [srcOff, Dev.busWrite, hb, hp, Dev.placeWrite]
  | core c =>
    have := Reg.ofAddr_lt ho
    simp [srcOff, Dev.busWrite, hb, hp, Dev.placeWrite, Nat.not_le.mpr this]
  | dma c => simp [srcOff, Dev.busWrite, hb, hp, Dev.placeWrite]

/-- A read of a register that is open to its source is the register's read. -/
theorem Dev.readReg_open {d : Dev} {src : Src} {r : Reg} (h : opens d src r false = true) : d.readReg src r = d.regRead src r := by
  simp only [opens, Bool.and_eq_true, beq_iff_eq] at h
  obtain ⟨⟨⟨hb, ho⟩, hr⟩, hv⟩ := h
  have hp : d.placeAt r.addr = .reg r := by simp [Dev.placeAt, hr]
  unfold Dev.readReg
  rw [if_neg (by simp [ho])]
  cases src with
  | vf s =>
    simp only [Bool.and_eq_true] at hv
    obtain ⟨off, hoff⟩ := Option.isSome_iff_exists.mp hv.1
    obtain ⟨h1, h2⟩ := vfToPf_of_pfToVf hoff
    simp [srcOff, hoff, Dev.busRead, hb, h1, h2, hp, Dev.placeOpen, hv.2, Dev.placeRead]
  | pf0 => simp [srcOff, Dev.busRead, hb, hp, Dev.placeRead]
  | core c =>
    have := Reg.ofAddr_lt ho
    simp [srcOff, Dev.busRead, hb, hp, Dev.placeRead, Nat.not_le.mpr this]
  | dma c => simp [srcOff, Dev.busRead, hb, hp, Dev.placeRead]

theorem Dev.mayWrite_eq (d : Dev) (src : Src) (r : Reg) : d.mayWrite src r = opens d src r true := rfl

/-! ### Command windows -/

/-- The windows. -/
def allWins : List Win :=
  [Win.im, .upd, .ob, .tb, .px, .pc, .fs, .tm, .bp, .ce] ++ (List.range 8).map Win.tf ++ (List.range 8).map Win.rg ++
    (List.range 64).map Win.gs

theorem mem_allWins {w : Win} (h : winNumber w = true) : w ∈ allWins := by
  cases w <;> simp_all [winNumber, allWins]

/-- No register lies at the first ten words of a window, each of which is the window's. -/
def winWords (w : Win) : Bool :=
  (List.range 10).all fun k => (Reg.ofAddr (w.base + 4 * k)).isNone && winAt (w.base + 4 * k) == some (w, 4 * k) && (w.base + 4 * k) % 4 == 0

theorem winWords_1 : (allWins.take 18).all winWords = true := by decide +kernel
theorem winWords_2 : ((allWins.drop 18).take 24).all winWords = true := by decide +kernel
theorem winWords_3 : ((allWins.drop 42).take 24).all winWords = true := by decide +kernel
theorem winWords_4 : (allWins.drop 66).all winWords = true := by decide +kernel

/-- No register lies in a window, and each of a command's words lies in it. -/
theorem allWins_words : ∀ w ∈ allWins, ∀ k < 10, Reg.ofAddr (w.base + 4 * k) = none ∧ winAt (w.base + 4 * k) = some (w, 4 * k) ∧
    (w.base + 4 * k) % 4 = 0 := by
  intro w hw k hk
  have h : winWords w = true := by
    rw [show allWins = allWins.take 18 ++ ((allWins.drop 18).take 24 ++ ((allWins.drop 42).take 24 ++ allWins.drop 66)) from rfl] at hw
    simp only [List.mem_append] at hw
    rcases hw with hw | hw | hw | hw
    · exact List.all_eq_true.mp winWords_1 w hw
    · exact List.all_eq_true.mp winWords_2 w hw
    · exact List.all_eq_true.mp winWords_3 w hw
    · exact List.all_eq_true.mp winWords_4 w hw
  have h := List.all_eq_true.mp h k (List.mem_range.mpr hk)
  simp only [Bool.and_eq_true, Option.isNone_iff_eq_none, beq_iff_eq] at h
  exact ⟨h.1.1, h.1.2, h.2⟩

/-- The ranges of a VF's view but the first, which alone depends on the VF. -/
def vfTail : List (Nat × Nat × Nat) := (vfRanges 0).drop 1

theorem vfRanges_eq (s : Nat) : vfRanges s = (0x0, 0x4000, vfPage s) :: vfTail := rfl

/-- The offset at which a VF sees an open window, and its words there. -/
theorem vfTail_words : ∀ w ∈ allWins, w = .im ∨ w = .upd ∨ w = .pc ∨ (0x100000 ≤ w.base ∧
    ∃ x ∈ vfTail, (vfTail.find? fun x => decide (x.2.2 ≤ w.base ∧ w.base < x.2.2 + x.2.1)) = some x ∧
      0x4000 ≤ x.1 ∧ x.2.2 ≤ w.base ∧ w.base + 40 ≤ x.2.2 + x.2.1) := by decide +kernel

theorem vfPage_lt {s : Nat} (h : s < 16) : vfPage s + 0x4000 ≤ 0x100000 := by
  interval_cases s <;> decide

/-- A VF reaches the words of a window that its view maps (R485). -/
theorem vf_window {s : Nat} (hs : s < 16) {w : Win} (hw : w ∈ allWins) (h1 : w ≠ .im) (h2 : w ≠ .upd) (h3 : w ≠ .pc) :
    ∃ off, pfToVf s w.base = some off ∧ ∀ k < 10, vfToPf s (off + 4 * k) = some (w.base + 4 * k) ∧
      ¬(0x20000 ≤ off + 4 * k ∧ off + 4 * k < 0x30000) := by
  rcases vfTail_words w hw with h | h | h | ⟨hb, x, hx, hf, ho, hlo, hhi⟩
  · exact absurd h h1
  · exact absurd h h2
  · exact absurd h h3
  have hp := vfPage_lt hs
  have hpf : pfToVf s w.base = some (x.1 + (w.base - x.2.2)) := by
    rw [pfToVf, vfRanges_eq, List.find?_cons_of_neg (by simp only [decide_eq_true_eq]; omega), hf]
    rfl
  refine ⟨_, hpf, fun k hk => ?_⟩
  have hm : x ∈ vfRanges s := by rw [vfRanges_eq]; exact List.mem_cons_of_mem _ hx
  have hap : (vfRanges s).Pairwise fun x y => x.1 + x.2.1 ≤ y.1 ∨ y.1 + y.2.1 ≤ x.1 := by
    have := vfSpans_apart
    rw [← vfSpans_eq s, List.pairwise_map] at this
    exact this
  have hsp := vfSpans_aperture (x.1, x.2.1) (by rw [← vfSpans_eq s]; exact List.mem_map.mpr ⟨x, hm, rfl⟩)
  constructor
  · rw [vfToPf, find?_apart hap hm (n := x.1 + (w.base - x.2.2) + 4 * k) (by omega) (by omega)]
    simp only [Option.map_some, Option.some.injEq]
    omega
  · dsimp only at hsp
    omega

/-- What a source needs to reach a window. -/
def Dev.sees (d : Dev) (w : Win) (src : Src) : Bool :=
  d.busUp src && d.answers w.base && d.winThere w && match src with
    | .vf s => d.winOpen s w
    | _ => true

/-- Where a window answers, each of its words does. -/
theorem Dev.answers_word {d : Dev} {w : Win} (hw : w ∈ allWins) (h : d.answers w.base = true) {k : Nat} (hk : k < 10) :
    d.answers (w.base + 4 * k) = true := by
  have hb : ∀ w ∈ allWins, w.base < 0x100000 ∧ w.base + 40 ≤ 0x100000 ∨ 0x100000 ≤ w.base ∧ (w.base < 0x800000 ∧ w.base + 40 ≤ 0x800000 ∨
      0x800000 ≤ w.base ∧ (w.base < 0x1000000 ∧ w.base + 40 ≤ 0x1000000 ∨ 0x1000000 ≤ w.base)) := by decide +kernel
  have := hb w hw
  unfold Dev.answers at h ⊢
  split at h
  · exact h
  · simp only [decide_eq_true_eq] at h ⊢
    omega
  · rfl

/-- A word written to a window that its source sees is a write of the bank's word. -/
theorem Dev.busWrite_win {d : Dev} {w : Win} {src : Src} (hw : w ∈ allWins) (h : d.sees w src = true) (fails : Bool) {off : Nat}
    (hoff : srcOff src w.base = some off) {k : Nat} (hk : k < 10) (v : Nat) :
    d.busWrite fails src (off + 4 * k) 15 v = d.bankWrite fails w src (4 * k) (v % 2 ^ 32) := by
  simp only [Dev.sees, Bool.and_eq_true] at h
  obtain ⟨⟨⟨hb, ha⟩, ht⟩, hv⟩ := h
  obtain ⟨hn, hwin, h4⟩ := allWins_words w hw k hk
  have hp : d.placeAt (w.base + 4 * k) = .win w (4 * k) := by
    have hr : d.regAt (w.base + 4 * k) = none := by simp [Dev.regAt, hn]
    simp [Dev.placeAt, hr, Dev.answers_word hw ha hk, h4, hwin, ht]
  cases src with
  | vf s =>
    have hs : s < 16 := by
      simp only [Dev.busUp, Bool.and_eq_true, decide_eq_true_eq] at hb
      exact hb.2.1.2
    have h1 : w ≠ .im := by rintro rfl; simp [Dev.winOpen] at hv
    have h2 : w ≠ .upd := by rintro rfl; simp [Dev.winOpen] at hv
    have h3 : w ≠ .pc := by rintro rfl; simp [Dev.winOpen] at hv
    obtain ⟨off', ho, hk'⟩ := vf_window hs hw h1 h2 h3
    have : off' = off := by
      simp only [srcOff, ho, Option.some.injEq] at hoff
      exact hoff
    subst this
    obtain ⟨hq, hq'⟩ := hk' k hk
    simp [Dev.busWrite, hb, hq, hq', hp, Dev.placeOpen, hv, Dev.placeWrite]
  | pf0 =>
    cases hoff
    simp [Dev.busWrite, hb, hp, Dev.placeWrite]
  | core c =>
    cases hoff
    have hlt : ∀ w ∈ allWins, w.base + 40 ≤ 0x4000000 := by decide +kernel
    have := hlt w hw
    simp [Dev.busWrite, hb, hp, Dev.placeWrite, show ¬67108864 ≤ w.base + 4 * k by omega]
  | dma c =>
    cases hoff
    simp [Dev.busWrite, hb, hp, Dev.placeWrite]

end Sys2Proof.Machine

end
end

