-- ==== Sys2Proof/Laws/Window.lean ====
section
/-! SUPPORT. Command windows: a command issued in a ready window is accepted, runs at once, and its bank answers (R53 to R57). -/

section
set_option Elab.async false

namespace Sys2Proof.Machine

open Sys2Proof.Safety

/-- The device with a command accepted in a window: the bank holds the arguments and is busy, and the command runs. -/
def Dev.accepted (d : Dev) (w : Win) (op : Nat) (c : CmdArgs) : Dev :=
  d.onWin w fun x =>
    { x.onBank (bankOf c.src) fun b =>
        { b with
          data := words c
          obj := c.obj % 2 ^ 32
          seq := c.seq % 256
          opcode := op
          busy := true
          done := false
          status := 0
          echoSeq := c.seq % 256 } with
      queue := [latched op c] }

theorem Dev.sees_onWin (d : Dev) (w w' : Win) (src : Src) (f : Window → Window) : (d.onWin w f).sees w' src = d.sees w' src := by
  cases src <;> rfl

theorem set8 {l : List Nat} (h : l.length = 8) (f : Nat → Nat) :
    (((((((l.set 0 (f 0)).set 1 (f 1)).set 2 (f 2)).set 3 (f 3)).set 4 (f 4)).set 5 (f 5)).set 6 (f 6)).set 7 (f 7) =
      (List.range 8).map f := by
  match l, h with
  | [_, _, _, _, _, _, _, _], _ => rfl

/-- A bank with one data word written. -/
def Bank.putWord (k v : Nat) (b : Bank) : Bank := { b with data := b.data.set k v }

/-- A bank with its object written. -/
def Bank.putObj (v : Nat) (b : Bank) : Bank := { b with obj := v }

/-- A bank with its opcode and SEQ written. -/
def Bank.putOp (seq op : Nat) (b : Bank) : Bank := { b with seq := seq, opcode := op }

/-- A bank whose command is accepted. -/
def Bank.take (b : Bank) : Bank := { b with busy := true, done := false, status := 0, echoSeq := b.seq }

/-- A window changed by functions that agree on it. -/
theorem Dev.onWin_congr {d : Dev} {w : Win} {f g : Window → Window} (h : f (d.win w) = g (d.win w)) : d.onWin w f = d.onWin w g := by
  simp [Dev.onWin, h]

/-- One command in a window that waits for nothing runs. -/
theorem Dev.runWin_one {d : Dev} {w : Win} {a : Accepted} (hw : (d.win w).waiting = false) (hq : (d.win w).queue = [a]) (fails : Bool) :
    d.runWin fails 1 w = d.finish w a (runOp fails w a d) := by
  simp only [Dev.runWin, hw, hq, Bool.false_eq_true, if_false]

/-- A GO in an idle window. -/
theorem Dev.issue_idle {d : Dev} {w : Win} (hq : (d.win w).queue = []) (hw : (d.win w).waiting = false) (fails : Bool) (w' : Win)
    (src : Src) (f : Bank → Bank) (hb : (f ((d.win w).bank (bankOf src))).busy = false) (hww : w' = w := by rfl) :
    (d.onWin w fun x => x.onBank (bankOf src) f).issue fails w' src =
      let b := f ((d.win w).bank (bankOf src))
      let a : Accepted := ⟨src, b.opcode, b.seq, b.obj, b.data, false⟩
      let e := d.onWin w fun x => { x.onBank (bankOf src) fun b => (f b).take with queue := x.queue ++ [a] }
      e.finish w a (runOp fails w a e) := by
  subst hww
  unfold Dev.issue
  simp only [Dev.win_onWin, Window.bank_onBank, hb, Bool.false_eq_true, if_false, Dev.onWin_onWin, Window.onBank_onBank,
    Window.onBank_queue, hq, List.nil_append, List.length_singleton]
  rw [Dev.runWin_one (a := ⟨src, (f ((d.win w').bank (bankOf src))).opcode, (f ((d.win w').bank (bankOf src))).seq,
    (f ((d.win w').bank (bankOf src))).obj, (f ((d.win w').bank (bankOf src))).data, false⟩) (by simp [hw]) (by simp [hq])]
  rfl

/-- A command issued in a ready window is accepted and runs at once. -/
theorem Dev.command_ready {d : Dev} {w : Win} {c : CmdArgs} (h : ready d w c.src = true) (fails : Bool) (op : Nat) (hop : op < 256) :
    d.command fails w op c = (d.accepted w op c).finish w (latched op c) (runOp fails w (latched op c) (d.accepted w op c)) := by
  simp only [ready, Bool.and_eq_true, Bool.not_eq_true', beq_iff_eq, List.isEmpty_iff] at h
  obtain ⟨⟨⟨⟨⟨⟨⟨⟨hn, hb⟩, ha⟩, ht⟩, hq⟩, hw⟩, hbusy⟩, hlen⟩, hv⟩ := h
  have hmem := mem_allWins hn
  have hs : d.sees w c.src = true := by simp only [Dev.sees, hb, ha, ht, Bool.and_true, Bool.true_and]; exact hv
  obtain ⟨off, hoff⟩ : ∃ off, srcOff c.src w.base = some off := by
    cases hc : c.src with
    | vf s =>
      rw [hc] at hv hb
      have hs : s < 16 := by
        simp only [Dev.busUp, Bool.and_eq_true, decide_eq_true_eq] at hb
        exact hb.2.1.2
      obtain ⟨off, ho, -⟩ := vf_window hs hmem (by rintro rfl; simp [Dev.winOpen] at hv) (by rintro rfl; simp [Dev.winOpen] at hv)
        (by rintro rfl; simp [Dev.winOpen] at hv)
      exact ⟨off, ho⟩
    | pf0 => exact ⟨_, rfl⟩
    | core c => exact ⟨_, rfl⟩
    | dma c => exact ⟨_, rfl⟩
  have hcmd : d.command fails w op c =
      ((List.range 10).zip (cmdWords op c)).foldl (fun d x => d.busWrite fails c.src (off + 4 * x.1) 15 x.2) d := by
    unfold Dev.command
    rw [hoff]
  have hz : (List.range 10).zip (cmdWords op c) =
      (List.range 8).map (fun i => (i, c.data.getD i 0)) ++ [(8, c.obj), (9, 2 ^ 31 + c.seq % 256 * 2 ^ 8 + op)] := rfl
  have hw' : ∀ (x : Dev) (k v : Nat), k < 8 → x.bankWrite fails w c.src (4 * k) v =
      x.onWin w fun x => x.onBank (bankOf c.src) (Bank.putWord k v) := fun x k v hk => by
    unfold Dev.bankWrite
    rw [if_pos (by omega)]
    dsimp only
    rw [show 4 * k / 4 = k by omega]
    rfl
  have hd0 : d.busWrite fails c.src (off + 4 * 0) 15 (c.data.getD 0 0) =
      d.onWin w fun x => x.onBank (bankOf c.src) (Bank.putWord 0 (c.data.getD 0 0 % 2 ^ 32)) := by
    rw [Dev.busWrite_win hmem hs fails hoff (by omega), hw' _ _ _ (by omega)]
  have hd : ∀ k, 0 < k → k < 8 → ∀ (f : Bank → Bank) (v : Nat),
      (d.onWin w fun x => x.onBank (bankOf c.src) f).busWrite fails c.src (off + 4 * k) 15 v =
      d.onWin w fun x => x.onBank (bankOf c.src) fun b => Bank.putWord k (v % 2 ^ 32) (f b) := fun k _ hk f v => by
    rw [Dev.busWrite_win hmem (by rw [Dev.sees_onWin]; exact hs) fails hoff (by omega), hw' _ _ _ hk, Dev.onWin_onWin]
    simp only [Window.onBank_onBank]
  have e8 : (List.range 8).map (fun i => (i, c.data.getD i 0)) = [(0, c.data.getD 0 0), (1, c.data.getD 1 0), (2, c.data.getD 2 0),
      (3, c.data.getD 3 0), (4, c.data.getD 4 0), (5, c.data.getD 5 0), (6, c.data.getD 6 0), (7, c.data.getD 7 0)] := rfl
  rw [hcmd, hz, List.foldl_append, e8]
  simp only [List.foldl_cons, List.foldl_nil]
  rw [hd0, hd 1 (by omega) (by omega), hd 2 (by omega) (by omega), hd 3 (by omega) (by omega), hd 4 (by omega) (by omega),
    hd 5 (by omega) (by omega), hd 6 (by omega) (by omega), hd 7 (by omega) (by omega)]
  have ho : ∀ (f : Bank → Bank) (v : Nat), (d.onWin w fun x => x.onBank (bankOf c.src) f).busWrite fails c.src (off + 4 * 8) 15 v =
      d.onWin w fun x => x.onBank (bankOf c.src) fun b => Bank.putObj (v % 2 ^ 32) (f b) := fun f v => by
    have : ∀ v, (d.onWin w fun x => x.onBank (bankOf c.src) f).bankWrite fails w c.src (4 * 8) v =
      (d.onWin w fun x => x.onBank (bankOf c.src) f).onWin w fun x => x.onBank (bankOf c.src) (Bank.putObj v) := fun v => by
      unfold Dev.bankWrite
      rw [if_neg (by omega), if_pos (by omega)]
      rfl
    rw [Dev.busWrite_win hmem (by rw [Dev.sees_onWin]; exact hs) fails hoff (by omega), this, Dev.onWin_onWin]
    simp only [Window.onBank_onBank]
  rw [ho,
    Dev.busWrite_win hmem (by rw [Dev.sees_onWin]; exact hs) fails hoff (by omega)]
  have hgo : (2 ^ 31 + c.seq % 256 * 2 ^ 8 + op) % 2 ^ 32 = 2 ^ 31 + c.seq % 256 * 2 ^ 8 + op := by omega
  have hseq : bits (2 ^ 31 + c.seq % 256 * 2 ^ 8 + op) 15 8 = c.seq % 256 := by simp only [bits]; omega
  have hopc : bits (2 ^ 31 + c.seq % 256 * 2 ^ 8 + op) 7 0 = op := by simp only [bits]; omega
  have hbit : bit (2 ^ 31 + c.seq % 256 * 2 ^ 8 + op) 31 = true := by
    simp only [bit, beq_iff_eq]
    omega
  have hg : ∀ (x : Dev) (v : Nat), x.bankWrite fails w c.src (4 * 9) v =
      if bit v 31 then (x.onWin w fun x => x.onBank (bankOf c.src) (Bank.putOp (bits v 15 8) (bits v 7 0))).issue fails w c.src
      else x.onWin w fun x => x.onBank (bankOf c.src) (Bank.putOp (bits v 15 8) (bits v 7 0)) := fun _ _ => rfl
  rw [hgo, hg, if_pos hbit, hseq, hopc, Dev.onWin_onWin]
  simp only [Window.onBank_onBank]
  rw [Dev.issue_idle hq hw fails w c.src _ (by exact hbusy)]
  have hset := set8 hlen fun i => c.data.getD i 0 % 2 ^ 32
  have hbank : ∀ b : Bank, b = (d.win w).bank (bankOf c.src) → (Bank.putOp (c.seq % 256) op
      (Bank.putObj (c.obj % 2 ^ 32) (Bank.putWord 7 (c.data.getD 7 0 % 2 ^ 32) (Bank.putWord 6 (c.data.getD 6 0 % 2 ^ 32)
      (Bank.putWord 5 (c.data.getD 5 0 % 2 ^ 32) (Bank.putWord 4 (c.data.getD 4 0 % 2 ^ 32) (Bank.putWord 3 (c.data.getD 3 0 % 2 ^ 32)
      (Bank.putWord 2 (c.data.getD 2 0 % 2 ^ 32) (Bank.putWord 1 (c.data.getD 1 0 % 2 ^ 32) (Bank.putWord 0 (c.data.getD 0 0 % 2 ^ 32)
      b)))))))))) = { b with data := words c, obj := c.obj % 2 ^ 32, seq := c.seq % 256, opcode := op } := by
    rintro b rfl
    simp only [Bank.putOp, Bank.putObj, Bank.putWord]
    rw [hset]
    rfl
  have hE : ∀ a : Accepted, a = latched op c → (d.onWin w fun x =>
      { x.onBank (bankOf c.src) fun b => (Bank.putOp (c.seq % 256) op
      (Bank.putObj (c.obj % 2 ^ 32) (Bank.putWord 7 (c.data.getD 7 0 % 2 ^ 32) (Bank.putWord 6 (c.data.getD 6 0 % 2 ^ 32)
      (Bank.putWord 5 (c.data.getD 5 0 % 2 ^ 32) (Bank.putWord 4 (c.data.getD 4 0 % 2 ^ 32) (Bank.putWord 3 (c.data.getD 3 0 % 2 ^ 32)
      (Bank.putWord 2 (c.data.getD 2 0 % 2 ^ 32) (Bank.putWord 1 (c.data.getD 1 0 % 2 ^ 32) (Bank.putWord 0 (c.data.getD 0 0 % 2 ^ 32)
      b)))))))))).take with queue := x.queue ++ [a] }) = d.accepted w op c := by
    rintro a rfl
    refine Dev.onWin_congr ?_
    simp only [Window.onBank, hbank _ rfl, hq, List.nil_append]
    rfl
  have hA : (⟨c.src, op, c.seq % 256, c.obj % 2 ^ 32, words c, false⟩ : Accepted) = latched op c := rfl
  dsimp only
  rw [hbank _ rfl]
  dsimp only
  rw [hA, hE _ rfl]

/-! ### The answer -/

@[simp] theorem Dev.accepted_kicks (d : Dev) (w : Win) (op : Nat) (c : CmdArgs) : (d.accepted w op c).kicks = d.kicks := (rfl)
@[simp] theorem Dev.accepted_free (d : Dev) (w : Win) (op : Nat) (c : CmdArgs) : (d.accepted w op c).free = d.free := (rfl)
@[simp] theorem Dev.accepted_pins (d : Dev) (w : Win) (op : Nat) (c : CmdArgs) : (d.accepted w op c).pins = d.pins := (rfl)
@[simp] theorem Dev.accepted_im (d : Dev) (w : Win) (op : Nat) (c : CmdArgs) : (d.accepted w op c).im = d.im := (rfl)
@[simp] theorem Dev.accepted_tb (d : Dev) (w : Win) (op : Nat) (c : CmdArgs) : (d.accepted w op c).tb = d.tb := (rfl)
@[simp] theorem Dev.accepted_mc (d : Dev) (w : Win) (op : Nat) (c : CmdArgs) : (d.accepted w op c).mc = d.mc := (rfl)
@[simp] theorem Dev.accepted_ob (d : Dev) (w : Win) (op : Nat) (c : CmdArgs) : (d.accepted w op c).ob = d.ob := (rfl)
@[simp] theorem Dev.accepted_lx (d : Dev) (w : Win) (op : Nat) (c : CmdArgs) : (d.accepted w op c).lx = d.lx := (rfl)
@[simp] theorem Dev.accepted_rx (d : Dev) (w : Win) (op : Nat) (c : CmdArgs) : (d.accepted w op c).rx = d.rx := (rfl)
@[simp] theorem Dev.accepted_pc (d : Dev) (w : Win) (op : Nat) (c : CmdArgs) : (d.accepted w op c).pc = d.pc := (rfl)
@[simp] theorem Dev.accepted_fs (d : Dev) (w : Win) (op : Nat) (c : CmdArgs) : (d.accepted w op c).fs = d.fs := (rfl)
@[simp] theorem Dev.accepted_tm (d : Dev) (w : Win) (op : Nat) (c : CmdArgs) : (d.accepted w op c).tm = d.tm := (rfl)
@[simp] theorem Dev.accepted_bp (d : Dev) (w : Win) (op : Nat) (c : CmdArgs) : (d.accepted w op c).bp = d.bp := (rfl)
@[simp] theorem Dev.accepted_ce (d : Dev) (w : Win) (op : Nat) (c : CmdArgs) : (d.accepted w op c).ce = d.ce := (rfl)
@[simp] theorem Dev.accepted_ul (d : Dev) (w : Win) (op : Nat) (c : CmdArgs) : (d.accepted w op c).ul = d.ul := (rfl)
@[simp] theorem Dev.accepted_px (d : Dev) (w : Win) (op : Nat) (c : CmdArgs) : (d.accepted w op c).px = d.px := (rfl)
@[simp] theorem Dev.accepted_regs (d : Dev) (w : Win) (op : Nat) (c : CmdArgs) : (d.accepted w op c).regs = d.regs := (rfl)
@[simp] theorem Dev.accepted_reg (d : Dev) (w : Win) (op : Nat) (c : CmdArgs) (r : Reg) : (d.accepted w op c).reg r = d.reg r := (rfl)
@[simp] theorem Dev.complete_kicks (d : Dev) (w : Win) (a : Accepted) (st : Status) (out : List (Nat × Nat)) :
    (d.complete w a st out).kicks = d.kicks := (rfl)
@[simp] theorem Dev.complete_free (d : Dev) (w : Win) (a : Accepted) (st : Status) (out : List (Nat × Nat)) :
    (d.complete w a st out).free = d.free := (rfl)
@[simp] theorem Dev.complete_pins (d : Dev) (w : Win) (a : Accepted) (st : Status) (out : List (Nat × Nat)) :
    (d.complete w a st out).pins = d.pins := (rfl)
@[simp] theorem Dev.complete_im (d : Dev) (w : Win) (a : Accepted) (st : Status) (out : List (Nat × Nat)) :
    (d.complete w a st out).im = d.im := (rfl)
@[simp] theorem Dev.complete_tb (d : Dev) (w : Win) (a : Accepted) (st : Status) (out : List (Nat × Nat)) :
    (d.complete w a st out).tb = d.tb := (rfl)
@[simp] theorem Dev.complete_mc (d : Dev) (w : Win) (a : Accepted) (st : Status) (out : List (Nat × Nat)) :
    (d.complete w a st out).mc = d.mc := (rfl)
@[simp] theorem Dev.complete_ob (d : Dev) (w : Win) (a : Accepted) (st : Status) (out : List (Nat × Nat)) :
    (d.complete w a st out).ob = d.ob := (rfl)
@[simp] theorem Dev.complete_lx (d : Dev) (w : Win) (a : Accepted) (st : Status) (out : List (Nat × Nat)) :
    (d.complete w a st out).lx = d.lx := (rfl)
@[simp] theorem Dev.complete_rx (d : Dev) (w : Win) (a : Accepted) (st : Status) (out : List (Nat × Nat)) :
    (d.complete w a st out).rx = d.rx := (rfl)
@[simp] theorem Dev.complete_pc (d : Dev) (w : Win) (a : Accepted) (st : Status) (out : List (Nat × Nat)) :
    (d.complete w a st out).pc = d.pc := (rfl)
@[simp] theorem Dev.complete_fs (d : Dev) (w : Win) (a : Accepted) (st : Status) (out : List (Nat × Nat)) :
    (d.complete w a st out).fs = d.fs := (rfl)
@[simp] theorem Dev.complete_tm (d : Dev) (w : Win) (a : Accepted) (st : Status) (out : List (Nat × Nat)) :
    (d.complete w a st out).tm = d.tm := (rfl)
@[simp] theorem Dev.complete_bp (d : Dev) (w : Win) (a : Accepted) (st : Status) (out : List (Nat × Nat)) :
    (d.complete w a st out).bp = d.bp := (rfl)
@[simp] theorem Dev.complete_ce (d : Dev) (w : Win) (a : Accepted) (st : Status) (out : List (Nat × Nat)) :
    (d.complete w a st out).ce = d.ce := (rfl)
@[simp] theorem Dev.complete_ul (d : Dev) (w : Win) (a : Accepted) (st : Status) (out : List (Nat × Nat)) :
    (d.complete w a st out).ul = d.ul := (rfl)
@[simp] theorem Dev.complete_px (d : Dev) (w : Win) (a : Accepted) (st : Status) (out : List (Nat × Nat)) :
    (d.complete w a st out).px = d.px := (rfl)
@[simp] theorem Dev.complete_regs (d : Dev) (w : Win) (a : Accepted) (st : Status) (out : List (Nat × Nat)) :
    (d.complete w a st out).regs = d.regs := (rfl)
@[simp] theorem Dev.complete_reg (d : Dev) (w : Win) (a : Accepted) (st : Status) (out : List (Nat × Nat)) (r : Reg) :
    (d.complete w a st out).reg r = d.reg r := (rfl)

/-- The bank after the command of a ready window has completed. -/
theorem Dev.done_complete {d d1 : Dev} {w : Win} {op : Nat} {c : CmdArgs} (hw : d1.wins = (d.accepted w op c).wins) (st : Status)
    (out : List (Nat × Nat)) : done (d1.complete w (latched op c) st out) w c st out := by
  have h : d1.win w = (d.accepted w op c).win w := Dev.win_congr hw w
  simp only [done, Dev.complete, Dev.win_onWin, h, Dev.accepted, latched, Bool.false_eq_true, if_false, Window.bank, Window.onBank,
    Table.getD_set, if_true, and_self]

/-- A ready window's command that its operation completes answers OK: its bank holds the results, and the rest is as the operation
left it, but for what the step's end may change. -/
theorem answers_ok {i : Instr} {s : State} {w : Win} {c : CmdArgs} {op : Nat} {fails : Bool} (h : ready s.dev w c.src = true)
    (hop : op < 256) (hex : exec i s = act s fun d => d.command fails w op c) {d1 : Dev} {out : List (Nat × Nat)}
    (hr : runOp fails w (latched op c) (s.dev.accepted w op c) = .done d1 .ok out) (hw : d1.wins = (s.dev.accepted w op c).wins)
    (hk : d1.kicks = []) (hl : d1.lagStill) :
    Answers i s fun d => done d w c .ok out ∧ (d1.complete w (latched op c) .ok out).Kept d := by
  refine ⟨_, hex, rfl, ?_⟩
  have hc : s.dev.command fails w op c = d1.complete w (latched op c) .ok out := by
    rw [Dev.command_ready h fails op hop, hr]
    rfl
  have hK := Dev.settle_kept s.dev (d := d1.complete w (latched op c) .ok out) hk hl
  dsimp only
  rw [hc]
  refine ⟨?_, hK⟩
  have := Dev.done_complete (st := .ok) (out := out) hw
  unfold done at this ⊢
  rwa [Dev.win_congr hK.wins w]

/-- A ready window's command whose operation waits for its event runs on in its window. -/
theorem answers_wait {i : Instr} {s : State} {w : Win} {c : CmdArgs} {op : Nat} {fails : Bool} (h : ready s.dev w c.src = true)
    (hop : op < 256) (hex : exec i s = act s fun d => d.command fails w op c) {d1 : Dev}
    (hr : runOp fails w (latched op c) (s.dev.accepted w op c) = .wait d1) (hw : d1.wins = (s.dev.accepted w op c).wins)
    (hk : d1.kicks = []) (hl : d1.lagStill) :
    Answers i s fun d => waits d w c op ∧ (d1.onWin w fun x => { x with waiting := true }).Kept d := by
  refine ⟨_, hex, rfl, ?_⟩
  have hc : s.dev.command fails w op c = d1.onWin w fun x => { x with waiting := true } := by
    rw [Dev.command_ready h fails op hop, hr]
    rfl
  have hK := Dev.settle_kept s.dev (d := d1.onWin w fun x => { x with waiting := true }) hk hl
  dsimp only
  rw [hc]
  refine ⟨?_, hK⟩
  have h1 : d1.win w = (s.dev.accepted w op c).win w := Dev.win_congr hw w
  unfold waits Dev.waitingCmd
  rw [Dev.win_congr hK.wins w]
  simp [h1, Dev.accepted, latched, Window.bank, Window.onBank]

/-- A command whose operation is a change of the device alone answers with that change, but for what the step's end may change. -/
theorem answers_act {i : Instr} {s : State} {f : Dev → Dev} (hex : exec i s = act s f) (hk : (f s.dev).kicks = [])
    (hl : (f s.dev).lagStill) : Answers i s fun d => (f s.dev).Kept d :=
  ⟨_, hex, rfl, Dev.settle_kept s.dev hk hl⟩

/-- An event whose condition holds answers with its effect, but for what the step's end may change. -/
theorem answers_event {i : Instr} {s : State} {dt : Nat} {can : Dev → Bool} {f : Dev → Dev} (hex : exec i s = event s dt can f)
    (hc : can (s.dev.elapse dt) = true) (hk : (f (s.dev.elapse dt)).kicks = []) (hl : (f (s.dev.elapse dt)).lagStill) :
    Answers i s fun d => (f (s.dev.elapse dt)).Kept d := by
  refine ⟨_, hex, rfl, ?_⟩
  have := Dev.settle_kept s.dev hk hl
  simp only [hc, if_true]
  exact this

/-- The distributing sets stay as they are where ports, their states and the members' words do. -/
theorem Dev.lagStill_congr {d d' : Dev} (h : d.lagStill) (hl : d'.ul.lagDist = d.ul.lagDist)
    (hs : ∀ u, (d'.ulPort u).state = (d.ulPort u).state) (hi : d'.im.str.ports = d.im.str.ports)
    (hr : ∀ a, 0x3500000 ≤ a → a < 0x3500200 → d'.regs.get? a = d.regs.get? a) : d'.lagStill := fun g hg => by
  have hp : ∀ u, d'.portUp u = d.portUp u := fun u => by simp [Dev.portUp, Dev.portDef, hi, hs]
  have hm : ∀ m < 8, d'.lagMember g m = d.lagMember g m := fun m hm => by
    have ha : (R .UL_LAG_MEMBER g m).addr = 0x3500010 + 0x40 * g + 4 * m := rfl
    simp only [Dev.lagMember, Dev.reg_def, hr (R .UL_LAG_MEMBER g m).addr (by omega) (by omega)]
  have : d'.lagDist g = d.lagDist g := by
    unfold Dev.lagDist
    congr 1
    refine List.map_congr_left fun m hm' => ?_
    simp only [List.mem_range] at hm'
    simp only [Dev.lagDistributes, hm m hm', hp]
  rw [hl, this]
  exact h g hg

/-- The distributing sets stay as they are where the uplink state, the structure and the registers do. -/
theorem Dev.lagStill_same {d d' : Dev} (h : d.lagStill) (hu : d'.ul = d.ul) (hi : d'.im = d.im) (hr : d'.regs = d.regs) : d'.lagStill :=
  Dev.lagStill_congr h (by rw [hu]) (fun u => by simp [Dev.ulPort, hu]) (by rw [hi]) fun _ _ _ => by rw [hr]

/-- As `lagStill_same`, where registers outside link aggregation may differ. -/
theorem Dev.lagStill_regs {d d' : Dev} (h : d.lagStill) (hu : d'.ul = d.ul) (hi : d'.im = d.im)
    (hr : ∀ a, 0x3500000 ≤ a → a < 0x3500200 → d'.regs.get? a = d.regs.get? a) : d'.lagStill :=
  Dev.lagStill_congr h (by rw [hu]) (fun u => by simp [Dev.ulPort, hu]) (by rw [hi]) hr

end Sys2Proof.Machine

end
end

