-- ==== Sys2Proof/Tests/Slice0.lean ====
section
/-! SUPPORT. Tests of the model and witnesses of its statements: the invariants at reset, an ill-formed term for each check of
well-formedness, and for every statement of Certificates/Slice0 states and operands that meet the hypotheses of each of its clauses. -/

open Sys2Proof Sys2Proof.Machine Sys2Proof.Safety

section
set_option Elab.async false

/-- A structure for the witnesses: reach 0 with its eight trees (tree 1 XG-PON), two uplink ports, two pools, one slice, hot protection of
trees 0 to 3. -/
def demoStr : Structure := { Structure.none with
  reachMask := 1, trees := (List.range 8).map fun t => (t, ⟨t == 1, 2, [0, 0, 64, 0, 0, 0, 0, 0]⟩), ports := [⟨0, 1⟩, ⟨1, 2⟩], pipeReach := [0, 0, 0, 0, 0, 0, 0, 0]
  pipePort := List.replicate 12 1, carve := [256, 64, 64, 48, 0, 64], ddrGiB := 16, pools := [⟨0, 100, 100⟩, ⟨255, 100, 100⟩]
  slices := [⟨0xFF, 3, true, 128, 1000, 0, 1000, 0, 1000⟩], role := 1, mode := 1, protTrees := 0x0F, mateLanes := true }

/-- A running device for the witnesses: reach 0 LIT; tree 0 ACTIVE, 1 OFF, 2 and 3 STANDBY (3 under protection control), the others
ACTIVE; both ports UP. -/
def demo : Dev :=
  let d := (((State.reset.dev.setFld (R .FS_STATUS) 28 24 21).setReg (R .BP_TIER_FREE 0) 67108664).setReg (R .BP_TIER_FREE 1) 33513272).setReg
    (R .BP_TIER_SHARED 0) 67108664 |>.setReg (R .BP_TIER_SHARED 1) 33513272
  { d with
    im := { d.im with state := .running, str := demoStr, reaches := [(0, ⟨.lit, true, false, none, 0⟩)] }
    rx := { d.rx with tf := (List.range 8).map fun t => (t, { TfTree.rest with
      state := if t = 1 then .off else if t = 2 ∨ t = 3 then .standby else .active, sfc := 1000, protCtrl := decide (t < 4) }) }
    ul := { d.ul with ports := [(0, { UlPort.rest with state := .up }), (1, { UlPort.rest with state := .up })] }
    px := { d.px with trees := [(0, { PxTree.rest with state := .active, mate := .standby, mateFit := true }), (2, { PxTree.rest with state := .standby, mate := .active }),
      (3, { PxTree.rest with state := .standby, mate := .active })], matched := true, helloAge := some 0 }
    lx := { d.lx with mateUp := true }
    mc := { d.mc with pcie := { d.mc.pcie with vfEnable := true, numVfs := 16 } } }

/-- A state with an empty queue. -/
def at_ (d : Dev) : State := ⟨d, []⟩

/-- A command of PF0. -/
def cmd (obj : Nat) (data : List Nat) : CmdArgs := ⟨.pf0, 7, obj, data⟩

/-- The demo device with tree 0's fields changed. -/
def d0tf (f : TfTree → TfTree) : Dev := demo.onTf 0 f

/-- A burst of terminal 3 of tree 0, its map in `sent`, its accumulator, and what the receiver reports of it. -/
def bBurst : GBurst := ⟨3, .data, 100, 200, 77, 3200, some 3, 0, ⟨32, 20, 4, true, false⟩, false, [⟨3, 3, true, false, 0, 77, 40, 40, [40, 0, 0, 0, 0]⟩]⟩

/-- aBurst: as the one before. -/
def aBurst : FrameAcc := ⟨900, 4, [], true, false, [], List.replicate 14 0, [], [], []⟩

/-- iBurst: as the one before. -/
def iBurst : BurstIn := ⟨0, 900, 77, 4000, (List.range 16).map fun i => (2 * i, 3), [(2, 0)], true, 9, -3, [1, 2, 3, 4, 5, 6, 7, 8], true, 3, false, 0, 0, 0, []⟩

/-- dBurst: as the one before. -/
def dBurst : Dev :=
  let d := (((demo.onTf 0 fun x => { x with accs := [aBurst] }).onGs 0 fun g => { g with sent := [⟨900, [bBurst], false, 0, 0⟩] }).onTerm 3
    fun x => { x with state := .operation }).onProf 3 fun p => { p with valid := true, learning := false }
  d.onLx fun x => { x with pbSetup := [(0, ⟨⟨900, 77, 3, 3200, some 3⟩, some [], false, ⟨0, 0, [], none⟩, demo.reg (R .TF_US_CFG 0)⟩)] }

/-- An allocation entry of tree 0, with a predictor. -/
def xAlloc : Alloc := ⟨⟨1500, 511, 0, 0, 5, false, true, 100, 200, 300, 0, 0, false, 0⟩, { AllocRun.rest with cf := 700, ca := 9, pred := { Pred.reset 3 with sArr := 9, sFrm := 5, dArr := 4, dFrm := 2, rateQ := 77 } }⟩

/-- dAlloc: as the one before. -/
def dAlloc : Dev := demo.onGs 0 fun g => { g with allocs := [(2047, xAlloc)] }

/-- The demo device with a command that waits in window w. -/
def waiting (w : Win) (op obj : Nat) (d : Dev) : Dev :=
  { d with wins := d.wins.set w.base ⟨[(0, { Bank.rest with busy := true })], [⟨.pf0, op, 7, obj, [5, 6, 0, 0, 0, 0, 0, 0], false⟩], true⟩ }

/-- The device in HELD, and in BOOTING. -/
def heldDev : Dev := Dev.heldOf pinsUp flashBlank fusesBlank [] recBlank

/-- bootDev: as the one before. -/
def bootDev : Dev := State.reset.dev

/-- Pool 0 with room in both tiers. -/
def dPool : Dev := (((demo.setReg (R .BP_POOL_NEAR_CAP 0) 1000).setReg (R .BP_POOL_FAR_CAP 0) 1000).setReg (R .BP_POOL_MIN 0 0) 100).setReg
  (R .BP_POOL_MIN 0 1) 100

/-- Node 128 below tree 0's port node with queue 5 below it. -/
def dTm : Dev :=
  (((dPool.onNode 0 fun n => { n with rings := [(0, [.node 128])] }).onNode 128 fun n =>
    { n with valid := true, parent := 0, weight := 1, rings := [(0, [.queue 5])] }).onQueue 5 fun q =>
    { q with valid := true, w0 := 2 ^ 31 + 128, w1 := 15 * 2 ^ 16 + 1, thG := 1000, thY := 1000, thR := 1000 }).setReg (R .TM_POOL_TH 0 0) 1000

/-- A packet of 100 bytes, and queue 5 with it as its one near packet, or as its one far packet. -/
def pkt : Pkt := Pkt.of 64 (List.replicate 96 1)

/-- dNear: as the one before. -/
def dNear : Dev := ((dTm.onQueue 5 fun q => { q with near := [⟨100, 0, [7], pkt⟩] }).onCell 0 7 fun c => { c with used := true, eop := true, data := pkt.bytes }).setReg
  (R .BP_POOL_USED 0 0) 1

/-- dFar: as the one before. -/
def dFar : Dev := ((dTm.onQueue 5 fun q => { q with far := [⟨100, 0, [50000], pkt⟩] }).onCell 1 50000 fun c => { c with used := true, eop := true, data := pkt.bytes }).setReg
  (R .BP_POOL_USED 0 1) 1

/-- A rule that matches every packet and sends it to queue 5. -/
def anyRule : List Nat := [2 ^ 31 + 2 ^ 16, 0, 0, 0, 0, 10, 2 ^ 14]

/-- The flow store with one entry. -/
def fsKey0 : Nat := (latched 1 (cmd 0 [1, 2, 3, 4, 5, 6, 7, 8])).fsKey

/-- dFs: as the one before. -/
def dFs : Dev := demo.onFs fun f =>
  match f.place demo.lay false [] true fsKey0 5 with
  | .at f' _ => f'
  | _ => f

/-- A packet that arrived from tree 0's terminal 5; one after its first pass; a queue commit under way. -/
def inPkt : Pkt := { Pkt.of 0 (List.replicate 12 0 ++ [8, 6] ++ List.replicate 46 1) with term := 5 }

/-- dArr: as the one before. -/
def dArr : Dev := { dTm with pc := { dTm.pc with arrivals := [inPkt], bankA := ⟨[(0, anyRule)], [], []⟩ } }

/-- dFlight: as the one before. -/
def dFlight : Dev := { dTm with pc := { dTm.pc with flights := [⟨0, pkt, [⟨5, pkt⟩], none⟩] } }

/-- A near chain for a queue whose far list holds a packet. -/
def dChainWait : Dev := { dFar with pc := { dFar.pc with flights := [⟨0, pkt, [⟨5, pkt⟩], some (0, [7])⟩] } }

/-- Ring 3 of the look-aside engine of PF0 with one descriptor: CTR with key 7, 16 bytes from scratchpad 4096 to host 8192. -/
def dLa : Dev :=
  (((demo.setReg (R .CE_LA_SIZE 3) (2 ^ 31 + 6)).setReg (R .CE_LA_PI 3) 1).setFld (R .CE_LA_OWNER 3) 4 0 16).wrMem 14 true 0
    ([1, 2, 7, 0, 16, 0, 0, 0, 0, 0, 0, 0, 0, 0, 0, 0] ++ leBytes 8 4096 ++ leBytes 8 8192)

/-- The demo device with a CURRENT copy; with a good lane of the mate link; in cold mode. -/
def dCur : Dev := demo.setFld (R .PX_STATUS) 19 18 2

/-- dMl: as the one before. -/
def dMl : Dev := (demo.setFld (R .LX_ML_STATUS 0) 6 6 1).onLx fun x => { x with delays := [(0, (0, 5))] }

/-- dCold: as the one before. -/
def dCold : Dev :=
  { demo.setReg (R .PX_SNAP_OUT_LEN) 1000000 with
    im := { demo.im with str := { demoStr with mode := 2 } }
    px := { demo.px with trees := [(0, { PxTree.rest with state := .active }), (3, { PxTree.rest with state := .standby })] } }

/-- Injection ring 0 with one descriptor: 100 bytes at scratchpad 4096. -/
def dInj : Dev :=
  ((demo.setReg (ringReg 0 true .cfg) (2 ^ 31 + 6)).setReg (ringReg 0 true .pi) 1).wrMem 14 true 0 (leBytes 8 4096 ++ leBytes 2 100)

/-- The management port with its link up, one receive and one transmit descriptor (60 bytes at scratchpad 4096). -/
def dMg : Dev :=
  ((((((demo.setReg (R .MC_MGMT_CFG) (2 ^ 31 + 1518)).setFld (R .MC_MGMT_STATUS) 31 31 1).setReg (ringReg 21 true .cfg) (2 ^ 31 + 6)).setReg
    (ringReg 21 true .pi) 1).setReg (ringReg 21 false .cfg) (2 ^ 31 + 6)).setReg (ringReg 21 false .pi) 1).wrMem 14 true 0 (leBytes 8 4096 ++ leBytes 2 60)

/-- A staged record. -/
def rec8 (seq : Nat) : Rec := ⟨6, 0, 0, 0, seq, 0, 0, 0, 0, List.replicate 16 1, 0⟩

/-- dRec: as the one before. -/
def dRec : Dev := { demo with ob := { demo.ob with staging := [rec8 4] } }

/-- An eye whose sides are closed at 4, 2, 1 and 3 steps; UL 2 with a locked checker one error short of its sixteenth. -/
def eClosed (n : Nat) : List EyePoint := List.replicate (n - 1) ⟨[(3, true, 2 ^ 20, 0)], 5⟩ ++ [⟨[(3, true, 2 ^ 20, 2)], 5⟩]

/-- eEye: as the one before. -/
def eEye : EyeSweep := ⟨eClosed 4, eClosed 2, eClosed 1, eClosed 3⟩

/-- dLoss: as the one before. -/
def dLoss : Dev :=
  ((demo.setFld (lanePrbsCtl .ul 2) 5 5 1).setFld (laneStatus .ul 2) 5 5 1).onChk .ul 2 fun _ => ⟨64, 0, 20, 15, some 0⟩

/-- The first 40 bytes of a Serial_Number_ONU message, and of an Acknowledge with sequence number 4. -/
def snMsg (sn : Nat) : List Byte := [0x03, 0xFF, 1, 0] ++ leBytes 8 sn ++ List.replicate 28 0

/-- ackMsg: as the one before. -/
def ackMsg : List Byte := [0x01, 0xFF, 9, 4] ++ List.replicate 36 0

/-- A well-formed and an ill-formed command. -/
def goodCmd : CmdArgs := ⟨.vf 15, 255, 2 ^ 32 - 1, List.replicate 8 (2 ^ 32 - 1)⟩
def badCmd : CmdArgs := ⟨.pf0, 0, 2 ^ 32, []⟩
/-- A burst of a tree that does not exist. -/
def badBurst : BurstIn := { iBurst with tree := 64 }

/-- Each part of a command's words is checked: source, SEQ, _OBJ, and the number and width of the _DATA words. -/
theorem test_wf_command_words : goodCmd.ok = true ∧ badCmd.ok = false ∧ { goodCmd with src := .vf 16 }.ok = false ∧
    { goodCmd with src := .core 4 }.ok = false ∧ { goodCmd with src := .dma 4 }.ok = false ∧ { goodCmd with seq := 256 }.ok = false ∧
    { goodCmd with data := List.replicate 9 0 }.ok = false ∧ { goodCmd with data := [2 ^ 32] }.ok = false := by decide

/-- A cell of the mate link carries at most 624 bytes. -/
theorem test_wf_cell_length : ∀ bs : List Byte, bs.length = 625 →
    (Instr.copyFrame 0 [⟨0, 0, 0, true, false, bs⟩] false).wf = false := by intro bs h; simp [Instr.wf, h]

/-- Ill-formed from registerWrite to incHiWrite. -/
theorem test_wf_refuses_1 :
    (∀ b1, (Instr.registerWrite (.vf 16) b1 ⟨.read 15 1, []⟩).wf = false) ∧
    (∀ b1, (Instr.registerWrite .pf0 b1 ⟨.read 16 1, []⟩).wf = false) ∧
    (∀ b1, (Instr.registerWrite .pf0 b1 ⟨.read 15 0, []⟩).wf = false) ∧
    (∀ b1, (Instr.registerWrite .pf0 b1 ⟨.write [], []⟩).wf = false) ∧
    (∀ b1, (Instr.registerWrite .pf0 b1 ⟨.write [(16, 0)], []⟩).wf = false) ∧
    (∀ b1, (Instr.registerWrite .pf0 b1 ⟨.write [(15, 2 ^ 32)], []⟩).wf = false) ∧
    (∀ b1, (Instr.registerWrite .pf0 b1 ⟨.cfgWrite .numVfs (2 ^ 64), []⟩).wf = false) ∧
    (∀ b1, (Instr.registerWrite .pf0 b1 ⟨.read 15 1, [(.vf 16, 0, .read 15 1)]⟩).wf = false) ∧
    (∀ b1, (Instr.registerWrite .pf0 b1 ⟨.read 15 1, [(.pf0, 0, .read 16 1)]⟩).wf = false) ∧
    (∀ b1, (Instr.outOfSliceAccess 16 b1 (.read 15 1)).wf = false) ∧ (∀ b1, (Instr.outOfSliceAccess 15 b1 (.read 16 1)).wf = false) ∧
    (∀ b1, (Instr.outOfSliceAccess 15 b1 (.read 15 0)).wf = false) ∧ (∀ b1, (Instr.outOfSliceAccess 15 b1 (.write [])).wf = false) ∧
    (∀ b1, (Instr.outOfSliceAccess 15 b1 (.write [(16, 0)])).wf = false) ∧
    (∀ b1, (Instr.outOfSliceAccess 15 b1 (.write [(15, 2 ^ 32)])).wf = false) ∧
    (∀ b1, (Instr.outOfSliceAccess 15 b1 (.cfgWrite .numVfs (2 ^ 64))).wf = false) ∧
    (Instr.lowWordWrite (.vf 16) .inc 0).wf = false ∧ (Instr.lowWordWrite .pf0 (.ponid 64) 0).wf = false ∧
    (Instr.lowWordWrite .pf0 (.cmpTgt 8) 0).wf = false ∧ (Instr.lowWordWrite .pf0 .inc (2 ^ 32)).wf = false ∧
    (Instr.ponidHiWrite (.vf 16) 63 0).wf = false ∧ (Instr.ponidHiWrite .pf0 64 0).wf = false ∧
    (Instr.ponidHiWrite .pf0 63 (2 ^ 32)).wf = false ∧ (Instr.incHiWrite (.vf 16) 0).wf = false :=
  ⟨fun _ => rfl, fun _ => rfl, fun _ => rfl, fun _ => rfl, fun _ => rfl, fun _ => rfl, fun _ => rfl, fun _ => rfl, fun _ => rfl,
  fun _ => rfl, fun _ => rfl, fun _ => rfl, fun _ => rfl, fun _ => rfl, fun _ => rfl, fun _ => rfl, rfl, rfl, rfl, rfl, rfl, rfl,
  rfl, rfl⟩

/-- Ill-formed from incHiWrite to porstN. -/
theorem test_wf_refuses_2 :
    (Instr.incHiWrite .pf0 (2 ^ 32)).wf = false ∧ (Instr.cmpTgtHiWrite (.vf 16) 7 0).wf = false ∧
    (Instr.cmpTgtHiWrite .pf0 8 0).wf = false ∧ (Instr.cmpTgtHiWrite .pf0 7 (2 ^ 32)).wf = false ∧
    (Instr.pnThreshHiWrite (.vf 16) 0).wf = false ∧ (Instr.pnThreshHiWrite .pf0 (2 ^ 32)).wf = false ∧
    (Instr.sfcLoRead (.vf 16) 63).wf = false ∧ (Instr.sfcLoRead .pf0 64).wf = false ∧
    (Instr.ulStatLoRead (.vf 16) 11 21).wf = false ∧ (Instr.ulStatLoRead .pf0 12 21).wf = false ∧
    (Instr.ulStatLoRead .pf0 11 22).wf = false ∧ (Instr.mgmtStatLoRead (.vf 16) 7).wf = false ∧
    (Instr.mgmtStatLoRead .pf0 8).wf = false ∧ (Instr.cntLoRead (.vf 16) true 63).wf = false ∧
    (Instr.cntLoRead .pf0 true 64).wf = false ∧ (Instr.cntLoRead .pf0 false 2048).wf = false ∧
    (Instr.nowLoRead (.vf 16)).wf = false ∧ (Instr.todNsRead (.vf 16)).wf = false ∧ (Instr.capLoRead (.vf 16) 4).wf = false ∧
    (Instr.capLoRead .pf0 5).wf = false ∧ (Instr.todcapTLoRead (.vf 16) 3).wf = false ∧ (Instr.todcapTLoRead .pf0 4).wf = false ∧
    (Instr.freeErrRead (.vf 16)).wf = false ∧ (∀ a0 b1 e3, (Instr.porstN a0 b1 4 e3).wf = false) :=
  ⟨rfl, rfl, rfl, rfl, rfl, rfl, rfl, rfl, rfl, rfl, rfl, rfl, rfl, rfl, rfl, rfl, rfl, rfl, rfl, rfl, rfl, rfl, rfl,
  fun _ _ _ => rfl⟩

/-- Ill-formed from jtagInstruction to mateLaneRejoin. -/
theorem test_wf_refuses_3 :
    (∀ a0, (Instr.jtagInstruction a0 ⟨256, none⟩).wf = false) ∧ (Instr.start badCmd).wf = false ∧ (Instr.quiesce badCmd).wf = false ∧
    (Instr.resume badCmd).wf = false ∧ (Instr.warmReset badCmd).wf = false ∧ (Instr.loadHost badCmd).wf = false ∧
    (Instr.loadReach badCmd).wf = false ∧ (Instr.lightReach badCmd).wf = false ∧ (Instr.darkenReach badCmd).wf = false ∧
    (∀ a0, (Instr.pllUnlock a0 .ml 4).wf = false) ∧ (∀ a0, (Instr.pllUnlock a0 .pt 64).wf = false) ∧
    (∀ a0, (Instr.pllUnlock a0 .pb 64).wf = false) ∧ (∀ a0, (Instr.pllUnlock a0 .ul 12).wf = false) ∧
    (∀ a0, (Instr.swapBit a0 64).wf = false) ∧ (∀ a0, (Instr.profileRefill a0 ⟨64, true⟩).wf = false) ∧
    (∀ a0, (Instr.burstOutcome a0 badBurst).wf = false) ∧ (∀ a0 d2 e3, (Instr.ungrantedEnergy a0 64 d2 e3).wf = false) ∧
    (∀ a0, (Instr.reasmTimeout a0 64 65535).wf = false) ∧ (∀ a0, (Instr.reasmTimeout a0 63 65536).wf = false) ∧
    (∀ a0 e3 x4 y5, (Instr.laneLosSet a0 .ml ⟨4, 0, 1⟩ e3 x4 y5).wf = false) ∧
    (∀ a0 e3 x4 y5, (Instr.laneLosClear a0 .ml ⟨4, 0, 1⟩ e3 x4 y5).wf = false) ∧
    (∀ a0, (Instr.laneLolSet a0 .ml (⟨4, 0, 1⟩, ⟨false, false, false⟩)).wf = false) ∧
    (∀ a0, (Instr.laneLolClear a0 .ml ⟨4, 0, 1⟩).wf = false) ∧ (∀ a0, (Instr.mateLaneRejoin a0 4).wf = false) :=
  ⟨fun _ => rfl, rfl, rfl, rfl, rfl, rfl, rfl, rfl, rfl, fun _ => rfl, fun _ => rfl, fun _ => rfl, fun _ => rfl, fun _ => rfl,
  fun _ => rfl, fun _ => rfl, fun _ _ _ => rfl, fun _ => rfl, fun _ => rfl, fun _ _ _ _ => rfl, fun _ _ _ _ => rfl, fun _ => rfl,
  fun _ => rfl, fun _ => rfl⟩

/-- Ill-formed from eyeScanDone to xgemPortDel. -/
theorem test_wf_refuses_4 :
    (∀ a0 e3 x4 y5 z6, (Instr.eyeScanDone a0 .ml 4 e3 x4 y5 z6).wf = false) ∧
    (∀ a0 e3 x4, (Instr.prbsLockLoss a0 .ml 4 e3 x4).wf = false) ∧ (∀ e3, (Instr.chkClr (.vf 16) .ml 3 e3).wf = false) ∧
    (∀ e3, (Instr.chkClr .pf0 .ml 4 e3).wf = false) ∧ (Instr.errInject (.vf 16) .ml 3).wf = false ∧
    (Instr.errInject .pf0 .ml 4).wf = false ∧ (Instr.treeOff 8 goodCmd).wf = false ∧ (Instr.treeOff 7 badCmd).wf = false ∧
    (Instr.treeStandby 8 goodCmd).wf = false ∧ (Instr.treeStandby 7 badCmd).wf = false ∧ (Instr.treeActive 8 goodCmd).wf = false ∧
    (Instr.treeActive 7 badCmd).wf = false ∧ (Instr.setSfc 8 goodCmd).wf = false ∧ (Instr.setSfc 7 badCmd).wf = false ∧
    (Instr.termDefects 8 goodCmd).wf = false ∧ (Instr.termDefects 7 badCmd).wf = false ∧ (Instr.pmRead 8 goodCmd).wf = false ∧
    (Instr.pmRead 7 badCmd).wf = false ∧ (Instr.pmResetCurrent 8 goodCmd).wf = false ∧ (Instr.pmResetCurrent 7 badCmd).wf = false ∧
    (∀ a0, (Instr.pmHistoryWrite a0 8).wf = false) ∧ (Instr.xgemPortAdd 8 goodCmd).wf = false ∧
    (Instr.xgemPortAdd 7 badCmd).wf = false ∧ (Instr.xgemPortDel 8 goodCmd).wf = false :=
  ⟨fun _ _ _ _ _ => rfl, fun _ _ _ => rfl, fun _ => rfl, fun _ => rfl, rfl, rfl, rfl, rfl, rfl, rfl, rfl, rfl, rfl, rfl, rfl, rfl,
  rfl, rfl, rfl, rfl, fun _ => rfl, rfl, rfl, rfl⟩

/-- Ill-formed from xgemPortDel to termProvision. -/
theorem test_wf_refuses_5 :
    (Instr.xgemPortDel 7 badCmd).wf = false ∧ (Instr.xgemPortRead 8 goodCmd).wf = false ∧ (Instr.xgemPortRead 7 badCmd).wf = false ∧
    (Instr.defectPop (.vf 16) 63).wf = false ∧ (Instr.defectPop .pf0 64).wf = false ∧
    (∀ a0 d2, (Instr.serialNumberOnu a0 64 d2 (List.replicate 40 0) (List.replicate 8 0)).wf = false) ∧
    (∀ a0 d2, (Instr.serialNumberOnu a0 63 d2 (List.replicate 39 0) (List.replicate 8 0)).wf = false) ∧
    (∀ a0 d2, (Instr.serialNumberOnu a0 63 d2 (List.replicate 40 0) (List.replicate 7 0)).wf = false) ∧
    (∀ a0 d2, (Instr.registration a0 32768 d2 (List.replicate 40 0) (List.replicate 8 0)).wf = false) ∧
    (∀ a0 d2, (Instr.registration a0 32767 d2 (List.replicate 39 0) (List.replicate 8 0)).wf = false) ∧
    (∀ a0 d2, (Instr.registration a0 32767 d2 (List.replicate 40 0) (List.replicate 7 0)).wf = false) ∧
    (∀ a0, (Instr.acknowledge a0 32768 (List.replicate 4 0) (List.replicate 36 0) (List.replicate 8 0)).wf = false) ∧
    (∀ a0, (Instr.acknowledge a0 32767 (List.replicate 3 0) (List.replicate 36 0) (List.replicate 8 0)).wf = false) ∧
    (∀ a0, (Instr.acknowledge a0 32767 (List.replicate 4 0) (List.replicate 35 0) (List.replicate 8 0)).wf = false) ∧
    (∀ a0, (Instr.acknowledge a0 32767 (List.replicate 4 0) (List.replicate 36 0) (List.replicate 7 0)).wf = false) ∧
    (∀ a0, (Instr.ploamuHostMessage a0 64 511 (List.replicate 40 0) (List.replicate 8 0)).wf = false) ∧
    (∀ a0, (Instr.ploamuHostMessage a0 63 512 (List.replicate 40 0) (List.replicate 8 0)).wf = false) ∧
    (∀ a0, (Instr.ploamuHostMessage a0 63 511 (List.replicate 39 0) (List.replicate 8 0)).wf = false) ∧
    (∀ a0, (Instr.ploamuHostMessage a0 63 511 (List.replicate 40 0) (List.replicate 7 0)).wf = false) ∧
    (∀ a0, (Instr.activationFail a0 32768).wf = false) ∧ (∀ a0, (Instr.lostTimeout a0 32768).wf = false) ∧
    (∀ a0, (Instr.adjWaitExpiry a0 32768).wf = false) ∧ (Instr.termProvision 8 goodCmd).wf = false ∧
    (Instr.termProvision 7 badCmd).wf = false :=
  ⟨rfl, rfl, rfl, rfl, rfl, fun _ _ => rfl, fun _ _ => rfl, fun _ _ => rfl, fun _ _ => rfl, fun _ _ => rfl, fun _ _ => rfl,
  fun _ => rfl, fun _ => rfl, fun _ => rfl, fun _ => rfl, fun _ => rfl, fun _ => rfl, fun _ => rfl, fun _ => rfl, fun _ => rfl,
  fun _ => rfl, fun _ => rfl, rfl, rfl⟩

/-- Ill-formed from termAssign to ploamuPop. -/
theorem test_wf_refuses_6 :
    (Instr.termAssign 8 goodCmd).wf = false ∧ (Instr.termAssign 7 badCmd).wf = false ∧ (Instr.termDeactivate 8 goodCmd).wf = false ∧
    (Instr.termDeactivate 7 badCmd).wf = false ∧ (Instr.termDisable 8 goodCmd).wf = false ∧ (Instr.termDisable 7 badCmd).wf = false ∧
    (Instr.termEnable 8 goodCmd).wf = false ∧ (Instr.termEnable 7 badCmd).wf = false ∧ (Instr.termRelease 8 goodCmd).wf = false ∧
    (Instr.termRelease 7 badCmd).wf = false ∧ (Instr.termSetIk 8 goodCmd).wf = false ∧ (Instr.termSetIk 7 badCmd).wf = false ∧
    (Instr.termRead 8 goodCmd).wf = false ∧ (Instr.termRead 7 badCmd).wf = false ∧ (Instr.profileRead 8 goodCmd).wf = false ∧
    (Instr.profileRead 7 badCmd).wf = false ∧ (Instr.profileInvalidate 8 goodCmd).wf = false ∧
    (Instr.profileInvalidate 7 badCmd).wf = false ∧ (Instr.ploamTail 8 goodCmd).wf = false ∧ (Instr.ploamTail 7 badCmd).wf = false ∧
    (Instr.ploamSend 8 goodCmd).wf = false ∧ (Instr.ploamSend 7 badCmd).wf = false ∧ (Instr.ploamuPop (.vf 16) 63).wf = false ∧
    (Instr.ploamuPop .pf0 64).wf = false :=
  ⟨rfl, rfl, rfl, rfl, rfl, rfl, rfl, rfl, rfl, rfl, rfl, rfl, rfl, rfl, rfl, rfl, rfl, rfl, rfl, rfl, rfl, rfl, rfl, rfl⟩

/-- Ill-formed from discPop to mapRead. -/
theorem test_wf_refuses_7 :
    (Instr.discPop (.vf 16) 7).wf = false ∧ (Instr.discPop .pf0 8).wf = false ∧
    (∀ a0 d2, (Instr.mapComputationStart a0 64 d2).wf = false) ∧ (∀ a0, (Instr.mapDeadline a0 64).wf = false) ∧
    (∀ a0 d2, (Instr.predictorBinEnd a0 64 d2).wf = false) ∧ (∀ a0, (Instr.dayProfileLoad a0 64).wf = false) ∧
    (Instr.coopPiWrite (.vf 16) 7 0).wf = false ∧ (Instr.coopPiWrite .pf0 8 0).wf = false ∧
    (Instr.coopPiWrite .pf0 7 (2 ^ 32)).wf = false ∧ (∀ d2, (Instr.coopEnWrite (.vf 16) 7 d2).wf = false) ∧
    (∀ d2, (Instr.coopEnWrite .pf0 8 d2).wf = false) ∧ (Instr.allocAdd 64 goodCmd).wf = false ∧
    (Instr.allocAdd 63 badCmd).wf = false ∧ (Instr.allocModify 64 goodCmd).wf = false ∧ (Instr.allocModify 63 badCmd).wf = false ∧
    (Instr.allocDel 64 goodCmd).wf = false ∧ (Instr.allocDel 63 badCmd).wf = false ∧ (Instr.allocRead 64 goodCmd).wf = false ∧
    (Instr.allocRead 63 badCmd).wf = false ∧ (Instr.predRead 64 goodCmd).wf = false ∧ (Instr.predRead 63 badCmd).wf = false ∧
    (Instr.predReset 64 goodCmd).wf = false ∧ (Instr.predReset 63 badCmd).wf = false ∧ (Instr.mapRead 64 goodCmd).wf = false :=
  ⟨rfl, rfl, fun _ _ => rfl, fun _ => rfl, fun _ _ => rfl, fun _ => rfl, rfl, rfl, rfl, fun _ => rfl, fun _ => rfl, rfl, rfl, rfl,
  rfl, rfl, rfl, rfl, rfl, rfl, rfl, rfl, rfl, rfl⟩

/-- Ill-formed from mapRead to profRead. -/
theorem test_wf_refuses_8 :
    (Instr.mapRead 63 badCmd).wf = false ∧ (∀ a0, (Instr.packetIngress a0 4).wf = false) ∧
    (∀ a0, (Instr.enqueueCommit a0 4).wf = false) ∧ (Instr.ruleWrite badCmd).wf = false ∧ (Instr.ruleRead badCmd).wf = false ∧
    (Instr.keyProfileWrite badCmd).wf = false ∧ (Instr.keyProfileRead badCmd).wf = false ∧ (Instr.mirrorWrite badCmd).wf = false ∧
    (Instr.mirrorRead badCmd).wf = false ∧ (Instr.bankCopy badCmd).wf = false ∧ (Instr.bankSwap badCmd).wf = false ∧
    (Instr.bankClear badCmd).wf = false ∧ (Instr.insert badCmd).wf = false ∧ (Instr.update badCmd).wf = false ∧
    (Instr.delete badCmd).wf = false ∧ (Instr.lookup badCmd).wf = false ∧ (Instr.slotRead badCmd).wf = false ∧
    (Instr.rebuild badCmd).wf = false ∧ (∀ a0 b1, (Instr.flowStoreScrub a0 b1 [(0, 3)] []).wf = false) ∧
    (∀ a0 b1, (Instr.flowStoreScrub a0 b1 [] [(0, 0)]).wf = false) ∧ (Instr.policerWrite badCmd).wf = false ∧
    (Instr.policerRead badCmd).wf = false ∧ (Instr.profWrite badCmd).wf = false ∧ (Instr.profRead badCmd).wf = false :=
  ⟨rfl, fun _ => rfl, fun _ => rfl, rfl, rfl, rfl, rfl, rfl, rfl, rfl, rfl, rfl, rfl, rfl, rfl, rfl, rfl, rfl, fun _ _ => rfl,
  fun _ _ => rfl, rfl, rfl, rfl, rfl⟩

/-- Ill-formed from dequeueDecision to ponKeyClear. -/
theorem test_wf_refuses_9 :
    (∀ a0 d2 e3, (Instr.dequeueDecision a0 78 d2 e3).wf = false) ∧ (∀ a0 b1 d2, (Instr.shaperRefresh a0 b1 d2 2).wf = false) ∧
    (Instr.queueWrite badCmd).wf = false ∧ (Instr.queueRead badCmd).wf = false ∧ (Instr.queueFlush badCmd).wf = false ∧
    (Instr.queueHold badCmd).wf = false ∧ (Instr.nodeWrite badCmd).wf = false ∧ (Instr.nodeRead badCmd).wf = false ∧
    (Instr.shaperWrite badCmd).wf = false ∧ (Instr.shaperRead badCmd).wf = false ∧
    (∀ a0 b1, (Instr.allocationRound a0 b1 ⟨true, some badCmd⟩).wf = false) ∧
    (∀ a0 d2 e3, (Instr.memoryScrub a0 2 d2 e3).wf = false) ∧ (Instr.bufAlloc badCmd).wf = false ∧
    (Instr.bufFree badCmd).wf = false ∧ (Instr.cellRead badCmd).wf = false ∧ (Instr.cellWrite badCmd).wf = false ∧
    (Instr.cellRetire badCmd).wf = false ∧ (Instr.retireRead badCmd).wf = false ∧ (Instr.reclaim badCmd).wf = false ∧
    (Instr.eccInject badCmd).wf = false ∧ (Instr.eccPop (.vf 16)).wf = false ∧ (Instr.ponKeyInstall badCmd).wf = false ∧
    (Instr.ponKeySwitch badCmd).wf = false ∧ (Instr.ponKeyClear badCmd).wf = false :=
  ⟨fun _ _ _ => rfl, fun _ _ _ => rfl, rfl, rfl, rfl, rfl, rfl, rfl, rfl, rfl, fun _ _ => rfl, fun _ _ _ => rfl, rfl, rfl, rfl,
  rfl, rfl, rfl, rfl, rfl, rfl, rfl, rfl, rfl⟩

/-- Ill-formed from ponKeyRead to portConditionChange. -/
theorem test_wf_refuses_10 :
    (Instr.ponKeyRead badCmd).wf = false ∧ (Instr.msSaKey badCmd).wf = false ∧ (Instr.msSaParam badCmd).wf = false ∧
    (Instr.msSaPn badCmd).wf = false ∧ (Instr.msSaEnable badCmd).wf = false ∧ (Instr.msSaDisable badCmd).wf = false ∧
    (Instr.msSaRead badCmd).wf = false ∧ (Instr.laKeyWrite badCmd).wf = false ∧ (Instr.laKeyClear badCmd).wf = false ∧
    (Instr.laKeyRead badCmd).wf = false ∧ (Instr.laPiWrite (.vf 16) 15 0).wf = false ∧ (Instr.laPiWrite .pf0 16 0).wf = false ∧
    (Instr.laPiWrite .pf0 15 (2 ^ 32)).wf = false ∧ (∀ a0 d2, (Instr.laDescriptor a0 16 d2 ⟨false, 2⟩).wf = false) ∧
    (∀ a0 d2, (Instr.laDescriptor a0 15 d2 ⟨false, 3⟩).wf = false) ∧ (Instr.keyEvtPop (.vf 16)).wf = false ∧
    (∀ a0, (Instr.uplinkFrameReceive a0 ⟨12, [], true, false, 0, 0⟩).wf = false) ∧
    (∀ a0, (Instr.pauseFrame a0 12 65535).wf = false) ∧ (∀ a0, (Instr.pauseFrame a0 11 65536).wf = false) ∧
    (∀ a0 d2 e3, (Instr.pfcFrame a0 12 d2 e3).wf = false) ∧ (∀ a0, (Instr.pauseTimerExpiry a0 12).wf = false) ∧
    (∀ a0, (Instr.xoffRepeat a0 12 7).wf = false) ∧ (∀ a0, (Instr.xoffRepeat a0 11 8).wf = false) ∧
    (∀ a0 d2 e3 x4 y5 z6, (Instr.portConditionChange a0 12 d2 e3 x4 y5 z6).wf = false) :=
  ⟨rfl, rfl, rfl, rfl, rfl, rfl, rfl, rfl, rfl, rfl, rfl, rfl, rfl, fun _ _ => rfl, fun _ _ => rfl, rfl, fun _ => rfl,
  fun _ => rfl, fun _ => rfl, fun _ _ _ => rfl, fun _ => rfl, fun _ => rfl, fun _ => rfl, fun _ _ _ _ _ _ => rfl⟩

/-- Ill-formed from portUp to switchReqCell. -/
theorem test_wf_refuses_11 :
    (∀ a0, (Instr.portUp a0 12).wf = false) ∧ (∀ a0 d2 e3 x4, (Instr.degradedWindowEnd a0 12 d2 e3 x4).wf = false) ∧
    (∀ d2, (Instr.clrStats (.vf 16) 11 d2).wf = false) ∧ (∀ d2, (Instr.clrStats .pf0 12 d2).wf = false) ∧
    (Instr.timeSet badCmd).wf = false ∧ (Instr.timeStep badCmd).wf = false ∧ (Instr.timeSlew badCmd).wf = false ∧
    (Instr.frameAlign badCmd).wf = false ∧ (∀ a0, (Instr.compareFire a0 8).wf = false) ∧
    (∀ a0 d2, (Instr.captureEdge a0 5 d2).wf = false) ∧ (Instr.todcapArm (.vf 16) 3 63).wf = false ∧
    (Instr.todcapArm .pf0 4 63).wf = false ∧ (Instr.todcapArm .pf0 3 64).wf = false ∧ (Instr.txtsPop (.vf 16) 11).wf = false ∧
    (Instr.txtsPop .pf0 12).wf = false ∧ (∀ d2, (Instr.clrLost (.vf 16) 11 d2).wf = false) ∧
    (∀ d2, (Instr.clrLost .pf0 12 d2).wf = false) ∧ (Instr.gclWrite badCmd).wf = false ∧ (Instr.gclCommit badCmd).wf = false ∧
    (∀ a0, (Instr.gclStart a0 12).wf = false) ∧ (Instr.gclCancel badCmd).wf = false ∧ (Instr.gclStop badCmd).wf = false ∧
    (Instr.gclRead badCmd).wf = false ∧ (∀ a0 d2, (Instr.switchReqCell a0 64 d2).wf = false) :=
  ⟨fun _ => rfl, fun _ _ _ _ => rfl, fun _ => rfl, fun _ => rfl, rfl, rfl, rfl, rfl, fun _ => rfl, fun _ _ => rfl, rfl, rfl, rfl,
  rfl, rfl, fun _ => rfl, fun _ => rfl, rfl, rfl, fun _ => rfl, rfl, rfl, rfl, fun _ _ => rfl⟩

/-- Ill-formed from commitCell to coreReset. -/
theorem test_wf_refuses_12 :
    (∀ a0 d2 e3, (Instr.commitCell a0 64 d2 e3).wf = false) ∧
    (∀ a0 d2 e3 x4 y5 z6, (Instr.mapCell a0 64 d2 e3 x4 y5 z6).wf = false) ∧ (∀ a0 d2, (Instr.needCell a0 64 d2).wf = false) ∧
    (∀ a0 d2 e3, (Instr.markerCell a0 ⟨4, 3, 0⟩ d2 e3).wf = false) ∧ (∀ a0 d2 e3, (Instr.markerCell a0 ⟨3, 4, 0⟩ d2 e3).wf = false) ∧
    (∀ a0 d2, (Instr.copyFrame a0 [⟨4, 0, 0, true, false, []⟩] d2).wf = false) ∧
    (∀ a0 d2, (Instr.copyFrame a0 [⟨0, 2 ^ 32, 0, true, false, []⟩] d2).wf = false) ∧ (∀ a0, (Instr.wtrExpiry a0 64).wf = false) ∧
    (∀ a0, (Instr.linkTakeover a0 64).wf = false) ∧ (∀ a0, (Instr.startupTakeover a0 64).wf = false) ∧
    (∀ a0, (Instr.standdown a0 64).wf = false) ∧ (∀ a0 d2, (Instr.coldTakeover a0 64 d2).wf = false) ∧
    (Instr.switch badCmd).wf = false ∧ (Instr.lockout badCmd).wf = false ∧ (Instr.lockoutClear badCmd).wf = false ∧
    (Instr.join badCmd).wf = false ∧ (Instr.resync badCmd).wf = false ∧ (Instr.pairKey badCmd).wf = false ∧
    (Instr.pairKeyClear badCmd).wf = false ∧ (∀ a0, (Instr.watchdogExpiry a0 4).wf = false) ∧ (Instr.kick (.vf 16) 3).wf = false ∧
    (Instr.kick .pf0 4).wf = false ∧ (∀ d2, (Instr.coreReset (.vf 16) 3 d2).wf = false) ∧
    (∀ d2, (Instr.coreReset .pf0 4 d2).wf = false) :=
  ⟨fun _ _ _ => rfl, fun _ _ _ _ _ _ => rfl, fun _ _ => rfl, fun _ _ _ => rfl, fun _ _ _ => rfl, fun _ _ => rfl, fun _ _ => rfl,
  fun _ => rfl, fun _ => rfl, fun _ => rfl, fun _ => rfl, fun _ _ => rfl, rfl, rfl, rfl, rfl, rfl, rfl, rfl, fun _ => rfl, rfl,
  rfl, fun _ => rfl, fun _ => rfl⟩

/-- Ill-formed from scratchpadAccess to recWrite. -/
theorem test_wf_refuses_13 :
    (∀ a0 d2, (Instr.scratchpadAccess a0 [⟨.core 4, 0, false, false, 0, 0, .pad⟩] d2).wf = false) ∧
    (Instr.dmaGo (.vf 16) 3).wf = false ∧ (Instr.dmaGo .pf0 4).wf = false ∧ (∀ a0 d2, (Instr.dmaComplete a0 4 d2).wf = false) ∧
    (∀ d2, (Instr.ringPiWrite (.vf 16) 21 d2 0).wf = false) ∧ (∀ d2, (Instr.ringPiWrite .pf0 22 d2 0).wf = false) ∧
    (∀ d2, (Instr.ringPiWrite .pf0 21 d2 (2 ^ 32)).wf = false) ∧ (∀ a0 d2, (Instr.injectionDescriptor a0 22 d2).wf = false) ∧
    (∀ a0, (Instr.vfFlr a0 16).wf = false) ∧ (Instr.intEoi (.vf 16) 63).wf = false ∧ (Instr.intEoi .pf0 64).wf = false ∧
    (Instr.vfEoi (.vf 16) 15 3).wf = false ∧ (Instr.vfEoi .pf0 16 3).wf = false ∧ (Instr.vfEoi .pf0 15 4).wf = false ∧
    (Instr.replan (.vf 16)).wf = false ∧ (Instr.updBegin badCmd).wf = false ∧ (∀ a0, (Instr.updWrite a0 badCmd).wf = false) ∧
    (Instr.updVerify badCmd).wf = false ∧ (Instr.updCommit badCmd).wf = false ∧ (Instr.updAbort badCmd).wf = false ∧
    (Instr.updConfirm badCmd).wf = false ∧ (Instr.recRead badCmd).wf = false ∧ (Instr.recClear badCmd).wf = false ∧
    (Instr.recWrite badCmd).wf = false :=
  ⟨fun _ _ => rfl, rfl, rfl, fun _ _ => rfl, fun _ => rfl, fun _ => rfl, fun _ => rfl, fun _ _ => rfl, fun _ => rfl, rfl, rfl, rfl,
  rfl, rfl, rfl, rfl, fun _ => rfl, rfl, rfl, rfl, rfl, rfl, rfl, rfl⟩

/-- Ill-formed from cntClear to memoryTemperatureHot. -/
theorem test_wf_refuses_14 :
    (Instr.cntClear badCmd).wf = false ∧ (Instr.statBind badCmd).wf = false ∧ (Instr.statRead badCmd).wf = false ∧
    (Instr.statClear badCmd).wf = false ∧ (Instr.sampleRead badCmd).wf = false ∧ (Instr.sampleRestart badCmd).wf = false ∧
    (∀ e3, (Instr.pcntCfgWrite (.vf 16) 63 0 e3).wf = false) ∧ (∀ e3, (Instr.pcntCfgWrite .pf0 64 0 e3).wf = false) ∧
    (∀ e3, (Instr.pcntCfgWrite .pf0 63 (2 ^ 32) e3).wf = false) ∧ (∀ a0, (Instr.pllRelock a0 .ml 4).wf = false) ∧
    (∀ a0, (Instr.markerLockLoss a0 4).wf = false) ∧ (∀ a0, (Instr.prbsCheckerLock a0 .ml ⟨4, 1, []⟩).wf = false) ∧
    (∀ a0 d2 e3, (Instr.memoryTemperatureHot a0 5 d2 e3).wf = false) :=
  ⟨rfl, rfl, rfl, rfl, rfl, rfl, fun _ => rfl, fun _ => rfl, fun _ => rfl, fun _ => rfl, fun _ => rfl, fun _ => rfl,
  fun _ _ _ => rfl⟩

/-- The invariants hold at reset, and no command waits there. -/
theorem test_reset_quiet : Quiet State.reset.dev ∧ State.reset.pending = [] := by unfold Quiet; decide +kernel

/-- The cells of the package's pins number 2,361 (R567). -/
theorem test_scan_cells : scanCells.length = scanLength := by decide +kernel

/-- A state with a command in front, and one with an empty queue (StepRunsFrontCommand). -/
theorem witness_StepRunsFrontCommand : (State.mk demo [.sfcLoRead .pf0 0]).pending = .sfcLoRead .pf0 0 :: [] ∧ (at_ demo).pending = [] :=
  ⟨rfl, rfl⟩

/-- A quiet device whose step answers a next state (EveryStepKeepsTheDeviceQuiet). -/
theorem witness_EveryStepKeepsTheDeviceQuiet : Quiet demo ∧ ∃ t, step (State.mk demo [.sfcLoRead .pf0 0]) = .next t :=
  ⟨by unfold Quiet; decide +kernel, _, rfl⟩

/-- A step that answers a next state out of HELD (LevelFlagsStandAfterEveryStep, InterruptsDeliveredAfterEveryStep). -/
theorem witness_LevelFlagsStandAfterEveryStep : ∃ t, step (State.mk demo [.kick .pf0 0]) = .next t ∧ t.dev.im.state ≠ .held :=
  ⟨_, rfl, by decide +kernel⟩

/-- HeldDeviceTakesOnlyPins: held. -/
theorem witness_HeldDeviceTakesOnlyPins_1 :
    (Quiet heldDev ∧ heldDev.im.state = .held ∧ heldDev.kicks = [] ∧ atPins (.frameBoundary 7) = false) := by
  unfold Quiet; decide +kernel

/-- States of PlainAccessesFollowTheAccessCodes, write, write vf, read. -/
def dev1 : Dev := demo.setReg (R .IM_FLAGS_EN) 0x2A

/-- PlainAccessesFollowTheAccessCodes: write, write vf, read. -/
theorem witness_PlainAccessesFollowTheAccessCodes_1 :
    (Quiet demo ∧ srcOff .pf0 (R .IM_FLAGS_EN).addr = some (R .IM_FLAGS_EN).addr ∧ opens demo .pf0 (R .IM_FLAGS_EN) true = true ∧
      special RegName.IM_FLAGS_EN = false ∧ reportAddr (R .IM_FLAGS_EN).addr = false) ∧
    (Quiet demo ∧ opens demo (.vf 0) (R .VF_FLAGS_EN 0) true = true ∧ (srcOff (.vf 0) (R .VF_FLAGS_EN 0).addr).isSome = true ∧
      special RegName.VF_FLAGS_EN = false ∧ reportAddr (R .VF_FLAGS_EN 0).addr = false) ∧
    (Quiet dev1 ∧ opens dev1 .pf0 (R .IM_FLAGS_EN) false = true ∧ latches RegName.IM_FLAGS_EN = false) := by
  unfold Quiet; decide +kernel

/-- States of AccessesRunWordByWord, pair, same cycle, same cycle flag. -/
def dev2 : Dev := { demo with ob := { demo.ob with cnt := [(2047, 2 ^ 40 + 7)] } }

/-- The next. -/
def dev3 : Dev := (demo.setFld (R .TF_US_CFG 0) 31 31 1).setFld (R .IM_FLAGS) 5 5 1

/-- AccessesRunWordByWord: pair, same cycle, same cycle flag. -/
theorem witness_AccessesRunWordByWord_1 :
    (Quiet dev2 ∧ srcOff .pf0 (R .OB_CNT_LO 2047).addr = some (R .OB_CNT_LO 2047).addr ∧ opens dev2 .pf0 (R .OB_CNT_LO 2047) false
      = true ∧ opens dev2 .pf0 (R .OB_CNT_HI 2047) false = true ∧ dev2.busUp .pf0 = true) ∧
    (Quiet demo ∧ portOf (.core 2) < portOf .pf0 ∧ portOf .pf0 < 16 ∧ demo.clearsFlags ⟨.core 2, (R .PC_TUNNEL_PORTS).addr, 15, 9⟩
      = false ∧ demo.clearsFlags ⟨.pf0, (R .PC_TUNNEL_PORTS).addr, 15, 7⟩ = false ∧ demo.givesGo ⟨.pf0, (R .PC_TUNNEL_PORTS).addr,
      15, 7⟩ = false ∧ demo.givesGo ⟨.core 2, (R .PC_TUNNEL_PORTS).addr, 15, 9⟩ = false) ∧
    (Quiet dev3 ∧ dev3.clearsFlags ⟨.pf0, (R .UL_FLAGS 1).addr, 15, 2 ^ 9⟩ = true ∧ dev3.givesGo ⟨.pf0, (R .UL_FLAGS 1).addr, 15, 2
      ^ 9⟩ = false ∧ dev3.clearsFlags ⟨.core 2, (R .UL_SER_CFG 1).addr, 15, 5⟩ = false ∧ dev3.givesGo ⟨.core 2, (R .UL_SER_CFG
      1).addr, 15, 5⟩ = false) := by
  unfold Quiet; decide +kernel

/-- AccessesRunWordByWord: same cycle GO. -/
theorem witness_AccessesRunWordByWord_2 :
    (Quiet demo ∧ demo.givesGo ⟨.core 2, Win.tm.base + 0x24, 15, 2 ^ 31 + 3⟩ = true ∧ demo.givesGo ⟨.pf0, Win.tm.base + 0x24, 15, 2
      ^ 31 + 3⟩ = true ∧ demo.clearsFlags ⟨.core 2, Win.tm.base + 0x24, 15, 2 ^ 31 + 3⟩ = false ∧ demo.clearsFlags ⟨.pf0,
      Win.tm.base + 0x24, 15, 2 ^ 31 + 3⟩ = false) := by
  unfold Quiet; decide +kernel

/-- States of SuperframeCounterReadsAsOneValue, read, srst. -/
def dev4 : Dev := d0tf fun x => { x with sfc := 2 ^ 50 + 5 }

/-- SuperframeCounterReadsAsOneValue: read, srst. -/
theorem witness_SuperframeCounterReadsAsOneValue_1 :
    (Quiet dev4 ∧ opens dev4 .pf0 (R .TF_SFC_LO 0) false = true ∧ dev4.awake = true) ∧
    (Quiet dev4 ∧ dev4.awake = true) := by
  unfold Quiet; decide +kernel

/-- HolesReadZeroAndIgnoreWrites: pf0 read, dma write, vf. -/
theorem witness_HolesReadZeroAndIgnoreWrites_1 :
    (Quiet demo ∧ demo.busUp .pf0 = true ∧ (match demo.placeAt 0x37FFFFC with | .hole => true | _ => false) = true ∧
      (match demo.placeAt 0x3800000 with | .hole => true | _ => false) = true ∧ Reg.ofAddr 0x37FFFFC = none ∧ winAt 0x37FFFFC =
      none ∧ msixAt 0x37FFFFC = none) ∧
    (Quiet demo ∧ demo.busUp (.dma 3) = true ∧ (match demo.placeAt 0x37FFFFC with | .hole => true | _ => false) = true) ∧
    (Quiet demo ∧ demo.busUp (.vf 0) = true ∧ vfToPf 0 0x3FFFFFC = none) := by
  unfold Quiet; decide +kernel

/-- States of ConfigurationSpaceReadsAndWrites, vf identity, numVfs, vf off. -/
def dev5 : Dev := demo.onMc fun m => { m with pcie := { m.pcie with vfEnable := false } }

/-- The next. -/
def dev6 : Dev := demo.onMc fun m => { m with pcie := { m.pcie with numVfs := 3 } }

/-- ConfigurationSpaceReadsAndWrites: vf identity, numVfs, vf off. -/
theorem witness_ConfigurationSpaceReadsAndWrites_1 :
    (Quiet demo ∧ demo.im.state ≠ .held ∧ demo.pins.perstN = true ∧ funcOf (.vf 15) = some 16 ∧ demo.mc.pcie.linkUp = true ∧
      demo.mc.pcie.there 16 = true) ∧
    (Quiet dev5 ∧ dev5.im.state ≠ .held ∧ dev5.pins.perstN = true ∧ funcOf .pf0 = some 0 ∧ dev5.mc.pcie.linkUp = true ∧
      dev5.mc.pcie.there 0 = true ∧ dev5.mc.pcie.vfEnable = false) ∧
    (Quiet dev6 ∧ dev6.im.state ≠ .held ∧ dev6.pins.perstN = true ∧ dev6.mc.pcie.there 4 = false) := by
  unfold Quiet; decide +kernel

/-- PartialWritesAreDiscarded: pf0, core. -/
theorem witness_PartialWritesAreDiscarded_1 :
    (Quiet demo ∧ opens demo .pf0 (R .IM_FLAGS_EN) true = true ∧ demo.busUp (.core 3) = true) ∧
    (Quiet demo ∧ demo.busUp (.core 3) = true) := by
  unfold Quiet; decide +kernel

/-- OutOfSliceAccessesAbort: read, write. -/
theorem witness_OutOfSliceAccessesAbort_1 :
    (Quiet demo ∧ demo.busUp (.vf 15) = true ∧ vfToPf 15 0x3FFFFFC = none) := by
  unfold Quiet; decide +kernel

/-- States of GoInBusyBankIsRejected, go. -/
def dev7 : Dev := waiting .tm 3 5 demo

/-- GoInBusyBankIsRejected: go. -/
theorem witness_GoInBusyBankIsRejected_1 :
    (Quiet dev7 ∧ winNumber .tm = true ∧ dev7.busUp .pf0 = true ∧ dev7.answers Win.tm.base = true ∧ dev7.winThere .tm = true ∧
      ((dev7.win .tm).bank 0).busy = true) := by
  unfold Quiet; decide +kernel

/-- RefusedCommandsChangeNoObject: start, tb vf, gcl. -/
theorem witness_RefusedCommandsChangeNoObject_1 :
    (Quiet demo ∧ ready demo .im .pf0 = true ∧ demo.im.state ≠ .structured) ∧
    (Quiet demo ∧ ready demo .tb (.vf 0) = true ∧ trusted (.vf 0) = false) ∧
    (Quiet demo ∧ ready demo .tb .pf0 = true ∧ demo.portDef 2 = none) := by
  unfold Quiet; decide +kernel

/-- States of RefusedCommandsChangeNoObject, ms vf, upd, term vf. -/
def dev8 : Dev :=
  { demo with im := { demo.im with str := { demoStr with slices := [⟨0x7F, 3, true, 128, 1000, 0, 1000, 0, 1000⟩] } } }

/-- RefusedCommandsChangeNoObject: ms vf, upd, term vf. -/
theorem witness_RefusedCommandsChangeNoObject_2 :
    (Quiet demo ∧ ready demo .ce (.vf 0) = true ∧ trusted (.vf 0) = false) ∧
    (Quiet demo ∧ ready demo .upd .pf0 = true ∧ demo.session = 0) ∧
    (Quiet dev8 ∧ ready dev8 (.rg 0) (.vf 0) = true ∧ dev8.treeOpen (.vf 0) 7 = false) := by
  unfold Quiet; decide +kernel

/-- States of LatchingReadsReturnLowWordAndHoldTheRest, sfc, sfc vf, ul stat. -/
def dev9 : Dev := (demo.onTf 7 fun x => { x with sfc := 2 ^ 51 - 1 })

/-- The next. -/
def dev10 : Dev := (demo.onPort 1 fun p => { p with stats := [(21, 2 ^ 33 + 5)] })

/-- LatchingReadsReturnLowWordAndHoldTheRest: sfc, sfc vf, ul stat. -/
theorem witness_LatchingReadsReturnLowWordAndHoldTheRest_1 :
    (Quiet dev9 ∧ opens dev9 .pf0 (R .TF_SFC_LO 7) false = true) ∧
    (Quiet dev9 ∧ opens dev9 (.vf 0) (R .TF_SFC_LO 7) false = true) ∧
    (Quiet dev10 ∧ opens dev10 .pf0 (R .UL_STAT_LO 1 21) false = true) := by
  unfold Quiet; decide +kernel

/-- States of LatchingReadsReturnLowWordAndHoldTheRest, mgmt, cnt, pcnt. -/
def dev11 : Dev := (demo.onMc fun m => { m with mgmtStat := [(7, 2 ^ 64 - 1)] })

/-- The next. -/
def dev12 : Dev := ((demo.onOb fun o => { o with cnt := [(2047, 2 ^ 48 - 2)] }).setFld (R .OB_CNT_OVF 63) 31 31 1)

/-- The next. -/
def dev13 : Dev := ((demo.onOb fun o => { o with pcnt := [(0, 2 ^ 48 - 2)] }).setFld (R .OB_PCNT_CFG 0) 29 28 3)

/-- LatchingReadsReturnLowWordAndHoldTheRest: mgmt, cnt, pcnt. -/
theorem witness_LatchingReadsReturnLowWordAndHoldTheRest_2 :
    (Quiet dev11 ∧ opens dev11 .pf0 (R .MC_MGMT_STAT_LO 7) false = true ∧ dev11.mc.mgmtStat.getD 7 0 < 2 ^ 64) ∧
    (Quiet dev12 ∧ opens dev12 (.core 3) (R .OB_CNT_LO 2047) false = true) ∧
    (Quiet dev13 ∧ opens dev13 .pf0 (R .OB_PCNT_LO 0) false = true) := by
  unfold Quiet; decide +kernel

/-- States of LatchingReadsReturnLowWordAndHoldTheRest, now, tod, cap. -/
def dev14 : Dev := (demo.onTb fun b => { b with c := 2 ^ 104 - 1 })

/-- The next. -/
def dev15 : Dev := ((demo.onTb fun b => { b with capture := [(4, 2 ^ 64 - 1)] }).setFld (R .TB_CAP_CFG 4) 28 28 1)

/-- LatchingReadsReturnLowWordAndHoldTheRest: now, tod, cap. -/
theorem witness_LatchingReadsReturnLowWordAndHoldTheRest_3 :
    (Quiet dev14 ∧ opens dev14 .pf0 (R .TB_NOW_LO) false = true) ∧
    (Quiet dev14 ∧ opens dev14 .pf0 (R .TB_TOD_NS) false = true) ∧
    (Quiet dev15 ∧ opens dev15 .pf0 (R .TB_CAP_LO 4) false = true ∧ dev15.tb.capture.getD 4 0 < 2 ^ 64) := by
  unfold Quiet; decide +kernel

/-- States of LatchingReadsReturnLowWordAndHoldTheRest, todcap, freeErr. -/
def dev16 : Dev := (demo.onTb fun b => { b with todResult := [(3, 2 ^ 64 - 1)] })

/-- The next. -/
def dev17 : Dev := ((demo.onBp fun b => { b with errCell := 77 }).setReg (R .BP_FREE_ERR) 0x80000000)

/-- LatchingReadsReturnLowWordAndHoldTheRest: todcap, freeErr. -/
theorem witness_LatchingReadsReturnLowWordAndHoldTheRest_4 :
    (Quiet dev16 ∧ opens dev16 .pf0 (R .TB_TODCAP_T_LO 3) false = true ∧ dev16.tb.todResult.getD 3 0 < 2 ^ 64) ∧
    (Quiet dev17 ∧ opens dev17 .pf0 (R .BP_FREE_ERR) false = true ∧ dev17.bp.errCell < 2 ^ 32) := by
  unfold Quiet; decide +kernel

/-- PairedRegistersCommitWithTheHighWord: ponid lo, inc lo, cmp lo. -/
theorem witness_PairedRegistersCommitWithTheHighWord_1 :
    (Quiet demo ∧ (LowPair.ponid 7).ok = true ∧ opens demo .pf0 (lowReg (.ponid 7)) true = true) ∧
    (Quiet demo ∧ (LowPair.inc).ok = true ∧ opens demo .pf0 (lowReg .inc) true = true) ∧
    (Quiet demo ∧ (LowPair.cmpTgt 7).ok = true ∧ opens demo .pf0 (lowReg (.cmpTgt 7)) true = true) := by
  unfold Quiet; decide +kernel

/-- States of PairedRegistersCommitWithTheHighWord, pn lo, ponid hi, inc hi. -/
def dev18 : Dev := (demo.onTf 7 fun x => { x with ponidHeld := some 5 })

/-- The next. -/
def dev19 : Dev := (demo.onTb fun b => { b with heldLow := some 0x47AE147B })

/-- PairedRegistersCommitWithTheHighWord: pn lo, ponid hi, inc hi. -/
theorem witness_PairedRegistersCommitWithTheHighWord_2 :
    (Quiet demo ∧ (LowPair.pnThresh).ok = true ∧ opens demo .pf0 (lowReg .pnThresh) true = true) ∧
    (Quiet dev18 ∧ opens dev18 .pf0 (R .TF_PONID_HI 7) true = true ∧ (dev18.tf 7).ponidHeld = some 5) ∧
    (Quiet dev19 ∧ opens dev19 .pf0 (R .TB_INC_HI) true = true ∧ dev19.tb.heldLow = some 0x47AE147B) := by
  unfold Quiet; decide +kernel

/-- States of PairedRegistersCommitWithTheHighWord, inc hi bad, cmp hi, pn hi. -/
def dev20 : Dev := ((demo.onTb fun b => { b with cmpHeld := [(7, 9)] }).setFld (R .TB_CMP_CFG 7) 31 31 1)

/-- The next. -/
def dev21 : Dev := (demo.onCe fun b => { b with pnHeld := some 9 })

/-- PairedRegistersCommitWithTheHighWord: inc hi bad, cmp hi, pn hi. -/
theorem witness_PairedRegistersCommitWithTheHighWord_3 :
    (Quiet dev19 ∧ True) ∧
    (Quiet dev20 ∧ opens dev20 .pf0 (R .TB_CMP_TGT_HI 7) true = true ∧ dev20.tb.cmpHeld.get? 7 = some 9) ∧
    (Quiet dev21 ∧ opens dev21 .pf0 (R .CE_MS_PN_THRESH_HI) true = true ∧ dev21.ce.pnHeld = some 9) := by
  unfold Quiet; decide +kernel

/-- PinsMoveTheDeviceBetweenItsStates: porst low, rail, porst high. -/
theorem witness_PinsMoveTheDeviceBetweenItsStates_1 :
    (Quiet demo ∧ True) ∧
    (Quiet heldDev ∧ heldDev.im.state = .held ∧ heldDev.pins.railsGood = true ∧ heldDev.pins.refSys = true ∧ heldDev.kicks = []) := by
  unfold Quiet; decide +kernel

/-- States of PinsMoveTheDeviceBetweenItsStates, rails, srst low, srst high. -/
def dev22 : Dev := ((heldDev.onPins fun p => { p with railsGood := false, straps := 7 }))

/-- The next. -/
def dev23 : Dev := (bootDev.onIm fun m => { m with bootHalted := true })

/-- PinsMoveTheDeviceBetweenItsStates: rails, srst low, srst high. -/
theorem witness_PinsMoveTheDeviceBetweenItsStates_2 :
    (Quiet dev22 ∧ dev22.im.state = .held ∧ dev22.pins.porstN = true ∧ dev22.pins.refSys = true ∧ dev22.pins.testEn = false) ∧
    (Quiet demo ∧ demo.im.state ≠ .held) ∧
    (Quiet dev23 ∧ dev23.im.state ≠ .held) := by
  unfold Quiet; decide +kernel

/-- States of PinsMoveTheDeviceBetweenItsStates, pwrfail, pwrfail rise, perst. -/
def dev24 : Dev := (demo.onOb fun o => { o with pwrFail := true })

/-- PinsMoveTheDeviceBetweenItsStates: pwrfail, pwrfail rise, perst. -/
theorem witness_PinsMoveTheDeviceBetweenItsStates_3 :
    (Quiet demo ∧ demo.im.state ≠ .held ∧ demo.ob.pwrFail = false) ∧
    (Quiet dev24 ∧ True) := by
  unfold Quiet; decide +kernel

/-- PinsMoveTheDeviceBetweenItsStates: refsys, jtag scan, jtag other. -/
theorem witness_PinsMoveTheDeviceBetweenItsStates_4 :
    (Quiet demo ∧ demo.im.state ≠ .held ∧ demo.im.state ≠ .failed ∧ (demo.win .im).queue.length ≤ 1) ∧
    (Quiet demo ∧ demo.im.state ≠ .held ∧ demo.im.state ≠ .failed ∧ (demo.win .im).queue.length ≤ 1 ∧ (8 : Nat) ∈ [0x00, 0x03,
      0x04, 0x08, 0x09]) ∧
    (Quiet demo ∧ (5 : Nat) ∉ [0x00, 0x03, 0x04, 0x08, 0x09]) := by
  unfold Quiet; decide +kernel

/-- States of PinsMoveTheDeviceBetweenItsStates, jtag idcode, refpon, return. -/
def dev25 : Dev := (demo.onPins fun p => { p with refEth := false })

/-- PinsMoveTheDeviceBetweenItsStates: jtag idcode, refpon, return. -/
theorem witness_PinsMoveTheDeviceBetweenItsStates_5 :
    (Quiet demo ∧ (2 : Nat) ∉ [0x00, 0x03, 0x04, 0x08, 0x09]) ∧
    (Quiet dev25 ∧ dev25.im.state ≠ .held) := by
  unfold Quiet; decide +kernel

/-- BootLoadAppliesTheImageOrFailsWithItsError: no image. -/
theorem witness_BootLoadAppliesTheImageOrFailsWithItsError_1 :
    (Quiet bootDev ∧ bootDev.im.state = .booting ∧ bootDev.im.bootHalted = false ∧ bootDev.im.bootsrc = 0 ∧ (bootDev.win .im).queue
      = [] ∧ bootDev.flag (R .IM_DEV_STATUS) 4 = false) := by
  unfold Quiet; decide +kernel

/-- States of DeviceCommandsComplete, start, quiesce, resume. -/
def dev26 : Dev := (demo.onIm fun m => { m with state := .structured })

/-- The next. -/
def dev27 : Dev := (demo.onIm fun m => { m with state := .quiesced })

/-- DeviceCommandsComplete: start, quiesce, resume. -/
theorem witness_DeviceCommandsComplete_1 :
    (Quiet dev26 ∧ ready dev26 .im .pf0 = true ∧ dev26.im.state = .structured) ∧
    (Quiet demo ∧ ready demo .im .pf0 = true ∧ demo.im.state = .running) ∧
    (Quiet dev27 ∧ ready dev27 .im .pf0 = true ∧ dev27.im.state = .quiesced) := by
  unfold Quiet; decide +kernel

/-- States of DeviceCommandsComplete, warmReset, loadHost, loadReach. -/
def dev28 : Dev := (bootDev.setFld (R .IM_DEV_STATUS) 4 4 1)

/-- The next. -/
def dev29 : Dev := (demo.onReach 0 fun x => { x with state := .dark })

/-- DeviceCommandsComplete: warmReset, loadHost, loadReach. -/
theorem witness_DeviceCommandsComplete_2 :
    (Quiet demo ∧ ready demo .im .pf0 = true ∧ demo.im.state ≠ .booting) ∧
    (Quiet dev28 ∧ ready dev28 .im .pf0 = true ∧ dev28.im.state = .booting ∧ dev28.flag (R .IM_DEV_STATUS) 4 = true) ∧
    (Quiet dev29 ∧ ready dev29 .im .pf0 = true ∧ dev29.reachExists 0 = true ∧ dev29.alive = true ∧ (dev29.reach 0).state = .dark ∧
      dev29.im.load = none) := by
  unfold Quiet; decide +kernel

/-- DeviceCommandsComplete: lightReach, darkenReach. -/
theorem witness_DeviceCommandsComplete_3 :
    (Quiet dev29 ∧ ready dev29 .im .pf0 = true ∧ dev29.traffic = true ∧ (dev29.reach 0).state = .dark ∧ (dev29.reach 0).loaded =
      true ∧ (dev29.reach 0).lightPending = false) ∧
    (Quiet demo ∧ ready demo .im .pf0 = true ∧ demo.traffic = true ∧ (demo.reach 0).state = .lit ∧ (demo.reach 0).darkenIn = none) := by
  unfold Quiet; decide +kernel

/-- States of ReachLoadEndsDarkWithItsOutcome, bad image. -/
def dev30 : Dev := ((demo.onReach 0 fun x => { x with state := .loading }).onIm fun m => { m with load := some ⟨0, 64, 100⟩ })

/-- ReachLoadEndsDarkWithItsOutcome: bad image. -/
theorem witness_ReachLoadEndsDarkWithItsOutcome_1 :
    (Quiet dev30 ∧ dev30.alive = true ∧ dev30.im.load = some ⟨0, 64, 100⟩) := by
  unfold Quiet; decide +kernel

/-- States of FrameBoundaryAdvancesSfcAndStates, plain, wraps, setSfc. -/
def dev31 : Dev := (demo.onTf 0 fun x => { x with sfc := 2 ^ 51 - 1 })

/-- The next. -/
def dev32 : Dev := (waiting (.tf 0) 4 1 demo)

/-- FrameBoundaryAdvancesSfcAndStates: plain, wraps, setSfc. -/
theorem witness_FrameBoundaryAdvancesSfcAndStates_1 :
    (Quiet demo ∧ demo.alive = true ∧ demo.lit 0 = true ∧ (demo.reach 0).darkenIn = none ∧ (demo.pt 0).restore = none ∧ (demo.tf
      0).sfcLoad = none ∧ demo.waitingCmd (.tf 0) 4 = none) ∧
    (Quiet dev31 ∧ True) ∧
    (Quiet dev32 ∧ (dev32.waitingCmd (.tf 0) 4).any (fun a => bits a.obj 15 0 == 1) ∧ dev32.lit 1 = true ∧ (dev32.pt 1).restore =
      none ∧ (dev32.reach 0).darkenIn = none) := by
  unfold Quiet; decide +kernel

/-- States of FrameBoundaryAdvancesSfcAndStates, quiesce, resume, light. -/
def dev33 : Dev := (waiting .im 2 0 demo)

/-- The next. -/
def dev34 : Dev := (waiting .im 3 0 (demo.onIm fun m => { m with state := .quiesced }))

/-- The next. -/
def dev35 : Dev := (demo.onReach 0 fun x => { x with state := .dark, lightPending := true })

/-- FrameBoundaryAdvancesSfcAndStates: quiesce, resume, light. -/
theorem witness_FrameBoundaryAdvancesSfcAndStates_2 :
    (Quiet dev33 ∧ (dev33.win .im).queue.length ≤ 1 ∧ (dev33.waitingCmd .im 2).isSome = true ∧ dev33.im.state = .running) ∧
    (Quiet dev34 ∧ (dev34.waitingCmd .im 3).isSome = true ∧ dev34.im.state = .quiesced ∧ dev34.waitingCmd .bp 0x20 = none) ∧
    (Quiet dev35 ∧ dev35.traffic = true ∧ (dev35.reach 0).state = .dark ∧ (dev35.reach 0).lightPending = true) := by
  unfold Quiet; decide +kernel

/-- States of LaneEventsTakeEffect, pll loss, pll loss ml, pll relock. -/
def dev36 : Dev := (demo.setFld (laneStatus .pt 7) 4 4 1)

/-- The next. -/
def dev37 : Dev := (demo.setFld (laneStatus .ml 3) 4 4 1)

/-- LaneEventsTakeEffect: pll loss, pll loss ml, pll relock. -/
theorem witness_LaneEventsTakeEffect_1 :
    (Quiet dev36 ∧ dev36.laneLive = true ∧ LaneKind.has .pt 7 = true ∧ dev36.laneRole .pt 7 ≠ 0 ∧ dev36.flag (laneStatus .pt 7) 4 =
      true) ∧
    (Quiet dev37 ∧ dev37.laneRole .ml 3 ≠ 0 ∧ dev37.flag (laneStatus .ml 3) 4 = true) ∧
    (Quiet demo ∧ demo.laneRole .ul 2 ≠ 0 ∧ demo.flag (laneStatus .ul 2) 4 = false) := by
  unfold Quiet; decide +kernel

/-- States of LaneEventsTakeEffect, los set ul, los set ml, los clear. -/
def dev38 : Dev := (demo.setFld (laneStatus .ul 0) 1 0 0)

/-- The next. -/
def dev39 : Dev := (demo.setFld (laneStatus .ml 3) 1 0 0)

/-- The next. -/
def dev40 : Dev := ((demo.setFld (laneStatus .ul 1) 1 0 3).setFld (laneCtl .ul 1) 0 0 0)

/-- LaneEventsTakeEffect: los set ul, los set ml, los clear. -/
theorem witness_LaneEventsTakeEffect_2 :
    (Quiet dev38 ∧ pam4 .ul = true ∧ dev38.flag (laneStatus .ul 0) 0 = false ∧ 49 < 5 * dev38.fld (laneLosCfg .ul 0) 31 24 ∧
      dev38.fld (laneLosCfg .ul 0) 15 8 < (dev38.laneDet .ul 0).losRun + 17) ∧
    (Quiet dev39 ∧ dev39.flag (laneStatus .ml 3) 0 = false ∧ 0 < 5 * dev39.fld (laneLosCfg .ml 3) 31 24 ∧ dev39.fld (laneLosCfg .ml
      3) 15 8 < (dev39.laneDet .ml 3).losRun + 17) ∧
    (Quiet dev40 ∧ dev40.flag (laneStatus .ul 1) 0 = true ∧ dev40.rxOff .ul 1 = false ∧ 5 * max (dev40.fld (laneLosCfg .ul 1) 23
      16) (dev40.fld (laneLosCfg .ul 1) 31 24) < 81 ∧ 100 * dev40.fld (laneLosCfg .ul 1) 7 0 < (dev40.laneDet .ul 1).losRun + 1001) := by
  unfold Quiet; decide +kernel

/-- States of LaneEventsTakeEffect, lol set, lol clear, eye. -/
def dev41 : Dev := (demo.setFld (laneStatus .ml 0) 1 0 0)

/-- The next. -/
def dev42 : Dev := (demo.setFld (laneStatus .ul 0) 1 0 2)

/-- The next. -/
def dev43 : Dev := (demo.setFld (R .LX_PB_EYE_CFG 5) 31 31 1)

/-- LaneEventsTakeEffect: lol set, lol clear, eye. -/
theorem witness_LaneEventsTakeEffect_3 :
    (Quiet dev41 ∧ dev41.flag (laneStatus .ml 0) 1 = false ∧ dev41.flag (laneStatus .ml 0) 0 = false ∧ 50 * atLeast1 (dev41.fld
      (laneLolCfg .ml 0) 23 16) < 301 ∧ dev41.fld (laneLolCfg .ml 0) 15 8 < (dev41.laneDet .ml 0).lolRun + 6) ∧
    (Quiet dev42 ∧ dev42.pins.refEth = true ∧ dev42.flag (laneStatus .ul 0) 1 = true ∧ dev42.flag (laneStatus .ul 0) 0 = false ∧ 2
      * 149 < 50 * atLeast1 (dev42.fld (laneLolCfg .ul 0) 23 16) ∧ 100 * dev42.fld (laneLolCfg .ul 0) 7 0 < (dev42.laneDet .ul
      0).lolRun + 1001) ∧
    (Quiet dev43 ∧ dev43.laneRole .pb 5 ≠ 0 ∧ dev43.flag (R .LX_PB_EYE_CFG 5) 31 = true) := by
  unfold Quiet; decide +kernel

/-- States of LaneEventsTakeEffect, eye ul, prbs lock, prbs loss. -/
def dev44 : Dev := (demo.setFld (R .LX_UL_EYE_CFG 2) 31 31 1)

/-- The next. -/
def dev45 : Dev := ((demo.setFld (lanePrbsCtl .pb 5) 5 5 1).setFld (laneCtl .pb 5) 0 0 0)

/-- The next. -/
def dev46 : Dev := (dLoss.setFld (laneCtl .ul 2) 0 0 0)

/-- LaneEventsTakeEffect: eye ul, prbs lock, prbs loss. -/
theorem witness_LaneEventsTakeEffect_4 :
    (Quiet dev44 ∧ dev44.laneRole .ul 2 ≠ 0 ∧ dev44.flag (R .LX_UL_EYE_CFG 2) 31 = true) ∧
    (Quiet dev45 ∧ dev45.laneRole .pb 5 ≠ 0 ∧ dev45.flag (lanePrbsCtl .pb 5) 5 = true ∧ dev45.rxOff .pb 5 = false ∧ (chkPattern
      (dev45.fld (lanePrbsCtl .pb 5) 27 24)).isSome ∧ dev45.flag (laneStatus .pb 5) 5 = false ∧ 64 ≤ (dev45.chk .pb 5).run + 64) ∧
    (Quiet dev46 ∧ dev46.laneRole .ul 2 ≠ 0 ∧ dev46.flag (lanePrbsCtl .ul 2) 5 = true ∧ dev46.rxOff .ul 2 = false ∧ chkPattern
      (dev46.fld (lanePrbsCtl .ul 2) 27 24) = some (.prbs 7 [7, 6]) ∧ dev46.flag (laneStatus .ul 2) 5 = true ∧ (dev46.chk .ul
      2).errs = 15 ∧ (dev46.chk .ul 2).pos % 1024 ≠ 0 ∧ (dev46.rxBits .ul 2 ((dev46.chk .ul 2).prev.getD 0) (dev46.rxLevels .ul 2
      [1])).head? = some false ∧ (dev46.chk .ul 2).prev ≠ none ∧ false ≠ (ChkPattern.prbs 7 [7, 6]).next (dev46.chk .ul 2).ref) := by
  unfold Quiet; decide +kernel

/-- States of LaneEventsTakeEffect, rejoin, marker loss. -/
def dev47 : Dev := (((demo.setFld (laneStatus .ml 3) 7 6 3).setFld (laneStatus .ml 3) 1 0 0).onLx fun x =>
  { x with clean := [(3, 0)] }).onTb fun x => { x with ticks := 7812500 }

/-- The next. -/
def dev48 : Dev := (demo.setFld (laneStatus .ml 3) 7 6 1)

/-- LaneEventsTakeEffect: rejoin, marker loss. -/
theorem witness_LaneEventsTakeEffect_5 :
    (Quiet dev47 ∧ dev47.flag (laneStatus .ml 3) 7 = true ∧ dev47.fld (laneStatus .ml 3) 1 0 = 0 ∧ dev47.flag (laneStatus .ml 3) 6
      = true ∧ (dev47.lx.clean.get? 3).isSome ∧ 781250 * atLeast1 (dev47.fld (R .LX_ML_LINK_CFG 3) 7 0) ≤ dev47.tb.ticks) ∧
    (Quiet dev48 ∧ dev48.laneRole .ml 3 ≠ 0 ∧ dev48.markersMissing 3 = true) := by
  unfold Quiet; decide +kernel

/-- States of ProfileSlotsAndPrbsControlsAct, refill, swap, swap none. -/
def dev49 : Dev := (demo.onLx fun x => { x with pbQueue := [(0, [⟨900, 77, 3, 0, some 3⟩, ⟨901, 77, 3, 0, none⟩])] })

/-- The next. -/
def dev50 : Dev := (demo.onLx fun x =>
  { x with pbSlots := [(0, [⟨⟨900, 77, 3, 0, some 3⟩, [1, 2], true, false⟩, ⟨⟨901, 77, 3, 0, none⟩, [], true, false⟩])] })

/-- The next. -/
def dev51 : Dev := (demo.onLx fun x => { x with pbSlots := [(0, [⟨⟨901, 77, 3, 0, none⟩, [], true, false⟩])] })

/-- ProfileSlotsAndPrbsControlsAct: refill, swap, swap none. -/
theorem witness_ProfileSlotsAndPrbsControlsAct_1 :
    (Quiet dev49 ∧ dev49.lx.pbQueue.getD 0 [] = [⟨900, 77, 3, 0, some 3⟩, ⟨901, 77, 3, 0, none⟩] ∧ (dev49.lx.pbSlots.getD 0
      []).length < 4) ∧
    (Quiet dev50 ∧ (dev50.lx.pbSlots.getD 0 []).length = 2) ∧
    (Quiet dev51 ∧ True) := by
  unfold Quiet; decide +kernel

/-- States of ProfileSlotsAndPrbsControlsAct, chkClr, errInject. -/
def dev52 : Dev := ((demo.setFld (lanePrbsCtl .ul 1) 5 5 1).setFld (laneStatus .ul 1) 5 5 1)

/-- The next. -/
def dev53 : Dev := ((demo.setFld (lanePrbsCtl .ml 3) 4 4 1).onLx fun x => { x with gens := [(143, 0)] })

/-- ProfileSlotsAndPrbsControlsAct: chkClr, errInject. -/
theorem witness_ProfileSlotsAndPrbsControlsAct_2 :
    (Quiet dev52 ∧ opens dev52 .pf0 (lanePrbsCtl .ul 1) true = true ∧ dev52.laneRole .ul 1 ≠ 0 ∧ patternOk .ul (dev52.fld
      (lanePrbsCtl .ul 1) 27 24) = true) ∧
    (Quiet dev53 ∧ opens dev53 .pf0 (lanePrbsCtl .ml 3) true = true ∧ dev53.laneRole .ml 3 ≠ 0 ∧ patternOk .ml (dev53.fld
      (lanePrbsCtl .ml 3) 27 24) = true ∧ dev53.flag (lanePrbsCtl .ml 3) 4 = true ∧ (dev53.lx.gens.get? (laneKey .ml 3)).isSome =
      true) := by
  unfold Quiet; decide +kernel

/-- States of TreeCommandsComplete, treeOff, treeStandby, treeActive. -/
def dev54 : Dev := (demo.onTf 4 fun x => { x with state := .off })

/-- TreeCommandsComplete: treeOff, treeStandby, treeActive. -/
theorem witness_TreeCommandsComplete_1 :
    (Quiet demo ∧ ready demo (.tf 0) .pf0 = true ∧ demo.reachExists 0 = true ∧ demo.treeOpen .pf0 0 = true ∧ demo.lit 0 = true ∧
      (demo.tf 0).state ≠ .off) ∧
    (Quiet demo ∧ ready demo (.tf 0) .pf0 = true ∧ demo.reachExists 0 = true ∧ demo.treeOpen .pf0 0 = true ∧ demo.lit 4 = true ∧
      (demo.tf 4).state ≠ .standby ∧ (demo.tf 4).protCtrl = false) ∧
    (Quiet dev54 ∧ ready dev54 (.tf 0) .pf0 = true ∧ dev54.reachExists 0 = true ∧ dev54.treeOpen .pf0 0 = true ∧ dev54.lit 4 = true
      ∧ (dev54.tf 4).state ≠ .active ∧ (dev54.tf 4).protCtrl = false) := by
  unfold Quiet; decide +kernel

/-- States of TreeCommandsComplete, setSfc, xgemPortAdd, xgemPortDel. -/
def dev55 : Dev := (demo.onTf 0 fun x => { x with ports := [(7, ⟨3, false⟩)], openPkts := [(7, ⟨[], 1⟩)] })

/-- TreeCommandsComplete: setSfc, xgemPortAdd, xgemPortDel. -/
theorem witness_TreeCommandsComplete_2 :
    (Quiet demo ∧ ready demo (.tf 0) .pf0 = true ∧ demo.reachExists 0 = true ∧ demo.treeOpen .pf0 0 = true ∧ demo.lit 1 = true ∧
      (demo.tf 1).state = .off) ∧
    (Quiet demo ∧ ready demo (.tf 0) .pf0 = true ∧ demo.reachExists 0 = true ∧ demo.treeOpen .pf0 0 = true ∧ demo.copyTree 0 =
      false ∧ word (cmd 0 [0x1000000C + 0x1FF0000]) 0 % 2 ^ 16 = 12 ∧ word (cmd 0 [0x1000000C + 0x1FF0000]) 0 / 2 ^ 16 % 512 = 511
      ∧ bit (word (cmd 0 [0x1000000C + 0x1FF0000]) 0) 28 = true ∧ (demo.tf 0).ports.get? 12 = none ∧ (demo.tf 0).ports.length <
      8192 ∧ ((demo.tf 0).ports.any fun p => p.2.omcc && p.2.slot == 511) = false) ∧
    (Quiet dev55 ∧ ready dev55 (.tf 0) .pf0 = true ∧ dev55.reachExists 0 = true ∧ dev55.treeOpen .pf0 0 = true ∧ dev55.copyTree 0 =
      false ∧ (dev55.tf 0).ports.get? 7 = some ⟨3, false⟩) := by
  unfold Quiet; decide +kernel

/-- States of TreeCommandsComplete, xgemPortRead, termDefects, pmRead term. -/
def dev56 : Dev := (demo.onTf 0 fun x => { x with ports := [(7, ⟨3, false⟩)] })

/-- The next. -/
def dev57 : Dev := (demo.onTerm 511 fun x => { x with o := -5 })

/-- TreeCommandsComplete: xgemPortRead, termDefects, pmRead term. -/
theorem witness_TreeCommandsComplete_3 :
    (Quiet dev56 ∧ ready dev56 (.tf 0) .pf0 = true ∧ dev56.reachExists 0 = true ∧ dev56.treeOpen .pf0 0 = true ∧ (dev56.tf
      0).ports.get? 7 = some ⟨3, false⟩) ∧
    (Quiet dev57 ∧ ready dev57 (.tf 0) .pf0 = true ∧ dev57.reachExists 0 = true ∧ dev57.treeOpen .pf0 0 = true ∧ bits (cmd 511
      []).obj 15 0 = 511) ∧
    (Quiet demo ∧ ready demo (.tf 0) .pf0 = true ∧ demo.reachExists 0 = true ∧ demo.treeOpen .pf0 0 = true ∧ bit (cmd 511 []).obj
      16 = false ∧ demo.pmRead 0 511 34 = some (List.replicate 64 0) ∧ (demo.reach 0).state ≠ .loading ∧ demo.pmCell 0 511 34 =
      none) := by
  unfold Quiet; decide +kernel

/-- States of TreeCommandsComplete, pmRead tree, pmResetCurrent. -/
def dev58 : Dev := (demo.onPm 0 fun p => { p with running := true, q := { p.q with frames := 9 } })

/-- TreeCommandsComplete: pmRead tree, pmResetCurrent. -/
theorem witness_TreeCommandsComplete_4 :
    (Quiet demo ∧ ready demo (.tf 0) .pf0 = true ∧ demo.reachExists 0 = true ∧ demo.treeOpen .pf0 0 = true ∧ demo.pmRead 0 4096 0 =
      some (List.replicate 128 0)) ∧
    (Quiet dev58 ∧ ready dev58 (.tf 0) .pf0 = true ∧ dev58.reachExists 0 = true ∧ dev58.treeOpen .pf0 0 = true ∧ (dev58.pm
      0).running = true) := by
  unfold Quiet; decide +kernel

/-- States of FramingEventsTakeEffect, burst, energy, reasm. -/
def dev59 : Dev := (demo.onTf 0 fun x => { x with openPkts := [(7, ⟨[], 16⟩)] })

/-- FramingEventsTakeEffect: burst, energy, reasm. -/
theorem witness_FramingEventsTakeEffect_1 :
    (Quiet dBurst ∧ dBurst.alive = true ∧ dBurst.lit 0 = true ∧ (dBurst.tf 0).state = .active ∧ dBurst.findBurst 0 900 77 = some
      bBurst ∧ aBurst ∈ (dBurst.tf 0).accs ∧ aBurst.frame = 900 ∧ aBurst.pmTree.length = 14 ∧ 50 * dBurst.fld (R .LX_PB_BURST_CFG
      0) 7 0 ≤ iBurst.amp ∧ cdrQualifies bBurst.cdrLimit 0 iBurst.edges = true ∧ (dBurst.delimit 0 bBurst (dBurst.usCfg 0 900 77)
      none iBurst.cands).isSome ∧ (dBurst.lx.pbSetup.get? 0).isSome ∧ (dBurst.prof 3).valid = true) ∧
    (Quiet dBurst ∧ dBurst.alive = true ∧ dBurst.lit 0 = true ∧ (dBurst.tf 0).state ≠ .off ∧ 50 * dBurst.fld (R .LX_PB_BURST_CFG 0)
      7 0 < 4000 ∧ (dBurst.gs 0).sent = [⟨900, [bBurst], false, 0, 0⟩] ∧ 32 * bBurst.fin ≤ 12345 ∧ dBurst.inDiscSpan 0 (900 *
      dBurst.frameBits 0 + 12345) = false) ∧
    (Quiet dev59 ∧ dev59.alive = true ∧ (dev59.tf 0).openPkts.get? 7 = some ⟨[], 16⟩ ∧ max 1 (bits (dev59.usCfgNow 0) 15 8) ≤ 16) := by
  unfold Quiet; decide +kernel

/-- States of FramingEventsTakeEffect, pmHistory, pmHistory day, defectPop. -/
def dev60 : Dev := (demo.onPm 0 fun p => { p with waiting := [(false, ⟨PmHdr.rest, []⟩)] })

/-- The next. -/
def dev61 : Dev := (demo.onPm 0 fun p => { p with waiting := [(true, ⟨PmHdr.rest, []⟩)] })

/-- The next. -/
def dev62 : Dev := (demo.onTf 0 fun x => { x with events := [⟨true, 1, 2, 3⟩, ⟨false, 1, 2, 3⟩] })

/-- FramingEventsTakeEffect: pmHistory, pmHistory day, defectPop. -/
theorem witness_FramingEventsTakeEffect_2 :
    (Quiet dev60 ∧ dev60.alive = true ∧ (dev60.pm 0).waiting ≠ []) ∧
    (Quiet dev61 ∧ dev61.alive = true ∧ (dev61.pm 0).waiting = [(true, ⟨PmHdr.rest, []⟩)]) ∧
    (Quiet dev62 ∧ opens dev62 .pf0 (R .TF_DEFECT_POP 0) true = true) := by
  unfold Quiet; decide +kernel

/-- States of TerminalCommandsFollowTheSlotStates, provision, assign, deactivate. -/
def dev63 : Dev := (demo.onTerm 511 fun x => { x with state := .provisioned, sn := 5, rtdSn := some 100 })

/-- The next. -/
def dev64 : Dev := (demo.onTerm 511 fun x => { x with state := .operation, sn := 5, eqd := 9 })

/-- TerminalCommandsFollowTheSlotStates: provision, assign, deactivate. -/
theorem witness_TerminalCommandsFollowTheSlotStates_1 :
    (Quiet demo ∧ ready demo (.rg 0) .pf0 = true ∧ demo.reachExists 0 = true ∧ demo.treeOpen .pf0 0 = true ∧ (demo.tf 0).state =
      .active ∧ (demo.term 511).state = .free ∧ demo.slotOfSn 0 (word (cmd 511 [0x11112222, 0xFFFFFFFF]) 0 + 2 ^ 32 * word (cmd 511
      [0x11112222, 0xFFFFFFFF]) 1) = none) ∧
    (Quiet dev63 ∧ ready dev63 (.rg 0) .pf0 = true ∧ dev63.reachExists 0 = true ∧ dev63.treeOpen .pf0 0 = true ∧ (dev63.tf 0).state
      = .active ∧ (dev63.term 511).state = .provisioned ∧ (dev63.term 511).rtdSn.isSome = true ∧ (dev63.rg 0).hwq.length < 32) ∧
    (Quiet dev64 ∧ ready dev64 (.rg 0) .pf0 = true ∧ dev64.reachExists 0 = true ∧ dev64.treeOpen .pf0 0 = true ∧ (dev64.tf 0).state
      = .active ∧ (dev64.term 511).state = .operation) := by
  unfold Quiet; decide +kernel

/-- States of TerminalCommandsFollowTheSlotStates, deactivate lost, disable, enable. -/
def dev65 : Dev := (demo.onTerm 0 fun x => { x with state := .lost, sn := 5, eqd := 9 })

/-- The next. -/
def dev66 : Dev := ((demo.onTerm 511 fun x => { x with state := .assigned, sn := 5 }).onProf 511 fun p => { p with valid := true })

/-- The next. -/
def dev67 : Dev := (demo.onTerm 511 fun x => { x with state := .disabled, sn := 5 })

/-- TerminalCommandsFollowTheSlotStates: deactivate lost, disable, enable. -/
theorem witness_TerminalCommandsFollowTheSlotStates_2 :
    (Quiet dev65 ∧ ready dev65 (.rg 0) .pf0 = true ∧ dev65.reachExists 0 = true ∧ dev65.treeOpen .pf0 0 = true ∧ (dev65.tf 0).state
      = .active ∧ (dev65.term 0).state = .lost) ∧
    (Quiet dev66 ∧ ready dev66 (.rg 0) .pf0 = true ∧ dev66.reachExists 0 = true ∧ dev66.treeOpen .pf0 0 = true ∧ (dev66.tf 0).state
      = .active ∧ (dev66.term 511).state ≠ .free ∧ (dev66.term 511).state ≠ .disabled) ∧
    (Quiet dev67 ∧ ready dev67 (.rg 0) .pf0 = true ∧ dev67.reachExists 0 = true ∧ dev67.treeOpen .pf0 0 = true ∧ (dev67.tf 0).state
      = .active ∧ (dev67.term 511).state = .disabled) := by
  unfold Quiet; decide +kernel

/-- States of TerminalCommandsFollowTheSlotStates, release, setIk, read. -/
def dev68 : Dev := (demo.onTerm 511 fun x => { x with state := .operation, sn := 5 })

/-- The next. -/
def dev69 : Dev := (demo.onTerm 511 fun x => { x with state := .operation, sn := 5, eqd := 77, o := -1, rtd := 300, fails := 3 })

/-- TerminalCommandsFollowTheSlotStates: release, setIk, read. -/
theorem witness_TerminalCommandsFollowTheSlotStates_3 :
    (Quiet dev68 ∧ ready dev68 (.rg 0) .pf0 = true ∧ dev68.reachExists 0 = true ∧ dev68.treeOpen .pf0 0 = true ∧ (dev68.tf 0).state
      = .active ∧ (dev68.term 511).state ≠ .free) ∧
    (Quiet dev68 ∧ ready dev68 (.rg 0) .pf0 = true ∧ dev68.reachExists 0 = true ∧ dev68.treeOpen .pf0 0 = true ∧ (dev68.tf 0).state
      = .active ∧ (dev68.term 511).state = .operation) ∧
    (Quiet dev69 ∧ ready dev69 (.rg 0) .pf0 = true ∧ dev69.reachExists 0 = true ∧ dev69.treeOpen .pf0 0 = true ∧ (dev69.tf 0).state
      = .active) := by
  unfold Quiet; decide +kernel

/-- States of TerminalCommandsFollowTheSlotStates, profileRead, profileInvalidate. -/
def dev70 : Dev := (demo.onProf 511 fun x => { x with valid := true, amp := 1234, dc := -7 })

/-- TerminalCommandsFollowTheSlotStates: profileRead, profileInvalidate. -/
theorem witness_TerminalCommandsFollowTheSlotStates_4 :
    (Quiet dev70 ∧ ready dev70 (.rg 0) .pf0 = true ∧ dev70.reachExists 0 = true ∧ dev70.treeOpen .pf0 0 = true ∧ (dev70.tf 0).state
      = .active ∧ (dev70.prof 511).ue = false) ∧
    (Quiet dev70 ∧ ready dev70 (.rg 0) .pf0 = true ∧ dev70.reachExists 0 = true ∧ dev70.treeOpen .pf0 0 = true ∧ (dev70.tf 0).state
      = .active) := by
  unfold Quiet; decide +kernel

/-- States of PloamCommandsAndPopsActOnTheQueues, tail, send broadcast, send terminal. -/
def dev71 : Dev := (demo.onTerm 511 fun x => { x with state := .operation, sn := 5, seq := 255, ik := some 3 })

/-- PloamCommandsAndPopsActOnTheQueues: tail, send broadcast, send terminal. -/
theorem witness_PloamCommandsAndPopsActOnTheQueues_1 :
    (Quiet demo ∧ ready demo (.rg 0) .pf0 = true ∧ demo.treeOpen .pf0 0 = true ∧ bit (cmd 511 [0x04030201, 5]).obj 16 = false) ∧
    (Quiet demo ∧ ready demo (.rg 0) .pf0 = true ∧ bit (cmd 65536 [0x12]).obj 16 = true ∧ bits (cmd 65536 [0x12]).obj 15 0 = 0 ∧
      (demo.tf 0).state = .active ∧ hwIdent (word (cmd 65536 [0x12]) 0 % 256) = false ∧ (demo.rg 0).hostq.length < 64) ∧
    (Quiet dev71 ∧ ready dev71 (.rg 0) .pf0 = true ∧ bit (cmd 511 [0x12]).obj 16 = false ∧ (dev71.tf 0).state = .active ∧
      (dev71.term 511).state = .operation ∧ hwIdent (word (cmd 511 [0x12]) 0 % 256) = false ∧ (dev71.rg 0).hostq.length < 64) := by
  unfold Quiet; decide +kernel

/-- States of PloamCommandsAndPopsActOnTheQueues, ploamuPop, discPop. -/
def dev72 : Dev := (demo.onRg 0 fun x => { x with upq := [⟨1, true, []⟩, ⟨2, true, []⟩] })

/-- The next. -/
def dev73 : Dev := (demo.onRx fun x => { x with disc := [(0, [⟨0, 1, 2, 1⟩, ⟨1, 1, 2, 1⟩])] })

/-- PloamCommandsAndPopsActOnTheQueues: ploamuPop, discPop. -/
theorem witness_PloamCommandsAndPopsActOnTheQueues_2 :
    (Quiet dev72 ∧ opens dev72 .pf0 (R .RG_PLOAMU_POP 0) true = true) ∧
    (Quiet dev73 ∧ opens dev73 .pf0 (R .RG_DISC_POP 0) true = true ∧ (dev73.discHead .pf0 0).isSome = true) := by
  unfold Quiet; decide +kernel

/-- States of RangingEventsTakeEffect, discovery, auto assign, registration. -/
def dev74 : Dev := ((demo.setFld (R .RG_TREE_CFG 0) 31 31 1).onTerm 9 fun x => { x with state := .provisioned, sn := 77 })

/-- The next. -/
def dev75 : Dev := (demo.onTerm 511 fun x => { x with state := .assigned, sn := 77, granted := true, tries := 1 })

/-- RangingEventsTakeEffect: discovery, auto assign, registration. -/
theorem witness_RangingEventsTakeEffect_1 :
    (Quiet demo ∧ (snMsg 77).length = 40 ∧ leAt (snMsg 77) 4 8 = 77 ∧ demo.alive = true ∧ (demo.tf 0).state = .active ∧
      (demo.minRtd 0 : Int) ≤ demo.teq 0 - 200000 ∧ (demo.teq 0 : Int) - 200000 ≤ (demo.maxRtd 0 + demo.rand 0 : Nat) ∧
      demo.slotOfSn 0 77 = none ∧ demo.rx.disc.getD 0 [] = []) ∧
    (Quiet dev74 ∧ dev74.slotOfSn 0 77 = some 9 ∧ (dev74.term 9).state = .provisioned ∧ dev74.flag (R .RG_TREE_CFG 0) 31 = true ∧
      (dev74.rg 0).hwq.length < 32 ∧ (dev74.minRtd 0 : Int) ≤ dev74.teq 0 - 200000 ∧ (dev74.teq 0 : Int) - 200000 ≤ (dev74.maxRtd 0
      + dev74.rand 0 : Nat)) ∧
    (Quiet dev75 ∧ (dev75.term 511).state = .assigned ∧ (dev75.term 511).rangedEqd = none ∧ (dev75.tf 0).state = .active ∧ dev75.xg
      0 = false ∧ 700000 ≤ dev75.teq 0 ∧ (dev75.minRtd 0 : Int) ≤ (dev75.teq 0 : Int) - 700000 ∧ (dev75.teq 0 : Int) - 700000 ≤
      dev75.maxRtd 0) := by
  unfold Quiet; decide +kernel

/-- States of RangingEventsTakeEffect, acknowledge, ploamuHost, ploamuHost any. -/
def dev76 : Dev := (demo.onTerm 511 fun x => { x with state := .assigned, ik := some 5, hwSeqs := [3, 4] })

/-- RangingEventsTakeEffect: acknowledge, ploamuHost, ploamuHost any. -/
theorem witness_RangingEventsTakeEffect_2 :
    (Quiet dev76 ∧ ackMsg.length = 40 ∧ (dev76.term 511).ik = some 5 ∧ (dev76.term 511).hwSeqs.contains (leAt ackMsg 3 1) = true) ∧
    (Quiet demo ∧ (snMsg 1).length = 40 ∧ (demo.rg 0).upq.length < 64 ∧ (demo.term 511).ik = none) ∧
    (Quiet demo ∧ (List.replicate 48 (1 : Byte)).length = 48 ∧ (demo.rg 0).upq.length < 64) := by
  unfold Quiet; decide +kernel

/-- States of RangingEventsTakeEffect, activationFail, activationFail granted, lostTimeout. -/
def dev77 : Dev := (demo.onTerm 511 fun x => { x with state := .assigned, sn := 77, since := 64, fails := 255 })

/-- The next. -/
def dev78 : Dev := (demo.onTerm 511 fun x =>
  { x with state := .assigned, sn := 77, granted := true, tries := demo.rangeTries 0 + 1 })

/-- The next. -/
def dev79 : Dev := (demo.onTerm 511 fun x => { x with state := .lost, sn := 77, lostFrames := 8000 * 63 })

/-- RangingEventsTakeEffect: activationFail, activationFail granted, lostTimeout. -/
theorem witness_RangingEventsTakeEffect_3 :
    (Quiet dev77 ∧ (dev77.tf 0).state = .active ∧ (dev77.term 511).state = .assigned ∧ (dev77.term 511).rangedEqd = none ∧
      (dev77.term 511).granted = false ∧ 64 ≤ (dev77.term 511).since) ∧
    (Quiet dev78 ∧ (dev78.term 511).granted = true ∧ dev78.rangeTries 0 < (dev78.term 511).tries) ∧
    (Quiet dev79 ∧ (dev79.tf 0).state = .active ∧ (dev79.term 511).state = .lost ∧ dev79.fld (R .RG_TREE_CFG 0) 15 10 ≠ 0 ∧ 8000 *
      dev79.fld (R .RG_TREE_CFG 0) 15 10 ≤ (dev79.term 511).lostFrames) := by
  unfold Quiet; decide +kernel

/-- States of RangingEventsTakeEffect, adj resent, adj first. -/
def dev80 : Dev := (demo.onTerm 511 fun x => { x with state := .operation, sn := 77, adj := some ⟨4, 100, 255, true, false⟩ })

/-- The next. -/
def dev81 : Dev := (demo.onTerm 511 fun x => { x with state := .operation, sn := 77, adj := some ⟨4, 100, 255, false, false⟩ })

/-- RangingEventsTakeEffect: adj resent, adj first. -/
theorem witness_RangingEventsTakeEffect_4 :
    (Quiet dev80 ∧ max 1 (dev80.fld (R .RG_TRACK_CFG 0) 23 16) ≤ 255) ∧
    (Quiet dev81 ∧ max 1 (dev81.fld (R .RG_TRACK_CFG 0) 23 16) ≤ 255 ∧ (dev81.rg 0).hwq.length < 32) := by
  unfold Quiet; decide +kernel

/-- AllocationCommandsComplete: add, modify, del. -/
theorem witness_AllocationCommandsComplete_1 :
    (Quiet demo ∧ ready demo (.gs 0) .pf0 = true ∧ demo.treeOpen .pf0 0 = true ∧ bit (cmd 2047 [1500 + 2 ^ 16 * 511, 100, 200, 300,
      5, 0]).obj 16 = false ∧ demo.copyTree 0 = false ∧ demo.parBad 0 (parOf (latched 1 (cmd 2047 [1500 + 2 ^ 16 * 511, 100, 200,
      300, 5, 0]))) = false ∧ (demo.gs 0).allocs.get? 2047 = none ∧ (demo.gs 0).keyOf 1500 = none ∧ demo.sumRates 0 2047 + 100 +
      200 ≤ demo.lineRate 0 * 9 / 10) ∧
    (Quiet dAlloc ∧ ready dAlloc (.gs 0) .pf0 = true ∧ dAlloc.treeOpen .pf0 0 = true ∧ bit (cmd 2047 [1500 + 2 ^ 16 * 511, 1, 2,
      300, 5, 0]).obj 16 = false ∧ dAlloc.copyTree 0 = false ∧ dAlloc.parBad 0 (parOf (latched 2 (cmd 2047 [1500 + 2 ^ 16 * 511, 1,
      2, 300, 5, 0]))) = false ∧ (dAlloc.gs 0).allocs.get? 2047 = some xAlloc ∧ xAlloc.par.id = 1500 ∧ xAlloc.par.slot = 511 ∧
      dAlloc.sumRates 0 2047 + 1 + 2 ≤ dAlloc.lineRate 0 * 9 / 10) ∧
    (Quiet dAlloc ∧ ready dAlloc (.gs 0) .pf0 = true ∧ dAlloc.treeOpen .pf0 0 = true ∧ (dAlloc.gs 0).allocs.get? 2047 = some
      xAlloc) := by
  unfold Quiet; decide +kernel

/-- AllocationCommandsComplete: predReset, read, predRead. -/
theorem witness_AllocationCommandsComplete_2 :
    (Quiet dAlloc ∧ ready dAlloc (.gs 0) .pf0 = true ∧ dAlloc.treeOpen .pf0 0 = true ∧ (dAlloc.gs 0).allocs.get? 2047 = some xAlloc
      ∧ xAlloc.par.pred = true) := by
  unfold Quiet; decide +kernel

/-- AllocationCommandsComplete: read default, mapRead. -/
theorem witness_AllocationCommandsComplete_3 :
    (Quiet demo ∧ ready demo (.gs 0) .pf0 = true ∧ demo.treeOpen .pf0 0 = true ∧ bit (cmd (65536 + 511) []).obj 16 = true) ∧
    (Quiet dBurst ∧ ready dBurst (.gs 0) .pf0 = true ∧ dBurst.treeOpen .pf0 0 = true ∧ ((dBurst.gs 0).sent.head?.map fun m =>
      (m.structs)[0]?) = some (some (⟨3, 3, true, false, 0, 77, 40, 40, [40, 0, 0, 0, 0]⟩, bBurst))) := by
  unfold Quiet; decide +kernel

/-- GrantSchedulingEventsTakeEffect: map start, map late, deadline. -/
theorem witness_GrantSchedulingEventsTakeEffect_1 :
    (Quiet demo ∧ demo.alive = true ∧ (demo.tf 0).state = .active ∧ demo.lit 0 = true ∧ (demo.reach 0).darkenIn = none ∧ (demo.gs
      0).lateFor.get? (demo.mapTarget 0) = none ∧ (demo.gs 0).takeoverLeft = 0 ∧ ∀ m ∈ (demo.gs 0).built, m.frame ≠ demo.mapTarget
      0) ∧
    (Quiet demo ∧ demo.alive = true) ∧
    (Quiet demo ∧ (demo.gs 0).emptyLeft = 0 ∧ ∀ m ∈ (demo.gs 0).built, m.frame ≠ demo.sfc 0 + 1) := by
  unfold Quiet; decide +kernel

/-- States of GrantSchedulingEventsTakeEffect, bin second, bin second cut, bin day. -/
def dev82 : Dev := (dAlloc.onGs 0 fun g => { g with stepCut := true })

/-- GrantSchedulingEventsTakeEffect: bin second, bin second cut, bin day. -/
theorem witness_GrantSchedulingEventsTakeEffect_2 :
    (Quiet dAlloc ∧ (dAlloc.gs 0).allocs.get? 2047 = some xAlloc ∧ xAlloc.par.pred = true) ∧
    (Quiet dev82 ∧ (dev82.gs 0).allocs.get? 2047 = some xAlloc ∧ xAlloc.par.pred = true) ∧
    (Quiet dAlloc ∧ (dAlloc.gs 0).allocs.get? 2047 = some xAlloc) := by
  unfold Quiet; decide +kernel

/-- States of GrantSchedulingEventsTakeEffect, day load, coopPi ok, coopPi bad. -/
def dev83 : Dev := (dAlloc.onGs 0 fun g => { g with dayBin := 95 })

/-- GrantSchedulingEventsTakeEffect: day load, coopPi ok, coopPi bad. -/
theorem witness_GrantSchedulingEventsTakeEffect_3 :
    (Quiet dev83 ∧ (dev83.gs 0).allocs.get? 2047 = some xAlloc) ∧
    (Quiet demo ∧ opens demo .pf0 (R .GS_COOP_PI 0) true = true) ∧
    (Quiet demo ∧ opens demo .pf0 (R .GS_COOP_PI 0) true = true ∧ demo.coopSize 0 < 2000) := by
  unfold Quiet; decide +kernel

/-- States of GrantSchedulingEventsTakeEffect, coopEn on, coopEn refused, coopEn off. -/
def dev84 : Dev := (((demo.setReg (R .GS_COOP_PI 0) 7).setFld (R .GS_COOP_CI 0) 10 0 5).setFld (R .GS_COOP_RD 0) 10 0 5)

/-- The next. -/
def dev85 : Dev := ((demo.setFld (R .GS_COOP_CI 0) 10 0 4).setFld (R .GS_COOP_RD 0) 10 0 5)

/-- The next. -/
def dev86 : Dev := (demo.setFld (R .GS_MAP_CFG 0) 31 31 1)

/-- GrantSchedulingEventsTakeEffect: coopEn on, coopEn refused, coopEn off. -/
theorem witness_GrantSchedulingEventsTakeEffect_4 :
    (Quiet dev84 ∧ opens dev84 .pf0 (R .GS_MAP_CFG 0) true = true ∧ dev84.flag (R .GS_MAP_CFG 0) 31 = false ∧ dev84.fld (R
      .GS_COOP_CI 0) 10 0 = dev84.fld (R .GS_COOP_RD 0) 10 0) ∧
    (Quiet dev85 ∧ opens dev85 .pf0 (R .GS_MAP_CFG 0) true = true ∧ dev85.flag (R .GS_MAP_CFG 0) 31 = false ∧ dev85.fld (R
      .GS_COOP_CI 0) 10 0 ≠ dev85.fld (R .GS_COOP_RD 0) 10 0) ∧
    (Quiet dev86 ∧ opens dev86 .pf0 (R .GS_MAP_CFG 0) true = true ∧ dev86.flag (R .GS_MAP_CFG 0) 31 = true) := by
  unfold Quiet; decide +kernel

/-- ClassifierCommandsComplete: ruleWrite, keyProfileWrite, mirrorWrite. -/
theorem witness_ClassifierCommandsComplete_1 :
    (Quiet demo ∧ ready demo .pc .pf0 = true ∧ demo.bankBusy 1 = false ∧ bits (cmd (65536 + 63) [2 ^ 31, 0, 0, 0, 0, 10, 2 ^
      14]).obj 16 16 = 1 ∧ ruleClean (words (cmd (65536 + 63) [2 ^ 31, 0, 0, 0, 0, 10, 2 ^ 14])) = true ∧ bits (ruleAct (words (cmd
      (65536 + 63) [2 ^ 31, 0, 0, 0, 0, 10, 2 ^ 14]))) 79 78 = 1 ∧ bits (ruleAct (words (cmd (65536 + 63) [2 ^ 31, 0, 0, 0, 0, 10,
      2 ^ 14]))) 51 33 < demo.nQueues) ∧
    (Quiet demo ∧ ready demo .pc .pf0 = true ∧ demo.bankBusy 1 = false) ∧
    (Quiet demo ∧ ready demo .pc .pf0 = true ∧ bits (word (cmd (65536 + 7) [2 ^ 31 + 999]) 0) 18 0 < demo.nQueues ∧
      demo.sliceOfQueue (bits (word (cmd (65536 + 7) [2 ^ 31 + 999]) 0) 18 0) = some ((cmd (65536 + 7) [2 ^ 31 + 999]).obj % 128 /
      8)) := by
  unfold Quiet; decide +kernel

/-- States of ClassifierCommandsComplete, copy, clear, ruleRead. -/
def dev87 : Dev := (demo.onBank 0 fun b => { b with mirrors := [(0, 2 ^ 31)] })

/-- The next. -/
def dev88 : Dev := (demo.onBank 1 fun _ => ⟨[(0, anyRule)], [(3, ⟨[4], true⟩)], [(0, 2 ^ 31)]⟩)

/-- The next. -/
def dev89 : Dev := (demo.onBank 0 fun _ => ⟨[(0, anyRule)], [(3, ⟨[4], true⟩)], [(0, 2 ^ 31)]⟩)

/-- ClassifierCommandsComplete: copy, clear, ruleRead. -/
theorem witness_ClassifierCommandsComplete_2 :
    (Quiet dev87 ∧ ready dev87 .pc .pf0 = true ∧ dev87.bankBusy 1 = false) ∧
    (Quiet dev88 ∧ ready dev88 .pc .pf0 = true ∧ dev88.bankBusy 1 = false) ∧
    (Quiet dev89 ∧ ready dev89 .pc .pf0 = true) := by
  unfold Quiet; decide +kernel

/-- States of ClassifierCommandsComplete, profRead, mirrorRead, swap. -/
def dev90 : Dev := (demo.onBank 0 fun _ => ⟨[(0, anyRule)], [(3, ⟨[4], true⟩)], [(127, 2 ^ 31)]⟩)

/-- The next. -/
def dev91 : Dev := (demo.setFld (R .PC_STATUS) 31 16 65535)

/-- ClassifierCommandsComplete: profRead, mirrorRead, swap. -/
theorem witness_ClassifierCommandsComplete_3 :
    (Quiet dev90 ∧ ready dev90 .pc .pf0 = true) ∧
    (Quiet dev91 ∧ ready dev91 .pc .pf0 = true ∧ dev91.reg (R .PC_INFLIGHT (1 - dev91.activeBank)) = 0) := by
  unfold Quiet; decide +kernel

/-- FlowStoreCommandsComplete: insert, update, delete. -/
theorem witness_FlowStoreCommandsComplete_1 :
    (Quiet demo ∧ ready demo .fs .pf0 = true ∧ demo.fsCheck (latched 1 (cmd 0 [1, 2, 3, 4, 5, 6, 7, 8])) (some (latched 1 (cmd 0
      [1, 2, 3, 4, 5, 6, 7, 8])).fsAct) = none ∧ (demo.fsReadKey (latched 1 (cmd 0 [1, 2, 3, 4, 5, 6, 7, 8])).fsKey).fs = demo.fs ∧
      demo.fs.errs demo.lay (latched 1 (cmd 0 [1, 2, 3, 4, 5, 6, 7, 8])).fsKey = [] ∧ demo.fs.find demo.lay (latched 1 (cmd 0 [1,
      2, 3, 4, 5, 6, 7, 8])).fsKey = none ∧
      (match demo.fs.place demo.lay false [] true (latched 1 (cmd 0 [1, 2, 3, 4, 5, 6, 7, 8])).fsKey (latched 1 (cmd 0 [1, 2, 3, 4, 5, 6, 7, 8])).fsAct with | .at _ _ => true | _ => false)
      = true) ∧
    (Quiet dFs ∧ ready dFs .fs .pf0 = true ∧ dFs.fsCheck (latched 2 (cmd 0 [1, 2, 3, 4, 5, 6, 9, 9])) (some (latched 2 (cmd 0 [1,
      2, 3, 4, 5, 6, 9, 9])).fsAct) = none ∧ (dFs.fsReadKey (latched 1 (cmd 0 [1, 2, 3, 4, 5, 6, 9, 9])).fsKey).fs = dFs.fs ∧
      dFs.fs.errs dFs.lay (latched 2 (cmd 0 [1, 2, 3, 4, 5, 6, 9, 9])).fsKey = [] ∧ (dFs.fs.find dFs.lay (latched 2 (cmd 0 [1, 2,
      3, 4, 5, 6, 9, 9])).fsKey).isSome) ∧
    (Quiet dFs ∧ ready dFs .fs .pf0 = true ∧ (dFs.fs.find dFs.lay (latched 2 (cmd 0 [1, 2, 3, 4, 5, 6, 9, 9])).fsKey).isSome ∧
      (dFs.fsReadKey (latched 1 (cmd 0 [1, 2, 3, 4, 5, 6, 9, 9])).fsKey).fs = dFs.fs ∧ dFs.fs.errs dFs.lay (latched 2 (cmd 0 [1, 2,
      3, 4, 5, 6, 9, 9])).fsKey = [] ∧ foreignSlice (cmd 0 [1, 2, 3, 4, 5, 6, 9, 9]).src (bits (latched 1 (cmd 0 [1, 2, 3, 4, 5, 6,
      9, 9])).fsKey 175 172) = false) := by
  unfold Quiet; decide +kernel

/-- States of FlowStoreCommandsComplete, lookup, slotRead, slotRead stash. -/
def dev92 : Dev := (demo.onFs fun f => { f with stash := [(255, ⟨true, false, 5, 6, 1, 0⟩)] })

/-- FlowStoreCommandsComplete: lookup, slotRead, slotRead stash. -/
theorem witness_FlowStoreCommandsComplete_2 :
    (Quiet dFs ∧ ready dFs .fs .pf0 = true ∧ (dFs.fs.find dFs.lay (latched 2 (cmd 0 [1, 2, 3, 4, 5, 6, 9, 9])).fsKey).isSome ∧
      (dFs.fsReadKey (latched 1 (cmd 0 [1, 2, 3, 4, 5, 6, 9, 9])).fsKey).fs = dFs.fs ∧ foreignSlice (cmd 0 [1, 2, 3, 4, 5, 6, 9,
      9]).src (bits (latched 1 (cmd 0 [1, 2, 3, 4, 5, 6, 9, 9])).fsKey 175 172) = false ∧ dFs.fs.errs dFs.lay (latched 2 (cmd 0 [1,
      2, 3, 4, 5, 6, 9, 9])).fsKey = []) ∧
    (Quiet dFs ∧ ready dFs .fs .pf0 = true ∧ (dFs.fsRead fun x => x.mendLoc (bits (cmd ((dFs.fs.find dFs.lay fsKey0).getD 0)
      []).obj 21 0)).fs = dFs.fs ∧ (dFs.fs.entry (bits (cmd ((dFs.fs.find dFs.lay fsKey0).getD 0) []).obj 21 0)).valid = true ∧
      (dFs.fs.entry (bits (cmd ((dFs.fs.find dFs.lay fsKey0).getD 0) []).obj 21 0)).failed = false ∧ bits (cmd ((dFs.fs.find
      dFs.lay fsKey0).getD 0) []).obj 21 0 < 2097152 * dFs.units 0 / 256 ∧ bit (cmd ((dFs.fs.find dFs.lay fsKey0).getD 0) []).obj
      31 = false) ∧
    (Quiet dev92 ∧ ready dev92 .fs .pf0 = true ∧ ((dev92.fsRead fun x => x.mendLoc (stashLoc 255)).fs.entry (stashLoc 255)).valid =
      true ∧ ((dev92.fsRead fun x => x.mendLoc (stashLoc 255)).fs.entry (stashLoc 255)).failed = false) := by
  unfold Quiet; decide +kernel

/-- States of FlowStoreCommandsComplete, rebuild, policerWrite, policerRead. -/
def dev93 : Dev := (demo.onFs fun f => { f with profs := [(511, ⟨1000, 2000, 30, 40, false, false, false, 0⟩)] })

/-- The next. -/
def dev94 : Dev := (demo.onFs fun f => { f with policers := [(999, ⟨511, 2 ^ 33, 2 ^ 34 + 1, 9⟩)] })

/-- FlowStoreCommandsComplete: rebuild, policerWrite, policerRead. -/
theorem witness_FlowStoreCommandsComplete_3 :
    (Quiet demo ∧ ready demo .fs .pf0 = true ∧ 17 ≤ demo.fsCarved ∧ demo.flag (R .FS_STATUS) 31 = false ∧ 16 * (demo.fld (R
      .FS_COUNT) 21 0 + demo.fld (R .FS_STATUS) 8 0) ≤ 15 * 2 ^ 17 ∧ demo.fs.bucketErrs (0, demo.fs.gen) = [] ∧ demo.fs.stashErrs =
      []) ∧
    (Quiet dev93 ∧ ready dev93 .fs .pf0 = true ∧ 999 < dev93.nPolicers ∧ dev93.sliceOfPolicer 999 = some 0) ∧
    (Quiet dev94 ∧ ready dev94 .fs .pf0 = true) := by
  unfold Quiet; decide +kernel

/-- States of FlowStoreCommandsComplete, profWrite, profRead. -/
def dev95 : Dev := (demo.onFs fun f => { f with profs := [(511, ⟨1000, 2000, 30, 40, true, false, true, 7⟩)] })

/-- FlowStoreCommandsComplete: profWrite, profRead. -/
theorem witness_FlowStoreCommandsComplete_4 :
    (Quiet demo ∧ ready demo .fs .pf0 = true ∧ -32 ≤ signed 8 (bits (word (cmd 8191 [1600000000, 1600000000, 0x0FFFFFFF,
      0x0FFFFFFF, 0xE006]) 4) 15 8) ∧ signed 8 (bits (word (cmd 8191 [1600000000, 1600000000, 0x0FFFFFFF, 0x0FFFFFFF, 0xE006]) 4)
      15 8) ≤ 63) ∧
    (Quiet dev95 ∧ ready dev95 .fs .pf0 = true) := by
  unfold Quiet; decide +kernel

/-- States of ClassifierEventsTakeEffect, ingress noMatch, ingress parse error, ingress rule. -/
def dev96 : Dev := { dArr with pc := { dArr.pc with bankA := ⟨[], [], []⟩ } }

/-- The next. -/
def dev97 : Dev := { dArr with pc := { dArr.pc with bankA := ⟨[], [], []⟩, arrivals := [{ inPkt with bytes := [1] }] } }

/-- ClassifierEventsTakeEffect: ingress noMatch, ingress parse error, ingress rule. -/
theorem witness_ClassifierEventsTakeEffect_1 :
    (Quiet dev96 ∧ dev96.alive = true ∧ dev96.pipeStalled 0 = false ∧ takeFirst (fun p => dev96.pktPipe p == 0) dev96.pc.arrivals =
      some (inPkt, []) ∧ inPkt.second = false ∧ (dev96.bank dev96.activeBank).rules = [] ∧ (parse dev96.parseCfg
      inPkt.bytes).reason = 0) ∧
    (Quiet dev97 ∧ dev97.alive = true ∧ dev97.pipeStalled 0 = false ∧ takeFirst (fun p => dev97.pktPipe p == 0) dev97.pc.arrivals =
      some ({ inPkt with bytes := [1] }, []) ∧ (dev97.bank dev97.activeBank).rules = [] ∧ (parse dev97.parseCfg [1]).reason ≠ 0) ∧
    (Quiet dArr ∧ dArr.alive = true ∧ dArr.pipeStalled 0 = false ∧ takeFirst (fun p => dArr.pktPipe p == 0) dArr.pc.arrivals = some
      (inPkt, []) ∧ (parse dArr.parseCfg inPkt.bytes).reason = 0 ∧ (dArr.bank dArr.activeBank).pick inPkt (parse dArr.parseCfg
      inPkt.bytes) = some anyRule ∧ bit (ruleWord anyRule 3) 9 = false ∧ bits (ruleAct anyRule) 79 78 = 1 ∧ bit (ruleAct anyRule)
      72 = false ∧ bits (ruleAct anyRule) 77 76 = 0 ∧ dArr.actQueueOk (ruleAct anyRule) (dArr.sliceFor inPkt anyRule) = true) := by
  unfold Quiet; decide +kernel

/-- States of ClassifierEventsTakeEffect, migration, migration end, scrub. -/
def dev98 : Dev := ((demo.setFld (R .FS_STATUS) 31 31 1).onFs fun f => { f with slots := [(0, ⟨true, false, fsKey0, 5, 0, 0⟩)] })

/-- The next. -/
def dev99 : Dev := ((demo.setFld (R .FS_STATUS) 31 31 1).setFld (R .FS_MIG_PTR) 18 0 (2 ^ 19 - 1))

/-- ClassifierEventsTakeEffect: migration, migration end, scrub. -/
theorem witness_ClassifierEventsTakeEffect_2 :
    (Quiet dev98 ∧ dev98.alive = true ∧ dev98.flag (R .FS_STATUS) 31 = true ∧ dev98.fld (R .FS_MIG_PTR) 18 0 = 0 ∧
      (dev98.fs.mendBucket (0, dev98.fs.gen)).bucketErrs (0, dev98.fs.gen) = [] ∧ dev98.fs.mendBucket (0, dev98.fs.gen) = dev98.fs
      ∧ (bucketSlots 0).filter (fun i => (dev98.fs.slot i).valid && (dev98.fs.slot i).gen == dev98.fs.gen) = [0] ∧
      ((FsState.placeAll { dev98.lay with p := 1 } [0] { dev98.fs with mended := 0 } ([0].map dev98.fs.slot)).2).1 = true) ∧
    (Quiet dev99 ∧ dev99.alive = true ∧ dev99.flag (R .FS_STATUS) 31 = true ∧ dev99.fld (R .FS_MIG_PTR) 18 0 = 2 ^ 19 - 1 ∧
      dev99.fs.mendBucket (2 ^ 19 - 1, dev99.fs.gen) = dev99.fs ∧ dev99.fs.bucketErrs (2 ^ 19 - 1, dev99.fs.gen) = [] ∧
      (bucketSlots (2 ^ 19 - 1)).filter (fun i => (dev99.fs.slot i).valid && (dev99.fs.slot i).gen == dev99.fs.gen) = []) ∧
    (Quiet demo ∧ demo.alive = true ∧ 31 < 2097152 * demo.units 0 / 256 ∧ (demo.fs.slot 31).ent = 0) := by
  unfold Quiet; decide +kernel

/-- ClassifierEventsTakeEffect: scrub tag, scrub ue, scrub tag ue. -/
theorem witness_ClassifierEventsTakeEffect_3 :
    (Quiet demo ∧ demo.alive = true ∧ 31 < 2097152 * demo.units 0 / 256 ∧ (demo.fs.slot 31).tag = 0) ∧
    (Quiet demo ∧ demo.alive = true ∧ 31 < 2097152 * demo.units 0 / 256 ∧ (demo.fs.slot 31).ent < 3) ∧
    (Quiet demo ∧ demo.alive = true ∧ 31 < 2097152 * demo.units 0 / 256 ∧ (demo.fs.slot 31).tag < 3) := by
  unfold Quiet; decide +kernel

/-- ClassifierEventsTakeEffect: policer. -/
theorem witness_ClassifierEventsTakeEffect_4 :
    (Quiet demo ∧ demo.alive = true ∧ 7 < demo.nPolicers) := by
  unfold Quiet; decide +kernel

/-- States of QueueAndBufferEventsTakeEffect, commit waits, commit, round. -/
def dev100 : Dev :=
  { dFlight with pc := { dFlight.pc with flights := dFlight.pc.flights ++ [⟨0, pkt, [], none⟩, ⟨3, pkt, [], none⟩, ⟨1, pkt, [], none⟩] } }

/-- QueueAndBufferEventsTakeEffect: commit waits, commit, round. -/
theorem witness_QueueAndBufferEventsTakeEffect_1 :
    (Quiet dChainWait ∧ dChainWait.alive = true ∧ dChainWait.im.state = .running ∧ (dChainWait.pc.flights.map
      dChainWait.chainWaits) = [true]) ∧
    (Quiet dFlight ∧ dFlight.alive = true ∧ dFlight.im.state = .running ∧ pkt.sa = none ∧ pkt.eapol = false ∧
      (match dFlight.lagRedirect 5 pkt.hash with | .queue q => q == 5 | _ => false) = true ∧ dFlight.admission [] 5 pkt.len
      pkt.colour = none ∧ dFlight.tierFor [] 5 pkt.len = 0 ∧ dFlight.poolGrants (dFlight.queue 5).pool 0 (cellsFor 0 pkt.len) =
      true) ∧
    (Quiet dev100 ∧ dev100.alive = true ∧ dev100.im.state = .running ∧ (dev100.pc.flights.all fun f => f.chain.isNone) = true) := by
  unfold Quiet; decide +kernel

/-- States of QueueAndBufferEventsTakeEffect, decision, aging, shaper. -/
def dev101 : Dev := { (dNear.onQueue 5 fun q => { q with w1 := q.w1, w5 := 1 }) with tb := { dNear.tb with ticks := 10000000 } }

/-- The next. -/
def dev102 : Dev := dTm.onNode 128 fun n => { n with cir := { n.cir with en := true, rate := 100, burst := 1000 } }

/-- QueueAndBufferEventsTakeEffect: decision, aging, shaper. -/
theorem witness_QueueAndBufferEventsTakeEffect_2 :
    (Quiet dNear ∧ dNear.alive = true ∧ dNear.portOpen 0 = true ∧ ((dNear.walk 0 3 0 []).2.map Prod.fst) = some 5 ∧ (dNear.cell 0
      7).linkErr = 0 ∧ (dNear.cell 0 7).dataErr = 0 ∧ dNear.aged (dNear.queue 5) ⟨100, 0, [7], pkt⟩ = false ∧ (dNear.queue
      5).launch ≠ 2 ∧ dNear.queueReady 0 5 = true ∧ (dNear.queue 5).all.map Held.cells = [[7]]) ∧
    (Quiet dev101 ∧ dev101.alive = true ∧ (dev101.queue 5).valid = true ∧ (dev101.queue 5).lastDec + 625000 ≤ dev101.tick16 ∧
      (dev101.queue 5).all.all (fun h => dev101.aged (dev101.queue 5) h) = true) ∧
    (Quiet dev102 ∧ dev102.alive = true ∧ (dev102.buckets (.node 128)).1.en = true) := by
  unfold Quiet; decide +kernel

/-- States of QueueAndBufferEventsTakeEffect, shaper 1, prefetch, prefetch starts. -/
def dev103 : Dev := dTm.onQueue 5 fun n => { n with pir := { n.pir with en := true, rate := 100, burst := 1000 } }

/-- The next. -/
def dev104 : Dev := (dFar.setFld (R .BP_POOL_SPILL 0) 11 0 100)

/-- QueueAndBufferEventsTakeEffect: shaper 1, prefetch, prefetch starts. -/
theorem witness_QueueAndBufferEventsTakeEffect_3 :
    (Quiet dev103 ∧ dev103.alive = true ∧ (dev103.buckets (.queue 5)).2.en = true) ∧
    (Quiet dev104 ∧ dev104.alive = true ∧ (dev104.queue 5).far.map Held.cells = [[50000]] ∧ dev104.fetchOrder.fetchNext = some 5 ∧
      dev104.poolGrants (dev104.queue 5).pool 0 (cellsFor 0 100) = true ∧ (dev104.cell 1 50000).linkErr = 0 ∧ (dev104.cell 1
      50000).dataErr = 0) ∧
    (Quiet dev104 ∧ dev104.alive = true ∧ (dev104.queue 5).far.map Held.cells = [[50000]] ∧ dev104.fetchOrder.fetchNext = some 5 ∧
      dev104.poolGrants (dev104.queue 5).pool 0 (cellsFor 0 100) = true) := by
  unfold Quiet; decide +kernel

/-- States of QueueAndBufferEventsTakeEffect, scrub, flushDone, reclaimDone. -/
def dev105 : Dev := demo.setFld (R .BP_SCRUB_CFG) 31 31 1

/-- The next. -/
def dev106 : Dev := waiting .tm 3 5 dTm

/-- The next. -/
def dev107 : Dev := waiting .bp 0x20 0 (demo.onCell 1 50000 fun c => { c with used := true })

/-- QueueAndBufferEventsTakeEffect: scrub, flushDone, reclaimDone. -/
theorem witness_QueueAndBufferEventsTakeEffect_4 :
    (Quiet dev105 ∧ dev105.alive = true ∧ dev105.flag (R .BP_SCRUB_CFG) 31 = true ∧ 0 < dev105.scrubEnd 1 ∧ 0 ∉ dev105.bp.resBad ∧
      (dev105.cell 1 0).linkErr = 0 ∧ (dev105.cell 1 0).dataErr = 0) ∧
    (Quiet dev106 ∧ dev106.alive = true ∧ (dev106.waitingCmd .tm 3).isSome = true ∧ ((dev106.waitingCmd .tm 3).map fun a => a.drop)
      = some false ∧ (dev106.win .tm).queue.length ≤ 1) ∧
    (Quiet dev107 ∧ dev107.alive = true ∧ (dev107.waitingCmd .bp 0x20).isSome = true ∧ ((dev107.waitingCmd .bp 0x20).map fun a =>
      a.drop) = some false ∧ (dev107.win .bp).queue.length ≤ 1 ∧ (dev107.cell 1 50000).used = true ∧ (dev107.cell 1 50000).retired
      = false ∧ reservedCell 1 50000 = false ∧ 50000 ∉ dev107.reached 1) := by
  unfold Quiet; decide +kernel

/-- MemoryTemperatureAndEccLogAct: cattrip, temp, temp ddr. -/
theorem witness_MemoryTemperatureAndEccLogAct_1 :
    (Quiet demo ∧ demo.im.state ≠ .held ∧ demo.im.state ≠ .failed ∧ (demo.win .im).queue.length ≤ 1) ∧
    (Quiet demo ∧ demo.laneLive = true) := by
  unfold Quiet; decide +kernel

/-- States of MemoryTemperatureAndEccLogAct, eccPop. -/
def dev108 : Dev := demo.onBp fun x => { x with log := [⟨true, 0, false, false, 1, 7⟩, ⟨false, 1, false, true, 2, 9⟩] }

/-- MemoryTemperatureAndEccLogAct: eccPop. -/
theorem witness_MemoryTemperatureAndEccLogAct_2 :
    (Quiet dev108 ∧ opens dev108 .pf0 (R .BP_ECC_POP) true = true) := by
  unfold Quiet; decide +kernel

/-- TrafficManagerCommandsComplete: queueWrite on, queueWrite off, queueRead. -/
theorem witness_TrafficManagerCommandsComplete_1 :
    (Quiet dTm ∧ ready dTm .tm .pf0 = true ∧ bit (cmd 9 [2 ^ 31 + 128, 15 * 2 ^ 16 + 1, 1000, 1000, 1000, 0]).obj 20 = false ∧ 9 <
      dTm.nQueues ∧ dTm.queueWordsBad (latched 1 (cmd 9 [2 ^ 31 + 128, 15 * 2 ^ 16 + 1, 1000, 1000, 1000, 0])) 9 = false ∧ bit
      (word (cmd 9 [2 ^ 31 + 128, 15 * 2 ^ 16 + 1, 1000, 1000, 1000, 0]) 0) 31 = true ∧ dTm.parentDenied .pf0 128 = false ∧
      (dTm.queue 9).all = [] ∧ (dTm.queue 9).valid = false) ∧
    (Quiet dTm ∧ ready dTm .tm .pf0 = true ∧ bit (cmd 9 [128, 15 * 2 ^ 16 + 1, 1000, 1000, 1000]).obj 20 = false ∧ 9 < dTm.nQueues
      ∧ dTm.queueWordsBad (latched 1 (cmd 9 [128, 15 * 2 ^ 16 + 1, 1000, 1000, 1000])) 9 = false ∧ bit (word (cmd 9 [128, 15 * 2 ^
      16 + 1, 1000, 1000, 1000]) 0) 31 = false ∧ (dTm.queue 9).all = []) ∧
    (Quiet dNear ∧ ready dNear .tm .pf0 = true ∧ bit (cmd 5 []).obj 20 = false ∧ 5 < dNear.nQueues) := by
  unfold Quiet; decide +kernel

/-- TrafficManagerCommandsComplete: queueFlush empty, queueFlush, queueHold. -/
theorem witness_TrafficManagerCommandsComplete_2 :
    (Quiet dTm ∧ ready dTm .tm .pf0 = true ∧ (dTm.queue 5).valid = true ∧ (dTm.queue 5).all = []) ∧
    (Quiet dNear ∧ ready dNear .tm .pf0 = true ∧ (dNear.queue 5).valid = true ∧ (dNear.queue 5).all ≠ []) ∧
    (Quiet dNear ∧ ready dNear .tm .pf0 = true ∧ (dNear.queue 5).valid = true) := by
  unfold Quiet; decide +kernel

/-- TrafficManagerCommandsComplete: nodeWrite port, nodeWrite on, nodeWrite off. -/
theorem witness_TrafficManagerCommandsComplete_3 :
    (Quiet dTm ∧ ready dTm .tm .pf0 = true ∧ bit (cmd (2 ^ 20) [4 * 2 ^ 19]).obj 20 = true ∧ dTm.nodeExists 0 = true ∧ bits (word
      (cmd (2 ^ 20) [4 * 2 ^ 19]) 0) 22 19 ≤ 8) ∧
    (Quiet dTm ∧ ready dTm .tm .pf0 = true ∧ bit (cmd (2 ^ 20 + 129) [2 ^ 31, 3]).obj 20 = true ∧ dTm.nodeExists 129 = true ∧ bits
      (word (cmd (2 ^ 20 + 129) [2 ^ 31, 3]) 1) 15 0 ≠ 0 ∧ dTm.parentDenied .pf0 0 = false ∧ dTm.nodeParentOk 129 0 = true ∧
      (dTm.node 129).children = [] ∧ (dTm.node 129).valid = false) ∧
    (Quiet dTm ∧ ready dTm .tm .pf0 = true ∧ bit (cmd (2 ^ 20 + 129) [0, 3]).obj 20 = true ∧ dTm.nodeExists 129 = true ∧ bits (word
      (cmd (2 ^ 20 + 129) [0, 3]) 1) 15 0 ≠ 0 ∧ (dTm.node 129).children = []) := by
  unfold Quiet; decide +kernel

/-- TrafficManagerCommandsComplete: nodeRead, shaperRead node, shaperWrite queue max. -/
theorem witness_TrafficManagerCommandsComplete_4 :
    (Quiet dTm ∧ ready dTm .tm .pf0 = true ∧ dTm.nodeExists 128 = true) ∧
    (Quiet dTm ∧ ready dTm .tm .pf0 = true ∧ bit (cmd (2 ^ 20 + 128) []).obj 20 = true ∧ dTm.nodeExists 128 = true) ∧
    (Quiet dTm ∧ ready dTm .tm .pf0 = true ∧ bit (cmd (2 ^ 21 + 5) [1000, 2 ^ 31 + 5000]).obj 20 = false ∧ bit (cmd (2 ^ 21 + 5)
      [1000, 2 ^ 31 + 5000]).obj 21 = true ∧ bits (word (cmd (2 ^ 21 + 5) [1000, 2 ^ 31 + 5000]) 1) 29 28 ≠ 3 ∧ word (cmd (2 ^ 21 +
      5) [1000, 2 ^ 31 + 5000]) 0 ≤ 1600000000 ∧ (dTm.buckets (.queue 5)).1.en = false) := by
  unfold Quiet; decide +kernel

/-- TrafficManagerCommandsComplete: shaperWrite node min. -/
theorem witness_TrafficManagerCommandsComplete_5 :
    (Quiet dTm ∧ ready dTm .tm .pf0 = true ∧ bit (cmd (2 ^ 20 + 128) [500, 2 ^ 31 + 5000]).obj 20 = true ∧ dTm.nodeExists 128 =
      true ∧ bits (word (cmd (2 ^ 20 + 128) [500, 2 ^ 31 + 5000]) 1) 29 28 ≠ 3 ∧ (dTm.buckets (.node 128)).2.en = false) := by
  unfold Quiet; decide +kernel

/-- BufferCommandsComplete: bufAlloc, bufAlloc far, bufFree. -/
theorem witness_BufferCommandsComplete_1 :
    (Quiet dPool ∧ ready dPool .bp .pf0 = true ∧ dPool.poolExists 0 = true ∧ dPool.poolGrants 0 0 67 = true) ∧
    (Quiet dPool ∧ ready dPool .bp .pf0 = true ∧ dPool.poolExists 0 = true ∧ dPool.poolGrants 0 1 9 = true) ∧
    (Quiet dNear ∧ ready dNear .bp .pf0 = true ∧ 7 < dNear.tierCells 0 ∧ dNear.freeFault 0 7 0 = none) := by
  unfold Quiet; decide +kernel

/-- BufferCommandsComplete: cellRead, cellWrite, cellWrite part 15. -/
theorem witness_BufferCommandsComplete_2 :
    (Quiet dNear ∧ ready dNear .bp .pf0 = true ∧ 7 < dNear.tierCells 0 ∧ reservedCell 0 7 = false ∧ (dNear.cell 0 7).linkErr ≠ 2 ∧
      (dNear.cell 0 7).dataErr ≠ 2) ∧
    (Quiet dNear ∧ ready dNear .bp .pf0 = true ∧ reservedCell 0 7 = false ∧ (dNear.cell 0 7).used = true ∧ (dNear.cell 0 7).retired
      = false) := by
  unfold Quiet; decide +kernel

/-- States of BufferCommandsComplete, cellRetire, eccInject, retireRead. -/
def dev109 : Dev := (demo.onBp fun x => { x with retNear := [40000, 50000] })

/-- BufferCommandsComplete: cellRetire, eccInject, retireRead. -/
theorem witness_BufferCommandsComplete_3 :
    (Quiet demo ∧ ready demo .bp .pf0 = true ∧ 50000 < demo.tierCells 0 ∧ reservedCell 0 50000 = false ∧ (demo.cell 0
      50000).retired = false ∧ (demo.cell 0 50000).used = false ∧ (demo.retList 0).length < 4096) ∧
    (Quiet demo ∧ ready demo .bp .pf0 = true ∧ 50000 < demo.tierCells 1 ∧ demo.bp.armed.get? 1 = none) ∧
    (Quiet dev109 ∧ ready dev109 .bp .pf0 = true ∧ (dev109.retList (word (cmd 0 [2 ^ 16]) 0 % 2))[bits (word (cmd 0 [2 ^ 16]) 0) 27
      16]? = some 50000) := by
  unfold Quiet; decide +kernel

/-- States of BufferCommandsComplete, reclaim. -/
def dev110 : Dev := { demo with im := { demo.im with state := .quiesced } }

/-- BufferCommandsComplete: reclaim. -/
theorem witness_BufferCommandsComplete_4 :
    (Quiet dev110 ∧ ready dev110 .bp .pf0 = true ∧ dev110.im.state = .quiesced) := by
  unfold Quiet; decide +kernel

/-- States of UplinkEventsTakeEffect, rx fcs, rx short, rx good. -/
def dev111 : Dev := demo.setReg (R .UL_PORT_CFG 1) (64 * 2 ^ 16)

/-- UplinkEventsTakeEffect: rx fcs, rx short, rx good. -/
theorem witness_UplinkEventsTakeEffect_1 :
    (Quiet demo ∧ demo.alive = true ∧ demo.portUp 1 = true) ∧
    (Quiet dev111 ∧ dev111.alive = true ∧ dev111.portUp 1 = true ∧ 64 ≤ dev111.fld (R .UL_PORT_CFG 1) 29 16 ∧ dev111.notCollecting
      1 = false ∧ dev111.im.state = .running ∧ dev111.msOn 1 = false ∧ beAt (List.replicate 60 (0 : Byte)) 12 2 ≠ 0x8808) := by
  unfold Quiet; decide +kernel

/-- States of UplinkEventsTakeEffect, pause, pause 0, pause not wanted. -/
def dev112 : Dev := demo.setFld (R .UL_FC_CFG 1) 25 24 1

/-- The next. -/
def dev113 : Dev := (demo.setFld (R .UL_FC_CFG 1) 25 24 1).onPort 1 fun x => { x with pause := some 9999 }

/-- UplinkEventsTakeEffect: pause, pause 0, pause not wanted. -/
theorem witness_UplinkEventsTakeEffect_2 :
    (Quiet dev112 ∧ dev112.alive = true ∧ dev112.portUp 1 = true ∧ dev112.fcMode 1 = 1) ∧
    (Quiet dev113 ∧ dev113.alive = true ∧ dev113.portUp 1 = true ∧ dev113.fcMode 1 = 1) ∧
    (Quiet demo ∧ demo.alive = true ∧ demo.portUp 1 = true ∧ demo.fcMode 1 ≠ 1) := by
  unfold Quiet; decide +kernel

/-- States of UplinkEventsTakeEffect, pfc, expiry, xoff. -/
def dev114 : Dev := (demo.setFld (R .UL_FC_CFG 1) 25 24 2).onPort 1 fun x => { x with pfc := [(6, 99), (7, 5555)] }

/-- The next. -/
def dev115 : Dev :=
  { (demo.onPort 1 fun x => { x with pause := some 99, pfc := [(6, 100), (7, 101)] }) with tb := { demo.tb with ticks := 100 } }

/-- The next. -/
def dev116 : Dev :=
  { (((demo.setReg (R .UL_FC_CFG 1) (2 ^ 25 + 500)).setReg (R .UL_FC_TH 1 5) (2 ^ 31)).onPort 1 fun x => { x with xoff := 32, fcAt := [(5, 100)] }) with tb := { demo.tb with ticks := 600 } }

/-- UplinkEventsTakeEffect: pfc, expiry, xoff. -/
theorem witness_UplinkEventsTakeEffect_3 :
    (Quiet dev114 ∧ dev114.alive = true ∧ dev114.portUp 1 = true ∧ dev114.fcMode 1 = 2) ∧
    (Quiet dev115 ∧ dev115.alive = true) ∧
    (Quiet dev116 ∧ dev116.alive = true ∧ (dev116.ulPort 1).fcAt.getD 5 0 + dev116.quantaTicks 1 500 / 2 ≤ dev116.tb.ticks ∧
      dev116.portUp 1 = true ∧ dev116.fcEnabled 1 5 = true ∧ bit (dev116.ulPort 1).xoff 5 = true ∧ dev116.fld (R .UL_FC_CFG 1) 15 0
      ≠ 0) := by
  unfold Quiet; decide +kernel

/-- States of UplinkEventsTakeEffect, cond on, cond off, align. -/
def dev117 : Dev := demo.onPort 0 fun x => { x with state := .down, cond := 2 }

/-- The next. -/
def dev118 : Dev := demo.onPort 1 fun x => { x with state := .down, cond := 20 }

/-- UplinkEventsTakeEffect: cond on, cond off, align. -/
theorem witness_UplinkEventsTakeEffect_4 :
    (Quiet demo ∧ demo.alive = true ∧ (demo.portDef 1).isSome = true ∧ (demo.ulPort 1).state = .up) ∧
    (Quiet dev117 ∧ dev117.alive = true ∧ (dev117.portDef 0).isSome = true ∧ (dev117.ulPort 0).state = .down ∧ dev117.portLos 0 =
      false ∧ bit (dev117.ulPort 0).cond 1 = true ∧ bits (putBits (dev117.ulPort 0).cond 1 1 0) 5 1 = 0 ∧ dev117.fld (R
      .UL_PORT_CFG 0) 15 8 = 0) ∧
    (Quiet dev118 ∧ dev118.alive = true ∧ (dev118.portDef 1).isSome = true ∧ (dev118.ulPort 1).state = .down ∧ dev118.portLanes 1 =
      2 ∧ dev118.portAligns 1 [(1, 5), (0, 3)] = true) := by
  unfold Quiet; decide +kernel

/-- States of UplinkEventsTakeEffect, beyond, portUp, degraded on. -/
def dev119 : Dev :=
  { ((demo.setFld (R .UL_PORT_CFG 0) 15 8 2).onPort 0 fun x => { x with state := .down, cond := 0, clearAt := some 5 }) with tb := { demo.tb with ticks := 5 + 2 * 781250 } }

/-- The next. -/
def dev120 : Dev :=
  { (demo.onPort 1 fun x => { x with ser := 100 * 2 ^ 14 + 50, winAt := 7 }) with tb := { demo.tb with ticks := 7 + 20480 } }

/-- UplinkEventsTakeEffect: beyond, portUp, degraded on. -/
theorem witness_UplinkEventsTakeEffect_5 :
    (Quiet dev118 ∧ dev118.alive = true ∧ (dev118.portDef 1).isSome = true ∧ (dev118.ulPort 1).state = .down ∧ dev118.portLanes 1 =
      2 ∧ dev118.portAligns 1 [(1, 5), (0, 90000)] = false) ∧
    (Quiet dev119 ∧ dev119.alive = true ∧ (dev119.ulPort 0).state = .down ∧ (dev119.ulPort 0).clearAt = some 5 ∧ bits
      (dev119.ulPort 0).cond 5 1 = 0 ∧ dev119.fld (R .UL_PORT_CFG 0) 15 8 * 781250 ≤ dev119.tb.ticks - 5) ∧
    (Quiet dev120 ∧ dev120.alive = true ∧ (dev120.portDef 1).isSome = true ∧ (dev120.ulPort 1).state ≠ .disabled ∧ bits
      (dev120.ulPort 1).ser 27 14 ≤ 100 ∧ 7 ≤ dev120.winWords 1 ∧ (dev120.ulPort 1).winAt + dev120.winWords 1 * 40 /
      dev120.portLanes 1 ≤ dev120.tb.ticks) := by
  unfold Quiet; decide +kernel

/-- States of UplinkEventsTakeEffect, degraded off, degraded same, clrStats. -/
def dev121 : Dev :=
  { (demo.onPort 1 fun x => { x with ser := 100 * 2 ^ 14 + 50, cond := 64, winAt := 7 }) with tb := { demo.tb with ticks := 7 + 20480 } }

/-- The next. -/
def dev122 : Dev := demo.onPort 1 fun x => { x with stats := [(0, 77), (5, 66)] }

/-- UplinkEventsTakeEffect: degraded off, degraded same, clrStats. -/
theorem witness_UplinkEventsTakeEffect_6 :
    (Quiet dev121 ∧ dev121.alive = true ∧ (dev121.portDef 1).isSome = true ∧ (dev121.ulPort 1).state ≠ .disabled ∧ bits
      (dev121.ulPort 1).ser 13 0 = 50 ∧ dev121.portLanes 1 = 2 ∧ 7 ≤ dev121.winWords 1 ∧ (dev121.ulPort 1).winAt + dev121.winWords
      1 * 40 / dev121.portLanes 1 ≤ dev121.tb.ticks) ∧
    (Quiet dev122 ∧ dev122.alive = true ∧ opens dev122 .pf0 (R .UL_PORT_CFG 1) true = true ∧ (dev122.portDef 1).isSome = true) := by
  unfold Quiet; decide +kernel

/-- States of PonKeyCommandsFollowTheSlotStates, install, install bcast, clear. -/
def dev123 : Dev := demo.onTerm 3 fun x => { x with state := .operation }

/-- The next. -/
def dev124 : Dev := demo.onKey (pairSlot 3 1) fun x => { x with state := .active, key := 5 }

/-- PonKeyCommandsFollowTheSlotStates: install, install bcast, clear. -/
theorem witness_PonKeyCommandsFollowTheSlotStates_1 :
    (Quiet dev123 ∧ ready dev123 .ce .pf0 = true ∧ dev123.treeOpen .pf0 0 = true ∧ dev123.treeExists 0 = true ∧ dev123.copyTree 0 =
      false ∧ dev123.keyTarget 3 2 = false ∧ (dev123.key (pairSlot 3 2)).state ≠ .active ∧ dev123.keyable 3 = true) ∧
    (Quiet demo ∧ ready demo .ce .pf0 = true ∧ demo.treeOpen .pf0 0 = true ∧ demo.treeExists 0 = true ∧ demo.copyTree 0 = false ∧
      demo.keyTarget (bcastPair 0) 1 = false ∧ (demo.key (pairSlot (bcastPair 0) 1)).state ≠ .active ∧ demo.keyable (bcastPair 0) =
      true) ∧
    (Quiet dev124 ∧ ready dev124 .ce .pf0 = true ∧ dev124.treeOpen .pf0 0 = true ∧ dev124.treeExists 0 = true ∧ dev124.copyTree 0 =
      false ∧ dev124.keyTarget 3 1 = false ∧ (dev124.key (pairSlot 3 1)).state ≠ .empty) := by
  unfold Quiet; decide +kernel

/-- States of PonKeyCommandsFollowTheSlotStates, switch, cancel, read. -/
def dev125 : Dev := demo.onKey (pairSlot 3 1) fun x => { x with state := .ready, key := 5 }

/-- The next. -/
def dev126 : Dev := demo.onPair 3 fun x => { x with pend := some (1, 70000) }

/-- The next. -/
def dev127 : Dev := demo.onKey (pairSlot 3 1) fun x => { x with state := .ready, key := 5, limit := 2 ^ 33, count := 7 }

/-- PonKeyCommandsFollowTheSlotStates: switch, cancel, read. -/
theorem witness_PonKeyCommandsFollowTheSlotStates_2 :
    (Quiet dev125 ∧ ready dev125 .ce .pf0 = true ∧ dev125.treeOpen .pf0 0 = true ∧ dev125.treeExists 0 = true ∧ dev125.copyTree 0 =
      false ∧ (dev125.key (pairSlot 3 1)).state = .ready ∧ signed 32 (word (cmd 3 [1, 70000]) 1 + 2 ^ 32 - dev125.sfc 0 % 2 ^ 32) ≤
      80000) ∧
    (Quiet dev126 ∧ ready dev126 .ce .pf0 = true ∧ dev126.treeOpen .pf0 0 = true ∧ dev126.treeExists 0 = true ∧ dev126.copyTree 0 =
      false) ∧
    (Quiet dev127 ∧ ready dev127 .ce .pf0 = true ∧ dev127.treeOpen .pf0 0 = true ∧ dev127.treeExists 0 = true ∧ dev127.copyTree 0 =
      false) := by
  unfold Quiet; decide +kernel

/-- States of SaAndLookAsideKeyCommandsComplete, saKey, saParam, saPn. -/
def dev128 : Dev := demo.onCe fun x => { x with sas := [(5, { SaSlot.rest with state := 1, key := 2 ^ 128 })] }

/-- The next. -/
def dev129 : Dev := demo.onCe fun x => { x with sas := [(5, { SaSlot.rest with state := 1 })] }

/-- SaAndLookAsideKeyCommandsComplete: saKey, saParam, saPn. -/
theorem witness_SaAndLookAsideKeyCommandsComplete_1 :
    (Quiet demo ∧ ready demo .ce .pf0 = true ∧ (demo.sa 4095).state ≠ 2) ∧
    (Quiet dev128 ∧ ready dev128 .ce .pf0 = true ∧ (dev128.sa 5).state = 1 ∧ (dev128.portDef 1).isSome = true ∧ (dev128.sa 5).key %
      2 ^ 128 = 0) ∧
    (Quiet dev129 ∧ ready dev129 .ce .pf0 = true ∧ (dev129.sa 5).state = 1 ∧ word (cmd 5 [0, 1]) 0 + 2 ^ 32 * word (cmd 5 [0, 1]) 1
      ≠ 0) := by
  unfold Quiet; decide +kernel

/-- States of SaAndLookAsideKeyCommandsComplete, saEnable tx, saEnable rx, saDisable. -/
def dev130 : Dev := demo.onCe fun x =>
  { x with sas := [(5, { SaSlot.rest with state := 1, w0 := 256 }), (6, { SaSlot.rest with state := 2, w0 := 256 })], curTx := [(0, 6)] }

/-- The next. -/
def dev131 : Dev := demo.onCe fun x => { x with sas := [(5, { SaSlot.rest with state := 1, w0 := 1 })] }

/-- The next. -/
def dev132 : Dev := demo.onCe fun x => { x with sas := [(5, { SaSlot.rest with state := 2, w0 := 256 })], curTx := [(0, 5)] }

/-- SaAndLookAsideKeyCommandsComplete: saEnable tx, saEnable rx, saDisable. -/
theorem witness_SaAndLookAsideKeyCommandsComplete_2 :
    (Quiet dev130 ∧ ready dev130 .ce .pf0 = true ∧ (dev130.sa 5).state = 1 ∧ (dev130.sa 5).tx = true ∧ dev130.txSa 0 = some 6 ∧
      (dev130.sa 5).port = 0) ∧
    (Quiet dev131 ∧ ready dev131 .ce .pf0 = true ∧ (dev131.sa 5).state = 1 ∧ (dev131.sa 5).tx = false ∧ dev131.rxSa (dev131.sa
      5).port (fun y => y.sci == (dev131.sa 5).sci && y.an == (dev131.sa 5).an) = none) ∧
    (Quiet dev132 ∧ ready dev132 .ce .pf0 = true ∧ (dev132.sa 5).state = 2) := by
  unfold Quiet; decide +kernel

/-- States of SaAndLookAsideKeyCommandsComplete, saRead, laKeyWrite, laKeyClear. -/
def dev133 : Dev := demo.onCe fun x =>
  { x with sas := [(5, { SaSlot.rest with state := 2, w0 := 256, sci := 2 ^ 40 + 7, pn := 9 })], curTx := [(0, 5)] }

/-- The next. -/
def dev134 : Dev := demo.onCe fun x => { x with la := [(7, ⟨true, 16, 5⟩)] }

/-- SaAndLookAsideKeyCommandsComplete: saRead, laKeyWrite, laKeyClear. -/
theorem witness_SaAndLookAsideKeyCommandsComplete_3 :
    (Quiet dev133 ∧ ready dev133 .ce .pf0 = true) ∧
    (Quiet demo ∧ ready demo .ce .pf0 = true ∧ bits (cmd (16 * 2 ^ 20 + 2 ^ 16 + 7) [1, 2, 3, 4, 5, 6, 7, 8]).obj 24 20 ≤ 16 ∧ bit
      (cmd (16 * 2 ^ 20 + 2 ^ 16 + 7) [1, 2, 3, 4, 5, 6, 7, 8]).obj 16 = true) ∧
    (Quiet dev134 ∧ ready dev134 .ce .pf0 = true) := by
  unfold Quiet; decide +kernel

/-- States of LookAsideRingsAndKeyEventsAct, pi good, pi bad, pop. -/
def dev135 : Dev := demo.setReg (R .CE_LA_SIZE 3) (2 ^ 31 + 6)

/-- The next. -/
def dev136 : Dev := demo.onCe fun x => { x with evts := [⟨1, false, 1000, 6⟩, ⟨1, true, 1000, 6⟩] }

/-- LookAsideRingsAndKeyEventsAct: pi good, pi bad, pop. -/
theorem witness_LookAsideRingsAndKeyEventsAct_1 :
    (Quiet dev135 ∧ opens dev135 .pf0 (R .CE_LA_PI 3) true = true ∧ (64 + 8192 - dev135.reg (R .CE_LA_CI 3)) % 8192 ≤ 2 ^
      dev135.fld (R .CE_LA_SIZE 3) 3 0) ∧
    (Quiet dev135 ∧ opens dev135 .pf0 (R .CE_LA_PI 3) true = true ∧ ¬ (65 + 8192 - dev135.reg (R .CE_LA_CI 3)) % 8192 ≤ 2 ^
      dev135.fld (R .CE_LA_SIZE 3) 3 0) ∧
    (Quiet dev136 ∧ opens dev136 .pf0 (R .CE_KEY_EVT_POP) true = true ∧ (dev136.keyEvtSeen .pf0).isSome = true) := by
  unfold Quiet; decide +kernel

/-- States of LookAsideRingsAndKeyEventsAct, descriptor bad, descriptor no key, descriptor key ue. -/
def dev137 : Dev := (((demo.setReg (R .CE_LA_SIZE 3) (2 ^ 31 + 6)).setReg (R .CE_LA_PI 3) 1).setFld (R .CE_LA_OWNER 3) 4 0 16)

/-- The next. -/
def dev138 : Dev := dLa.onCe fun x => { x with la := [(7, ⟨false, 16, 5 * 2 ^ 128⟩)] }

/-- LookAsideRingsAndKeyEventsAct: descriptor bad, descriptor no key, descriptor key ue. -/
theorem witness_LookAsideRingsAndKeyEventsAct_2 :
    (Quiet dev137 ∧ dev137.alive = true ∧ dev137.mc.spMiss = [] ∧ dev137.flag (R .CE_LA_SIZE 3) 31 = true ∧ dev137.laFill 3 ≠ 0 ∧
      dev137.laSlice 3 = none ∧ dev137.spFault (spOff (dev137.laDesc 3)) 64 = false ∧ (laParse (dev137.rdMem true (dev137.laDesc 3)
      64)).bad = true) ∧
    (Quiet dLa ∧ dLa.alive = true ∧ dLa.mc.spMiss = [] ∧ dLa.flag (R .CE_LA_SIZE 3) 31 = true ∧ dLa.laFill 3 ≠ 0 ∧ dLa.laSlice 3 =
      none ∧ dLa.spFault (spOff (dLa.laDesc 3)) 64 = false ∧ (laParse (dLa.rdMem true (dLa.laDesc 3) 64)).bad = false ∧
      dLa.ce.la.get? (laParse (dLa.rdMem true (dLa.laDesc 3) 64)).key = none) ∧
    (Quiet dev138 ∧ dev138.alive = true ∧ dev138.mc.spMiss = [] ∧ dev138.flag (R .CE_LA_SIZE 3) 31 = true ∧ dev138.laFill 3 ≠ 0 ∧
      dev138.laSlice 3 = none ∧ dev138.spFault (spOff (dev138.laDesc 3)) 64 = false ∧ (laParse (dev138.rdMem true (dev138.laDesc 3)
      64)).bad = false ∧ (dev138.ce.la.get? (laParse (dev138.rdMem true (dev138.laDesc 3) 64)).key).isSome = true) := by
  unfold Quiet; decide +kernel

/-- LookAsideRingsAndKeyEventsAct: descriptor ctr. -/
theorem witness_LookAsideRingsAndKeyEventsAct_3 :
    (Quiet dev138 ∧ dev138.alive = true ∧ dev138.mc.spMiss = [] ∧ dev138.flag (R .CE_LA_SIZE 3) 31 = true ∧ dev138.laFill 3 ≠ 0 ∧
      dev138.spFault (spOff (dev138.laDesc 3)) 64 = false ∧ dev138.laSlice 3 = none ∧ (laParse (dev138.rdMem true (dev138.laDesc 3)
      64)).bad = false ∧ (laParse (dev138.rdMem true (dev138.laDesc 3) 64)).mode = 1 ∧ (laParse (dev138.rdMem true (dev138.laDesc
      3) 64)).srcSp = true ∧ (laParse (dev138.rdMem true (dev138.laDesc 3) 64)).dstSp = false ∧ (dev138.ce.la.get? 7).isSome = true
      ∧ dev138.spFirst 4096 16 = none) := by
  unfold Quiet; decide +kernel

/-- States of TimebaseCommandsComplete, set, step, slew. -/
def dev139 : Dev := (demo.onTb fun b => { b with c := 5 * 2 ^ 40 + 3 })

/-- TimebaseCommandsComplete: set, step, slew. -/
theorem witness_TimebaseCommandsComplete_1 :
    (Quiet demo ∧ ready demo .tb .pf0 = true ∧ word (cmd 0 [999999999, 5, 0xFFFF0001]) 0 % 2 ^ 30 < 1000000000) ∧
    (Quiet dev139 ∧ ready dev139 .tb .pf0 = true ∧ dev139.tb.c < 2 ^ 104) ∧
    (Quiet demo ∧ ready demo .tb .pf0 = true ∧ (signed 32 (word (cmd 0 [0xFFFFFFFA, 1000]) 0)).natAbs ≤ 1000000 ∧ 1 ≤ word (cmd 0
      [0xFFFFFFFA, 1000]) 1 % 1024 ∧ word (cmd 0 [0xFFFFFFFA, 1000]) 1 % 1024 ≤ 1000) := by
  unfold Quiet; decide +kernel

/-- States of TimebaseCommandsComplete, align, gclWrite, gclCommit. -/
def dev140 : Dev := ({ demo with rx := { demo.rx with tf := [] } })

/-- TimebaseCommandsComplete: align, gclWrite, gclCommit. -/
theorem witness_TimebaseCommandsComplete_2 :
    (Quiet dev140 ∧ ready dev140 .tb .pf0 = true ∧ ∀ t < 64, dev140.lit t = true → (dev140.tf t).state = .off) ∧
    (Quiet demo ∧ ready demo .tb .pf0 = true ∧ (demo.portDef 1).isSome = true ∧ (cmd (1 + 256 * 255) [0x81000040]).obj % 16 = 1 ∧
      (demo.gates 1).pending = none ∧ 64 ≤ word (cmd (1 + 256 * 255) [0x81000040]) 0 % 2 ^ 24) ∧
    (Quiet demo ∧ ready demo .tb .pf0 = true ∧ (demo.portDef 1).isSome = true ∧ (demo.gates 1).pending = none ∧ 256 ≤ word (cmd 1
      [5, 0, 256, 256]) 2 ∧ word (cmd 1 [5, 0, 256, 256]) 3 % 512 = 256) := by
  unfold Quiet; decide +kernel

/-- States of TimebaseCommandsComplete, gclCancel, gclStop, gclRead. -/
def dev141 : Dev := (demo.onGates 1 fun g => { g with pending := some ⟨2 ^ 60, 300, [⟨1, 64⟩]⟩, oper := some ⟨2, 300, []⟩ })

/-- The next. -/
def dev142 : Dev := (demo.onGates 1 fun g => { g with oper := some ⟨2, 300, []⟩ })

/-- The next. -/
def dev143 : Dev := (demo.onGates 1 fun g => { g with pending := some ⟨2 ^ 60, 300, [⟨1, 64⟩]⟩ })

/-- TimebaseCommandsComplete: gclCancel, gclStop, gclRead. -/
theorem witness_TimebaseCommandsComplete_3 :
    (Quiet dev141 ∧ ready dev141 .tb .pf0 = true ∧ (dev141.gates 1).pending ≠ none) ∧
    (Quiet dev142 ∧ ready dev142 .tb .pf0 = true ∧ (dev142.gates 1).oper ≠ none) ∧
    (Quiet dev143 ∧ ready dev143 .tb .pf0 = true ∧ (dev143.gates 1).pending = some ⟨2 ^ 60, 300, [⟨1, 64⟩]⟩ ∧ (cmd 1 []).obj / 2 ^
      16 % 2 = 0) := by
  unfold Quiet; decide +kernel

/-- States of TimebaseEventsTakeEffect, slewDone, fire, capture. -/
def dev144 : Dev := (demo.onTb fun b => { b with rho := 2 ^ 50, rate := 5 })

/-- The next. -/
def dev145 : Dev := (demo.setFld (R .TB_CMP_CFG 7) 0 0 1)

/-- The next. -/
def dev146 : Dev := ((demo.setFld (R .TB_CAP_CFG 4) 31 30 3).onTb fun b => { b with c := 77 * 2 ^ 40 })

/-- TimebaseEventsTakeEffect: slewDone, fire, capture. -/
theorem witness_TimebaseEventsTakeEffect_1 :
    (Quiet dev144 ∧ dev144.alive = true ∧ dev144.tb.incPending = none ∧ 0 < dev144.inc * dev144.tb.rate / 1000000) ∧
    (Quiet dev145 ∧ dev145.alive = true ∧ dev145.flag (R .TB_CMP_CFG 7) 0 = true ∧ 0 ≤ dev145.sinceC (dev145.cmpTarget 7) ∧
      dev145.reg (R .TB_CMP_PERIOD 7) = 0) ∧
    (Quiet dev146 ∧ dev146.alive = true ∧ dev146.flag (R .TB_CAP_CFG 4) 31 = true ∧ dev146.flag (R .TB_CAP_CFG 4) 30 = true ∧
      dev146.flag (R .TB_CAP_CFG 4) 29 = false) := by
  unfold Quiet; decide +kernel

/-- States of TimebaseEventsTakeEffect, gclStart, chainMode, chainEdge. -/
def dev147 : Dev := (demo.onGates 1 fun g => { g with pending := some ⟨0, 300, [⟨1, 64⟩]⟩ })

/-- The next. -/
def dev148 : Dev := (demo.setFld (R .TB_CHAIN_CFG) 0 0 1)

/-- TimebaseEventsTakeEffect: gclStart, chainMode, chainEdge. -/
theorem witness_TimebaseEventsTakeEffect_2 :
    (Quiet dev147 ∧ dev147.alive = true ∧ 0 ≤ dev147.sinceC 0) ∧
    (Quiet dev148 ∧ dev148.alive = true ∧ dev148.tb.lastChainEdge = none) ∧
    (Quiet demo ∧ demo.alive = true) := by
  unfold Quiet; decide +kernel

/-- States of TimebaseEventsTakeEffect, fallback, chain capture, chain fall. -/
def dev149 : Dev := (((demo.setFld (R .TB_CTL) 0 0 1).setFld (R .TB_SYNCE_CFG) 7 7 1).setFld (laneStatus .ul 0) 0 0 1)

/-- The next. -/
def dev150 : Dev := demo.setFld (R .TB_CAP_CFG 4) 31 29 5

/-- The next. -/
def dev151 : Dev := demo.setFld (R .TB_CAP_CFG 4) 31 29 7

/-- TimebaseEventsTakeEffect: fallback, chain capture, chain fall. -/
theorem witness_TimebaseEventsTakeEffect_3 :
    (Quiet dev149 ∧ dev149.alive = true ∧ dev149.flag (R .TB_CTL) 0 = true ∧ dev149.flag (R .TB_STATUS) 28 = false ∧ dev149.rec0Bad
      = true) ∧
    (Quiet dev150 ∧ dev150.alive = true ∧ bits (dev150.reg (R .TB_CAP_CFG 4)) 31 29 = 5) ∧
    (Quiet dev151 ∧ dev151.alive = true ∧ dev151.flag (R .TB_CAP_CFG 4) 31 = true ∧ dev151.flag (R .TB_CAP_CFG 4) 30 = true) := by
  unfold Quiet; decide +kernel

/-- States of TimebaseEventsTakeEffect, aligned, aligned later, started. -/
def dev152 : Dev := ((waiting .tb 4 0 { demo with rx := { demo.rx with tf := [] } }).onTb fun b =>
  { b with align := some 0, alignOff := 7, ticks := 1000000, c := 2 ^ 40 * (125000 * 10 + 7) })

/-- The next. -/
def dev153 : Dev := ((waiting .tb 4 0 { demo with rx := { demo.rx with tf := [] } }).onTb fun b =>
  { b with align := some 1000000, alignOff := 7, ticks := 1000000, c := 2 ^ 40 * (125000 * 10 + 7) })

/-- The next. -/
def dev154 : Dev := ((waiting .im 1 0
  { demo with rx := { demo.rx with tf := [] }, im := { demo.im with state := .structured } }).onTb fun b =>
  { b with startAt := some 0, ticks := 1000000, c := 2 ^ 40 * (125000 * 10) })

/-- TimebaseEventsTakeEffect: aligned, aligned later, started. -/
theorem witness_TimebaseEventsTakeEffect_4 :
    (Quiet dev152 ∧ dev152.alive = true ∧ dev152.alignBy 0 = 0 ∧ dev152.alignTicks = some 0 ∧ ∀ w ∈ dev152.wins, w.2.queue.length ≤
      1) ∧
    (Quiet dev153 ∧ dev153.alive = true ∧ dev153.alignTicks = some (dev153.alignBy 400000) ∧ 195313 ≤ dev153.alignBy 400000 ∧
      dev153.alignBy 400000 < 195313 + 98000 ∧ (∀ w ∈ (dev153.elapse (dev153.alignBy 400000)).wins, w.2.queue.length ≤ 1) ∧ Quiet
      (dev153.elapse (dev153.alignBy 400000))) ∧
    (Quiet dev154 ∧ dev154.alive = true ∧ dev154.startTicks = some 0 ∧ (dev154.waitingCmd .im 1).isSome = true ∧ ∀ w ∈ dev154.wins,
      w.2.queue.length ≤ 1) := by
  unfold Quiet; decide +kernel

/-- States of TimestampRegistersAct, arm, pop, clrLost. -/
def dev155 : Dev := (demo.setReg (R .TB_TODCAP_SFC 3) 99)

/-- The next. -/
def dev156 : Dev := (demo.onTb fun b => { b with txts := [(1, [⟨1, 2, 3, false, 0⟩, ⟨2, 2, 3, false, 0⟩])] })

/-- The next. -/
def dev157 : Dev := (demo.setReg (R .TB_TXTS_LOST 1) 7)

/-- TimestampRegistersAct: arm, pop, clrLost. -/
theorem witness_TimestampRegistersAct_1 :
    (Quiet dev155 ∧ opens dev155 .pf0 (R .TB_TODCAP_CTL 3) true = true) ∧
    (Quiet dev156 ∧ opens dev156 .pf0 (R .TB_TXTS_POP 1) true = true) ∧
    (Quiet dev157 ∧ True) := by
  unfold Quiet; decide +kernel

/-- States of ProtectionCommandsComplete, switch active, switch standby, switch merged. -/
def dev158 : Dev := demo.onPt 0 fun x => { x with change := some (7, 1) }

/-- ProtectionCommandsComplete: switch active, switch standby, switch merged. -/
theorem witness_ProtectionCommandsComplete_1 :
    (Quiet demo ∧ ready demo .px .pf0 = true ∧ demo.isProt 0 = true ∧ demo.cold = false ∧ (demo.pt 0).state = .active ∧ (demo.pt
      0).change = none ∧ demo.eligibleSwitch 0 = true) ∧
    (Quiet dCur ∧ ready dCur .px .pf0 = true ∧ dCur.isProt 3 = true ∧ dCur.cold = false ∧ (dCur.pt 3).state = .standby ∧
      dCur.eligibleSwitch 3 = true) ∧
    (Quiet dev158 ∧ ready dev158 .px .pf0 = true ∧ dev158.isProt 0 = true ∧ dev158.cold = false ∧ (dev158.pt 0).state = .active ∧
      (dev158.pt 0).change = some (7, 1)) := by
  unfold Quiet; decide +kernel

/-- ProtectionCommandsComplete: switch off, switch cold refused, switch denied. -/
theorem witness_ProtectionCommandsComplete_2 :
    (Quiet demo ∧ ready demo .px .pf0 = true ∧ demo.isProt 1 = true ∧ demo.cold = false ∧ (demo.pt 1).state ≠ .active ∧ (demo.pt
      1).state ≠ .standby) ∧
    (Quiet dCold ∧ ready dCold .px .pf0 = true ∧ dCold.isProt 3 = true ∧ dCold.cold = true ∧ (dCold.pt 3).state ≠ .active) ∧
    (Quiet demo ∧ ready demo .px .pf0 = true ∧ demo.isProt 3 = true ∧ demo.cold = false ∧ (demo.pt 3).state = .standby ∧
      demo.eligibleSwitch 3 = false) := by
  unfold Quiet; decide +kernel

/-- States of ProtectionCommandsComplete, switch denied active, switch cold, lockout. -/
def dev159 : Dev := demo.onPx fun x => { x with matched := false }

/-- ProtectionCommandsComplete: switch denied active, switch cold, lockout. -/
theorem witness_ProtectionCommandsComplete_3 :
    (Quiet dev159 ∧ ready dev159 .px .pf0 = true ∧ dev159.isProt 0 = true ∧ dev159.cold = false ∧ (dev159.pt 0).state = .active ∧
      (dev159.pt 0).change = none ∧ dev159.eligibleSwitch 0 = false) ∧
    (Quiet dCold ∧ ready dCold .px .pf0 = true ∧ dCold.cold = true ∧ dCold.isProt 0 = true ∧ (dCold.pt 0).state = .active ∧
      dCold.reg (R .PX_SNAP_OUT_LEN) ≠ 0) ∧
    (Quiet demo ∧ ready demo .px .pf0 = true ∧ demo.isProt 3 = true ∧ (demo.pt 3).state ≠ .active) := by
  unfold Quiet; decide +kernel

/-- States of ProtectionCommandsComplete, lockoutClear, join, join refused. -/
def dev160 : Dev := demo.onPt 3 fun x => { x with lockout := true }

/-- ProtectionCommandsComplete: lockoutClear, join, join refused. -/
theorem witness_ProtectionCommandsComplete_4 :
    (Quiet dev160 ∧ ready dev160 .px .pf0 = true ∧ dev160.isProt 3 = true ∧ (dev160.pt 3).lockout = true) ∧
    (Quiet demo ∧ ready demo .px .pf0 = true ∧ demo.isProt 1 = true ∧ (demo.pt 1).state = .off ∧ demo.lit 1 = true) ∧
    (Quiet demo ∧ ready demo .px .pf0 = true ∧ demo.isProt 3 = true ∧ (demo.pt 3).state ≠ .off) := by
  unfold Quiet; decide +kernel

/-- States of ProtectionCommandsComplete, resync, pairKey, pairKeyClear. -/
def dev161 : Dev := dCold.onPx fun x => { x with pairKey := some 5 }

/-- ProtectionCommandsComplete: resync, pairKey, pairKeyClear. -/
theorem witness_ProtectionCommandsComplete_5 :
    (Quiet demo ∧ ready demo .px .pf0 = true ∧ demo.source = true) ∧
    (Quiet dCold ∧ ready dCold .px .pf0 = true ∧ dCold.pairFree = true) ∧
    (Quiet dev161 ∧ ready dev161 .px .pf0 = true ∧ dev161.pairFree = true) := by
  unfold Quiet; decide +kernel

/-- States of MateCellsTakeEffect, hello, marker, marker locked. -/
def dev162 : Dev :=
  { ((demo.onPx fun x => { x with markers := [(3, 5)] }).setFld (laneCtl .ml 3) 0 0 0) with tb := { demo.tb with ticks := 81925 } }

/-- The next. -/
def dev163 : Dev :=
  { ((demo.onPx fun x => { x with markers := [(3, 5)], helloAge := some 0, rxSeq := some 9 }).setFld (R .LX_ML_STATUS 3) 6 6 1 |>.setFld (laneCtl .ml 3) 0 0 0) with tb := { demo.tb with ticks := 5 + 3 * 81920 } }

/-- MateCellsTakeEffect: hello, marker, marker locked. -/
theorem witness_MateCellsTakeEffect_1 :
    (Quiet dMl ∧ dMl.alive = true ∧ dMl.hot = true ∧ dMl.goodMateLanes ≠ []) ∧
    (Quiet dev162 ∧ dev162.alive = true ∧ dev162.laneRole .ml 3 = 5 ∧ dev162.rxOff .ml 3 = false ∧ dev162.flag (R .LX_ML_STATUS 3)
      6 = false ∧ (dev162.tb.ticks - 5 + 40) / 80 = 1024 ∧ dev162.px.rxSeq = none) ∧
    (Quiet dev163 ∧ dev163.alive = true ∧ dev163.laneRole .ml 3 = 5 ∧ dev163.rxOff .ml 3 = false ∧ dev163.flag (R .LX_ML_STATUS 3)
      6 = true ∧ markerSpaced 5 dev163.tb.ticks = true) := by
  unfold Quiet; decide +kernel

/-- MateCellsTakeEffect: switchReq, commit, map. -/
theorem witness_MateCellsTakeEffect_2 :
    (Quiet demo ∧ demo.alive = true ∧ demo.linkUp = true ∧ demo.isProt 0 = true ∧ (demo.pt 0).state = .active ∧ (demo.pt 0).change
      = none ∧ demo.eligibleSwitch 0 = true) ∧
    (Quiet demo ∧ demo.alive = true ∧ demo.linkUp = true ∧ demo.isProt 3 = true ∧ (demo.pt 3).state = .standby ∧ signed 32 (1002 +
      2 ^ 32 - demo.sfc 3 % 2 ^ 32) = 2) ∧
    (Quiet demo ∧ demo.alive = true ∧ demo.linkUp = true ∧ demo.isProt 3 = true ∧ (demo.pt 3).state = .standby ∧ signed 32 (1001 +
      2 ^ 32 - demo.sfc 3 % 2 ^ 32) = 1) := by
  unfold Quiet; decide +kernel

/-- MateCellsTakeEffect: need, record, resyncReq. -/
theorem witness_MateCellsTakeEffect_3 :
    (Quiet demo ∧ demo.alive = true ∧ demo.linkUp = true ∧ demo.isProt 3 = true) ∧
    (Quiet demo ∧ demo.alive = true ∧ demo.linkUp = true ∧ demo.ob.pwrFail = false ∧ demo.ob.stagedBytes + 32 + 3 ≤ 65536) ∧
    (Quiet demo ∧ demo.alive = true ∧ demo.linkUp = true ∧ demo.driven ≠ []) := by
  unfold Quiet; decide +kernel

/-- States of MateCellsTakeEffect, copy good, copy gap, copy lost. -/
def dev164 : Dev := demo.onPx fun x => { x with lastNo := some 1000, rxSeq := some 5 }

/-- The next. -/
def dev165 : Dev := demo.onPx fun x => { x with lastNo := some 999, rxSeq := some 5 }

/-- The next. -/
def dev166 : Dev := demo.onPx fun x => { x with lastNo := some 1000, rxSeq := some 4 }

/-- MateCellsTakeEffect: copy good, copy gap, copy lost. -/
theorem witness_MateCellsTakeEffect_4 :
    (Quiet dev164 ∧ dev164.alive = true ∧ dev164.linkUp = true ∧ (dev164.copyBytes [⟨1, 6, 80, true, false, [7]⟩, ⟨0, 5, 0, true,
      true, CopyFrame.bytes 0 ⟨1, 0, 1001, dev164.structId, 0, []⟩⟩]).bind (parseCopy (dev164.px.pairKey.getD 0)) = some ⟨1, 0,
      1001, dev164.structId, 0, []⟩) ∧
    (Quiet dev165 ∧ dev165.alive = true ∧ dev165.linkUp = true ∧ (dev165.copyBytes [⟨0, 5, 0, true, true, CopyFrame.bytes 0 ⟨1, 0,
      1001, dev165.structId, 0, []⟩⟩]).bind (parseCopy (dev165.px.pairKey.getD 0)) = some ⟨1, 0, 1001, dev165.structId, 0, []⟩) ∧
    (Quiet dev166 ∧ dev166.alive = true ∧ dev166.linkUp = true ∧ dev166.copyBytes [⟨0, 5, 0, true, true, CopyFrame.bytes 0 ⟨1, 0,
      1001, dev166.structId, 0, []⟩⟩] = none) := by
  unfold Quiet; decide +kernel

/-- States of LinkChangesAndTakeoversTakeEffect, linkUp, linkDown, linkDown lanes. -/
def dev167 : Dev := { dMl with px := { dMl.px with helloAge := some 2 }, lx := { dMl.lx with mateUp := false } }

/-- The next. -/
def dev168 : Dev := { dMl with px := { dMl.px with helloAge := some 3 } }

/-- LinkChangesAndTakeoversTakeEffect: linkUp, linkDown, linkDown lanes. -/
theorem witness_LinkChangesAndTakeoversTakeEffect_1 :
    (Quiet dev167 ∧ dev167.alive = true ∧ dev167.hot = true ∧ dev167.lx.mateUp = false ∧ dev167.goodMateLanes ≠ [] ∧
      dev167.mateAligns = true ∧ dev167.px.helloAge = some 2) ∧
    (Quiet dev168 ∧ dev168.alive = true ∧ dev168.lx.mateUp = true ∧ dev168.px.helloAge = some 3 ∧ dev168.goodMateLanes ≠ []) ∧
    (Quiet demo ∧ demo.alive = true ∧ demo.lx.mateUp = true ∧ demo.goodMateLanes = []) := by
  unfold Quiet; decide +kernel

/-- States of LinkChangesAndTakeoversTakeEffect, wtr, takeover stale, takeover current. -/
def dev169 : Dev :=
  { (dCur.onPt 3 fun x => { x with wtr := some 7 }) with tb := { demo.tb with c := (7 + demo.wtrS * 1000000000) * 2 ^ 40 } }

/-- The next. -/
def dev170 : Dev := { (demo.onPt 3 fun x => { x with silent := 255, copySfc := 77 }) with lx := { demo.lx with mateUp := false } }

/-- The next. -/
def dev171 : Dev := { (dCur.onPt 3 fun x => { x with silent := 255, copySfc := 77 }) with lx := { demo.lx with mateUp := false } }

/-- LinkChangesAndTakeoversTakeEffect: wtr, takeover stale, takeover current. -/
theorem witness_LinkChangesAndTakeoversTakeEffect_2 :
    (Quiet dev169 ∧ dev169.alive = true ∧ dev169.isProt 3 = true ∧ (dev169.pt 3).wtr = some 7 ∧ dev169.wtrS ≤ (dev169.now - 7) /
      1000000000 ∧ (dev169.pt 3).state = .standby ∧ dev169.eligibleSwitch 3 = true) ∧
    (Quiet dev170 ∧ dev170.alive = true ∧ dev170.isProt 3 = true ∧ dev170.hot = true ∧ (dev170.pt 3).state = .standby ∧
      dev170.linkUp = false ∧ dev170.holdoff ≤ (dev170.pt 3).silent ∧ (dev170.pt 3).change = none ∧ dev170.copyState ≠ 2) ∧
    (Quiet dev171 ∧ dev171.alive = true ∧ dev171.isProt 3 = true ∧ dev171.hot = true ∧ (dev171.pt 3).state = .standby ∧
      dev171.linkUp = false ∧ dev171.holdoff ≤ (dev171.pt 3).silent ∧ (dev171.pt 3).change = none ∧ dev171.copyState = 2 ∧
      dev171.copyAge ≤ dev171.copyAgeMax) := by
  unfold Quiet; decide +kernel

/-- States of LinkChangesAndTakeoversTakeEffect, startup, standdown, standdown foreign. -/
def dev172 : Dev :=
  { (demo.onPt 3 fun x => { x with state := .isolated, silent := 255 }) with lx := { demo.lx with mateUp := false } }

/-- The next. -/
def dev173 : Dev := { (demo.onTf 0 fun x => { x with reported := 1 }) with lx := { demo.lx with mateUp := false } }

/-- The next. -/
def dev174 : Dev :=
  { (demo.onPt 0 fun x => { x with foreign := 2 }) with lx := { demo.lx with mateUp := false }, im := { demo.im with str := { demo.im.str with role := 2 } } }

/-- LinkChangesAndTakeoversTakeEffect: startup, standdown, standdown foreign. -/
theorem witness_LinkChangesAndTakeoversTakeEffect_3 :
    (Quiet dev172 ∧ dev172.alive = true ∧ dev172.isProt 3 = true ∧ (dev172.pt 3).state = .isolated ∧ dev172.linkUp = false ∧
      dev172.fit 3 = true ∧ dev172.startup ≤ (dev172.pt 3).silent ∧ (dev172.pt 3).change = none) ∧
    (Quiet dev173 ∧ dev173.alive = true ∧ dev173.isProt 0 = true ∧ (dev173.pt 0).state = .active ∧ dev173.linkUp = false ∧
      dev173.tb.ticks = dev173.px.bndTick ∧ bit (dev173.tf 0).reported 0 = true ∧ dev173.wins.all (fun w => w.2.queue.length ≤ 1)) ∧
    (Quiet dev174 ∧ dev174.alive = true ∧ dev174.isProt 0 = true ∧ (dev174.pt 0).state = .active ∧ dev174.linkUp = false ∧
      dev174.tb.ticks = dev174.px.bndTick ∧ dev174.im.str.role = 2 ∧ 2 ≤ (dev174.pt 0).foreign ∧ dev174.wins.all (fun w =>
      w.2.queue.length ≤ 1)) := by
  unfold Quiet; decide +kernel

/-- States of LinkChangesAndTakeoversTakeEffect, cold failed, cold good, snapshot. -/
def dev175 : Dev := dCold.onPt 3 fun x => { x with silent := 255 }

/-- The next. -/
def dev176 : Dev := (((dCold.onPt 3 fun x => { x with silent := 255 }).wrMem 14 false 4096 (CopyFrame.bytes 0 ⟨1, 15, 1001,
  dCold.structId, 0, []⟩)).setReg (R .PX_SNAP_IN_SEQ) 1).setReg (R .PX_SNAP_IN_LO) 4096 |>.setReg (R .PX_SNAP_IN_LEN)
  (CopyFrame.bytes 0 ⟨1, 15, 1001, dCold.structId, 0, []⟩).length

/-- The next. -/
def dev177 : Dev := dCold.onPx fun x => { x with snap := some [4, 5, 6] }

/-- LinkChangesAndTakeoversTakeEffect: cold failed, cold good, snapshot. -/
theorem witness_LinkChangesAndTakeoversTakeEffect_4 :
    (Quiet dev175 ∧ dev175.alive = true ∧ dev175.cold = true ∧ dev175.isProt 3 = true ∧ (dev175.pt 3).state = .standby ∧
      dev175.holdoff ≤ (dev175.pt 3).silent ∧ (dev175.pt 3).change = none) ∧
    (Quiet dev176 ∧ dev176.alive = true ∧ dev176.cold = true ∧ dev176.isProt 3 = true ∧ (dev176.pt 3).state = .standby ∧
      dev176.holdoff ≤ (dev176.pt 3).silent ∧ (dev176.pt 3).change = none ∧ dev176.reg (R .PX_SNAP_IN_SEQ) ≠ 0 ∧ parseCopy
      (dev176.px.pairKey.getD 0) (dev176.mc.hostMem.readN (dev176.reg (R .PX_SNAP_IN_LO) + 2 ^ 32 * dev176.reg (R .PX_SNAP_IN_HI))
      (dev176.reg (R .PX_SNAP_IN_LEN))) = some ⟨1, 15, 1001, dev176.structId, 0, []⟩) ∧
    (Quiet dev177 ∧ dev177.alive = true ∧ dev177.px.snap = some [4, 5, 6] ∧ 3 ≤ dev177.reg (R .PX_SNAP_OUT_LEN)) := by
  unfold Quiet; decide +kernel

/-- States of LinkChangesAndTakeoversTakeEffect, snapshot long, snapshot failed. -/
def dev178 : Dev := (dCold.onPx fun x => { x with snap := some [4, 5, 6] }).setReg (R .PX_SNAP_OUT_LEN) 2

/-- LinkChangesAndTakeoversTakeEffect: snapshot long, snapshot failed. -/
theorem witness_LinkChangesAndTakeoversTakeEffect_5 :
    (Quiet dev178 ∧ dev178.alive = true ∧ dev178.px.snap = some [4, 5, 6] ∧ dev178.reg (R .PX_SNAP_OUT_LEN) = 2) ∧
    (Quiet dev177 ∧ dev177.alive = true ∧ dev177.px.snap = some [4, 5, 6] ∧ dev177.reg (R .PX_SNAP_OUT_LEN) ≠ 0) := by
  unfold Quiet; decide +kernel

/-- States of UpdateSessionCommandsComplete, begin, write, write fails. -/
def dev179 : Dev := (demo.setFld (R .MC_UPD_STATUS) 31 30 1).wrMem 14 true 4096 [1, 2, 3]

/-- The next. -/
def dev180 : Dev := (demo.setFld (R .MC_UPD_STATUS) 31 30 1)

/-- UpdateSessionCommandsComplete: begin, write, write fails. -/
theorem witness_UpdateSessionCommandsComplete_1 :
    (Quiet demo ∧ ready demo .upd .pf0 = true ∧ demo.session = 0 ∧ demo.mc.trial = false) ∧
    (Quiet dev179 ∧ ready dev179 .upd .pf0 = true ∧ dev179.session = 1 ∧ dev179.spFault 4096 3 = false ∧ 33554432 - 3 + 3 ≤
      regionSize 1 ∧ bits (word (cmd 0 [4096, 33554432 - 3, 3, 1]) 2) 16 0 = 3) ∧
    (Quiet dev180 ∧ ready dev180 .upd .pf0 = true ∧ dev180.session = 1 ∧ dev180.spFault 4096 65536 = false ∧ bits (word (cmd 0
      [4096, 0, 65536, 0]) 2) 16 0 = 65536) := by
  unfold Quiet; decide +kernel

/-- States of UpdateSessionCommandsComplete, verify, commit, abort. -/
def dev181 : Dev := (demo.setFld (R .MC_UPD_STATUS) 31 30 2)

/-- UpdateSessionCommandsComplete: verify, commit, abort. -/
theorem witness_UpdateSessionCommandsComplete_2 :
    (Quiet dev180 ∧ ready dev180 .upd .pf0 = true ∧ dev180.session = 1) ∧
    (Quiet dev181 ∧ ready dev181 .upd .pf0 = true ∧ dev181.session = 2) ∧
    (Quiet demo ∧ ready demo .upd .pf0 = true) := by
  unfold Quiet; decide +kernel

/-- States of UpdateSessionCommandsComplete, confirm. -/
def dev182 : Dev := { demo with mc := { demo.mc with trial := true } }

/-- UpdateSessionCommandsComplete: confirm. -/
theorem witness_UpdateSessionCommandsComplete_3 :
    (Quiet dev182 ∧ ready dev182 .upd .pf0 = true ∧ dev182.mc.trial = true) := by
  unfold Quiet; decide +kernel

/-- States of CoresDmaAndScratchpadAct, kick, reset, go. -/
def dev183 : Dev := { demo with tb := { demo.tb with ticks := 55 } }

/-- The next. -/
def dev184 : Dev := { demo with mc := { demo.mc with cores := [(2, ⟨true, true, []⟩)] } }

/-- CoresDmaAndScratchpadAct: kick, reset, go. -/
theorem witness_CoresDmaAndScratchpadAct_1 :
    (Quiet dev183 ∧ opens dev183 .pf0 (R .MC_CORE_CTL 3) true = true) ∧
    (Quiet dev184 ∧ opens dev184 .pf0 (R .MC_CORE_CTL 2) true = true) ∧
    (Quiet demo ∧ opens demo .pf0 (R .MC_DMA_CTL 3) true = true) := by
  unfold Quiet; decide +kernel

/-- States of CoresDmaAndScratchpadAct, go busy, watchdog, watchdog reset. -/
def dev185 : Dev := demo.setFld (R .MC_DMA_CTL 3) 30 30 1

/-- The next. -/
def dev186 : Dev := { demo.setReg (R .MC_CORE_CTL 1) (2 ^ 30 + 2) with tb := { demo.tb with ticks := 2 * 781250 } }

/-- The next. -/
def dev187 : Dev := { demo.setReg (R .MC_CORE_CTL 1) (2 ^ 30 + 2 ^ 29) with tb := { demo.tb with ticks := 781250 } }

/-- CoresDmaAndScratchpadAct: go busy, watchdog, watchdog reset. -/
theorem witness_CoresDmaAndScratchpadAct_2 :
    (Quiet dev185 ∧ opens dev185 .pf0 (R .MC_DMA_CTL 3) true = true ∧ dev185.flag (R .MC_DMA_CTL 3) 30 = true) ∧
    (Quiet dev186 ∧ dev186.im.state ≠ .held ∧ dev186.flag (R .MC_CORE_CTL 1) 30 = true ∧ dev186.mc.wdt.getD 1 0 + max 1 (dev186.fld
      (R .MC_CORE_CTL 1) 15 0) * 781250 ≤ dev186.tb.ticks ∧ dev186.flag (R .MC_CORE_CTL 1) 29 = false) ∧
    (Quiet dev187 ∧ dev187.im.state ≠ .held ∧ dev187.flag (R .MC_CORE_CTL 1) 30 = true ∧ dev187.mc.wdt.getD 1 0 + max 1 (dev187.fld
      (R .MC_CORE_CTL 1) 15 0) * 781250 ≤ dev187.tb.ticks ∧ dev187.flag (R .MC_CORE_CTL 1) 29 = true) := by
  unfold Quiet; decide +kernel

/-- States of CoresDmaAndScratchpadAct, dma, dma none, local write. -/
def dev188 : Dev :=
  { (demo.setReg (R .MC_DMA_CTL 0) (2 ^ 30 + 2 ^ 28)).wrMem 14 false 0 [1, 2, 3] with mc := { ((demo.setReg (R .MC_DMA_CTL 0) (2 ^ 30 + 2 ^ 28)).wrMem 14 false 0 [1, 2, 3]).mc with dma := [(0, ⟨0, 2 ^ 22 - 3, 3, false, true, 0⟩)] } }

/-- The next. -/
def dev189 : Dev := { demo.setReg (R .MC_DMA_CTL 0) (2 ^ 30) with mc := { demo.mc with dma := [(0, ⟨0, 0, 0, false, true, 0⟩)] } }

/-- CoresDmaAndScratchpadAct: dma, dma none, local write. -/
theorem witness_CoresDmaAndScratchpadAct_3 :
    (Quiet dev188 ∧ dev188.im.state ≠ .held ∧ dev188.flag (R .MC_DMA_CTL 0) 30 = true ∧ dev188.mc.dma.get? 0 = some ⟨0, 2 ^ 22 - 3,
      3, false, true, 0⟩ ∧ dev188.spFault (2 ^ 22 - 3) 3 = false) ∧
    (Quiet dev189 ∧ dev189.flag (R .MC_DMA_CTL 0) 30 = true) ∧
    (Quiet demo ∧ demo.im.state ≠ .held ∧ demo.mc.spWait = []) := by
  unfold Quiet; decide +kernel

/-- States of CoresDmaAndScratchpadAct, local read, sp write, sp read. -/
def dev190 : Dev := demo.wrMem 14 true 8 [0xFF, 0xFF]

/-- CoresDmaAndScratchpadAct: local read, sp write, sp read. -/
theorem witness_CoresDmaAndScratchpadAct_4 :
    (Quiet dev190 ∧ dev190.im.state ≠ .held ∧ dev190.busUp .pf0 = true ∧ 1 ∉ dev190.mc.scratchUe) ∧
    (Quiet dev190 ∧ dev190.im.state ≠ .held ∧ dev190.mc.spWait = [] ∧ dev190.busUp .pf0 = true ∧ 1 ∉ dev190.mc.scratchUe) := by
  unfold Quiet; decide +kernel

/-- States of RingsAndManagementPortAct, pi good, pi bad, pi bad mgmt. -/
def dev191 : Dev := demo.setReg (ringReg 20 true .cfg) (2 ^ 31 + 6)

/-- RingsAndManagementPortAct: pi good, pi bad, pi bad mgmt. -/
theorem witness_RingsAndManagementPortAct_1 :
    (Quiet dev191 ∧ opens dev191 .pf0 (ringReg 20 true .pi) true = true ∧ 64 ≤ 2 ^ dev191.fld (ringReg 20 true .cfg) 3 0) ∧
    (Quiet dev191 ∧ opens dev191 .pf0 (ringReg 20 true .pi) true = true ∧ ¬ 65 ≤ 2 ^ dev191.fld (ringReg 20 true .cfg) 3 0) ∧
    (Quiet demo ∧ opens demo .pf0 (ringReg 21 false .pi) true = true) := by
  unfold Quiet; decide +kernel

/-- RingsAndManagementPortAct: injection, mgmt bad, mgmt good. -/
theorem witness_RingsAndManagementPortAct_2 :
    (Quiet dInj ∧ dInj.alive = true ∧ dInj.mc.spMiss = [] ∧ dInj.ringReady 0 true = true ∧ dInj.spFault (spOff (dInj.ringDesc 0
      true)) 64 = false ∧ (txDesc (dInj.rdMem true (dInj.ringDesc 0 true) 64)).clean = true ∧ (txDesc (dInj.rdMem true
      (dInj.ringDesc 0 true) 64)).len = 100 ∧ (txDesc (dInj.rdMem true (dInj.ringDesc 0 true) 64)).chained = false ∧ (txDesc
      (dInj.rdMem true (dInj.ringDesc 0 true) 64)).bypass = false ∧ dInj.spFault 4096 100 = false) ∧
    (Quiet dMg ∧ dMg.im.state ≠ .held ∧ dMg.flag (R .MC_MGMT_CFG) 31 = true) ∧
    (Quiet dMg ∧ dMg.im.state ≠ .held ∧ dMg.flag (R .MC_MGMT_CFG) 31 = true ∧ 64 ≤ dMg.fld (R .MC_MGMT_CFG) 13 0 ∧ dMg.ringReady 21
      false = true ∧ dMg.spFault (spOff (dMg.ringDesc 21 false)) 16 = false) := by
  unfold Quiet; decide +kernel

/-- States of RingsAndManagementPortAct, mgmt drop, mgmt tx, link. -/
def dev192 : Dev := dMg.setReg (R .MC_MGMT_RING_RX_PI) 0

/-- The next. -/
def dev193 : Dev := demo.setFld (R .MC_MGMT_CFG) 29 29 1

/-- RingsAndManagementPortAct: mgmt drop, mgmt tx, link. -/
theorem witness_RingsAndManagementPortAct_3 :
    (Quiet dev192 ∧ dev192.im.state ≠ .held ∧ dev192.flag (R .MC_MGMT_CFG) 31 = true ∧ dev192.fld (R .MC_MGMT_CFG) 13 0 = 1518 ∧
      dev192.ringReady 21 false = false) ∧
    (Quiet dMg ∧ dMg.im.state ≠ .held ∧ dMg.ringReady 21 true = true ∧ dMg.spFault (spOff (dMg.ringDesc 21 true)) 64 = false ∧
      (txDesc (dMg.rdMem true (dMg.ringDesc 21 true) 64)).flags = 0 ∧ (txDesc (dMg.rdMem true (dMg.ringDesc 21 true) 64)).len = 60
      ∧ dMg.fld (R .MC_MGMT_CFG) 13 0 = 1518 ∧ dMg.flag (R .MC_MGMT_CFG) 31 = true ∧ dMg.flag (R .MC_MGMT_STATUS) 31 = true ∧
      dMg.spFault 4096 60 = false ∧ dMg.mgmtPaused = false) ∧
    (Quiet dev193 ∧ dev193.im.state ≠ .held) := by
  unfold Quiet; decide +kernel

/-- States of FunctionResetsInterruptsAndSensorsAct, eoi, vfEoi, replan. -/
def dev194 : Dev := demo.setFld (R .MC_AVS_STATUS) 31 31 1

/-- FunctionResetsInterruptsAndSensorsAct: eoi, vfEoi, replan. -/
theorem witness_FunctionResetsInterruptsAndSensorsAct_1 :
    (Quiet demo ∧ opens demo .pf0 (R .MC_INT_EOI) true = true) ∧
    (Quiet demo ∧ opens demo .pf0 (R .VF_EOI 15) true = true) ∧
    (Quiet dev194 ∧ opens dev194 .pf0 (R .MC_AVS_CFG) true = true ∧ dev194.flag (R .MC_AVS_STATUS) 31 = true) := by
  unfold Quiet; decide +kernel

/-- States of FunctionResetsInterruptsAndSensorsAct, vfFlr, pfFlr, sample. -/
def dev195 : Dev := (demo.setReg (ringReg 20 true .cfg) (2 ^ 31)).setReg (R .VF_FLAGS 15) 3

/-- The next. -/
def dev196 : Dev := (demo.setReg (ringReg 20 true .cfg) (2 ^ 31)).setReg (ringReg 4 true .cfg) (2 ^ 31)

/-- The next. -/
def dev197 : Dev := demo.setFld (R .MC_THERM_CFG) 31 24 100

/-- FunctionResetsInterruptsAndSensorsAct: vfFlr, pfFlr, sample. -/
theorem witness_FunctionResetsInterruptsAndSensorsAct_2 :
    (Quiet dev195 ∧ dev195.im.state ≠ .held) ∧
    (Quiet dev196 ∧ dev196.im.state ≠ .held) ∧
    (Quiet dev197 ∧ dev197.im.state ≠ .held ∧ (List.range 24).all (fun n => dev197.mc.overCrit.getD n 0 != 1) = true ∧ dev197.fld
      (R .MC_THERM_CFG) 31 24 = 100) := by
  unfold Quiet; decide +kernel

/-- States of FunctionResetsInterruptsAndSensorsAct, sample critical, margin, margin waits. -/
def dev198 : Dev := { demo.setFld (R .MC_THERM_CFG) 31 24 100 with mc := { demo.mc with overCrit := [(23, 1)] } }

/-- The next. -/
def dev199 : Dev := (demo.onPins fun p => { p with avsAck := false }).setFld (R .MC_AVS_CFG) 7 0 255

/-- FunctionResetsInterruptsAndSensorsAct: sample critical, margin, margin waits. -/
theorem witness_FunctionResetsInterruptsAndSensorsAct_3 :
    (Quiet dev198 ∧ dev198.im.state ≠ .held ∧ dev198.wins.all (fun w => w.2.queue.length ≤ 1) ∧ tempAbove 401 (dev198.fld (R
      .MC_THERM_CFG) 31 24) = true ∧ dev198.mc.overCrit.getD 23 0 = 1) ∧
    (Quiet demo ∧ demo.im.state ≠ .held ∧ demo.im.state ≠ .booting ∧ demo.mc.run = none ∧ demo.marginDue = true ∧ demo.pins.avsAck
      = true) ∧
    (Quiet dev199 ∧ dev199.mc.run = none ∧ dev199.marginDue = true) := by
  unfold Quiet; decide +kernel

/-- States of FunctionResetsInterruptsAndSensorsAct, margin goes on. -/
def dev200 : Dev := { demo with mc := { demo.mc with run := some ⟨0, 700, 705, 0, 1, true⟩ } }

/-- FunctionResetsInterruptsAndSensorsAct: margin goes on. -/
theorem witness_FunctionResetsInterruptsAndSensorsAct_4 :
    (Quiet dev200 ∧ dev200.pins.avsAck = true) := by
  unfold Quiet; decide +kernel

/-- States of ObservabilityCommandsComplete, recRead, recRead spoilt, recClear. -/
def dev201 : Dev := { demo with ob := { demo.ob with tide := [64], mem := recBlank.wr (tideBase + 64) ((rec8 4).raw 0x5A 7) } }

/-- ObservabilityCommandsComplete: recRead, recRead spoilt, recClear. -/
theorem witness_ObservabilityCommandsComplete_1 :
    (Quiet dRec ∧ ready dRec .ob .pf0 = true ∧ dRec.ob.findRec 4 = some (rec8 4).bytes ∧ 32 * 1 < (rec8 4).bytes.length ∧ recSound
      (rec8 4).bytes = true) ∧
    (Quiet dev201 ∧ ready dev201 .ob .pf0 = true ∧ dev201.ob.findRec 4 = some ((rec8 4).raw 0x5A 7) ∧ recSound ((rec8 4).raw 0x5A
      7) = false) ∧
    (Quiet dRec ∧ ready dRec .ob .pf0 = true ∧ dRec.ob.clearBusy = false ∧ dRec.ob.pwrFail = false ∧ dRec.ob.failed = false) := by
  unfold Quiet; decide +kernel

/-- States of ObservabilityCommandsComplete, recWrite, cntClear, cntClear all. -/
def dev202 : Dev := demo.wrMem 14 true 4194280 [1, 2, 3]

/-- The next. -/
def dev203 : Dev := { demo with ob := { demo.ob with cnt := [(5, 9), (6, 10)] } }

/-- ObservabilityCommandsComplete: recWrite, cntClear, cntClear all. -/
theorem witness_ObservabilityCommandsComplete_2 :
    (Quiet dev202 ∧ ready dev202 .ob .pf0 = true ∧ dev202.ob.pwrFail = false ∧ dev202.spFault 4194280 24 = false ∧
      dev202.ob.stagedBytes + 32 + 24 ≤ 65536) ∧
    (Quiet dev203 ∧ ready dev203 .ob .pf0 = true) ∧
    (Quiet dev203 ∧ ready dev203 .ob .pf0 = true ∧ bit (cmd (2 ^ 31 + 5) []).obj 31 = true) := by
  unfold Quiet; decide +kernel

/-- States of ObservabilityCommandsComplete, bind, unbind, statRead. -/
def dev204 : Dev := { demo with ob := { demo.ob with statBind := [(5, 7)] } }

/-- The next. -/
def dev205 : Dev := { demo with ob := { demo.ob with stats := [(7, [1, 2, 3, 4, 5, 6, 7, 2 ^ 33])] } }

/-- ObservabilityCommandsComplete: bind, unbind, statRead. -/
theorem witness_ObservabilityCommandsComplete_3 :
    (Quiet demo ∧ ready demo .ob .pf0 = true ∧ 5 < demo.nQueues ∧ 7 < demo.nStatSets ∧ bit (word (cmd 5 [7]) 0) 31 = false) ∧
    (Quiet dev204 ∧ ready dev204 .ob .pf0 = true ∧ 5 < dev204.nQueues ∧ bit (word (cmd 5 [2 ^ 31]) 0) 31 = true ∧
      (dev204.ob.statBind.get? 5).isSome = true) ∧
    (Quiet dev205 ∧ ready dev205 .ob .pf0 = true ∧ 7 < dev205.nStatSets) := by
  unfold Quiet; decide +kernel

/-- States of ObservabilityCommandsComplete, statClear, sampleRead pkt, sampleRead ins. -/
def dev206 : Dev := { demo with ob := { demo.ob with pkt := [⟨1, [9, 8], false⟩, ⟨2, [7, 8], true⟩] } }

/-- The next. -/
def dev207 : Dev := { demo with ob := { demo.ob with insBuf := [(3, [[1], [2, 3]])] } }

/-- ObservabilityCommandsComplete: statClear, sampleRead pkt, sampleRead ins. -/
theorem witness_ObservabilityCommandsComplete_4 :
    (Quiet dev206 ∧ ready dev206 .ob .pf0 = true ∧ ((dev206.ob.pkt.filter PktSample.written)[0]?.map PktSample.bytes) = some [7,
      8]) ∧
    (Quiet dev207 ∧ ready dev207 .ob .pf0 = true ∧ (dev207.ob.insBuf.getD 3 [])[1]? = some [2, 3]) := by
  unfold Quiet; decide +kernel

/-- ObservabilityCommandsComplete: restart pkt, restart ins. -/
theorem witness_ObservabilityCommandsComplete_5 :
    (Quiet dev206 ∧ ready dev206 .ob .pf0 = true) ∧
    (Quiet dev207 ∧ ready dev207 .ob .pf0 = true) := by
  unfold Quiet; decide +kernel

/-- States of RecorderEventsAndCounterWritesAct, flush late, flush fault, flush many. -/
def dev208 : Dev := { dRec with tb := { dRec.tb with ticks := 78125000 }, ob := { dRec.ob with wp := 65500 } }

/-- The next. -/
def dev209 : Dev := { demo with ob := { demo.ob with staging := [{ rec8 9000 with flags := 1 }], wp := tideSize - 8 } }

/-- The next. -/
def dev210 : Dev := { demo with ob := { demo.ob with staging := (List.range 6).map rec8 } }

/-- RecorderEventsAndCounterWritesAct: flush late, flush fault, flush many. -/
theorem witness_RecorderEventsAndCounterWritesAct_1 :
    (Quiet dev208 ∧ dev208.im.state ≠ .held ∧ dev208.ob.failed = false ∧ dev208.ob.pwrFail = false ∧ dev208.ob.mem.ctlBad = false ∧
      dev208.ob.loss = none ∧ (dev208.ob.staging.head?.map Rec.entered) = some 0 ∧ 78125000 ≤ dev208.tb.ticks) ∧
    (Quiet dev209 ∧ dev209.ob.failed = false ∧ dev209.ob.pwrFail = false ∧ dev209.ob.mem.ctlBad = false ∧ dev209.ob.loss = none ∧
      (dev209.ob.staging.getLast?.map Rec.fault) = some true) ∧
    (Quiet dev210 ∧ dev210.ob.failed = false ∧ dev210.ob.pwrFail = false ∧ dev210.ob.mem.ctlBad = false ∧ dev210.ob.loss = none ∧
      256 ≤ dev210.ob.stagedBytes) := by
  unfold Quiet; decide +kernel

/-- States of RecorderEventsAndCounterWritesAct, flush fails, flush dark, persist. -/
def dev211 : Dev := { demo with ob := { demo.ob with staging := (List.range 6).map rec8, pwrFail := true } }

/-- The next. -/
def dev212 : Dev := { demo with ob := { demo.ob with opSec := 128, opPos := 0xFFFF8 } }

/-- RecorderEventsAndCounterWritesAct: flush fails, flush dark, persist. -/
theorem witness_RecorderEventsAndCounterWritesAct_2 :
    (Quiet dev210 ∧ dev210.im.state ≠ .held ∧ dev210.ob.failed = false ∧ dev210.ob.pwrFail = false ∧ dev210.flushDue ≠ 0) ∧
    (Quiet dev211 ∧ dev211.ob.pwrFail = true) ∧
    (Quiet dev212 ∧ dev212.im.state ≠ .held ∧ dev212.ob.failed = false ∧ dev212.ob.opSec % 64 = 0) := by
  unfold Quiet; decide +kernel

/-- States of RecorderEventsAndCounterWritesAct, erase done, erase held, pcnt. -/
def dev213 : Dev := { demo with ob := { demo.ob with erasing := true, half := 1, mem := recBlank.wr (cairnBase 0 + 8) [1, 2] } }

/-- The next. -/
def dev214 : Dev := { demo with ob := { demo.ob with erasing := true, pwrFail := true } }

/-- The next. -/
def dev215 : Dev := { demo with ob := { demo.ob with pcnt := [(3, 9)] } }

/-- RecorderEventsAndCounterWritesAct: erase done, erase held, pcnt. -/
theorem witness_RecorderEventsAndCounterWritesAct_3 :
    (Quiet dev213 ∧ dev213.ob.clearBusy = true ∧ dev213.ob.pwrFail = false ∧ dev213.ob.failed = false ∧ dev213.ob.mem.isBlank
      (cairnBase 0) 0x900000 = false) ∧
    (Quiet dev214 ∧ True) ∧
    (Quiet dev215 ∧ opens dev215 .pf0 (R .OB_PCNT_CFG 3) true = true ∧ dev215.fld (R .OB_PCNT_CFG 3) 11 0 ≠ 7) := by
  unfold Quiet; decide +kernel

/-- CommandsTouchOnlyTheirBlock: windows. -/
theorem witness_CommandsTouchOnlyTheirBlock_1 :
    (Quiet demo ∧ ready demo .tb .pf0 = true ∧ ready demo .ob .pf0 = true ∧ ready demo .upd .pf0 = true ∧ ready demo .pc .pf0 =
      true ∧ ready demo .fs .pf0 = true ∧ ready demo .tm .pf0 = true ∧ ready demo .bp .pf0 = true ∧ ready demo .ce .pf0 = true ∧
      ready demo .px .pf0 = true ∧ ready demo (.tf 0) .pf0 = true ∧ ready demo (.rg 0) .pf0 = true ∧ ready demo (.gs 0) .pf0 =
      true) := by
  unfold Quiet; decide +kernel

/-- RegisterCommandsTouchOnlyTheirBlock: reads, writes, writes 2. -/
theorem witness_RegisterCommandsTouchOnlyTheirBlock_1 :
    (Quiet demo ∧ opens demo .pf0 (R .TF_SFC_LO 0) false = true ∧ opens demo .pf0 (R .UL_STAT_LO 1 21) false = true ∧ opens demo
      .pf0 (R .MC_MGMT_STAT_LO 7) false = true ∧ opens demo .pf0 (R .OB_CNT_LO 2047) false = true ∧ opens demo .pf0 (R .OB_PCNT_LO
      63) false = true ∧ opens demo .pf0 (R .TB_NOW_LO) false = true ∧ opens demo .pf0 (R .TB_TOD_NS) false = true ∧ opens demo
      .pf0 (R .TB_CAP_LO 4) false = true ∧ opens demo .pf0 (R .TB_TODCAP_T_LO 3) false = true ∧ opens demo .pf0 (R .BP_FREE_ERR)
      false = true) ∧
    (Quiet demo ∧ (LowPair.ponid 7).ok = true ∧ opens demo .pf0 (lowReg (.ponid 7)) true = true ∧ opens demo .pf0 (lowReg .inc)
      true = true ∧ opens demo .pf0 (R .TF_PONID_HI 7) true = true ∧ opens demo .pf0 (R .TB_INC_HI) true = true ∧ opens demo .pf0
      (R .TB_CMP_TGT_HI 7) true = true ∧ opens demo .pf0 (R .CE_MS_PN_THRESH_HI) true = true ∧ opens demo .pf0 (R .RG_PLOAMU_POP 7)
      true = true ∧ opens demo .pf0 (R .RG_DISC_POP 0) true = true ∧ opens demo .pf0 (R .TF_DEFECT_POP 7) true = true ∧ opens demo
      .pf0 (R .BP_ECC_POP) true = true ∧ opens demo .pf0 (R .CE_KEY_EVT_POP) true = true) ∧
    (Quiet demo ∧ opens demo .pf0 (R .TB_TXTS_POP 1) true = true ∧ opens demo .pf0 (R .TB_TODCAP_CTL 3) true = true ∧ opens demo
      .pf0 (R .GS_COOP_PI 0) true = true ∧ opens demo .pf0 (R .CE_LA_PI 15) true = true ∧ opens demo .pf0 (ringReg 21 true .pi)
      true = true ∧ opens demo .pf0 (R .MC_CORE_CTL 3) true = true ∧ opens demo .pf0 (R .MC_DMA_CTL 3) true = true ∧ opens demo
      .pf0 (R .MC_AVS_CFG) true = true ∧ opens demo .pf0 (R .MC_INT_EOI) true = true ∧ opens demo .pf0 (R .VF_EOI 15) true = true ∧
      opens demo .pf0 (R .OB_PCNT_CFG 63) true = true) := by
  unfold Quiet; decide +kernel

/-- A device whose seam to the external memory holds more than the seam takes. -/
def dStalled : Dev := { dArr with bp := { dArr.bp with seams := [(0x7E8, (Config.seamDepth 0x7E8 + 1, 0))] } }

theorem dStalled_live : Quiet dStalled ∧ dStalled.alive = true ∧ dStalled.tb.ticks = 0 := by unfold Quiet; decide +kernel

/-- ClassifierEventsTakeEffect: ingress stalled. -/
theorem witness_ClassifierEventsTakeEffect_stalled : Quiet dStalled ∧ dStalled.alive = true ∧ dStalled.pipeStalled 0 = true := by
  refine ⟨dStalled_live.1, dStalled_live.2.1, ?_⟩
  have hs : dStalled.bp.seams = [(0x7E8, (Config.seamDepth 0x7E8 + 1, 0))] := rfl
  have ht : dStalled.tb.ticks = 0 := dStalled_live.2.2
  simp [Dev.pipeStalled, Dev.memSeam, seamFull, Table.get?, hs, ht]

end
end

/-! Frames: what an operation leaves as it was, composed operation by operation, and the answer of a command whose operation is framed. -/

section

namespace Sys2Proof.Safety

open Sys2Proof.Machine

theorem same_refl (d : Dev) (p : Part) : same d d p := by
  cases p
  case ul => exact ⟨rfl, rfl, fun _ => rfl⟩
  all_goals rfl

theorem same_trans {a b c : Dev} {p : Part} (h : same a b p) (k : same b c p) : same a c p := by
  cases p
  case ul =>
    obtain ⟨h1, h2, h3⟩ := h
    obtain ⟨k1, k2, k3⟩ := k
    exact ⟨k1.trans h1, k2.trans h2, fun u => (k3 u).trans (h3 u)⟩
  all_goals exact Eq.trans k h

/-- What the step's end may change is in no part. -/
theorem same_of_kept {d d' : Dev} (h : d.Kept d') (p : Part) : same d d' p := by
  cases p
  case free => exact h.free
  case pins => exact h.pins
  case im => exact h.im
  case tb => exact h.tb
  case lx => exact h.lx
  case rx => exact h.rx
  case pc => exact h.pc
  case fs => exact h.fs
  case tm => exact h.tm
  case bp => exact h.bp
  case ce => exact h.ce
  case px => exact h.px
  case mc => exact congrArg (fun m : McState => { m with completion := none }) h.mc
  case ob => exact h.ob
  case ul => exact ⟨h.lagDist, h.sent, h.port⟩

/-- As `Only`, with the windows that wait to run on as they were: what an operation within a step leaves. -/
def Leaves (ps : List Part) (reg : Nat → Bool) (d d' : Dev) : Prop := Only ps reg d d' ∧ d'.kicks = d.kicks

theorem Only.kept {ps : List Part} {reg : Nat → Bool} {a b c : Dev} (h : Only ps reg a b) (k : b.Kept c) : Only ps reg a c := by
  obtain ⟨⟨hp, hr⟩, hw⟩ := h
  exact ⟨⟨fun p hn => same_trans (hp p hn) (same_of_kept k p), fun x hx hx' => (k.regs x hx').trans (hr x hx hx')⟩,
    fun w => (Dev.win_congr k.wins w).trans (hw w)⟩

section

variable {ps : List Part} {reg : Nat → Bool}

/-- An operation that changes neither the register file nor the windows leaves all but the parts it changes. -/
theorem Leaves.of_parts {d d' : Dev} (hp : ∀ p, p ∉ ps → same d d' p) (hr : d'.regs = d.regs) (hw : d'.wins = d.wins)
    (hk : d'.kicks = d.kicks) : Leaves ps reg d d' :=
  ⟨⟨⟨hp, fun _ _ _ => by rw [hr]⟩, Dev.win_congr hw⟩, hk⟩

theorem Leaves.refl (d : Dev) : Leaves ps reg d d := Leaves.of_parts (fun p _ => same_refl d p) rfl rfl rfl

theorem Leaves.trans {a b c : Dev} (h : Leaves ps reg a b) (k : Leaves ps reg b c) : Leaves ps reg a c := by
  obtain ⟨⟨⟨hp, hr⟩, hw⟩, hk⟩ := h
  obtain ⟨⟨⟨kp, kr⟩, kw⟩, kk⟩ := k
  exact ⟨⟨⟨fun p hn => same_trans (hp p hn) (kp p hn), fun x hx hx' => (kr x hx hx').trans (hr x hx hx')⟩,
    fun w => (kw w).trans (hw w)⟩, kk.trans hk⟩

/-- Both branches of a choice leave what they leave. -/
theorem Leaves.ite {d a b : Dev} {c : Prop} [Decidable c] (h : Leaves ps reg d a) (k : Leaves ps reg d b) :
    Leaves ps reg d (if c then a else b) := by
  split
  · exact h
  · exact k

theorem leaves_setReg (d : Dev) (r : Reg) (v : Nat) (h : reg r.addr = true) : Leaves ps reg d (d.setReg r v) := by
  refine ⟨⟨⟨fun p _ => same_refl d p, fun a ha _ => Dev.get?_setReg_ne d r v a ?_⟩, fun _ => rfl⟩, rfl⟩
  rintro rfl
  simp [h] at ha

theorem leaves_setFld (d : Dev) (r : Reg) (hi lo v : Nat) (h : reg r.addr = true) : Leaves ps reg d (d.setFld r hi lo v) :=
  leaves_setReg d r _ h

theorem leaves_respond (d : Dev) (c : Completion) : Leaves ps reg d (d.respond c) :=
  Leaves.of_parts (fun p _ => same_refl d p) rfl rfl rfl

theorem leaves_onTb (d : Dev) (f : TbState → TbState) (h : Part.tb ∈ ps) : Leaves ps reg d (d.onTb f) := by
  refine Leaves.of_parts (fun p hp => ?_) rfl rfl rfl
  cases p
  case tb => exact absurd h hp
  case ul => exact ⟨rfl, rfl, fun _ => rfl⟩
  all_goals rfl

theorem leaves_onMc (d : Dev) (f : McState → McState) (h : Part.mc ∈ ps) : Leaves ps reg d (d.onMc f) := by
  refine Leaves.of_parts (fun p hp => ?_) rfl rfl rfl
  cases p
  case mc => exact absurd h hp
  case ul => exact ⟨rfl, rfl, fun _ => rfl⟩
  all_goals rfl

theorem leaves_onOb (d : Dev) (f : ObState → ObState) (h : Part.ob ∈ ps) : Leaves ps reg d (d.onOb f) := by
  refine Leaves.of_parts (fun p hp => ?_) rfl rfl rfl
  cases p
  case ob => exact absurd h hp
  case ul => exact ⟨rfl, rfl, fun _ => rfl⟩
  all_goals rfl

theorem leaves_onRx (d : Dev) (f : RxState → RxState) (h : Part.rx ∈ ps) : Leaves ps reg d (d.onRx f) := by
  refine Leaves.of_parts (fun p hp => ?_) rfl rfl rfl
  cases p
  case rx => exact absurd h hp
  case ul => exact ⟨rfl, rfl, fun _ => rfl⟩
  all_goals rfl

theorem leaves_onBp (d : Dev) (f : BpState → BpState) (h : Part.bp ∈ ps) : Leaves ps reg d (d.onBp f) := by
  refine Leaves.of_parts (fun p hp => ?_) rfl rfl rfl
  cases p
  case bp => exact absurd h hp
  case ul => exact ⟨rfl, rfl, fun _ => rfl⟩
  all_goals rfl

theorem leaves_onCe (d : Dev) (f : CeState → CeState) (h : Part.ce ∈ ps) : Leaves ps reg d (d.onCe f) := by
  refine Leaves.of_parts (fun p hp => ?_) rfl rfl rfl
  cases p
  case ce => exact absurd h hp
  case ul => exact ⟨rfl, rfl, fun _ => rfl⟩
  all_goals rfl

/-- An event that counts touches the counters, which no frame holds. -/
theorem leaves_count (d : Dev) (e : Nat) : Leaves ps reg d (d.count e) :=
  ⟨⟨⟨fun p _ => same_of_kept (Dev.Kept.countN d e 1) p, fun a _ ha => Dev.count_get? d e a (reportAddr_ob ha)⟩,
    Dev.win_congr (d.count_wins e)⟩, d.count_kicks e⟩

/-- A flag that sets touches its register, and the counters. -/
theorem leaves_raise (d : Dev) (r : Reg) (b : Nat) (h : reg r.addr = true) : Leaves ps reg d (d.raise r b) := by
  unfold Dev.raise
  dsimp only
  split
  · exact (leaves_setFld d r b b 1 h).trans (leaves_count _ _)
  · exact leaves_setFld d r b b 1 h

/-- A flag of the step's end that sets touches nothing that a frame holds. -/
theorem leaves_raise_report (d : Dev) (r : Reg) (b : Nat) (h : reportAddr r.addr = true) : Leaves ps reg d (d.raise r b) := by
  obtain ⟨⟨⟨hp, hr⟩, hw⟩, hk⟩ := leaves_raise (ps := ps) (reg := fun a => reg a || a == r.addr) d r b (by simp)
  refine ⟨⟨⟨hp, fun a ha ha' => hr a ?_ ha'⟩, hw⟩, hk⟩
  have : a ≠ r.addr := by rintro rfl; simp [h] at ha'
  simp [ha, this]

/-- A record touches observability. -/
theorem leaves_record (d : Dev) (e : Nat) (s : RSrc) (inst : Nat) (fault : Bool) (fs : List (Nat × Nat)) (h : Part.ob ∈ ps) :
    Leaves ps reg d (d.record e s inst fault fs) := by
  refine ⟨⟨⟨fun p hp => ?_, fun a _ ha => Dev.record_get? d e s inst fault fs a (reportAddr_ob ha)⟩,
    Dev.win_congr (by simp)⟩, by simp⟩
  cases p
  case ob => exact absurd h hp
  all_goals simp [same, Dev.ulPort]

end

/-! ### Distributing sets -/

/-- Parts and registers that no distributing set of a link aggregation depends on (R393). -/
def LagApart (ps : List Part) (reg : Nat → Bool) : Prop :=
  Part.ul ∉ ps ∧ Part.im ∉ ps ∧ ∀ g < 8, ∀ m < 8, reg (R .UL_LAG_MEMBER g m).addr = false

theorem lagMember_addr (g m : Nat) : (R .UL_LAG_MEMBER g m).addr = 0x3500010 + 0x40 * g + 4 * m := rfl

theorem lagMember_report {g m : Nat} (hg : g < 8) (hm : m < 8) : reportAddr (R .UL_LAG_MEMBER g m).addr = false := by
  interval_cases g <;> interval_cases m <;> decide

/-- What depends on no distributing set leaves them still. -/
theorem Leaves.still {ps : List Part} {reg : Nat → Bool} {d d' : Dev} (h : Leaves ps reg d d') (ha : LagApart ps reg)
    (hs : d.lagStill) : d'.lagStill := fun g hg => by
  obtain ⟨⟨⟨hp, hr⟩, -⟩, -⟩ := h
  obtain ⟨hul, him, hreg⟩ := ha
  obtain ⟨hdist, -, hport⟩ : same d d' .ul := hp .ul hul
  have hi : d'.im = d.im := hp .im him
  have hm : ∀ m < 8, d'.lagMember g m = d.lagMember g m := fun m hm => by
    simp only [Dev.lagMember, Dev.reg_def, hr _ (hreg g hg m hm) (lagMember_report hg hm)]
  have hu : ∀ u, d'.portUp u = d.portUp u := fun u => by
    have hst : (d'.ulPort u).sansFc.state = (d.ulPort u).sansFc.state := congrArg UlPort.state (hport u)
    simp only [UlPort.sansFc] at hst
    simp [Dev.portUp, Dev.portDef, hi, hst]
  have hd : d'.lagDist g = d.lagDist g := by
    unfold Dev.lagDist
    congr 1
    refine List.map_congr_left fun m hm' => ?_
    simp only [Dev.lagDistributes, hm m (List.mem_range.mp hm'), hu]
  rw [hdist, hd]
  exact hs g hg

theorem lagApart_none {ps : List Part} (hu : Part.ul ∉ ps) (hi : Part.im ∉ ps) : LagApart ps fun _ => false :=
  ⟨hu, hi, fun _ _ _ _ => rfl⟩

theorem lagApart_block {ps : List Part} (lo hi : Nat) (hu : Part.ul ∉ ps) (him : Part.im ∉ ps) (h : hi ≤ 0x3500000) :
    LagApart ps (block lo hi) :=
  ⟨hu, him, fun g _ m _ => by
    rw [block, lagMember_addr, decide_eq_false_iff_not]
    omega⟩

theorem lagApart_one {ps : List Part} (r : Reg) (hu : Part.ul ∉ ps) (him : Part.im ∉ ps) (h : r.addr < 0x3500000) :
    LagApart ps fun a => a == r.addr :=
  ⟨hu, him, fun g _ m _ => by simp only [lagMember_addr, beq_eq_false_iff_ne]; omega⟩

/-! ### Answers -/

theorem Answers.imp {i : Instr} {s : State} {P Q : Dev → Prop} (h : Answers i s P) (hpq : ∀ d, P d → Q d) : Answers i s Q := by
  obtain ⟨t, he, hp, hd⟩ := h
  exact ⟨t, he, hp, hpq _ hd⟩

/-- A command answers with what its operation leaves, and the step's end keeps what the operation did. -/
theorem answers_still {i : Instr} {s : State} {f : Dev → Dev} {ps : List Part} {reg : Nat → Bool} (hq : Quiet s.dev)
    (hex : exec i s = act s f) (h : Leaves ps reg s.dev (f s.dev)) (hl : (f s.dev).lagStill) :
    Answers i s fun d => (f s.dev).Kept d ∧ Only ps reg s.dev d := by
  obtain ⟨ho, hk⟩ := h
  exact (answers_act hex (hk.trans hq.1) hl).imp fun d hd => ⟨hd, Only.kept ho hd⟩

/-- As `answers_still`, for an operation that no distributing set depends on. -/
theorem answers_leaves {i : Instr} {s : State} {f : Dev → Dev} {ps : List Part} {reg : Nat → Bool} (hq : Quiet s.dev)
    (hex : exec i s = act s f) (h : Leaves ps reg s.dev (f s.dev)) (ha : LagApart ps reg) :
    Answers i s fun d => (f s.dev).Kept d ∧ Only ps reg s.dev d :=
  answers_still hq hex h (h.still ha hq.2)

end Sys2Proof.Safety

end

/-! The addresses of registers: the indices that an address gives lie in the register's place, and where a place lies. -/

section

namespace Sys2Proof.Machine

open Sys2Proof.Safety

/-- The indices lie in the place (R6). -/
def Place.holds : Place → Nat → Nat → Bool
  | .one _, i, j => i == 0 && j == 0
  | .ix _ n _, i, j => decide (i < n) && j == 0
  | .ix2 _ n _ m _, i, j => decide (i < n) && decide (j < m)
  | .tree _, i, j => decide (i < 64) && j == 0
  | .tree2 _ m, i, j => decide (i < 64) && decide (j < m)

/-- Every register of the place lies from lo up to hi. -/
def Place.within (lo hi : Nat) : Place → Bool
  | .one a => decide (lo ≤ a ∧ a < hi)
  | .ix b n s => decide (lo ≤ b ∧ b + s * (n - 1) < hi)
  | .ix2 b n s m u => decide (lo ≤ b ∧ b + s * (n - 1) + u * (m - 1) < hi)
  | .tree off => decide (lo ≤ treeBase 0 + off ∧ treeBase 63 + off < hi)
  | .tree2 off m => decide (lo ≤ treeBase 0 + off ∧ treeBase 63 + off + 4 * (m - 1) < hi)

theorem regIx_lt {b n s a i : Nat} (h : regIx b n s a = some i) : i < n := by
  unfold regIx at h
  split at h
  · obtain ⟨h1, h2, -⟩ := ‹b ≤ a ∧ a < b + s * n ∧ (a - b) % s = 0›
    cases h
    exact Nat.div_lt_of_lt_mul (by omega)
  · cases h

theorem regIx2_lt {b n s m u a i j : Nat} (h : regIx2 b n s m u a = some (i, j)) : i < n ∧ j < m := by
  unfold regIx2 at h
  split at h
  · obtain ⟨h1, h2⟩ := ‹b ≤ a ∧ a < b + s * n›
    split at h
    · cases h
      exact ⟨Nat.div_lt_of_lt_mul (by omega), regIx_lt ‹_›⟩
    · cases h
  · cases h

theorem regTree_lt {sub a t o : Nat} (h : regTree sub a = some (t, o)) : t < 64 := by
  unfold regTree at h
  extract_lets x at h
  split at h
  · cases h
    omega
  · cases h

/-- A name's register at an address has its name, and indices of its place. -/
theorem RegName.at?_holds {n : RegName} {a : Nat} {r : Reg} (h : n.at? a = some r) : r.name = n ∧ n.place.holds r.i r.j = true := by
  unfold RegName.at? at h
  split at h
  case h_1 hp =>
    split at h
    · cases h
      exact ⟨rfl, by simp [hp, Place.holds]⟩
    · cases h
  case h_2 hp =>
    split at h
    · cases h
      exact ⟨rfl, by simp [hp, Place.holds, regIx_lt ‹_›]⟩
    · cases h
  case h_3 hp =>
    split at h
    · cases h
      exact ⟨rfl, by simp [hp, Place.holds, regIx2_lt ‹_›]⟩
    · cases h
  case h_4 hp =>
    split at h
    · split at h
      · cases h
        exact ⟨rfl, by simp [hp, Place.holds, regTree_lt ‹_›]⟩
      · cases h
    · cases h
  case h_5 hp =>
    split at h
    · split at h
      · cases h
        exact ⟨rfl, by simp [hp, Place.holds, regTree_lt ‹_›, regIx_lt ‹_›]⟩
      · cases h
    · cases h

theorem Reg.ofAddr_holds {a : Nat} {r : Reg} (h : Reg.ofAddr a = some r) : r.name.place.holds r.i r.j = true := by
  unfold Reg.ofAddr at h
  split at h
  · cases h
  · obtain ⟨n, -, hn⟩ := List.exists_of_findSome?_eq_some h
    obtain ⟨hname, hh⟩ := RegName.at?_holds hn
    rw [hname]
    exact hh

/-- A register whose place lies within a block lies in it. -/
theorem Reg.addr_block {n : RegName} {i j lo hi : Nat} (hh : n.place.holds i j = true) (hw : n.place.within lo hi = true) :
    lo ≤ (R n i j).addr ∧ (R n i j).addr < hi := by
  have hb : ∀ t < 64, treeBase 0 ≤ treeBase t ∧ treeBase t ≤ treeBase 63 := fun t ht => by
    simp only [treeBase]
    omega
  unfold Reg.addr R
  dsimp only
  split
  case h_1 hp =>
    simp only [hp, Place.within, decide_eq_true_eq] at hw
    exact hw
  case h_2 b k s hp =>
    simp only [hp, Place.within, Place.holds, Bool.and_eq_true, decide_eq_true_eq] at hw hh
    have := Nat.mul_le_mul_left s (show i ≤ k - 1 by omega)
    omega
  case h_3 b k s m u hp =>
    simp only [hp, Place.within, Place.holds, Bool.and_eq_true, decide_eq_true_eq] at hw hh
    have := Nat.mul_le_mul_left s (show i ≤ k - 1 by omega)
    have := Nat.mul_le_mul_left u (show j ≤ m - 1 by omega)
    omega
  case h_4 hp =>
    simp only [hp, Place.within, Place.holds, Bool.and_eq_true, decide_eq_true_eq] at hw hh
    have := hb i hh.1
    omega
  case h_5 hp =>
    simp only [hp, Place.within, Place.holds, Bool.and_eq_true, decide_eq_true_eq] at hw hh
    have := hb i hh.1
    omega

theorem block_addr {n : RegName} {i j lo hi : Nat} (hh : n.place.holds i j = true) (hw : n.place.within lo hi = true) :
    block lo hi (R n i j).addr = true := by
  obtain ⟨h1, h2⟩ := Reg.addr_block hh hw
  simp [block, h1, h2]

/-- What `opens` says of a register beside the source's view of it. -/
theorem opens_reg {d : Dev} {src : Src} {r : Reg} {w : Bool} (h : opens d src r w = true) :
    d.busUp src = true ∧ Reg.ofAddr r.addr = some r ∧ d.regAt r.addr = some r := by
  simp only [opens, Bool.and_eq_true, beq_iff_eq] at h
  exact ⟨h.1.1.1, h.1.1.2, h.1.2⟩

theorem opens_holds {d : Dev} {src : Src} {n : RegName} {i j : Nat} {w : Bool} (h : opens d src (R n i j) w = true) :
    n.place.holds i j = true := Reg.ofAddr_holds (opens_reg h).2.1

end Sys2Proof.Machine

end

/-! Accesses to registers that latch, hold or carry out (spec/00_scope, R11): what each leaves. -/

section

namespace Sys2Proof.Safety

open Sys2Proof.Machine

section

variable {i : Instr} {s : State} {src : Src} {r : Reg} {ps : List Part} {reg : Nat → Bool}

/-- A command that writes a register open to its source, perhaps with a value that it takes from the device, answers with the
register's write. -/
theorem answers_write (v : Dev → Nat) (hq : Quiet s.dev) (ho : opens s.dev src r true = true)
    (hex : exec i s = act s fun d => d.writeReg src r (v d)) (h : Leaves ps reg s.dev (s.dev.regWrite src r (v s.dev % 2 ^ 32)))
    (ha : LagApart ps reg) : Answers i s fun d => (s.dev.regWrite src r (v s.dev % 2 ^ 32)).Kept d ∧ Only ps reg s.dev d := by
  rw [← Dev.writeReg_open ho] at h ⊢
  exact answers_leaves hq hex h ha

/-- A command that reads a register open to its source answers with the register's read. -/
theorem answers_read (hq : Quiet s.dev) (ho : opens s.dev src r false = true) (hex : exec i s = act s fun d => d.readReg src r)
    (h : Leaves ps reg s.dev (s.dev.regRead src r)) (ha : LagApart ps reg) :
    Answers i s fun d => (s.dev.regRead src r).Kept d ∧ Only ps reg s.dev d := by
  rw [← Dev.readReg_open ho] at h ⊢
  exact answers_leaves hq hex h ha

theorem answers_write_only (v : Dev → Nat) (hq : Quiet s.dev) (ho : opens s.dev src r true = true)
    (hex : exec i s = act s fun d => d.writeReg src r (v d)) (h : Leaves ps reg s.dev (s.dev.regWrite src r (v s.dev % 2 ^ 32)))
    (ha : LagApart ps reg) : Answers i s (Only ps reg s.dev) :=
  (answers_write v hq ho hex h ha).imp fun _ hd => hd.2

theorem answers_read_only (hq : Quiet s.dev) (ho : opens s.dev src r false = true) (hex : exec i s = act s fun d => d.readReg src r)
    (h : Leaves ps reg s.dev (s.dev.regRead src r)) (ha : LagApart ps reg) : Answers i s (Only ps reg s.dev) :=
  (answers_read hq ho hex h ha).imp fun _ hd => hd.2

end

section

variable {ps : List Part} {reg : Nat → Bool} (d : Dev)

/-! ### Reads that latch -/

theorem leaves_sfcLoRead (t : Nat) (h : Part.rx ∈ ps) : Leaves ps reg d (d.sfcLoRead t) :=
  (leaves_onRx d _ h).trans (leaves_respond _ _)

theorem leaves_mgmtStatLoRead (j : Nat) (h : reg (R .MC_MGMT_STAT_HI j).addr = true) : Leaves ps reg d (d.mgmtStatLoRead j) :=
  (leaves_setReg d _ _ h).trans (leaves_respond _ _)

theorem leaves_cntLoRead (src : Src) (prog : Bool) (n : Nat) (h : Part.ob ∈ ps) : Leaves ps reg d (d.cntLoRead src prog n) :=
  (leaves_onOb d _ h).trans (leaves_respond _ _)

theorem leaves_nowLoRead (h : reg (R .TB_NOW_HI).addr = true) : Leaves ps reg d d.nowLoRead :=
  (leaves_setReg d _ _ h).trans (leaves_respond _ _)

theorem leaves_todNsRead (hl : reg (R .TB_TOD_S_LO).addr = true) (hh : reg (R .TB_TOD_S_HI).addr = true) : Leaves ps reg d d.todNsRead :=
  ((leaves_setReg d _ _ hl).trans (leaves_setReg _ _ _ hh)).trans (leaves_respond _ _)

theorem leaves_capLoRead (n : Nat) (hh : reg (R .TB_CAP_HI n).addr = true) (hc : reg (R .TB_CAP_CFG n).addr = true) :
    Leaves ps reg d (d.capLoRead n) :=
  ((leaves_setReg d _ _ hh).trans (leaves_setFld _ _ _ _ _ hc)).trans (leaves_respond _ _)

theorem leaves_todcapLoRead (n : Nat) (h : reg (R .TB_TODCAP_T_HI n).addr = true) : Leaves ps reg d (d.todcapLoRead n) :=
  (leaves_setReg d _ _ h).trans (leaves_respond _ _)

theorem leaves_freeErrRead (h : reg (R .BP_FREE_ERR_CELL).addr = true) : Leaves ps reg d d.freeErrRead :=
  (leaves_setReg d _ _ h).trans (leaves_respond _ _)

/-- A read of a port's statistic touches the port's shadow. -/
theorem leaves_ulStatLoRead (u j : Nat) (h : Part.ul ∈ ps) : Leaves ps reg d (d.ulStatLoRead u j) := by
  refine Leaves.of_parts (fun p hp => ?_) rfl rfl rfl
  cases p
  case ul => exact absurd h hp
  all_goals rfl

theorem ulStatLoRead_still (u j : Nat) (h : d.lagStill) : (d.ulStatLoRead u j).lagStill := by
  refine Dev.lagStill_congr h rfl (fun w => ?_) rfl fun _ _ _ => rfl
  simp only [Dev.ulStatLoRead, Dev.ulPort, Dev.onPort, Dev.onUl, Dev.respond_ul, Table.getD_put]
  split
  · rw [‹u = w›]
  · rfl

/-! ### Held words and their commits -/

theorem leaves_lowWord (src : Src) (p : LowPair) (v : Nat) (ht : Part.tb ∈ ps) (hr : Part.rx ∈ ps) (hc : Part.ce ∈ ps) :
    Leaves ps reg d (d.regWrite src (lowReg p) v) := by
  cases p
  case ponid t => exact leaves_onRx d _ hr
  case inc => exact leaves_onTb d _ ht
  case cmpTgt n => exact leaves_onTb d _ ht
  case pnThresh => exact leaves_onCe d _ hc

theorem leaves_ponidHiWrite (t v : Nat) (h : Part.rx ∈ ps) : Leaves ps reg d (d.ponidHiWrite t v) := leaves_onRx d _ h

theorem leaves_incHiWrite (v : Nat) (h : Part.tb ∈ ps) : Leaves ps reg d (d.incHiWrite v) :=
  (leaves_onTb d _ h).trans (Leaves.ite (leaves_raise_report _ _ _ (by decide)) (leaves_onTb _ _ h))

theorem leaves_cmpHiWrite (n v : Nat) (h : Part.tb ∈ ps) (hl : reg (R .TB_CMP_TGT_LO n).addr = true)
    (hh : reg (R .TB_CMP_TGT_HI n).addr = true) (hc : reg (R .TB_CMP_CFG n).addr = true) : Leaves ps reg d (d.cmpHiWrite n v) :=
  (((leaves_onTb d _ h).trans (leaves_setReg _ _ _ hl)).trans (leaves_setReg _ _ _ hh)).trans
    (Leaves.ite (leaves_setFld _ _ _ _ _ hc) (Leaves.refl _))

theorem leaves_pnHiWrite (v : Nat) (h : Part.ce ∈ ps) (hl : reg (R .CE_MS_PN_THRESH_LO).addr = true)
    (hh : reg (R .CE_MS_PN_THRESH_HI).addr = true) : Leaves ps reg d (d.pnHiWrite v) := by
  unfold Dev.pnHiWrite
  dsimp only
  split
  · exact ((leaves_setReg d _ _ hh).trans (leaves_setReg _ _ _ hl)).trans (leaves_onCe _ _ h)
  · exact leaves_setReg d _ _ hh

/-! ### Pops -/

theorem leaves_ploamuPop (t : Nat) (h : Part.rx ∈ ps) : Leaves ps reg d (d.ploamuPop t) := leaves_onRx d _ h

theorem leaves_discPop (src : Src) (r : Nat) (h : Part.rx ∈ ps) : Leaves ps reg d (d.discPop src r) :=
  Leaves.ite (leaves_onRx d _ h) (Leaves.refl d)

theorem leaves_defectPop (t : Nat) (h : Part.rx ∈ ps) : Leaves ps reg d (d.defectPop t) := leaves_onRx d _ h

theorem leaves_eccPop (h : Part.bp ∈ ps) : Leaves ps reg d d.eccPop := leaves_onBp d _ h

theorem leaves_keyEvtPop (src : Src) (h : Part.ce ∈ ps) : Leaves ps reg d (d.keyEvtPop src) := by
  unfold Dev.keyEvtPop
  split
  · exact leaves_onCe d _ h
  · exact Leaves.refl d

theorem leaves_txtsPop (u : Nat) (h : Part.tb ∈ ps) : Leaves ps reg d (d.txtsPop u) := leaves_onTb d _ h

/-- A write of 1 pops and clears no loss (R433). -/
theorem txPopWrite_one (u : Nat) : d.txPopWrite u (1 % 2 ^ 32) = d.txtsPop u := by simp [Dev.txPopWrite, bit]

/-- A write of 2 clears the loss and pops nothing (R433). -/
theorem txPopWrite_two (u : Nat) : d.txPopWrite u (2 % 2 ^ 32) = d.clrLost u false := by simp [Dev.txPopWrite, bit]

theorem leaves_clrLost (u : Nat) (b : Bool) (h : reg (R .TB_TXTS_LOST u).addr = true) : Leaves ps reg d (d.clrLost u b) :=
  leaves_setReg d _ _ h

/-! ### Indices of rings -/

theorem leaves_coopPiWrite (r v : Nat) (hf : reg (R .GS_RFLAGS r).addr = true) (hp : reg (R .GS_COOP_PI r).addr = true) :
    Leaves ps reg d (d.coopPiWrite r v) :=
  Leaves.ite (leaves_raise d _ _ hf) (leaves_setFld d _ _ _ _ hp)

theorem leaves_laPi (n v : Nat) (hp : reg (R .CE_LA_PI n).addr = true) (hf : reg (R .CE_FLAGS).addr = true) :
    Leaves ps reg d (d.laPi n v) :=
  Leaves.ite (leaves_setReg d _ _ hp) (leaves_raise d _ _ hf)

theorem leaves_ringPi (n : Nat) (tx : Bool) (v : Nat) (hp : reg (ringReg n tx .pi).addr = true)
    (hm : reg (R .MC_MGMT_FLAGS).addr = true) (hr : reg (R .MC_RING_FLAGS).addr = true)
    (hv : n ≠ 21 → ¬n < 5 → reg (R .VF_FLAGS (n - 5)).addr = true) : Leaves ps reg d (d.ringPi n tx v) := by
  unfold Dev.ringPi
  dsimp only
  split
  · exact leaves_setReg d _ _ hp
  · split
    · exact leaves_raise d _ _ hm
    · split
      · exact leaves_raise d _ _ hr
      · exact leaves_raise d _ _ (hv ‹_› ‹_›)

/-! ### The management complex -/

theorem leaves_coreCtlWrite (c v : Nat) (h : Part.mc ∈ ps) (hr : reg (R .MC_CORE_CTL c).addr = true) :
    Leaves ps reg d (d.coreCtlWrite c v) :=
  ((leaves_setReg d _ _ hr).trans (Leaves.ite (leaves_onMc _ _ h) (Leaves.refl _))).trans (leaves_onMc _ _ h)

theorem leaves_dmaCtlWrite (c v : Nat) (h : Part.mc ∈ ps) (hr : reg (R .MC_DMA_CTL c).addr = true) :
    Leaves ps reg d (d.dmaCtlWrite c v) := by
  have hf : Leaves ps reg d ((d.setFld (R .MC_DMA_CTL c) 29 28 (bits v 29 28)).setFld (R .MC_DMA_CTL c) 12 8 (bits v 12 8)) :=
    (leaves_setFld d _ _ _ _ hr).trans (leaves_setFld _ _ _ _ _ hr)
  exact Leaves.ite hf (Leaves.ite (leaves_raise_report d _ _ (by decide))
    ((hf.trans (leaves_setFld _ _ _ _ _ hr)).trans (leaves_onMc _ _ h)))

theorem leaves_avsCfgWrite (v : Nat) (hc : reg (R .MC_AVS_CFG).addr = true) (hs : reg (R .MC_AVS_STATUS).addr = true) :
    Leaves ps reg d (d.avsCfgWrite v) :=
  (leaves_setReg d _ _ hc).trans
    (Leaves.ite (Leaves.ite (leaves_raise_report _ _ _ (by decide)) (leaves_setFld _ _ _ _ _ hs)) (Leaves.refl _))

/-- An end of interrupt arms a vector, which no frame holds (R494). -/
theorem leaves_eoi (i : Nat) : Leaves ps reg d (d.eoi i) := by
  refine Leaves.of_parts (fun p _ => ?_) rfl rfl rfl
  cases p
  case ul => exact ⟨rfl, rfl, fun _ => rfl⟩
  all_goals rfl

theorem leaves_todcapWrite (n v : Nat) (h : Part.tb ∈ ps) (hc : reg (R .TB_TODCAP_CTL n).addr = true) :
    Leaves ps reg d (d.todcapWrite n v) :=
  (leaves_setReg d _ _ hc).trans (Leaves.ite ((leaves_onTb _ _ h).trans (leaves_setFld _ _ _ _ _ hc)) (Leaves.refl _))

theorem leaves_pcntCfgWrite (k v occ : Nat) (h : Part.ob ∈ ps) (hr : reportAddr (R .OB_PCNT_CFG k).addr = true) :
    Leaves ps reg d (d.pcntCfgWrite k v occ) := by
  have hset : ∀ (x : Dev) (w : Nat), Leaves ps reg x (x.setReg (R .OB_PCNT_CFG k) w) := fun x w =>
    ⟨⟨⟨fun p _ => same_refl x p, fun a _ ha => Dev.get?_setReg_ne x _ w a (by rintro rfl; simp [hr] at ha)⟩, fun _ => rfl⟩, rfl⟩
  exact Leaves.ite (hset d _)
    (((Leaves.ite (leaves_raise_report d _ _ (by decide)) (Leaves.refl d)).trans (leaves_onOb _ _ h)).trans (hset _ _))

end

end Sys2Proof.Safety

end

/-! The frame of latching reads and of register writes with an effect of their own (O57). -/

section

namespace Sys2Proof.Safety

open Sys2Proof.Machine

section

variable {s : State} {src : Src}

theorem ulStatLoRead_only (hq : Quiet s.dev) (u j : Nat) (ho : opens s.dev src (R .UL_STAT_LO u j) false = true) :
    Answers (.ulStatLoRead src u j) s (Only [.ul] (fun _ => false) s.dev) := by
  have hr : s.dev.readReg src (R .UL_STAT_LO u j) = s.dev.ulStatLoRead u j := Dev.readReg_open ho
  have ha := answers_still (i := .ulStatLoRead src u j) (f := fun d => d.readReg src (R .UL_STAT_LO u j)) (ps := [.ul])
    (reg := fun _ => false) hq rfl (by rw [hr]; exact leaves_ulStatLoRead _ u j (by decide))
    (by rw [hr]; exact ulStatLoRead_still _ u j hq.2)
  exact ha.imp fun _ hd => hd.2

theorem ringReg_pi_flags {n : Nat} {tx : Bool} (ho : opens s.dev src (ringReg n tx .pi) true = true) (h21 : n ≠ 21) (h5 : ¬n < 5) :
    n - 5 < 16 := by
  cases tx <;> simp only [ringReg, h21, h5, if_false] at ho <;> simpa [Place.holds, RegName.place] using opens_holds ho

/-- The index register of a ring lies in the management complex's block, and its write is the ring's. -/
theorem ringReg_pi {n : Nat} {tx : Bool} (ho : opens s.dev src (ringReg n tx .pi) true = true) :
    block 0 0x100000 (ringReg n tx .pi).addr = true ∧ ∀ v, s.dev.regWrite src (ringReg n tx .pi) v = s.dev.ringPi n tx v := by
  by_cases h21 : n = 21
  · subst h21
    cases tx <;> exact ⟨by decide, fun _ => rfl⟩
  · by_cases h5 : n < 5
    · cases tx <;> simp only [ringReg, h21, h5, if_false, if_true] at ho ⊢ <;>
        exact ⟨block_addr (opens_holds ho) (by decide), fun _ => rfl⟩
    · have hn : 5 + (n - 5) = n := by omega
      cases tx <;> simp only [ringReg, h21, h5, if_false] at ho ⊢ <;>
        exact ⟨block_addr (opens_holds ho) (by decide), fun v => by rw [← hn, Nat.add_sub_cancel_left]; rfl⟩

theorem ringPiWrite_only (hq : Quiet s.dev) (n : Nat) (tx : Bool) (v : Nat) (ho : opens s.dev src (ringReg n tx .pi) true = true) :
    Answers (.ringPiWrite src n tx v) s (Only [.ob] (block 0 0x100000) s.dev) := by
  obtain ⟨hb, hw⟩ := ringReg_pi ho
  refine answers_write_only (fun _ => v) hq ho rfl ?_ (lagApart_block _ _ (by decide) (by decide) (by decide))
  rw [hw]
  refine leaves_ringPi _ n tx _ hb (by decide) (by decide) fun h21 h5 => ?_
  exact block_addr (by simpa [Place.holds, RegName.place] using ringReg_pi_flags ho h21 h5) (by decide)

/-- A pop of a port's timestamps with CLR_LOST (R433): `lossNow` is a loss in the cycle of the write. -/
theorem clrLost_only (hq : Quiet s.dev) (u : Nat) (lossNow : Bool) (ho : opens s.dev src (R .TB_TXTS_POP u) true = true) :
    Answers (.clrLost src u lossNow) s (Only [] (fun a => a == (R .TB_TXTS_LOST u).addr) s.dev) := by
  have hw : s.dev.clrLostWrite src u lossNow = (s.dev.clrLost u false).clrLost u lossNow := by
    have : s.dev.writeReg src (R .TB_TXTS_POP u) 2 = s.dev.clrLost u false :=
      (Dev.writeReg_open ho 2).trans (txPopWrite_two s.dev u)
    rw [Dev.clrLostWrite, Dev.writeAnd, Dev.mayWrite_eq, if_pos ho, this]
  have hh := opens_holds ho
  have hlt : (R .TB_TXTS_LOST u).addr < 0x3500000 := (Reg.addr_block (n := .TB_TXTS_LOST) hh (lo := 0) (hi := 0x3500000) (by decide)).2
  refine (answers_leaves hq (f := fun d => d.clrLostWrite src u lossNow) rfl ?_
    (lagApart_one _ (by decide) (by decide) hlt)).imp fun _ hd => hd.2
  rw [hw]
  exact (leaves_clrLost _ u false (by simp)).trans (leaves_clrLost _ u lossNow (by simp))

theorem pcntCfgWrite_only (hq : Quiet s.dev) (k v occ : Nat) (ho : opens s.dev src (R .OB_PCNT_CFG k) true = true) :
    Answers (.pcntCfgWrite src k v occ) s (Only [.ob] (fun _ => false) s.dev) := by
  have hw : s.dev.pcntWrite src k v occ = s.dev.pcntCfgWrite k v occ := by rw [Dev.pcntWrite, Dev.mayWrite_eq, if_pos ho]
  obtain ⟨h1, h2⟩ := Reg.addr_block (opens_holds ho) (lo := 0x100000) (hi := 0x200000) (by decide)
  have hrep : reportAddr (R .OB_PCNT_CFG k).addr = true := by simp [reportAddr, obAddr, h1, h2]
  refine (answers_leaves hq (f := fun d => d.pcntWrite src k v occ) rfl ?_ (lagApart_none (by decide) (by decide))).imp fun _ hd => hd.2
  rw [hw]
  exact leaves_pcntCfgWrite _ k v occ (by decide) hrep

end

end Sys2Proof.Safety

end

section

open Sys2Proof Sys2Proof.Machine Sys2Proof.Safety

/-- Settles O57: each access is its register's operation, which touches the registers and the part that its frame names. -/
theorem registerCommandsTouchOnlyTheirBlock : Obligations.RegisterCommandsTouchOnlyTheirBlock := by
  unfold Obligations.RegisterCommandsTouchOnlyTheirBlock
  intro s src v hq
  refine ⟨?sfcLo, ?ulStat, ?mgmtStat, ?cnt, ?pcnt, ?now, ?tod, ?cap, ?todcap, ?freeErr, ?low, ?ponid, ?inc, ?cmp, ?pn, ?ploamu, ?disc,
    ?defect, ?ecc, ?keyEvt, ?txts, ?lost, ?arm, ?coop, ?la, ?ring, ?kick, ?core, ?dma, ?replan, ?eoi, ?vfEoi, ?pcntCfg⟩
  case sfcLo =>
    exact fun t ho => answers_read_only hq ho rfl (leaves_sfcLoRead _ t (by decide)) (lagApart_none (by decide) (by decide))
  case ulStat => exact ulStatLoRead_only hq
  case mgmtStat =>
    intro j ho
    have hh := opens_holds ho
    have hlt : (R .MC_MGMT_STAT_HI j).addr < 0x3500000 :=
      (Reg.addr_block (n := .MC_MGMT_STAT_HI) hh (lo := 0) (hi := 0x3500000) (by decide)).2
    exact answers_read_only hq ho rfl (leaves_mgmtStatLoRead _ j (by simp)) (lagApart_one _ (by decide) (by decide) hlt)
  case cnt =>
    exact fun n ho => answers_read_only hq ho rfl (leaves_cntLoRead _ src false n (by decide)) (lagApart_none (by decide) (by decide))
  case pcnt =>
    exact fun n ho => answers_read_only hq ho rfl (leaves_cntLoRead _ src true n (by decide)) (lagApart_none (by decide) (by decide))
  case now =>
    exact fun ho => answers_read_only hq ho rfl (leaves_nowLoRead _ (by decide)) (lagApart_block _ _ (by decide) (by decide) (by decide))
  case tod =>
    exact fun ho => answers_read_only hq ho rfl (leaves_todNsRead _ (by decide) (by decide))
      (lagApart_block _ _ (by decide) (by decide) (by decide))
  case cap =>
    intro n ho
    have hh := opens_holds ho
    exact answers_read_only hq ho rfl
      (leaves_capLoRead _ n (block_addr hh (by decide)) (block_addr hh (by decide)))
      (lagApart_block _ _ (by decide) (by decide) (by decide))
  case todcap =>
    intro n ho
    have hh := opens_holds ho
    exact answers_read_only hq ho rfl (leaves_todcapLoRead _ n (block_addr hh (by decide)))
      (lagApart_block _ _ (by decide) (by decide) (by decide))
  case freeErr =>
    exact fun ho => answers_read_only hq ho rfl (leaves_freeErrRead _ (by simp)) (lagApart_one _ (by decide) (by decide) (by decide))
  case low =>
    exact fun p _ ho => answers_write_only (fun _ => v) hq ho rfl (leaves_lowWord _ src p _ (by decide) (by decide) (by decide))
      (lagApart_none (by decide) (by decide))
  case ponid =>
    exact fun t ho =>
      answers_write_only (fun _ => v) hq ho rfl
        (leaves_ponidHiWrite _ t _ (by decide)) (lagApart_none (by decide) (by decide))
  case inc =>
    exact fun ho =>
      answers_write_only (fun _ => v) hq ho rfl
        (leaves_incHiWrite _ _ (by decide)) (lagApart_none (by decide) (by decide))
  case cmp =>
    intro n ho
    have hh := opens_holds ho
    exact answers_write_only (fun _ => v) hq ho rfl (leaves_cmpHiWrite _ n _ (by decide) (block_addr hh (by decide))
      (block_addr hh (by decide)) (block_addr hh (by decide)))
      (lagApart_block _ _ (by decide) (by decide) (by decide))
  case pn =>
    exact fun ho => answers_write_only (fun _ => v) hq ho rfl (leaves_pnHiWrite _ _ (by decide) (by decide) (by decide))
      (lagApart_block _ _ (by decide) (by decide) (by decide))
  case ploamu =>
    exact fun t ho =>
      answers_write_only (fun _ => 1) hq ho rfl
        (Leaves.ite (leaves_ploamuPop _ t (by decide)) (Leaves.refl _)) (lagApart_none (by decide) (by decide))
  case disc =>
    exact fun r ho =>
      answers_write_only (fun _ => 1) hq ho rfl
        (leaves_discPop _ src r (by decide)) (lagApart_none (by decide) (by decide))
  case defect =>
    exact fun t ho =>
      answers_write_only (fun _ => 1) hq ho rfl
        (Leaves.ite (leaves_defectPop _ t (by decide)) (Leaves.refl _)) (lagApart_none (by decide) (by decide))
  case ecc =>
    exact fun ho =>
      answers_write_only (fun _ => 1) hq ho rfl
        (Leaves.ite (leaves_eccPop _ (by decide)) (Leaves.refl _)) (lagApart_none (by decide) (by decide))
  case keyEvt =>
    exact fun ho =>
      answers_write_only (fun _ => 1) hq ho rfl
        (Leaves.ite (leaves_keyEvtPop _ src (by decide)) (Leaves.refl _)) (lagApart_none (by decide) (by decide))
  case txts =>
    intro u ho
    refine answers_write_only (fun _ => 1) hq ho rfl ?_ (lagApart_none (by decide) (by decide))
    show Leaves _ _ _ (s.dev.txPopWrite u (1 % 2 ^ 32))
    rw [txPopWrite_one]
    exact leaves_txtsPop _ u (by decide)
  case lost => exact clrLost_only hq
  case arm =>
    exact fun n t ho =>
      answers_write_only (fun _ => 2 ^ 31 + t) hq ho rfl
        (leaves_todcapWrite _ n _ (by decide) (block_addr (opens_holds ho) (by decide)))
        (lagApart_block _ _ (by decide) (by decide) (by decide))
  case coop =>
    intro r ho
    have hh := opens_holds ho
    exact answers_write_only (fun _ => v) hq ho rfl
      (leaves_coopPiWrite _ r _ (block_addr hh (by decide)) (block_addr hh (by decide)))
      (lagApart_block _ _ (by decide) (by decide) (by decide))
  case la =>
    exact fun n ho =>
      answers_write_only (fun _ => v) hq ho rfl
        (leaves_laPi _ n _ (block_addr (opens_holds ho) (by decide)) (by decide))
        (lagApart_block _ _ (by decide) (by decide) (by decide))
  case ring => exact fun n tx ho => ringPiWrite_only hq n tx v ho
  case kick =>
    exact fun c ho =>
      answers_write_only (fun d => putBits (d.reg (R .MC_CORE_CTL c)) 28 28 1) hq ho rfl
        (leaves_coreCtlWrite _ c _ (by decide) (block_addr (opens_holds ho) (by decide)))
        (lagApart_block _ _ (by decide) (by decide) (by decide))
  case core =>
    exact fun c h ho =>
      answers_write_only (fun d => putBits (d.reg (R .MC_CORE_CTL c)) 31 31 (b2n h)) hq ho rfl
        (leaves_coreCtlWrite _ c _ (by decide) (block_addr (opens_holds ho) (by decide)))
        (lagApart_block _ _ (by decide) (by decide) (by decide))
  case dma =>
    exact fun c ho =>
      answers_write_only (fun d => putBits (d.reg (R .MC_DMA_CTL c)) 31 31 1) hq ho rfl
        (leaves_dmaCtlWrite _ c _ (by decide) (block_addr (opens_holds ho) (by decide)))
        (lagApart_block _ _ (by decide) (by decide) (by decide))
  case replan =>
    exact fun ho =>
      answers_write_only (fun d => putBits (d.reg (R .MC_AVS_CFG)) 31 31 1) hq ho rfl
        (leaves_avsCfgWrite _ _ (by decide) (by decide))
        (lagApart_block _ _ (by decide) (by decide) (by decide))
  case eoi =>
    exact fun ho => answers_write_only (fun _ => v) hq ho rfl (leaves_eoi _ _) (lagApart_none (by decide) (by decide))
  case vfEoi =>
    exact fun n ho => answers_write_only (fun _ => v) hq ho rfl (leaves_eoi _ _) (lagApart_none (by decide) (by decide))
  case pcntCfg => exact fun k occ ho => pcntCfgWrite_only hq k v occ ho

end

/-! Held low words and their commits (O18; spec/00_scope, R570): what the commit leaves in the registers and in the parts. -/

section

namespace Sys2Proof.Safety

open Sys2Proof.Machine

section

variable (d : Dev)

theorem tf_onTf (t : Nat) (f : TfTree → TfTree) : (d.onTf t f).tf t = f (d.tf t) := by simp [Dev.tf, Dev.onTf]

theorem kept_tf {d d' : Dev} (h : d.Kept d') (t : Nat) : d'.tf t = d.tf t := by simp only [Dev.tf, h.rx_tf]

/-- No register of a held pair is one in which the step's end reports. -/
theorem lowReg_report {p : LowPair} (h : p.ok = true) : reportAddr (lowReg p).addr = false := by
  have hp : ∀ t < 64, reportAddr (R .TF_PONID_LO t).addr = false := by decide
  have hc : ∀ n < 8, reportAddr (R .TB_CMP_TGT_LO n).addr = false := by decide
  cases p
  case ponid t => exact hp t (of_decide_eq_true h)
  case inc => decide
  case cmpTgt n => exact hc n (of_decide_eq_true h)
  case pnThresh => decide

theorem ponidHi_report : ∀ t < 64, reportAddr (R .TF_PONID_HI t).addr = false := by decide

/-- A new increment (R404): the held word is used up, and the increment waits for the next tick where it lies in range. -/
theorem incHiWrite_tb (v : Nat) : (d.incHiWrite v).tb.heldLow = none ∧ (d.incHiWrite v).tb.incPending =
    let inc := v % 2 ^ 16 * 2 ^ 32 + d.tb.heldLow.getD (d.reg (R .TB_INC_LO))
    if 127872 * 2 ^ 40 ≤ 100000 * inc ∧ 100000 * inc ≤ 128128 * 2 ^ 40 then some inc else d.tb.incPending := by
  have hb : bits v 15 0 = v % 2 ^ 16 := by simp [bits]
  simp only [Dev.incHiWrite, hb]
  generalize v % 2 ^ 16 * 2 ^ 32 + d.tb.heldLow.getD (d.reg (R .TB_INC_LO)) = inc
  by_cases hr : 127872 * 2 ^ 40 ≤ 100000 * inc ∧ 100000 * inc ≤ 128128 * 2 ^ 40
  · rw [if_neg (by omega), if_pos hr]
    exact ⟨rfl, rfl⟩
  · rw [if_pos (by omega), if_neg hr]
    simp [Dev.cfgRefused]

theorem cmp_apart : ∀ n < 8, (R .TB_CMP_TGT_LO n).addr ≠ (R .TB_CMP_TGT_HI n).addr ∧
    (R .TB_CMP_CFG n).addr ≠ (R .TB_CMP_TGT_LO n).addr ∧
    (R .TB_CMP_CFG n).addr ≠ (R .TB_CMP_TGT_HI n).addr ∧ reportAddr (R .TB_CMP_TGT_LO n).addr = false ∧
    reportAddr (R .TB_CMP_TGT_HI n).addr = false ∧ reportAddr (R .TB_CMP_CFG n).addr = false := by decide

/-- A compare's target after both its words are set. -/
theorem setCmpTarget_reg {n : Nat} (hn : n < 8) {lo v : Nat} (hlo : lo < 2 ^ 32) (hv : v < 2 ^ 32) :
    (d.setCmpTarget n (lo + 2 ^ 32 * v)).reg (R .TB_CMP_TGT_LO n) = lo ∧
      (d.setCmpTarget n (lo + 2 ^ 32 * v)).reg (R .TB_CMP_TGT_HI n) = v ∧
      (d.setCmpTarget n (lo + 2 ^ 32 * v)).reg (R .TB_CMP_CFG n) = d.reg (R .TB_CMP_CFG n) := by
  obtain ⟨hlh, hcl, hch, -⟩ := cmp_apart n hn
  unfold Dev.setCmpTarget
  refine ⟨?_, ?_, ?_⟩
  · rw [Dev.reg_setReg_ne _ _ _ _ hlh.symm, Dev.reg_setReg _ _ _ (Reg.reset_lt _)]
    omega
  · rw [Dev.reg_setReg _ _ _ (Reg.reset_lt _)]
    omega
  · rw [Dev.reg_setReg_ne _ _ _ _ hch.symm, Dev.reg_setReg_ne _ _ _ _ hcl.symm]

/-- A compare's commit (R409): both words of the target stand, the held one is used up, and EN = 1 arms. -/
theorem cmpHiWrite_commits {n : Nat} (hn : n < 8) {lo v : Nat} (hlo : lo < 2 ^ 32) (hv : v < 2 ^ 32)
    (hh : (d.tb.cmpHeld.get? n).getD (d.reg (R .TB_CMP_TGT_LO n)) = lo) :
    (d.cmpHiWrite n v).reg (R .TB_CMP_TGT_LO n) = lo ∧ (d.cmpHiWrite n v).reg (R .TB_CMP_TGT_HI n) = v ∧
      (d.cmpHiWrite n v).tb.cmpHeld.get? n = none ∧
      (d.cmpHiWrite n v).flag (R .TB_CMP_CFG n) 0 = (d.flag (R .TB_CMP_CFG n) 31 || d.flag (R .TB_CMP_CFG n) 0) := by
  obtain ⟨-, hcl, hch, -⟩ := cmp_apart n hn
  have hx : d.cmpHiWrite n v =
      let x := (d.onTb fun b => { b with cmpHeld := b.cmpHeld.erase n }).setCmpTarget n (lo + 2 ^ 32 * v)
      if x.flag (R .TB_CMP_CFG n) 31 then x.setFld (R .TB_CMP_CFG n) 0 0 1 else x := by
    rw [← hh]
    rfl
  obtain ⟨hl, hh, hc⟩ := setCmpTarget_reg (d.onTb fun b => { b with cmpHeld := b.cmpHeld.erase n }) hn hlo hv
  have ht : ((d.onTb fun b => { b with cmpHeld := b.cmpHeld.erase n }).setCmpTarget n (lo + 2 ^ 32 * v)).tb.cmpHeld.get? n = none := by
    simp [Dev.setCmpTarget]
  have hf : ∀ i, ((d.onTb fun b => { b with cmpHeld := b.cmpHeld.erase n }).setCmpTarget n (lo + 2 ^ 32 * v)).flag (R .TB_CMP_CFG n) i =
      d.flag (R .TB_CMP_CFG n) i := fun i => by rw [Dev.flag, hc, Dev.onTb_reg, Dev.flag]
  rw [hx]
  dsimp only
  rw [hf]
  split
  · rename_i hen
    refine ⟨?_, ?_, ht, ?_⟩
    · rw [Dev.reg_setFld_ne _ _ _ _ _ _ hcl, hl]
    · rw [Dev.reg_setFld_ne _ _ _ _ _ _ hch, hh]
    · rw [Dev.flag_setFld _ _ _ (by decide), hen, Bool.true_or]
  · rename_i hen
    refine ⟨hl, hh, ht, ?_⟩
    rw [hf, Bool.eq_false_iff.mpr hen, Bool.false_or]

/-- The commit of the rekey threshold (R376): both words stand, and the held one is used up. -/
theorem pnHiWrite_commits {lo v : Nat} (hlo : lo < 2 ^ 32) (hv : v < 2 ^ 32)
    (hh : d.ce.pnHeld.getD (d.reg (R .CE_MS_PN_THRESH_LO)) = lo) :
    (d.pnHiWrite v).reg (R .CE_MS_PN_THRESH_LO) = lo ∧ (d.pnHiWrite v).reg (R .CE_MS_PN_THRESH_HI) = v ∧
      (d.pnHiWrite v).ce.pnHeld = none := by
  have hlh : (R .CE_MS_PN_THRESH_LO).addr ≠ (R .CE_MS_PN_THRESH_HI).addr := by decide
  have hhi : (d.setReg (R .CE_MS_PN_THRESH_HI) v).reg (R .CE_MS_PN_THRESH_HI) = v := by
    rw [Dev.reg_setReg _ _ _ (Reg.reset_lt _), Nat.mod_eq_of_lt hv]
  unfold Dev.pnHiWrite
  dsimp only
  split
  · rename_i w hw
    have hwl : w = lo := by simpa [hw] using hh
    refine ⟨?_, ?_, rfl⟩
    · rw [Dev.onCe_reg, Dev.reg_setReg _ _ _ (Reg.reset_lt _), hwl, Nat.mod_eq_of_lt hlo]
    · rw [Dev.onCe_reg, Dev.reg_setReg_ne _ _ _ _ hlh, hhi]
  · rename_i hw
    refine ⟨?_, hhi, hw⟩
    rw [Dev.reg_setReg_ne _ _ _ _ hlh.symm, ← hh, hw]
    rfl

end

end Sys2Proof.Safety

open Sys2Proof Sys2Proof.Machine Sys2Proof.Safety

/-- Settles O18: the write of a low word holds it, and the write of the high word is the commit of its block. -/
theorem pairedRegistersCommitWithTheHighWord : Obligations.PairedRegistersCommitWithTheHighWord := by
  unfold Obligations.PairedRegistersCommitWithTheHighWord
  intro s src v hq hv
  have hvm : v % 2 ^ 32 = v := Nat.mod_eq_of_lt hv
  refine ⟨?low, ?ponid, ?inc, ?cmp, ?pn⟩
  case low =>
    intro p hp ho
    refine (answers_write (ps := [.tb, .rx, .ce]) (fun _ => v) hq ho rfl
      (leaves_lowWord _ src p _ (by decide) (by decide) (by decide)) (lagApart_none (by decide) (by decide))).imp ?_
    rintro d ⟨hk, ⟨-, hr⟩, -⟩
    rw [hvm] at hk
    refine ⟨hr _ rfl (lowReg_report hp), ?_⟩
    cases p
    case ponid t => exact (congrArg TfTree.ponidHeld (kept_tf hk t)).trans (congrArg TfTree.ponidHeld (tf_onTf s.dev t _))
    case inc => exact congrArg TbState.heldLow hk.tb
    case cmpTgt n =>
      have hn : (s.dev.holdCmp n v).tb.cmpHeld.get? n = some v := by simp [Dev.holdCmp]
      exact (congrArg (fun b : TbState => b.cmpHeld.get? n) hk.tb).trans hn
    case pnThresh => exact congrArg CeState.pnHeld hk.ce
  case ponid =>
    intro t ht ho
    refine (answers_write (ps := [.rx]) (fun _ => v) hq ho rfl (leaves_ponidHiWrite _ t _ (by decide))
      (lagApart_none (by decide) (by decide))).imp ?_
    rintro d ⟨hk, ⟨-, hr⟩, -⟩
    rw [hvm] at hk
    have htf : d.tf t = _ := (kept_tf hk t).trans (tf_onTf s.dev t _)
    refine ⟨congrArg TfTree.ponidHeld htf, ?_, (congrArg TfTree.ponidPending htf).trans (by simp [bits, R])⟩
    simp only [Dev.reg_def, hr _ rfl (ponidHi_report t ht)]
  case inc =>
    rintro _ ho rfl
    refine (answers_write (ps := [.tb]) (fun _ => v) hq ho rfl (leaves_incHiWrite _ _ (by decide))
      (lagApart_none (by decide) (by decide))).imp ?_
    rintro d ⟨hk, -⟩
    rw [hvm] at hk
    obtain ⟨hheld, hpend⟩ := incHiWrite_tb s.dev v
    refine ⟨(congrArg TbState.heldLow hk.tb).trans hheld, ?_⟩
    have := (congrArg TbState.incPending hk.tb).trans hpend
    dsimp only at this
    split <;> simp_all
  case cmp =>
    intro n hn lo hlo ho hheld
    have hh := opens_holds ho
    refine (answers_write (ps := [.tb]) (reg := block 0x200000 0x300000) (fun _ => v) hq ho rfl
      (leaves_cmpHiWrite _ n _ (by decide) (block_addr hh (by decide)) (block_addr hh (by decide)) (block_addr hh (by decide)))
      (lagApart_block _ _ (by decide) (by decide) (by decide))).imp ?_
    rintro d ⟨hk, -⟩
    rw [hvm] at hk
    obtain ⟨hl, hhi, hc, hf⟩ := cmpHiWrite_commits s.dev hn hlo hv hheld
    obtain ⟨-, -, -, rl, rh, rc⟩ := cmp_apart n hn
    exact ⟨(hk.reg rl).trans hl, (hk.reg rh).trans hhi, (congrArg (fun b => b.cmpHeld.get? n) hk.tb).trans hc,
      (congrArg (fun w => bit w 0) (hk.reg rc)).trans hf⟩
  case pn =>
    intro lo hlo ho hheld
    refine (answers_write (ps := [.ce]) (reg := block 0x3000000 0x3400000) (fun _ => v) hq ho rfl
      (leaves_pnHiWrite _ _ (by decide) (by decide) (by decide)) (lagApart_block _ _ (by decide) (by decide) (by decide))).imp ?_
    rintro d ⟨hk, -⟩
    rw [hvm] at hk
    obtain ⟨hl, hhi, hn⟩ := pnHiWrite_commits s.dev hlo hv hheld
    exact ⟨(hk.reg (by decide)).trans hl, (hk.reg (by decide)).trans hhi, (congrArg CeState.pnHeld hk.ce).trans hn⟩

end

/-! One word on the bus (spec/00_scope, R7 to R9): what an access of one word comes to where a register answers, where nothing lies, and
where its byte enables do not cover the word. -/

section

namespace Sys2Proof.Safety

open Sys2Proof.Machine

section

variable (d : Dev) (src : Src) (off be v : Nat)

theorem busRead_down (h : d.busUp src = false) : d.busRead src off be = d := by simp [Dev.busRead, h]

theorem busWrite_down (fails : Bool) (h : d.busUp src = false) : d.busWrite fails src off be v = d := by simp [Dev.busWrite, h]

/-- A read of one word is the word's read. -/
theorem access_read_one : d.access src off (.read be 1) = d.busRead src off be := by
  unfold Dev.access
  cases h : d.busUp src
  · exact (busRead_down d src off be h).symm
  · rfl

/-- A write of one word is the word's write. -/
theorem access_write_one : d.access src off (.write [(be, v)]) = d.busWrite false src off be v := by
  unfold Dev.access
  cases h : d.busUp src
  · exact (busWrite_down d src off be v false h).symm
  · rfl

end

theorem exec_registerWrite (src : Src) (off : Nat) (a : BusAcc) (s : State) :
    exec (.registerWrite src off ⟨a, []⟩) s = act s fun d => d.access src off a := rfl

/-! ### Where a register answers -/

theorem placeAt_open {d : Dev} {src : Src} {r : Reg} {w : Bool} (h : opens d src r w = true) : d.placeAt r.addr = .reg r := by
  simp [Dev.placeAt, (opens_reg h).2.2]

/-- The offset at which a VF sees a register that is open to it (R485). -/
theorem opens_vf {d : Dev} {s : Nat} {r : Reg} {w : Bool} (h : opens d (.vf s) r w = true) : d.vfOpen s r w = true := by
  simp only [opens, Bool.and_eq_true] at h
  exact h.2.2

/-- A read of a word where an open register answers is the register's read. -/
theorem busRead_open {d : Dev} {src : Src} {r : Reg} {off be : Nat} (h : opens d src r false = true) (ho : srcOff src r.addr = some off)
    (hbe : be % 16 = 15) : d.busRead src off be = d.regRead src r := by
  obtain ⟨hb, ha, -⟩ := opens_reg h
  have hp := placeAt_open h
  have hlt := Reg.ofAddr_lt ha
  cases src
  case vf s =>
    obtain ⟨hto, hap⟩ := vfToPf_of_pfToVf ho
    simp [Dev.busRead, hb, hto, hap, hp, Dev.placeOpen, opens_vf h, Dev.placeRead]
  case core c =>
    cases ho
    simp [Dev.busRead, hb, hp, hbe, Dev.placeRead, Nat.not_le.mpr hlt]
  all_goals
    cases ho
    simp [Dev.busRead, hb, hp, Dev.placeRead]

/-- A write of a whole word where an open register answers is the register's write. -/
theorem busWrite_open {d : Dev} {src : Src} {r : Reg} {off be : Nat} (h : opens d src r true = true) (ho : srcOff src r.addr = some off)
    (hbe : be % 16 = 15) (fails : Bool) (v : Nat) : d.busWrite fails src off be v = d.regWrite src r (v % 2 ^ 32) := by
  obtain ⟨hb, ha, -⟩ := opens_reg h
  have hp := placeAt_open h
  have hlt := Reg.ofAddr_lt ha
  cases src
  case vf s =>
    obtain ⟨hto, hap⟩ := vfToPf_of_pfToVf ho
    simp [Dev.busWrite, hb, hto, hap, hp, hbe, Dev.placeOpen, opens_vf h, Dev.placeWrite]
  case core c =>
    cases ho
    simp [Dev.busWrite, hb, hp, hbe, Dev.placeWrite, Nat.not_le.mpr hlt]
  all_goals
    cases ho
    simp [Dev.busWrite, hb, hp, hbe, Dev.placeWrite]

/-! ### Where nothing lies -/

/-- An address that is no register's, no window's and no table's holds nothing (R9). -/
theorem placeAt_hole {d : Dev} {off : Nat} (hr : Reg.ofAddr off = none) (hw : winAt off = none) (hm : msixAt off = none) :
    d.placeAt off = .hole := by
  have : d.regAt off = none := by simp [Dev.regAt, hr]
  simp [Dev.placeAt, this, hw, hm]

theorem ofAddr_high {off : Nat} (h : 0x3800000 ≤ off) : Reg.ofAddr off = none := by
  have : regsNear off = [] := by
    unfold regsNear
    repeat rw [if_neg (by omega)]
  simp [Reg.ofAddr, this]

theorem winAt_high {off : Nat} (h : 0x3800000 ≤ off) : winAt off = none := by
  have hb : ∀ w ∈ [Win.im, .upd, .ob, .tb, .px, .pc, .fs, .tm, .bp, .ce], w.base + 44 ≤ 0x3800000 := by decide
  have hf : ([Win.im, .upd, .ob, .tb, .px, .pc, .fs, .tm, .bp, .ce].find?
      fun w => decide (w.base ≤ off ∧ off < w.base + 44)) = none := by
    refine List.find?_eq_none.mpr fun w hw => ?_
    have := hb w hw
    simp only [decide_eq_true_eq]
    omega
  unfold winAt
  rw [if_neg (by omega), hf]
  rfl

theorem msixAt_high {off : Nat} (h : 0x3800000 ≤ off) : msixAt off = none := by
  unfold msixAt
  rw [if_neg (by omega), if_neg (by omega), if_neg (by omega)]

theorem busRead_hole {d : Dev} {src : Src} {off be : Nat} (hs : src = .pf0 ∨ ∃ c, src = .dma c) (hb : d.busUp src = true)
    (hp : d.placeAt off = .hole) : d.busRead src off be = d.respond (.data 0) := by
  rcases hs with rfl | ⟨c, rfl⟩ <;> simp [Dev.busRead, hb, hp, Dev.placeRead]

theorem busWrite_hole {d : Dev} {src : Src} {off be v : Nat} (hs : src = .pf0 ∨ ∃ c, src = .dma c) (hp : d.placeAt off = .hole) :
    d.busWrite false src off be v = d := by
  rcases hs with rfl | ⟨c, rfl⟩ <;> simp [Dev.busWrite, hp]

/-- A VF's read of what holds nothing is out of its slice (R486). -/
theorem busRead_vf_hole {d : Dev} {s off be : Nat} (hb : d.busUp (.vf s) = true) (ha : off < 0x20000 ∨ 0x30000 ≤ off)
    (hp : ∀ a, vfToPf s off = some a → d.placeAt a = .hole) : ∃ a, d.busRead (.vf s) off be = d.outOfSlice s off a false := by
  have hap : ¬(0x20000 ≤ off ∧ off < 0x30000) := by omega
  cases hto : vfToPf s off with
  | none => exact ⟨_, by simp only [Dev.busRead, hb, hap, hto]; rfl⟩
  | some a => exact ⟨a, by simp only [Dev.busRead, hb, hap, hto, hp a hto, Dev.placeOpen]; rfl⟩

section

variable {ps : List Part} {reg : Nat → Bool} (d : Dev)

theorem leaves_raiseRec (r : Reg) (b : Nat) (s : RSrc) (inst : Nat) (fault : Bool) (fs : List (Nat × Nat)) (hr : reg r.addr = true)
    (ho : Part.ob ∈ ps) : Leaves ps reg d (d.raiseRec r b s inst fault fs) := by
  unfold Dev.raiseRec
  dsimp only
  split
  · exact (leaves_raise d r b hr).trans (leaves_record _ _ _ _ _ _ ho)
  · exact leaves_raise d r b hr

/-- A read out of slice sets flags of the VF and of the management complex, and is recorded. -/
theorem leaves_outOfSlice_read (s off a : Nat) (hv : reg (R .VF_FLAGS s).addr = true) (hm : reg (R .MC_FLAGS).addr = true)
    (ho : Part.ob ∈ ps) : Leaves ps reg d (d.outOfSlice s off a false) :=
  ((leaves_raise d _ _ hv).trans (leaves_raiseRec _ _ _ _ _ _ _ hm ho)).trans (leaves_respond _ _)

end

theorem busUp_vf {d : Dev} {s : Nat} (h : d.busUp (.vf s) = true) : s < 16 := by
  simp only [Dev.busUp, Bool.and_eq_true, decide_eq_true_eq] at h
  exact h.2.1.2

/-! ### Partial writes -/

theorem lossIn_partialNoted (o : ObState) (r : Rec) : (o.lossIn r).partialNoted = o.partialNoted := by
  unfold ObState.lossIn
  split
  · split <;> rfl
  · rfl

theorem raise_partialNoted (d : Dev) (r : Reg) (b : Nat) : (d.raise r b).ob.partialNoted = d.ob.partialNoted := by
  have h := congrArg ObState.partialNoted (d.raise_ob r b)
  exact h

theorem stage_partialNoted (d : Dev) (r : Rec) : (d.stage r).ob.partialNoted = d.ob.partialNoted := by
  unfold Dev.stage
  generalize (if d.ob.pwrFail = true then 0 else d.ob.staging.length) = k
  have hm := makeRoom_sans k r.len d.ob
  have hroom : (makeRoom k r.len d.ob).1.partialNoted = d.ob.partialNoted := by rw [hm]
  have hup : ∀ (m : Nat) (x : Dev), (upTo m x fun _ d => d.raise (R .OB_FLAGS) 1).ob.partialNoted = x.ob.partialNoted := fun m x =>
    upTo_keeps (·.ob.partialNoted) m _ (fun _ y => raise_partialNoted y _ _) x
  dsimp only
  split
  · rw [Dev.onOb_ob, lossIn_partialNoted]
    exact (hup _ _).trans hroom
  · rw [Dev.onOb_ob, lossIn_partialNoted, raise_partialNoted]
    exact (hup _ _).trans hroom

/-- A record leaves the note of the first discarded write. -/
theorem record_partialNoted (d : Dev) (e : Nat) (s : RSrc) (inst : Nat) (fault : Bool) (fs : List (Nat × Nat)) :
    (d.record e s inst fault fs).ob.partialNoted = d.ob.partialNoted := by
  unfold Dev.record Dev.makeRec
  split
  · rfl
  · dsimp only
    rw [Dev.onOb_ob]
    split
    · exact stage_partialNoted _ _
    · exact stage_partialNoted _ _

/-- A discarded partial write is noted (R7). -/
theorem partialWrite_noted (d : Dev) (a : Nat) : (d.partialWrite a).ob.partialNoted = true := by
  unfold Dev.partialWrite
  dsimp only
  split
  · assumption
  · rw [record_partialNoted]
    rfl

theorem leaves_partialWrite {ps : List Part} {reg : Nat → Bool} (d : Dev) (a : Nat) (h : Part.ob ∈ ps) :
    Leaves ps reg d (d.partialWrite a) :=
  (leaves_count d _).trans (Leaves.ite (Leaves.refl _) ((leaves_onOb _ _ h).trans (leaves_record _ _ _ _ _ _ h)))

theorem leaves_coreFault {ps : List Part} {reg : Nat → Bool} (d : Dev) (c a : Nat) (h : Part.ob ∈ ps) :
    Leaves ps reg d (d.coreFault c a) :=
  ((leaves_count d _).trans (leaves_record _ _ _ _ _ _ h)).trans (leaves_respond _ _)

theorem busWrite_partial {d : Dev} {r : Reg} {be v : Nat} (h : opens d .pf0 r true = true) (hbe : be % 16 ≠ 15) :
    d.busWrite false .pf0 r.addr be v = d.partialWrite r.addr := by
  simp [Dev.busWrite, (opens_reg h).1, placeAt_open h, hbe]

/-- A core's access that is not 32 bits wide faults (R471): within the register space it is counted and recorded too. -/
theorem busWrite_core_partial {d : Dev} {c off be v : Nat} (hb : d.busUp (.core c) = true) (hbe : be % 16 ≠ 15) :
    d.busWrite false (.core c) off be v = d.respond .fault ∨ d.busWrite false (.core c) off be v = d.coreFault c off := by
  by_cases h : 0x4000000 ≤ off
  · exact Or.inl (by simp [Dev.busWrite, hb, h])
  · exact Or.inr (by simp [Dev.busWrite, hb, h, hbe])

end Sys2Proof.Safety

open Sys2Proof Sys2Proof.Machine Sys2Proof.Safety

/-- Settles O11: a hole answers a read with 0 and drops a write, and a VF's read of one is out of its slice. -/
theorem holesReadZeroAndIgnoreWrites : Obligations.HolesReadZeroAndIgnoreWrites := by
  unfold Obligations.HolesReadZeroAndIgnoreWrites
  intro s src off hq hb
  refine ⟨?hole, ?high, ?none, ?vf⟩
  case hole =>
    intro hs hp
    have ha : LagApart [] fun _ => false := lagApart_none (by decide) (by decide)
    refine ⟨fun be => ?_, fun be v => ?_⟩
    · have hr : s.dev.access src off (.read be 1) = s.dev.respond (.data 0) := by rw [access_read_one, busRead_hole hs hb hp]
      refine (answers_leaves hq (exec_registerWrite ..) (by rw [hr]; exact leaves_respond _ _) ha).imp ?_
      rintro d ⟨hk, hf, -⟩
      rw [hr] at hk
      exact ⟨hk.mc_completion.trans (Dev.respond_completion _ _), hf⟩
    · have hw : s.dev.access src off (.write [(be, v)]) = s.dev := by rw [access_write_one, busWrite_hole hs hp]
      refine (answers_leaves hq (exec_registerWrite ..) (by rw [hw]; exact Leaves.refl _) ha).imp ?_
      rintro d ⟨hk, hf, -⟩
      rw [hw] at hk
      exact ⟨hk.mc_completion, hf⟩
  case high => exact fun h => placeAt_hole (ofAddr_high h) (winAt_high h) (msixAt_high h)
  case none => exact placeAt_hole
  case vf =>
    rintro v rfl hap hp be
    obtain ⟨a, hr⟩ := busRead_vf_hole (be := be) hb hap hp
    have hv : block 0 0x100000 (R .VF_FLAGS v).addr = true :=
      block_addr (by simp [Place.holds, RegName.place, busUp_vf hb]) (by decide)
    rw [← access_read_one] at hr
    refine (answers_leaves (ps := [.ob]) (reg := block 0 0x100000) hq (exec_registerWrite ..) ?_
      (lagApart_block _ _ (by decide) (by decide) (by decide))).imp ?_
    · rw [hr]
      exact leaves_outOfSlice_read _ v off a hv (by decide) (by decide)
    · rintro d ⟨hk, -⟩
      rw [hr] at hk
      exact hk.mc_completion.trans (Dev.respond_completion _ _)

/-- Settles O13: a partial write ends in the note of R7, and a core's in the fault of R471. -/
theorem partialWritesAreDiscarded : Obligations.PartialWritesAreDiscarded := by
  unfold Obligations.PartialWritesAreDiscarded
  intro s r be v hq hbe
  have ha : LagApart [.ob] fun _ => false := lagApart_none (by decide) (by decide)
  refine ⟨fun ho => ?pf0, fun c hb => ?core⟩
  case pf0 =>
    have hw : s.dev.access .pf0 r.addr (.write [(be, v)]) = s.dev.partialWrite r.addr := by
      rw [access_write_one, busWrite_partial ho hbe]
    refine (answers_leaves hq (exec_registerWrite ..) (by rw [hw]; exact leaves_partialWrite _ _ (by decide)) ha).imp ?_
    rintro d ⟨hk, hf, -⟩
    rw [hw] at hk
    exact ⟨hk.ob_partialNoted.trans (partialWrite_noted _ _), hf⟩
  case core =>
    have hw : Leaves [.ob] (fun _ => false) s.dev (s.dev.access (.core c) r.addr (.write [(be, v)])) ∧
        (s.dev.access (.core c) r.addr (.write [(be, v)])).mc.completion = some .fault := by
      rw [access_write_one]
      rcases busWrite_core_partial (off := r.addr) (v := v) hb hbe with h | h <;> rw [h]
      · exact ⟨leaves_respond _ _, rfl⟩
      · exact ⟨leaves_coreFault _ _ _ (by decide), rfl⟩
    refine (answers_leaves hq (exec_registerWrite ..) hw.1 ha).imp ?_
    rintro d ⟨hk, hf, -⟩
    exact ⟨hk.mc_completion.trans hw.2, hf⟩

end

/-! Access codes (O8; spec/00_scope, R11 and R13): a word written or read field by field. -/

section

namespace Sys2Proof.Safety

open Sys2Proof.Machine

/-- Two fields share no bit. -/
def fldApart (f g : Fld) : Prop := f.hi < g.lo ∨ g.hi < f.lo

/-- The fields lie in a 32-bit word, and no two of them share a bit (R11). -/
def FieldsOk (fs : List Fld) : Prop := (∀ f ∈ fs, f.lo ≤ f.hi ∧ f.hi < 32) ∧ fs.Pairwise fldApart

/-- `FieldsOk` as a check. -/
def fieldsOk : List Fld → Bool
  | [] => true
  | f :: fs => decide (f.lo ≤ f.hi ∧ f.hi < 32) && fs.all (fun g => decide (f.hi < g.lo ∨ g.hi < f.lo)) && fieldsOk fs

theorem fieldsOk_sound {fs : List Fld} (h : fieldsOk fs = true) : FieldsOk fs := by
  induction fs with
  | nil => exact ⟨List.forall_mem_nil _, List.Pairwise.nil⟩
  | cons f fs ih =>
    simp only [fieldsOk, Bool.and_eq_true, decide_eq_true_eq, List.all_eq_true] at h
    obtain ⟨⟨hf, hall⟩, hfs⟩ := h
    obtain ⟨h1, h2⟩ := ih hfs
    exact ⟨List.forall_mem_cons.mpr ⟨hf, h1⟩, List.pairwise_cons.mpr ⟨hall, h2⟩⟩

/-- Every register's fields lie in its word, apart from each other. -/
theorem RegName.fields_ok (n : RegName) : FieldsOk n.fields := by
  refine fieldsOk_sound ?_
  cases n <;> rfl

/-- Two fields of a word are one or share no bit. -/
theorem FieldsOk.apart {fs : List Fld} (h : FieldsOk fs) {f g : Fld} (hf : f ∈ fs) (hg : g ∈ fs) (hne : f ≠ g) : fldApart f g :=
  haveI : Std.Symm fldApart := ⟨fun _ _ h => Or.symm h⟩
  h.2.forall hf hg hne

/-! ### Writes -/

/-- A word with the fields of a list put in. -/
def putFlds (fs : List Fld) (x : Fld → Nat) (w : Nat) : Nat := fs.foldl (fun w f => putBits w f.hi f.lo (x f)) w

theorem wordWrite_eq (fs : List Fld) (old v : Nat) : wordWrite fs old v = putFlds fs (fldWrite old v) old := rfl

theorem putFlds_cons (f : Fld) (fs : List Fld) (x : Fld → Nat) (w : Nat) :
    putFlds (f :: fs) x w = putFlds fs x (putBits w f.hi f.lo (x f)) := rfl

theorem putFlds_lt {fs : List Fld} (h : ∀ f ∈ fs, f.lo ≤ f.hi ∧ f.hi < 32) (x : Fld → Nat) {w : Nat} (hw : w < 2 ^ 32) :
    putFlds fs x w < 2 ^ 32 := by
  induction fs generalizing w with
  | nil => exact hw
  | cons f fs ih =>
    obtain ⟨⟨hl, hh⟩, hfs⟩ := List.forall_mem_cons.mp h
    exact ih hfs (putBits_lt hw hh (by omega))

/-- A bit of no field stays. -/
theorem bit_putFlds_ne {fs : List Fld} (h : ∀ f ∈ fs, f.lo ≤ f.hi ∧ f.hi < 32) (x : Fld → Nat) (w : Nat) {b : Nat}
    (hb : ∀ f ∈ fs, b < f.lo ∨ f.hi < b) : bit (putFlds fs x w) b = bit w b := by
  induction fs generalizing w with
  | nil => rfl
  | cons f fs ih =>
    obtain ⟨⟨hl, hh⟩, hfs⟩ := List.forall_mem_cons.mp h
    obtain ⟨hbf, hbs⟩ := List.forall_mem_cons.mp hb
    rw [putFlds_cons, ih hfs _ hbs, bit_putBits_ne _ _ _ _ _ (by omega) hbf]

/-- A field apart from all that are put in stays. -/
theorem bits_putFlds_ne {fs : List Fld} (h : ∀ f ∈ fs, f.lo ≤ f.hi ∧ f.hi < 32) (x : Fld → Nat) (w : Nat) {g : Fld}
    (hg : ∀ f ∈ fs, fldApart g f) : bits (putFlds fs x w) g.hi g.lo = bits w g.hi g.lo := by
  induction fs generalizing w with
  | nil => rfl
  | cons f fs ih =>
    obtain ⟨⟨hl, hh⟩, hfs⟩ := List.forall_mem_cons.mp h
    obtain ⟨hgf, hgs⟩ := List.forall_mem_cons.mp hg
    rw [putFlds_cons, ih hfs _ hgs, bits_putBits_ne _ _ _ _ _ _ (by omega) hgf]

/-- A field put in reads as put in. -/
theorem bits_putFlds {fs : List Fld} (h : FieldsOk fs) (x : Fld → Nat) (w : Nat) {f : Fld} (hf : f ∈ fs) :
    bits (putFlds fs x w) f.hi f.lo = x f % 2 ^ (f.hi + 1 - f.lo) := by
  induction fs generalizing w with
  | nil => cases hf
  | cons g fs ih =>
    obtain ⟨hin, hap⟩ := h
    obtain ⟨⟨hl, hh⟩, hfs⟩ := List.forall_mem_cons.mp hin
    obtain ⟨hg, hap'⟩ := List.pairwise_cons.mp hap
    rw [putFlds_cons]
    rcases List.mem_cons.mp hf with rfl | hf'
    · rw [bits_putFlds_ne hfs _ _ hg, bits_putBits_self _ _ _ _ (by omega)]
    · exact ih ⟨hfs, hap'⟩ _ hf'

theorem bits_lt (v hi lo : Nat) : bits v hi lo < 2 ^ (hi + 1 - lo) := Nat.mod_lt _ (Nat.two_pow_pos _)

/-- What an access code gives a field fits it. -/
theorem fldWrite_lt (old v : Nat) (f : Fld) : fldWrite old v f < 2 ^ (f.hi + 1 - f.lo) := by
  unfold fldWrite
  split
  · exact bits_lt ..
  · exact Nat.lt_of_le_of_lt (Nat.sub_le ..) (bits_lt ..)
  · exact Nat.or_lt_two_pow (bits_lt ..) (bits_lt ..)
  · exact bits_lt ..

section

variable (d : Dev) (r : Reg) (v : Nat)

/-- A register after a plain write: the word of its fields. -/
theorem plainWrite_reg : (d.plainWrite r v).reg r = wordWrite r.name.fields (d.reg r) v := by
  rw [Dev.plainWrite, Dev.reg_setReg _ _ _ r.reset_lt, wordWrite_eq,
    Nat.mod_eq_of_lt (putFlds_lt (RegName.fields_ok r.name).1 _ (d.reg_lt r))]

/-- Every field takes what its access code gives it (R11). -/
theorem plainWrite_fld {f : Fld} (hf : f ∈ r.name.fields) : (d.plainWrite r v).fld r f.hi f.lo = fldWrite (d.reg r) v f := by
  rw [Dev.fld, plainWrite_reg, wordWrite_eq, bits_putFlds (RegName.fields_ok r.name) _ _ hf, Nat.mod_eq_of_lt (fldWrite_lt ..)]

/-- Reserved bits stay (R13). -/
theorem plainWrite_flag {b : Nat} (hb : ∀ f ∈ r.name.fields, b < f.lo ∨ f.hi < b) : (d.plainWrite r v).flag r b = d.flag r b := by
  rw [Dev.flag, plainWrite_reg, wordWrite_eq, bit_putFlds_ne (RegName.fields_ok r.name).1 _ _ hb, Dev.flag]

/-- A register that is not special has a plain write. -/
theorem regWrite_plain (src : Src) (h : special r.name = false) : d.regWrite src r v = d.plainWrite r v := by
  obtain ⟨n, i, j⟩ := r
  cases n <;> try (cases h; done)
  all_goals rfl

/-- A register whose read latches nothing answers its readable fields. -/
theorem regRead_plain (src : Src) (h : latches r.name = false) :
    d.regRead src r = d.respond (.data (d.view src r % 2 ^ 32 &&& readable r.name.fields)) := by
  obtain ⟨n, i, j⟩ := r
  cases n <;> try (cases h; done)
  all_goals rfl

theorem lagMember_ofAddr {g m : Nat} (hg : g < 8) (hm : m < 8) :
    Reg.ofAddr (R .UL_LAG_MEMBER g m).addr = some (R .UL_LAG_MEMBER g m) := by
  interval_cases g <;> interval_cases m <;> decide

/-- The members of link aggregation are special, so a plain write leaves the distributing sets. -/
theorem lagApart_plain {ps : List Part} (hu : Part.ul ∉ ps) (him : Part.im ∉ ps) (ho : Reg.ofAddr r.addr = some r)
    (h : special r.name = false) : LagApart ps fun a => a == r.addr := by
  refine ⟨hu, him, fun g hg m hm => beq_eq_false_iff_ne.mpr fun hc => ?_⟩
  have := lagMember_ofAddr hg hm
  rw [hc, ho] at this
  cases this
  cases h

end

/-! ### Reads -/

/-- A word with the bits of a field added, where the field can be read. -/
def addReadable (m : Nat) (f : Fld) : Nat := if f.acc = .wo then m else m ||| ((2 ^ (f.hi + 1 - f.lo) - 1) * 2 ^ f.lo)

theorem readable_eq (fs : List Fld) : readable fs = fs.foldl addReadable 0 := by
  have hstep : ∀ m f,
      (match f.acc with | .wo => m | _ => m ||| ((2 ^ (f.hi + 1 - f.lo) - 1) * 2 ^ f.lo)) = addReadable m f := fun m f => by
    unfold addReadable
    cases f.acc <;> rfl
  exact congrArg (fun g => fs.foldl g 0) (funext fun m => funext (hstep m))

theorem testBit_addReadable {fs : List Fld} (m b : Nat) (h : ∀ f ∈ fs, f.lo ≤ f.hi ∧ f.hi < 32) :
    (fs.foldl addReadable m).testBit b = (m.testBit b || fs.any fun f => decide (f.acc ≠ .wo) && decide (f.lo ≤ b ∧ b ≤ f.hi)) := by
  induction fs generalizing m with
  | nil => simp
  | cons f fs ih =>
    obtain ⟨⟨hl, -⟩, hfs⟩ := List.forall_mem_cons.mp h
    have hbit : ((2 ^ (f.hi + 1 - f.lo) - 1) * 2 ^ f.lo).testBit b = decide (f.lo ≤ b ∧ b ≤ f.hi) := by
      rw [Nat.testBit_mul_two_pow, Nat.testBit_two_pow_sub_one, Bool.eq_iff_iff]
      simp only [Bool.and_eq_true, decide_eq_true_eq]
      omega
    rw [List.foldl_cons, ih _ hfs, List.any_cons, addReadable]
    by_cases hacc : f.acc = .wo <;> simp [hacc, hbit, Bool.or_assoc]

/-- A bit that a read returns is one of a field that can be read. -/
theorem testBit_readable {fs : List Fld} (h : ∀ f ∈ fs, f.lo ≤ f.hi ∧ f.hi < 32) (b : Nat) :
    (readable fs).testBit b = fs.any fun f => decide (f.acc ≠ .wo) && decide (f.lo ≤ b ∧ b ≤ f.hi) := by
  rw [readable_eq, testBit_addReadable 0 b h, Nat.zero_testBit, Bool.false_or]

/-- A field that is read (R11, R13): its bits, or 0 where it cannot be read. -/
theorem bits_readable {fs : List Fld} (h : FieldsOk fs) (x : Nat) {f : Fld} (hf : f ∈ fs) :
    bits (x % 2 ^ 32 &&& readable fs) f.hi f.lo = if f.acc = .wo then 0 else bits x f.hi f.lo := by
  have hin := h.1
  obtain ⟨hl, hh⟩ := hin f hf
  have hm : ∀ i < f.hi + 1 - f.lo, (readable fs).testBit (f.lo + i) = decide (f.acc ≠ .wo) := fun i hi => by
    rw [testBit_readable hin, Bool.eq_iff_iff, List.any_eq_true]
    constructor
    · rintro ⟨g, hg, hgb⟩
      simp only [Bool.and_eq_true, decide_eq_true_eq] at hgb
      obtain ⟨hacc, hg1, hg2⟩ := hgb
      by_cases hfg : f = g
      · exact hfg ▸ decide_eq_true hacc
      · rcases h.apart hf hg hfg with hap | hap <;> omega
    · intro hacc
      exact ⟨f, hf, by simp only [hacc, Bool.true_and, decide_eq_true_eq]; omega⟩
  apply Nat.eq_of_testBit_eq
  intro i
  rw [testBit_bits, Nat.testBit_and, Nat.testBit_mod_two_pow]
  by_cases hi : i < f.hi + 1 - f.lo
  · rw [hm i hi]
    by_cases hacc : f.acc = .wo
    · simp [hacc]
    · simp [hacc, testBit_bits, hi, show f.lo + i < 32 by omega]
  · by_cases hacc : f.acc = .wo <;> simp [hi, hacc, testBit_bits]

/-- A bit of no field reads 0 (R13). -/
theorem bit_readable {fs : List Fld} (h : FieldsOk fs) (x : Nat) {b : Nat} (hb : ∀ f ∈ fs, b < f.lo ∨ f.hi < b) :
    bit (x &&& readable fs) b = false := by
  have hn : (readable fs).testBit b = false := by
    rw [testBit_readable h.1, List.any_eq_false]
    intro f hf
    have := hb f hf
    simp only [Bool.and_eq_true, decide_eq_true_eq, not_and]
    omega
  rw [bit_eq_testBit, Nat.testBit_and, hn, Bool.and_false]

end Sys2Proof.Safety

open Sys2Proof Sys2Proof.Machine Sys2Proof.Safety

/-- Settles O8: a plain write puts in field by field what the access codes give, and a plain read masks what can be read. -/
theorem plainAccessesFollowTheAccessCodes : Obligations.PlainAccessesFollowTheAccessCodes := by
  unfold Obligations.PlainAccessesFollowTheAccessCodes
  intro s src r off be v hq hoff hbe
  refine ⟨fun ho hsp hrep => ?write, fun ho hla => ?read⟩
  case write =>
    have hw : s.dev.access src off (.write [(be, v)]) = s.dev.plainWrite r (v % 2 ^ 32) := by
      rw [access_write_one, busWrite_open ho hoff hbe, regWrite_plain _ _ _ _ hsp]
    refine (answers_leaves (ps := []) (reg := fun a => a == r.addr) hq (exec_registerWrite ..)
      (by rw [hw]; exact leaves_setReg _ _ _ (by simp)) (lagApart_plain r (by decide) (by decide) (opens_reg ho).2.1 hsp)).imp ?_
    rintro d ⟨hk, hf, -⟩
    rw [hw] at hk
    have hreg := hk.reg hrep
    refine ⟨fun f hf => ?_, fun b _ hb => ?_, hf⟩
    · rw [Dev.fld, hreg, ← Dev.fld, plainWrite_fld _ _ _ hf]
      unfold fldWrite
      cases f.acc <;> rfl
    · rw [Dev.flag, hreg, ← Dev.flag, plainWrite_flag _ _ _ hb]
  case read =>
    have hr : s.dev.access src off (.read be 1) = s.dev.respond (.data (s.dev.view src r % 2 ^ 32 &&& readable r.name.fields)) := by
      rw [access_read_one, busRead_open ho hoff hbe, regRead_plain _ _ _ hla]
    refine (answers_leaves (ps := []) hq (exec_registerWrite ..) (by rw [hr]; exact leaves_respond _ _)
      (lagApart_none (by decide) (by decide))).imp ?_
    rintro d ⟨hk, hf, -⟩
    rw [hr] at hk
    have hok := RegName.fields_ok r.name
    exact ⟨_, hk.mc_completion.trans (Dev.respond_completion _ _),
      fun f hf => bits_readable hok _ hf, fun b hb => bit_readable hok _ hb, hf⟩

end

/-! Accesses over several words and in one cycle (O9; spec/00_scope, R8, and R56, R69, R71): a write is the series of its words, and
where a source's accesses do not reach the device each word of it is nothing. -/

section

namespace Sys2Proof.Safety

open Sys2Proof.Machine

/-- The words of a write with their places in it. -/
def placed (ws : List (Nat × Nat)) : List (Nat × Nat × Nat) := (List.range ws.length).zip ws

/-- Word x.1 of a source's write. -/
def wordAt (src : Src) (off : Nat) (x : Nat × Nat × Nat) : WordW := ⟨src, off + 4 * x.1, x.2.1, x.2.2⟩

theorem placed_append (ws ws' : List (Nat × Nat)) :
    placed (ws ++ ws') = placed ws ++ (placed ws').map fun x => (ws.length + x.1, x.2) := by
  have hz : ((List.range ws'.length).map (ws.length + ·)).zip ws' = (placed ws').map fun x => (ws.length + x.1, x.2) :=
    List.zip_map_left ..
  rw [← hz]
  simp only [placed, List.length_append, List.range_add]
  exact List.zip_append (by simp)

theorem mem_placed {ws : List (Nat × Nat)} {x : Nat × Nat × Nat} (h : x ∈ placed ws) : ws[x.1]? = some x.2 := by
  obtain ⟨k, hk⟩ := List.mem_iff_getElem?.mp h
  obtain ⟨h1, h2⟩ := List.getElem?_zip_eq_some.mp hk
  obtain ⟨hlt, he⟩ := List.getElem?_eq_some_iff.mp h1
  rw [List.getElem_range] at he
  rw [← he, h2]

section

variable (d : Dev) (src : Src) (off : Nat)

/-- A word put on the bus is a write of it, whether or not it reaches the device. -/
theorem putWord_eq (x : WordW) : d.putWord x = d.busWrite false x.src x.off x.be x.v := by
  unfold Dev.putWord
  cases h : d.busUp x.src
  · exact (busWrite_down d x.src x.off x.be x.v false h).symm
  · rfl

/-- Words that do not reach the device leave it. -/
theorem foldl_busWrite_down (h : d.busUp src = false) (l : List (Nat × Nat × Nat)) :
    l.foldl (fun e x => e.busWrite false src (off + 4 * x.1) x.2.1 x.2.2) d = d := by
  induction l with
  | nil => rfl
  | cons x l ih => rw [List.foldl_cons, busWrite_down d src _ _ _ false h, ih]

/-- A write is the series of its words (R8). -/
theorem access_write (ws : List (Nat × Nat)) :
    d.access src off (.write ws) = (placed ws).foldl (fun e x => e.putWord (wordAt src off x)) d := by
  have hstep : (fun (e : Dev) (x : Nat × Nat × Nat) => e.putWord (wordAt src off x)) =
      fun e x => e.busWrite false src (off + 4 * x.1) x.2.1 x.2.2 := by
    funext e x
    exact putWord_eq e _
  rw [hstep]
  unfold Dev.access
  cases h : d.busUp src
  · exact (foldl_busWrite_down d src off h _).symm
  · rfl

/-- A write of the words of two lists is a write of the first and then of the second (R8). -/
theorem access_append (ws ws' : List (Nat × Nat)) :
    d.access src off (.write (ws ++ ws')) = (d.access src off (.write ws)).access src (off + 4 * ws.length) (.write ws') := by
  have hw : ∀ x : Nat × Nat × Nat, wordAt src off (ws.length + x.1, x.2) = wordAt src (off + 4 * ws.length) x := fun x => by
    simp only [wordAt, Nat.mul_add, Nat.add_assoc]
  simp only [access_write, placed_append, List.foldl_append, List.foldl_map, hw]

/-- A read of one word more is the read of the words before it and then of the last, joined (R8). -/
theorem access_read_succ (be n : Nat) (hb : d.busUp src = true) (hn : 0 < n) : d.access src off (.read be (n + 1)) =
    ((d.access src off (.read be n)).access src (off + 4 * n) (.read be 1)).onMc fun m =>
      { m with completion := joinRead (d.access src off (.read be n)).mc.completion m.completion n } := by
  obtain ⟨k, rfl⟩ := Nat.exists_eq_add_of_lt hn
  rw [access_read_one]
  simp only [Dev.access, hb, if_true]
  rfl

end

/-! ### Several sources in one cycle (R56, R69, R71) -/

section

variable (d : Dev) (src src' : Src) (off off' : Nat)

/-- Two accesses of different ports, in the order of their ports (R71). -/
theorem byPort {a b : Src × Nat × BusAcc} (h : portOf a.1 < portOf b.1) (hb : portOf b.1 < 16) :
    ((List.range 16).flatMap fun p => [a, b].filter fun x => portOf x.1 == p) = [a, b] ∧
      ((List.range 16).flatMap fun p => [b, a].filter fun x => portOf x.1 == p) = [a, b] := by
  generalize ha' : portOf a.1 = p at h
  generalize hb' : portOf b.1 = q at h hb
  have hf : ∀ n, ([a, b].filter fun x => portOf x.1 == n) = (if p = n then [a] else []) ++ if q = n then [b] else [] := fun n => by
    by_cases h1 : p = n <;> by_cases h2 : q = n <;> simp [ha', hb', h1, h2]
  have hg : ∀ n, ([b, a].filter fun x => portOf x.1 == n) = (if q = n then [b] else []) ++ if p = n then [a] else [] := fun n => by
    by_cases h1 : p = n <;> by_cases h2 : q = n <;> simp [ha', hb', h1, h2]
  simp only [hf, hg]
  interval_cases q <;> interval_cases p <;> exact ⟨rfl, rfl⟩

/-- The second pass of a cycle over the words: all but the clears, with the GO bits taken off. -/
def putRest (d e : Dev) (w : WordW) : Dev :=
  if d.clearsFlags w then e else e.putWord (if d.givesGo w then { w with v := w.v % 2 ^ 31 } else w)

/-- The GOs of a cycle in the order of their banks (R56). -/
def putGos (ws : List WordW) (e : Dev) : Dev :=
  (List.range 21).foldl (fun e k => (ws.filter fun x => bankOf x.src == k).foldl Dev.putWord e) e

/-- The words of a cycle: the clears, the rest, the GOs. -/
def cycleWords (d : Dev) (ws : List WordW) : Dev :=
  putGos (ws.filter d.givesGo) (ws.foldl (putRest d) ((ws.filter d.clearsFlags).foldl Dev.putWord d))

/-- Two writes in one cycle, whichever is named first, are the words of the lower port and then those of the higher. -/
theorem sameCycle_writes (h : portOf src < portOf src') (hb : portOf src' < 16) (ws ws' : List (Nat × Nat)) :
    let r := (cycleWords d ((placed ws).map (wordAt src off) ++ (placed ws').map (wordAt src' off'))).seamStall 0x7F2 0
      (b2n (d.busUp src) + b2n (d.busUp src'))
    d.sameCycle src off (.write ws) [(src', off', .write ws')] = r ∧ d.sameCycle src' off' (.write ws') [(src, off, .write ws)] = r := by
  obtain ⟨h1, h2⟩ := byPort (a := (src, off, .write ws)) (b := (src', off', .write ws')) h hb
  have hn : ([(src, off, BusAcc.write ws), (src', off', .write ws')].filter fun x => d.busUp x.1).length =
      b2n (d.busUp src) + b2n (d.busUp src') := by
    cases hx : d.busUp src <;> cases hy : d.busUp src' <;> simp [hx, hy, b2n]
  have hwa : ∀ s o, wordAt s o = fun y => ⟨s, o + 4 * y.1, y.2.1, y.2.2⟩ := fun _ _ => rfl
  simp only [Dev.sameCycle, h1, h2, hn, List.flatMap_cons, List.flatMap_nil, List.append_nil, List.foldl_cons, List.foldl_nil,
    cycleWords, putGos, putRest, List.foldl_append, List.foldl_map, placed, hwa, and_self]

/-- Words that neither clear flags nor give a GO are written in their order. -/
theorem cycleWords_plain {ws : List WordW} (h : ∀ w ∈ ws, d.clearsFlags w = false ∧ d.givesGo w = false) :
    cycleWords d ws = ws.foldl Dev.putWord d := by
  have hc : ws.filter d.clearsFlags = [] := List.filter_eq_nil_iff.mpr fun w hw => by simp [(h w hw).1]
  have hg : ws.filter d.givesGo = [] := List.filter_eq_nil_iff.mpr fun w hw => by simp [(h w hw).2]
  have hr : ∀ e, ws.foldl (putRest d) e = ws.foldl Dev.putWord e := fun e =>
    List.foldl_ext _ _ _ fun e w hw => by simp [putRest, h w hw]
  simp only [cycleWords, hc, hg, hr]
  rfl

/-- A clear of flags comes before a plain write (R69). -/
theorem cycleWords_clear {w w' : WordW} (hc : d.clearsFlags w = false) (hg : d.givesGo w = false) (hc' : d.clearsFlags w' = true)
    (hg' : d.givesGo w' = false) : cycleWords d [w, w'] = (d.putWord w').putWord w := by
  simp only [cycleWords, List.filter_cons, List.filter_nil, hc, hg, hc', hg', List.foldl_cons, List.foldl_nil, putRest]
  rfl

/-- Of a core's GO and one of PF0 that of PF0 is accepted first, after the words without their GOs (R56). -/
theorem cycleWords_gos {c : Nat} (hcore : c < 4) {o o' b b' v v' : Nat} (hg : d.givesGo ⟨.core c, o, b, v⟩ = true)
    (hg' : d.givesGo ⟨.pf0, o', b', v'⟩ = true) (hc : d.clearsFlags ⟨.core c, o, b, v⟩ = false)
    (hc' : d.clearsFlags ⟨.pf0, o', b', v'⟩ = false) :
    cycleWords d [⟨.core c, o, b, v⟩, ⟨.pf0, o', b', v'⟩] =
      (((d.putWord ⟨.core c, o, b, v % 2 ^ 31⟩).putWord ⟨.pf0, o', b', v' % 2 ^ 31⟩).putWord ⟨.pf0, o', b', v'⟩).putWord
        ⟨.core c, o, b, v⟩ := by
  have hbank : ∀ e, putGos [⟨.core c, o, b, v⟩, ⟨.pf0, o', b', v'⟩] e =
        (e.putWord ⟨.pf0, o', b', v'⟩).putWord ⟨.core c, o, b, v⟩ := by
    intro e
    interval_cases c <;> rfl
  simp only [cycleWords, List.filter_cons, List.filter_nil, hc, hg, hc', hg', List.foldl_cons, List.foldl_nil, putRest,
    Bool.false_eq_true, if_false, if_true, hbank]

theorem putWord_one (be v : Nat) : d.putWord ⟨src, off, be, v⟩ = d.access src off (.write [(be, v)]) := by
  rw [putWord_eq, access_write_one]

theorem placed_one (x : Nat × Nat) : (placed [x]).map (wordAt src off) = [⟨src, off, x.1, x.2⟩] := rfl

end

end Sys2Proof.Safety

end

/-! The two words of a counter read together (O9; spec/16, R529). -/

section

namespace Sys2Proof.Safety

open Sys2Proof.Machine

theorem cntHi_addr (n : Nat) : (R .OB_CNT_HI n).addr = (R .OB_CNT_LO n).addr + 4 := by
  show 0x108004 + 8 * n = 0x108000 + 8 * n + 4
  omega

/-- The ranges of a VF's view begin and end at multiples of 8. -/
theorem vfTail_even : ∀ x ∈ vfTail, x.2.2 % 8 = 0 ∧ x.2.1 % 8 = 0 := by decide +kernel

/-- A VF sees the second word of an 8-byte pair right after the first (R485). -/
theorem pfToVf_next {s a off : Nat} (ha : a % 8 = 0) (h : pfToVf s a = some off) : pfToVf s (a + 4) = some (off + 4) := by
  have heven : ∀ x ∈ vfRanges s, x.2.2 % 8 = 0 ∧ x.2.1 % 8 = 0 := by
    rw [vfRanges_eq]
    refine List.forall_mem_cons.mpr ⟨?_, vfTail_even⟩
    show (0x10000 + 0x4000 * s) % 8 = 0 ∧ 0x4000 % 8 = 0
    omega
  have hsame : ∀ l : List (Nat × Nat × Nat), (∀ x ∈ l, x.2.2 % 8 = 0 ∧ x.2.1 % 8 = 0) →
      (l.find? fun x => decide (x.2.2 ≤ a + 4 ∧ a + 4 < x.2.2 + x.2.1)) =
        l.find? fun x => decide (x.2.2 ≤ a ∧ a < x.2.2 + x.2.1) := by
    intro l hl
    induction l with
    | nil => rfl
    | cons x l ih =>
      obtain ⟨⟨h1, h2⟩, hrest⟩ := List.forall_mem_cons.mp hl
      have : (x.2.2 ≤ a + 4 ∧ a + 4 < x.2.2 + x.2.1) ↔ (x.2.2 ≤ a ∧ a < x.2.2 + x.2.1) := by omega
      simp only [List.find?_cons, this, ih hrest]
  simp only [pfToVf, Option.map_eq_some_iff] at h ⊢
  obtain ⟨x, hx, rfl⟩ := h
  have hp := List.find?_some hx
  simp only [decide_eq_true_eq] at hp
  exact ⟨x, by rw [hsame _ heven, hx], by omega⟩

theorem srcOff_cntHi {src : Src} {n off : Nat} (h : srcOff src (R .OB_CNT_LO n).addr = some off) :
    srcOff src (R .OB_CNT_HI n).addr = some (off + 4) := by
  have ha : (R .OB_CNT_LO n).addr % 8 = 0 := by
    show (0x108000 + 8 * n) % 8 = 0
    omega
  rw [cntHi_addr]
  cases src
  case vf s => exact pfToVf_next ha h
  all_goals
    cases h
    rfl

/-- The high word of a counter: its bits 47 to 32 and its overflow bit. -/
def cntHigh (d : Dev) (n : Nat) : Nat :=
  bits (d.ob.cnt.getD n 0) 47 32 + 2 ^ 31 * d.fld (R .OB_CNT_OVF (n / 32)) (n % 32) (n % 32)

/-- A bit that is set lies below the number's width. -/
theorem lt_of_testBit {x k i : Nat} (hx : x < 2 ^ k) (h : x.testBit i = true) : i < k := by
  by_contra hc
  rw [Nat.testBit_lt_two_pow (Nat.lt_of_lt_of_le hx (Nat.pow_le_pow_right (by decide) (Nat.le_of_not_lt hc)))] at h
  cases h

/-- The high word lies in the fields of OB_CNT_HI, so that a read returns it whole. -/
theorem cntHigh_readable (d : Dev) (n : Nat) : cntHigh d n % 2 ^ 32 &&& readable RegName.OB_CNT_HI.fields = cntHigh d n := by
  have hc : bits (d.ob.cnt.getD n 0) 47 32 < 2 ^ 16 := bits_lt ..
  have ho : d.fld (R .OB_CNT_OVF (n / 32)) (n % 32) (n % 32) < 2 := by
    have h := bits_lt (d.reg (R .OB_CNT_OVF (n / 32))) (n % 32) (n % 32)
    rwa [Nat.add_sub_cancel_left] at h
  unfold cntHigh
  generalize bits (d.ob.cnt.getD n 0) 47 32 = x at hc
  generalize d.fld (R .OB_CNT_OVF (n / 32)) (n % 32) (n % 32) = o at ho
  rw [Nat.mod_eq_of_lt (by omega)]
  apply Nat.eq_of_testBit_eq
  intro i
  have hbit : (x + 2 ^ 31 * o).testBit i = if i < 31 then x.testBit i else o.testBit (i - 31) := by
    rw [Nat.add_comm, Nat.testBit_two_pow_mul_add _ (by omega)]
  rw [Nat.testBit_and, testBit_readable (RegName.fields_ok .OB_CNT_HI).1, Bool.and_eq_left_iff_imp, hbit]
  intro h
  split at h
  · have := lt_of_testBit hc h
    simp [RegName.fields, fRO]
    omega
  · have := lt_of_testBit (k := 1) ho h
    simp [RegName.fields, fRO]
    omega

section

variable {d : Dev} {src : Src} {n : Nat}

/-- The read of a counter's low word holds its high word for the source (R529). -/
theorem cntLoRead_view (d : Dev) (src : Src) (n : Nat) : (d.cntLoRead src false n).view src (R .OB_CNT_HI n) = cntHigh d n := by
  show (d.ob.cntHi.put 0 (cntKey src false n) (cntHigh d n)).getD (cntKey src false n) 0 = cntHigh d n
  rw [Table.getD_put, if_pos rfl]

/-- A latching read of a counter closes no register. -/
theorem cntLoRead_opens (r : Reg) (w : Bool) : opens (d.cntLoRead src false n) src r w = opens d src r w := rfl

/-- A counter's two words read together are the counter as it stood, with its overflow bit. -/
theorem access_cnt_pair {off : Nat} (hoff : srcOff src (R .OB_CNT_LO n).addr = some off)
    (hlo : opens d src (R .OB_CNT_LO n) false = true) (hhi : opens d src (R .OB_CNT_HI n) false = true) :
    d.access src off (.read 15 2) = ((d.cntLoRead src false n).respond (.data (cntHigh d n))).respond
      (.data (d.ob.cnt.getD n 0 % 2 ^ 32 + cntHigh d n * 2 ^ 32)) := by
  have h1 : d.access src off (.read 15 1) = d.cntLoRead src false n := by rw [access_read_one, busRead_open hlo hoff rfl]; rfl
  have h2 : (d.cntLoRead src false n).access src (off + 4) (.read 15 1) = (d.cntLoRead src false n).respond (.data (cntHigh d n)) := by
    rw [access_read_one, busRead_open (r := R .OB_CNT_HI n) (by rw [cntLoRead_opens]; exact hhi) (srcOff_cntHi hoff) rfl,
      regRead_plain _ _ _ rfl, cntLoRead_view]
    exact congrArg (fun x => (d.cntLoRead src false n).respond (.data x)) (cntHigh_readable d n)
  rw [access_read_succ d src off 15 1 (opens_reg hlo).1 (by decide), h1, h2]
  rfl

end

end Sys2Proof.Safety

open Sys2Proof Sys2Proof.Machine Sys2Proof.Safety

/-- Settles O9: an access is the series of its words, and a cycle's words stand in the order of their ports, the clears before them and
the GOs after them. -/
theorem accessesRunWordByWord : Obligations.AccessesRunWordByWord := by
  unfold Obligations.AccessesRunWordByWord
  intro src off
  refine ⟨fun a s => exec_registerWrite src off a s, ?cycle, fun d ws ws' => access_append d src off ws ws',
    fun d be n hb hn => access_read_succ d src off be n hb hn, ?pair⟩
  case cycle =>
    intro d src' off' hport h16
    have hcyc := sameCycle_writes d src src' off off' hport h16
    refine ⟨fun ws ws' hw hw' => ?plain, fun be v be' v' hc hg hc' hg' => ?clear, fun c hcore v v' hs hs' hg hg' hc hc' => ?go⟩
    case plain =>
      rintro _ rfl
      have hall : ∀ w ∈ (placed ws).map (wordAt src off) ++ (placed ws').map (wordAt src' off'),
          d.clearsFlags w = false ∧ d.givesGo w = false := by
        intro w hmem
        simp only [List.mem_append, List.mem_map] at hmem
        rcases hmem with ⟨x, hx, rfl⟩ | ⟨x, hx, rfl⟩
        · exact hw x.1 x.2 (mem_placed hx)
        · exact hw' x.1 x.2 (mem_placed hx)
      have h := hcyc ws ws'
      rw [cycleWords_plain d hall, List.foldl_append, List.foldl_map, List.foldl_map, ← access_write, ← access_write] at h
      exact h
    case clear =>
      rw [(hcyc [(be, v)] [(be', v')]).1, placed_one, placed_one, List.singleton_append, cycleWords_clear d hc hg hc' hg', putWord_one,
        putWord_one]
    case go =>
      subst hs hs'
      rw [(hcyc [(15, v)] [(15, v')]).1, placed_one, placed_one, List.singleton_append, cycleWords_gos d hcore hg hg' hc hc']
      simp only [putWord_one]
  case pair =>
    intro s n hq hoff hlo hhi
    have hr := access_cnt_pair hoff hlo hhi
    have hl : Leaves [.ob] (fun _ => false) s.dev (s.dev.access src off (.read 15 2)) := by
      rw [hr]
      exact ((leaves_cntLoRead _ src false n (by decide)).trans (leaves_respond _ _)).trans (leaves_respond _ _)
    refine (answers_leaves hq (exec_registerWrite ..) hl (lagApart_none (by decide) (by decide))).imp ?_
    rintro d ⟨hk, -⟩
    rw [hr] at hk
    exact hk.mc_completion.trans (Dev.respond_completion _ _)

end

section

namespace Sys2Proof.Safety

open Sys2Proof.Machine

/-! A flush under a wild bank: a queue's packet counts in `PC_INFLIGHT` under the bank that it carries, which nothing bounds in a state
of no run. -/

/-- Queue 5 holds a recirculating packet whose bank is none of the classifier's: its in-flight count lies at 0x310_0004, in the cipher
engine's block. -/
def dWildBank : Dev :=
  (dTm.onQueue 5 fun q => { q with near := [⟨100, 0, [7], { pkt with recirc := true, bank := 0x640000 }⟩] }).setReg
    (R .PC_INFLIGHT 0x640000) 2

/-- A flush of queue 5. -/
def flushFive : CmdArgs := cmd 5 []

theorem dWildBank_ready : Quiet dWildBank ∧ ready dWildBank .tm flushFive.src = true := by unfold Quiet; decide +kernel

/-- The address is in none of the blocks that the statement names for the traffic manager's window, and no report goes there. -/
theorem wildBank_outside : (block 0x1800000 0x1C00000 0x3100004 || block 0x2000000 0x3000000 0x3100004) = false ∧
    reportAddr 0x3100004 = false := by decide

/-- The flush counts the packet out there. -/
theorem flush_counts_outside : (match exec (.queueFlush flushFive) (at_ dWildBank) with
    | .next t => t.dev.regs.get? 0x3100004 == dWildBank.regs.get? 0x3100004
    | _ => false) = false := by decide +kernel

/-! A packet that overruns its gate: a decision that finds it waiting long enough restarts its wait before it asks once more. -/

/-- A packet of 400 bytes, which takes 32 ns on one lane. -/
def overrunHeld : Held := ⟨400, 0, [7, 8], Pkt.of 0 (List.replicate 396 1)⟩

/-- Uplink port 0 with a gate list whose class 0 is open for 24 ns of 1,024 ns and has been for 20 ns; below the port's node stands
queue 5 with the packet at its head, since 800 ticks of 16 ns. -/
def dOverrun : Dev :=
  let d := ((demo.onNode 64 fun n => { n with rings := [(0, [.node 128])] }).onNode 128 fun n =>
    { n with valid := true, parent := 64, weight := 1, rings := [(0, [.queue 5])] }).onQueue 5 fun q =>
    { q with valid := true, w0 := 2 ^ 31 + 128, w1 := 15 * 2 ^ 16 + 1, thG := 1000, thY := 1000, thR := 1000, near := [overrunHeld] }
  { d with tb := { d.tb with
    c := 1044 * 2 ^ 40, ticks := 10000, gates := [(0, { Gates.rest with oper := some ⟨0, 1024, [⟨1, 24⟩, ⟨0, 1000⟩]⟩ })] } }

/-- The levels of the walk to queue 5. -/
def overrunHops : List Hop := [⟨128, 0, .queue 5, false⟩, ⟨64, 0, .node 128, false⟩]

theorem dOverrun_live : Quiet (dOverrun.elapse 0) ∧ (dOverrun.elapse 0).alive = true := by unfold Quiet; decide +kernel

/-- The decision's conditions hold: the port is open, the walk ends at the queue, and its head packet may go. -/
theorem dOverrun_decides : (dOverrun.elapse 0).portOpen 64 = true ∧ ((dOverrun.elapse 0).walk 64 3 64 []).2 = some (5, overrunHops) ∧
    ((dOverrun.elapse 0).queue 5).all.head? = some overrunHeld ∧
    (dOverrun.elapse 0).aged ((dOverrun.elapse 0).queue 5) overrunHeld = false ∧ ((dOverrun.elapse 0).queue 5).launch ≠ 2 ∧
    (dOverrun.elapse 0).queueReady 64 5 = true := by decide +kernel

/-- Its memories hold no faulty cell. -/
theorem dOverrun_cells (n x : Nat) : (dOverrun.elapse 0).cell n x = Cell.rest := by
  have hn : (dOverrun.elapse 0).bp.near = [] := by decide +kernel
  have hf : (dOverrun.elapse 0).bp.far = [] := by decide +kernel
  unfold Dev.cell Dev.cells
  split <;> simp [hn, hf, Table.getD]

/-- The decision leaves the packet where it is. -/
theorem overrun_stays : (match exec (.dequeueDecision 0 64 0 0) (at_ dOverrun) with
    | .next t => (t.dev.queue 5).all.length
    | _ => 0) = 1 ∧ ((dOverrun.elapse 0).queue 5).all.length = 1 := by decide +kernel

end Sys2Proof.Safety

open Sys2Proof Sys2Proof.Machine Sys2Proof.Safety

/-- Refutes O56: QUEUE_FLUSH discards a recirculating packet whose bank is no bank of the classifier, and counts it out of an in-flight
register outside the blocks named. -/
theorem not_commandsTouchOnlyTheirBlock : ¬ Obligations.CommandsTouchOnlyTheirBlock := by
  unfold Obligations.CommandsTouchOnlyTheirBlock
  intro h
  obtain ⟨-, -, -, -, -, tm, -⟩ := h (at_ dWildBank) flushFive dWildBank_ready.1
  obtain ⟨t, ht, -, ⟨-, hregs⟩, -⟩ := tm dWildBank_ready.2 (.queueFlush flushFive) (by simp)
  have hsame : t.dev.regs.get? 0x3100004 = dWildBank.regs.get? 0x3100004 := hregs _ wildBank_outside.1 wildBank_outside.2
  have hcount := flush_counts_outside
  rw [ht] at hcount
  simp [hsame] at hcount

/-- Refutes O36: a dequeue decision notes its tick as the queue's last decision before it asks again whether the head packet may go, so a
packet that overruns its gate no longer seems to have waited since the gate opened, and stays. -/
theorem not_queueAndBufferEventsTakeEffect : ¬ Obligations.QueueAndBufferEventsTakeEffect := by
  unfold Obligations.QueueAndBufferEventsTakeEffect
  intro h
  obtain ⟨-, decision, -⟩ := h (at_ dOverrun) 0 _ rfl dOverrun_live.1 dOverrun_live.2 (fun f => (f.pipe, f.outs, f.chain)) fun _ => rfl
  obtain ⟨hopen, hwalk, hhead, haged, hlaunch, hready⟩ := dOverrun_decides
  obtain ⟨t, ht, -, hall, -⟩ := decision 64 (by decide) 0 0 5 overrunHops overrunHeld hopen hwalk hhead
    (fun n x _ => by simp only [at_, dOverrun_cells]; decide) haged (fun h2 => absurd h2 hlaunch) hready
  have hstay := overrun_stays
  rw [ht] at hstay
  simp only [hall, at_, List.length_drop] at hstay
  omega

end

/-! More of frames: the operations' common parts, and the time before an event that comes at once. -/

section

namespace Sys2Proof.Safety

open Sys2Proof.Machine

section

variable {ps : List Part} {reg : Nat → Bool}

/-- More parts and registers may change. -/
theorem Leaves.mono {qs : List Part} {reg' : Nat → Bool} {d d' : Dev} (h : Leaves ps reg d d') (hp : ∀ p ∈ ps, p ∈ qs)
    (hr : ∀ a, reg a = true → reg' a = true) : Leaves qs reg' d d' := by
  obtain ⟨⟨⟨hps, hrs⟩, hw⟩, hk⟩ := h
  refine ⟨⟨⟨fun p hn => hps p fun hm => hn (hp p hm), fun a ha ha' => hrs a ?_ ha'⟩, hw⟩, hk⟩
  cases hc : reg a with
  | false => rfl
  | true => rw [hr a hc] at ha; cases ha

theorem Leaves.foldl {β : Type} {f : Dev → β → Dev} (h : ∀ (d : Dev) (b : β), Leaves ps reg d (f d b)) (l : List β) (d : Dev) :
    Leaves ps reg d (l.foldl f d) := by
  induction l generalizing d with
  | nil => exact Leaves.refl d
  | cons b l ih => exact (h d b).trans (ih _)

variable (d : Dev)

theorem leaves_onPc (f : PcState → PcState) (h : Part.pc ∈ ps) : Leaves ps reg d (d.onPc f) := by
  refine Leaves.of_parts (fun p hp => ?_) rfl rfl rfl
  cases p
  case pc => exact absurd h hp
  case ul => exact ⟨rfl, rfl, fun _ => rfl⟩
  all_goals rfl

theorem leaves_onFs (f : FsState → FsState) (h : Part.fs ∈ ps) : Leaves ps reg d (d.onFs f) := by
  refine Leaves.of_parts (fun p hp => ?_) rfl rfl rfl
  cases p
  case fs => exact absurd h hp
  case ul => exact ⟨rfl, rfl, fun _ => rfl⟩
  all_goals rfl

theorem leaves_countBy (k e n p m : Nat) : Leaves ps reg d (Dev.countBy k d e n p m) :=
  ⟨⟨⟨fun q _ => same_of_kept (Dev.Kept.countBy d k e n p m) q, fun a _ ha => Dev.countBy_get? k d e n p m a (reportAddr_ob ha)⟩,
    Dev.win_congr (Dev.countBy_wins k d e n p m)⟩, Dev.countBy_kicks k d e n p m⟩

theorem leaves_countBytes (e n : Nat) : Leaves ps reg d (d.countBytes e n) := leaves_countBy d _ _ _ _ _

theorem leaves_raiseIf (c : Bool) (r : Reg) (b : Nat) (h : reg r.addr = true) : Leaves ps reg d (d.raiseIf c r b) :=
  Leaves.ite (leaves_raise d r b h) (Leaves.refl d)

end

/-! ### An event at once -/

/-- No time passes where none is given, but for the cells that the mate lanes have still to send. -/
theorem elapse_zero (d : Dev) : d.elapse 0 = if d.im.state = .held then d else d.mateAdvance := by
  unfold Dev.elapse
  split
  · rfl
  · show (d.mateAdvance).spDrain (min (2 * 0) d.mc.spWait.length) = _
    rw [Nat.mul_zero, Nat.zero_min]
    rfl

/-- Those cells are the protection unit's. -/
theorem mateAdvance_eq (d : Dev) : ∃ f, d.mateAdvance = d.onPx f := by
  unfold Dev.mateAdvance
  extract_lets w x n
  split
  · exact ⟨id, rfl⟩
  · exact ⟨_, rfl⟩

/-- With no time given only the protection unit may move. -/
theorem elapse_zero_eq (d : Dev) : ∃ f, d.elapse 0 = d.onPx f := by
  rw [elapse_zero]
  split
  · exact ⟨id, rfl⟩
  · exact mateAdvance_eq d

end Sys2Proof.Safety

end

/-! What the step's end does not reach even where it flushes queues (R393): the classifier's packets. -/

section

namespace Sys2Proof.Machine

section

variable (d : Dev)

@[simp] theorem Dev.raiseIf_pc (c : Bool) (r : Reg) (b : Nat) : (d.raiseIf c r b).pc = d.pc := by
  simp [Dev.raiseIf, apply_ite Dev.pc]

@[simp] theorem Dev.onQueue_pc (q : Nat) (f : Queue → Queue) : (d.onQueue q f).pc = d.pc := rfl

@[simp] theorem Dev.onCell_pc (n c : Nat) (f : Cell → Cell) : (d.onCell n c f).pc = d.pc := rfl

@[simp] theorem Dev.eccEvent_pc (n c : Nat) (ue link : Bool) (source : Nat) : (d.eccEvent n c ue link source).pc = d.pc := by
  simp [Dev.eccEvent, apply_ite Dev.pc]

@[simp] theorem Dev.checkLinks_pc (n source : Nat) (cs : List Nat) : (d.checkLinks n source cs).1.pc = d.pc := by
  induction cs generalizing d with
  | nil => rfl
  | cons c cs ih =>
    have hc : (d.cellCheck n c true source).1.pc = d.pc := by
      simp [Dev.cellCheck, apply_ite Prod.fst, apply_ite Dev.pc]
    rw [Dev.checkLinks]
    dsimp only
    split
    · exact hc
    · exact (ih _).trans hc

@[simp] theorem Dev.freeCell_pc (n p req c : Nat) : (d.freeCell n p req c).pc = d.pc := by
  unfold Dev.freeCell
  cases d.freeFault n c p with
  | none => rfl
  | some k => simp [Dev.freeDecided, Dev.freeReject]

@[simp] theorem Dev.freeCells_pc (n p req : Nat) (cs : List Nat) : (d.freeCells n p req cs).pc = d.pc :=
  foldl_keeps (·.pc) _ (fun d c => d.freeCell_pc n p req c) cs d

@[simp] theorem Dev.fetchLost_pc (q n : Nat) : (d.fetchLost q n).pc = d.pc := by
  have ha : (d.fetchAbandon q).pc = d.pc := by
    unfold Dev.fetchAbandon
    split
    · split
      · simp
      · rfl
    · rfl
  have hs : ∀ x : Dev, (x.fetchSync q (n == 0)).pc = x.pc := fun x => by
    simp [Dev.fetchSync, apply_ite Dev.pc]
  rw [Dev.fetchLost, hs, apply_ite Dev.pc, ha, ite_self]

@[simp] theorem Dev.setDeficit_pc (c : Child) (x : Int) : (d.setDeficit c x).pc = d.pc := by cases c <;> rfl

@[simp] theorem Dev.settleEmpty_pc (k : Nat) (c : Child) : (d.settleEmpty k c).pc = d.pc := by
  induction k generalizing d c with
  | zero => rfl
  | succ k ih => cases c <;> simp [Dev.settleEmpty, apply_ite Dev.pc, ih]

@[simp] theorem Dev.stat_pc (q i n : Nat) : (d.stat q i n).pc = d.pc := by
  unfold Dev.stat
  split <;> rfl

@[simp] theorem Dev.inflightDown_pc (n : Nat) : (d.inflightDown n).pc = d.pc := by simp [Dev.inflightDown]

@[simp] theorem Dev.sampleDone_pc (q : Nat) (p : Pkt) (len reason : Nat) : (d.sampleDone q p len reason).pc = d.pc := by
  unfold Dev.sampleDone
  split
  · simp [Dev.writeSample, apply_ite Dev.pc]
  · rfl

@[simp] theorem Dev.tmDrop_pc (q : Nat) (p : Pkt) (len reason : Nat) : (d.tmDrop q p len reason).pc = d.pc := by
  simp [Dev.tmDrop, Dev.dropRecirc, apply_ite Dev.pc]

@[simp] theorem Dev.breakList_pc (q n c : Nat) : (d.breakList q n c).pc = d.pc := by
  have hl : ∀ (l : List Held) (x : Dev), (l.foldl (fun d h => d.tmDrop q h.pkt h.len 8) x).pc = x.pc := fun l x =>
    foldl_keeps (fun d : Dev => d.pc) _ (fun d (h : Held) => d.tmDrop_pc q h.pkt h.len 8) l x
  simp [Dev.breakList, hl]

@[simp] theorem Dev.discardHead_pc (q n reason : Nat) : (d.discardHead q n reason).pc = d.pc := by
  unfold Dev.discardHead
  split
  · rfl
  · rename_i h rest _
    have hc := d.checkLinks_pc n (if n = 0 then 0 else 2) h.cells
    split
    all_goals
      rename_i heq
      rw [heq] at hc
      dsimp only at hc
      simp [hc]

@[simp] theorem Dev.flushQueue_pc (q : Nat) : (d.flushQueue q).pc = d.pc := by
  have h : ∀ k (x : Dev), (x.discardAll q 7 k).pc = x.pc := fun k => by
    induction k with
    | zero => exact fun _ => rfl
    | succ k ih =>
      intro x
      rw [Dev.discardAll]
      split
      · rw [ih, Dev.discardHead_pc]
      · rfl
  exact h _ d

/-- Link aggregation that follows its distributing sets flushes queues (R393), and no packet that waits for a pipeline. -/
theorem Dev.lagSync_pc : d.lagSync.pc = d.pc := by
  unfold Dev.lagSync Dev.lagSyncAt
  refine upTo_keeps (·.pc) 8 _ (fun g x => ?_) d
  dsimp only
  split
  · rfl
  · split
    · refine (upTo_keeps (fun z : Dev => z.pc) 8 _ (fun m y => ?_) _).trans rfl
      split
      · exact foldl_keeps (·.pc) _ (fun z q => Dev.flushQueue_pc z q) _ y
      · rfl
    · rfl

end

/-- With no window to run on, the step's end keeps the classifier's packets, whatever the distributing sets do. -/
theorem Dev.settle_pc (d0 : Dev) {d : Dev} (hk : d.kicks = []) : (Dev.settle d0 d).pc = d.pc := by
  unfold Dev.settle
  split
  · rfl
  · rw [Dev.runKicks_nil hk, (Dev.deliver_kept _).pc, (Dev.levels_kept _ _).pc, Dev.lagSync_pc]
    split
    · exact (Dev.fcEvaluate_kept d).pc
    · rfl

end Sys2Proof.Machine

end

/-! A packet's way through its pipeline (spec/07): what it leaves as it was, and where a rule that forwards puts it. -/

section

namespace Sys2Proof.Safety

open Sys2Proof.Machine

section

variable {reg : Nat → Bool} {d d' : Dev}

/-- What becomes of a packet in its pipeline touches the classifier, the flow store, observability and the registers in `reg`, and the
packets that wait for a pipeline wait on. -/
def Classifies (reg : Nat → Bool) (d d' : Dev) : Prop := Leaves [.pc, .fs, .ob] reg d d' ∧ d'.pc.arrivals = d.pc.arrivals

theorem Classifies.trans {d'' : Dev} (h : Classifies reg d d') (k : Classifies reg d' d'') : Classifies reg d d'' :=
  ⟨h.1.trans k.1, k.2.trans h.2⟩

theorem Classifies.refl (d : Dev) : Classifies reg d d := ⟨Leaves.refl d, rfl⟩

theorem Classifies.ite {x y : Dev} {c : Prop} [Decidable c] (h : Classifies reg d x) (k : Classifies reg d y) :
    Classifies reg d (if c then x else y) := by
  split
  · exact h
  · exact k

theorem Leaves.classifies (h : Leaves [.fs, .ob] reg d d') : Classifies reg d d' :=
  ⟨h.mono (by simp) fun _ => id, congrArg PcState.arrivals (h.1.1.1 .pc (by decide))⟩

theorem classifies_takeFlight (d : Dev) (p : Pkt) (outs : List Out) : Classifies reg d (d.takeFlight p outs) := by
  unfold Dev.takeFlight
  extract_lets outs'
  exact Classifies.ite (Classifies.refl d) ⟨leaves_onPc d _ (by decide), rfl⟩

theorem classifies_count (d : Dev) (e : Nat) : Classifies reg d (d.count e) := (leaves_count d e).classifies

theorem classifies_decided (d : Dev) (p : Pkt) (hf : reg (R .PC_FLAGS).addr = true) (hb : reg (R .PC_INFLIGHT p.bank).addr = true) :
    Classifies reg d (d.decided p) := ((leaves_setReg d _ _ hb).trans (leaves_raiseIf _ _ _ _ hf)).classifies

/-- The end of a packet without a destination. -/
theorem classifies_drop (d : Dev) (p : Pkt) (outs : List Out) (hf : reg (R .PC_FLAGS).addr = true)
    (hb : reg (R .PC_INFLIGHT p.bank).addr = true) : Classifies reg d ((d.decided p).takeFlight p outs) :=
  (classifies_decided d p hf hb).trans (classifies_takeFlight _ p outs)

theorem leaves_fsMended {ps : List Part} (d : Dev) (h : Part.fs ∈ ps) : Leaves ps reg d d.fsMended := by
  unfold Dev.fsMended
  exact (leaves_onFs d _ h).trans (Leaves.foldl (fun d _ => leaves_raise_report d _ 4 (by decide)) _ _)

theorem leaves_fsUe {ps : List Part} (d : Dev) (loc : Nat) (hu : reg (R .FS_UE_ADDR).addr = true) : Leaves ps reg d (d.fsUe loc) :=
  (leaves_setReg d _ _ hu).trans (leaves_raise_report _ _ 5 (by decide))

theorem leaves_police {ps : List Part} (d : Dev) (p : Pkt) (ps' : Parsed) (n : Nat) (h : Part.fs ∈ ps) :
    Leaves ps reg d (d.police p ps' n).1 := by
  unfold Dev.police
  extract_lets q pr len base
  generalize q.meter pr d.tick32 len (pr.aware && decide (0 < ps'.outer.tags) && ps'.outer.dei) = m
  obtain ⟨q', colour⟩ := m
  dsimp only
  have h1 : ∀ e e' : Nat, Leaves ps reg d (((d.setPolicer n q').count e).countBytes e' len) := fun e e' =>
    ((leaves_onFs d _ h).trans (leaves_count _ _)).trans (leaves_countBytes _ _ _)
  simp only [apply_ite Prod.fst]
  exact Leaves.ite ((h1 _ _).trans (leaves_count _ _)) (h1 _ _)

theorem leaves_fsLookup {ps : List Part} {d x : Dev} {key pipe : Nat} (hx : d.fsLookup key pipe = .error x)
    (hu : reg (R .FS_UE_ADDR).addr = true) (h : Part.ob ∈ ps) : Leaves ps reg d x := by
  unfold Dev.fsLookup at hx
  split at hx
  · rw [← FsAnswer.error.inj hx]
    exact ((leaves_fsUe d _ hu).trans (leaves_count _ _)).trans (leaves_record _ _ _ _ _ _ h)
  · split at hx <;> cases hx

section

variable (hf : reg (R .PC_FLAGS).addr = true)

include hf

theorem classifies_actRecirc (d : Dev) (p : Pkt) (ps : Parsed) (act : Nat) (hb : reg (R .PC_INFLIGHT p.bank).addr = true) :
    Classifies reg d (d.actRecirc p ps act) := by
  unfold Dev.actRecirc
  split
  · exact (leaves_raise d _ _ hf).classifies.trans (classifies_drop _ p _ hf hb)
  · split
    · exact (classifies_count d _).trans (classifies_drop _ p _ hf hb)
    · dsimp only
      split
      · split
        · exact classifies_takeFlight _ _ _
        · exact (classifies_count d _).trans (classifies_takeFlight _ _ _)
      · exact classifies_takeFlight _ _ _

theorem classifies_actForward (d : Dev) (p : Pkt) (ps : Parsed) (act : Nat) (hb : reg (R .PC_INFLIGHT p.bank).addr = true) :
    Classifies reg d (d.actForward p ps act) := by
  unfold Dev.actForward
  dsimp only
  have hone : ∀ (x : Dev) (c : Prop) [Decidable c] (e : Nat), Classifies reg x (if c then x.count e else x) := fun x c _ e =>
    Classifies.ite (classifies_count x e) (Classifies.refl x)
  exact ((hone d _ _).trans (hone _ _ _)).trans (classifies_drop _ p _ hf hb)

theorem classifies_applyAct (d : Dev) (p : Pkt) (ps : Parsed) (act : Nat) (rule : Bool) (hb : reg (R .PC_INFLIGHT p.bank).addr = true) :
    Classifies reg d (d.applyAct p ps act rule) := by
  unfold Dev.applyAct
  split
  · exact (classifies_count d _).trans (classifies_drop _ p _ hf hb)
  · have h1 : Classifies reg d (if bit act 72 then d.police p ps (bits act 71 52) else (d, p.colour, false)).1 := by
      rw [apply_ite Prod.fst]
      exact Classifies.ite (leaves_police d p ps _ (by decide)).classifies (Classifies.refl d)
    generalize (if bit act 72 then d.police p ps (bits act 71 52) else (d, p.colour, false)) = y at h1
    obtain ⟨d1, colour, dropped⟩ := y
    refine Classifies.trans h1 ?_
    dsimp only
    split
    · exact classifies_drop _ _ _ hf hb
    · split
      · exact classifies_actForward hf _ _ ps act hb
      · exact classifies_drop _ _ _ hf hb
      · exact classifies_actRecirc hf _ _ ps act hb
      · exact classifies_drop _ _ _ hf hb

theorem classifies_classify (d : Dev) (p : Pkt) (hu : reg (R .FS_UE_ADDR).addr = true) (hb : reg (R .PC_INFLIGHT p.bank).addr = true) :
    Classifies reg d (d.classify p) := by
  unfold Dev.classify
  extract_lets ps h p1 d1 d2 b
  have hd : Classifies reg d d1 := Classifies.ite (classifies_count d _) (Classifies.refl d)
  refine hd.trans ?_
  split
  · have h2 : Classifies reg d1 d2 := (leaves_raise d1 _ _ hf).classifies.trans (classifies_count _ _)
    exact h2.trans (Classifies.ite (classifies_drop _ p1 _ hf hb) (classifies_drop _ p1 _ hf hb))
  · split
    · exact (leaves_raise d1 _ _ hf).classifies.trans (classifies_drop _ p1 _ hf hb)
    · extract_lets p2 w3
      split
      · rename_i n d3 _
        have h3 : Classifies reg d1 d3 := ((leaves_onFs d1 _ (by decide)).trans (leaves_fsMended _ (by decide))).classifies
        refine h3.trans ?_
        split
        · exact classifies_applyAct hf _ p2 ps _ _ hb
        · exact Classifies.ite ((classifies_count _ _).trans (classifies_applyAct hf _ p2 ps _ _ hb))
            ((classifies_count _ _).trans (classifies_drop _ p2 _ hf hb))
        · rename_i hx
          exact (leaves_fsLookup hx hu (by decide)).classifies.trans (classifies_drop _ p2 _ hf hb)
      · exact classifies_applyAct hf _ p2 ps _ _ hb

end

end

end Sys2Proof.Safety

end

/-! The first packet that waits for a pipeline enters it (R24, R246, R248, R250). -/

section

namespace Sys2Proof.Machine

open Sys2Proof.Safety (obAddr reportAddr)

/-! ### Flags that stand -/

theorem Dev.flag_raise (d : Dev) {r : Reg} {b : Nat} (ho : obAddr r.addr = false) (hb : b < 32) : (d.raise r b).flag r b = true := by
  rw [Dev.flag, Dev.raise_reg_self _ _ _ ho]
  exact Dev.flag_setFld d r b hb

/-- A flag that sets leaves those of its register that are set. -/
theorem Dev.flag_raise_up {d : Dev} {r : Reg} {i : Nat} (b : Nat) (h : d.flag r i = true) (ho : obAddr r.addr = false) (hb : b < 32) :
    (d.raise r b).flag r i = true := by
  by_cases hi : i = b
  · subst hi
    exact d.flag_raise ho hb
  · rw [Dev.flag, Dev.raise_reg_self _ _ _ ho, ← Dev.flag, Dev.flag_setFld_ne _ _ _ _ _ _ hb (by omega) (by omega)]
    exact h

theorem Dev.flag_raiseIf_up {d : Dev} {r : Reg} {i : Nat} (c : Bool) (b : Nat) (h : d.flag r i = true) (ho : obAddr r.addr = false)
    (hb : b < 32) : (d.raiseIf c r b).flag r i = true := by
  unfold Dev.raiseIf
  split
  · exact Dev.flag_raise_up b h ho hb
  · exact h

@[simp] theorem Dev.takeFlight_regs (d : Dev) (p : Pkt) (outs : List Out) : (d.takeFlight p outs).regs = d.regs := by
  simp [Dev.takeFlight, apply_ite Dev.regs]

/-- The in-flight counts of the two banks are none of the other registers. -/
theorem inflight_ne {b a : Nat} (hb : b < 2) (h0 : a ≠ 0x1800004) (h1 : a ≠ 0x1800008) : (R .PC_INFLIGHT b).addr ≠ a := by
  have : (R .PC_INFLIGHT b).addr = 0x1800004 + 4 * b := rfl
  omega

/-- A packet that is done leaves the classifier's flags that are set. -/
theorem Dev.flag_drop {d : Dev} {p : Pkt} {i : Nat} (outs : List Out) (hb : p.bank < 2) (h : d.flag (R .PC_FLAGS) i = true) :
    ((d.decided p).takeFlight p outs).flag (R .PC_FLAGS) i = true := by
  rw [Dev.flag, Dev.reg_congr (Dev.takeFlight_regs _ _ _), ← Dev.flag]
  refine Dev.flag_raiseIf_up _ 1 ?_ (by decide) (by decide)
  rw [Dev.flag, Dev.reg_setReg_ne _ _ _ _ (inflight_ne hb (by decide) (by decide))]
  exact h

/-! ### Classification by its cases (R248) -/

/-- The packet as its pipeline classifies it: with its hash and its slice. -/
def Dev.hashed (d : Dev) (p : Pkt) : Pkt :=
  { p with hash := symHash (parse d.parseCfg p.bytes) (d.reg (R .PC_HASH_SEED)) (d.flag (R .PC_CFG) 9)
           slice := if p.second then p.slice else d.sourceSlice p.src }

/-- The count of a packet that is too deep for the parser. -/
def Dev.deepCount (d : Dev) (p : Pkt) : Dev := if (parse d.parseCfg p.bytes).deep then d.count 0xB1 else d

@[simp] theorem Dev.deepCount_pc (d : Dev) (p : Pkt) : (d.deepCount p).pc = d.pc := by simp [Dev.deepCount, apply_ite Dev.pc]

@[simp] theorem Dev.deepCount_im (d : Dev) (p : Pkt) : (d.deepCount p).im = d.im := by simp [Dev.deepCount, apply_ite Dev.im]

theorem Dev.classify_unparsed {d : Dev} {p : Pkt} (h : (parse d.parseCfg p.bytes).reason ≠ 0) : ∃ outs,
    d.classify p = ((((d.deepCount p).raise (R .PC_FLAGS) 2).count (0xA7 + (parse d.parseCfg p.bytes).reason)).decided
      (d.hashed p)).takeFlight (d.hashed p) outs := by
  unfold Dev.classify
  extract_lets ps h1 p1 d1 d2 b
  rw [if_pos h]
  split
  · exact ⟨_, rfl⟩
  · exact ⟨_, rfl⟩

theorem Dev.classify_unmatched {d : Dev} {p : Pkt} (h : (parse d.parseCfg p.bytes).reason = 0)
    (hp : (d.bank p.bank).pick p (parse d.parseCfg p.bytes) = none) :
    d.classify p = (((d.deepCount p).raise (R .PC_FLAGS) 3).decided (d.hashed p)).takeFlight (d.hashed p) [] := by
  have hb : (d.deepCount p).bank p.bank = d.bank p.bank := by simp [Dev.bank]
  have hp' : ((d.deepCount p).bank (d.hashed p).bank).pick (d.hashed p) (parse d.parseCfg p.bytes) = none :=
    (congrArg (fun b : PcBank => b.pick p (parse d.parseCfg p.bytes)) hb).trans hp
  unfold Dev.classify
  dsimp only
  rw [if_neg (not_not_intro h)]
  simp only [Dev.hashed, Dev.deepCount] at hp'
  rw [hp']
  rfl

theorem Dev.classify_rule {d : Dev} {p : Pkt} {r : List Nat} (h : (parse d.parseCfg p.bytes).reason = 0)
    (hp : (d.bank p.bank).pick p (parse d.parseCfg p.bytes) = some r) (hl : bit (ruleWord r 3) 9 = false) :
    d.classify p = (d.deepCount p).applyAct { d.hashed p with slice := (d.deepCount p).sliceFor (d.hashed p) r }
      (parse d.parseCfg p.bytes) (ruleAct r) true := by
  have hb : (d.deepCount p).bank p.bank = d.bank p.bank := by simp [Dev.bank]
  have hp' : ((d.deepCount p).bank (d.hashed p).bank).pick (d.hashed p) (parse d.parseCfg p.bytes) = some r :=
    (congrArg (fun b : PcBank => b.pick p (parse d.parseCfg p.bytes)) hb).trans hp
  unfold Dev.classify
  dsimp only
  rw [if_neg (not_not_intro h)]
  simp only [Dev.hashed, Dev.deepCount] at hp'
  rw [hp']
  dsimp only
  rw [if_neg (by simp [hl])]
  rfl

/-- The slice of a first pass is the structure's (R247). -/
theorem Dev.sliceFor_first {d d' : Dev} {p p' : Pkt} (him : d'.im = d.im) (hs : p'.src = p.src) (h2 : p.second = false)
    (h2' : p'.second = false) (r : List Nat) : d'.sliceFor p' r = d.sliceFor p r := by
  simp [Dev.sliceFor, Dev.sourceSlice, Dev.sliceOfTree, Dev.treeInSlice, Dev.slicesOfPort, Dev.slice, him, hs, h2, h2']

theorem Dev.actQueueOk_congr {d d' : Dev} (him : d'.im = d.im) (act s : Nat) : d'.actQueueOk act s = d.actQueueOk act s := by
  simp [Dev.actQueueOk, Dev.nQueues, Dev.units, Dev.sliceOfQueue, him]

/-! ### A rule that forwards (R250) -/

theorem Dev.applyAct_forward {d : Dev} {p : Pkt} {ps : Parsed} {act : Nat} (hq : d.actQueueOk act p.slice = true)
    (hf : bits act 79 78 = 1) (hm : bit act 72 = false) : d.applyAct p ps act true = d.actForward p ps act := by
  have hpol : d.actPolicerOk act p.slice = true := by simp [Dev.actPolicerOk, hm]
  unfold Dev.applyAct
  rw [if_neg (by simp [hq, hpol])]
  simp only [hm, hf, Bool.false_eq_true, if_false]

/-- Without copy and mirror the edited packet alone waits for its commit. -/
theorem Dev.actForward_flights {d : Dev} {p : Pkt} {ps : Parsed} {act : Nat} (h : bits act 77 76 = 0) : ∃ f,
    (d.actForward p ps act).pc.flights = d.pc.flights ++ [f] ∧ f.pipe = p.pipe ∧ f.outs.map Out.queue = [bits act 51 33] := by
  have hbits : bit act 76 = false ∧ bit act 77 = false := by
    simp only [bits, bit] at *
    constructor <;> simp only [beq_eq_false_iff_ne] <;> omega
  have hlen : ∀ (x : Dev) (o : Out), (x.takeFlight p [o]).pc.flights =
      x.pc.flights ++ [⟨p.pipe, p, [{ o with pkt := o.pkt.checked }], none⟩] := fun x o => by simp [Dev.takeFlight]
  unfold Dev.actForward
  simp only [hbits, Bool.false_eq_true, false_and, if_false, List.append_nil]
  refine ⟨_, (hlen _ _).trans (congrArg (· ++ _) ?_), rfl, rfl⟩
  simp [Dev.decided, apply_ite Dev.pc]

/-! ### The packet that enters -/

theorem Dev.activeBank_lt (d : Dev) : d.activeBank < 2 := Safety.bits_lt _ 0 0

theorem Dev.ingress_stalled {d : Dev} {pipe : Nat} (h : d.pipeStalled pipe = true) : d.ingress pipe = d := by simp [Dev.ingress, h]

/-- The device that a first-pass packet enters: the others wait on, and it counts in flight under the active bank. -/
def Dev.admits (d : Dev) (rest : List Pkt) : Dev := (d.onPc fun x => { x with arrivals := rest }).inflightUp d.activeBank

/-- A first-pass packet as it enters a pipeline. -/
def Dev.stamped (d : Dev) (pipe : Nat) (p : Pkt) : Pkt :=
  { p with pipe := pipe, bank := d.activeBank, epoch := d.epoch, tick := d.tb.ticks, c := d.now }

theorem Dev.ingress_first {d : Dev} {pipe : Nat} {p : Pkt} {rest : List Pkt} (h : d.pipeStalled pipe = false)
    (ht : takeFirst (fun p => d.pktPipe p == pipe) d.pc.arrivals = some (p, rest)) (h2 : p.second = false) :
    d.ingress pipe = (d.admits rest).classify (d.stamped pipe p) := by
  unfold Dev.ingress
  rw [if_neg (by simp [h]), ht]
  dsimp only
  rw [if_neg (by simp [h2])]
  rfl

theorem Dev.admits_parseCfg (d : Dev) (rest : List Pkt) : (d.admits rest).parseCfg = d.parseCfg := by
  have hr : ∀ r : Reg, r.addr ≠ 0x1800004 → r.addr ≠ 0x1800008 → (d.admits rest).reg r = d.reg r := fun r h0 h1 =>
    Dev.reg_setReg_ne _ _ _ _ (inflight_ne d.activeBank_lt h0 h1)
  have ht := hr (R .PC_TUNNEL_PORTS) (by decide) (by decide)
  have hp := hr (R .PC_TPID_CFG) (by decide) (by decide)
  unfold Dev.parseCfg Dev.fld Dev.flag
  rw [ht, hp]

/-- No rule in the bank: the packet is reported as one that no rule matched, or as one that could not be parsed. -/
theorem Dev.ingress_noRules {d : Dev} {pipe : Nat} {p : Pkt} {rest : List Pkt} (h : d.pipeStalled pipe = false)
    (ht : takeFirst (fun p => d.pktPipe p == pipe) d.pc.arrivals = some (p, rest)) (h2 : p.second = false)
    (hr : (d.bank d.activeBank).rules = []) :
    (d.ingress pipe).flag (R .PC_FLAGS) (if (parse d.parseCfg p.bytes).reason = 0 then 3 else 2) = true := by
  have hcfg := d.admits_parseCfg rest
  have hparse : parse (d.admits rest).parseCfg (d.stamped pipe p).bytes = parse d.parseCfg p.bytes := by rw [hcfg]; rfl
  have hbank : ((d.admits rest).hashed (d.stamped pipe p)).bank < 2 := d.activeBank_lt
  rw [Dev.ingress_first h ht h2]
  split
  case isTrue h0 =>
    have hnone : ((d.admits rest).bank (d.stamped pipe p).bank).pick (d.stamped pipe p)
        (parse (d.admits rest).parseCfg (d.stamped pipe p).bytes) = none := by
      show ((d.bank d.activeBank).rules.find? _).map _ = none
      rw [hr]
      rfl
    rw [Dev.classify_unmatched (by rw [hparse]; exact h0) hnone]
    exact Dev.flag_drop _ hbank (Dev.flag_raise _ (by decide) (by decide))
  case isFalse h0 =>
    obtain ⟨outs, ho⟩ := Dev.classify_unparsed (d := d.admits rest) (p := d.stamped pipe p) (by rw [hparse]; exact h0)
    rw [ho]
    refine Dev.flag_drop _ hbank ?_
    rw [Dev.flag, Dev.count_reg _ _ _ (by decide)]
    exact Dev.flag_raise _ (by decide) (by decide)

/-- The packet's rule forwards it: it waits for its commit to the rule's queue. -/
theorem Dev.ingress_forwards {d : Dev} {pipe : Nat} {p : Pkt} {rest : List Pkt} {r : List Nat} (h : d.pipeStalled pipe = false)
    (ht : takeFirst (fun p => d.pktPipe p == pipe) d.pc.arrivals = some (p, rest)) (h2 : p.second = false)
    (h0 : (parse d.parseCfg p.bytes).reason = 0) (hp : (d.bank d.activeBank).pick p (parse d.parseCfg p.bytes) = some r)
    (hl : bit (ruleWord r 3) 9 = false) (hf : bits (ruleAct r) 79 78 = 1) (hm : bit (ruleAct r) 72 = false)
    (hc : bits (ruleAct r) 77 76 = 0) (hq : d.actQueueOk (ruleAct r) (d.sliceFor p r) = true) : ∃ f,
    (d.ingress pipe).pc.flights = d.pc.flights ++ [f] ∧ f.pipe = pipe ∧ f.outs.map Out.queue = [bits (ruleAct r) 51 33] := by
  have hcfg := d.admits_parseCfg rest
  have hparse : parse (d.admits rest).parseCfg (d.stamped pipe p).bytes = parse d.parseCfg p.bytes := by rw [hcfg]; rfl
  have him : ((d.admits rest).deepCount (d.stamped pipe p)).im = d.im := Dev.deepCount_im _ _
  have hslice := Dev.sliceFor_first (p := p) (p' := (d.admits rest).hashed (d.stamped pipe p)) him rfl h2 h2 r
  rw [Dev.ingress_first h ht h2, Dev.classify_rule (by rw [hparse]; exact h0) (by rw [hparse]; exact hp) hl,
    Dev.applyAct_forward (by rw [Dev.actQueueOk_congr him, hslice]; exact hq) hf hm]
  obtain ⟨f, hfl, hpipe, hout⟩ := Dev.actForward_flights (d := (d.admits rest).deepCount (d.stamped pipe p))
    (p := { (d.admits rest).hashed (d.stamped pipe p) with
      slice := ((d.admits rest).deepCount (d.stamped pipe p)).sliceFor ((d.admits rest).hashed (d.stamped pipe p)) r })
    (ps := parse (d.admits rest).parseCfg (d.stamped pipe p).bytes) hc
  exact ⟨f, hfl.trans (by rw [Dev.deepCount_pc]; rfl), hpipe, hout⟩

end Sys2Proof.Machine

namespace Sys2Proof.Safety

open Sys2Proof.Machine

/-- The packet that enters leaves the others waiting, and touches no more than the classifier. -/
theorem leaves_ingress {reg : Nat → Bool} {d : Dev} {pipe : Nat} {p : Pkt} {rest : List Pkt} (h : d.pipeStalled pipe = false)
    (ht : takeFirst (fun p => d.pktPipe p == pipe) d.pc.arrivals = some (p, rest)) (hf : reg (R .PC_FLAGS).addr = true)
    (hu : reg (R .FS_UE_ADDR).addr = true) (hb : reg (R .PC_INFLIGHT (if p.second then p.bank else d.activeBank)).addr = true) :
    Leaves [.pc, .fs, .ob] reg d (d.ingress pipe) ∧ (d.ingress pipe).pc.arrivals = rest := by
  have hrest : Leaves [.pc, .fs, .ob] reg d (d.onPc fun x => { x with arrivals := rest }) := leaves_onPc d _ (by decide)
  unfold Dev.ingress
  rw [if_neg (by simp [h]), ht]
  dsimp only
  split
  case isTrue h2 =>
    rw [if_pos h2] at hb
    have hup : Classifies reg (d.onPc fun x => { x with arrivals := rest })
        (if p.recirc then d.onPc fun x => { x with arrivals := rest } else (d.onPc fun x => { x with arrivals := rest }).inflightUp p.bank) :=
      Classifies.ite (Classifies.refl _) (leaves_setReg _ _ _ hb).classifies
    obtain ⟨hl, ha⟩ := hup.trans (classifies_classify hf _ { p with pipe := pipe, recirc := false, tick := d.tb.ticks, c := d.now } hu hb)
    exact ⟨hrest.trans hl, ha⟩
  case isFalse h2 =>
    rw [if_neg h2] at hb
    have hup : Classifies reg (d.onPc fun x => { x with arrivals := rest }) (d.admits rest) := (leaves_setReg _ _ _ hb).classifies
    obtain ⟨hl, ha⟩ := hup.trans (classifies_classify hf _ (d.stamped pipe p) hu hb)
    exact ⟨hrest.trans hl, ha⟩

end Sys2Proof.Safety

end

/-! The flow store at work (spec/08): reads that correct, the scrub, and the migration to a new layout. -/

section

namespace Sys2Proof.Machine

open Sys2Proof.Safety (obAddr reportAddr)

/-! ### Reads that correct (R265) -/

theorem FsSlot.mend_of_mends {x : FsSlot} {e : Bool} (h : x.mends e = 0) : x.mend e = x := by
  obtain ⟨valid, gen, key, act, ent, tag⟩ := x
  simp only [FsSlot.mends, b2n] at h
  simp only [FsSlot.mend, FsSlot.mk.injEq, true_and]
  constructor
  · cases e <;> simp_all
  · split <;> simp_all

theorem FsState.slot_mendSlot (e : FsSlot → Bool) (s : FsState) (i j : Nat) :
    (FsState.mendSlot e s i).slot j = if i = j then (s.slot j).mend (e (s.slot j)) else s.slot j := by
  unfold FsState.mendSlot
  dsimp only
  split
  case isTrue h0 =>
    split
    case isTrue hij => rw [← hij, FsSlot.mend_of_mends h0]
    case isFalse => rfl
  case isFalse =>
    simp only [FsState.slot, Table.getD_put]
    split
    case isTrue hij => rw [hij]
    case isFalse => rfl

theorem FsState.mended_mendSlot (e : FsSlot → Bool) (s : FsState) (i : Nat) :
    (FsState.mendSlot e s i).mended = s.mended + (s.slot i).mends (e (s.slot i)) := by
  unfold FsState.mendSlot
  dsimp only
  split
  case isTrue h0 => omega
  case isFalse => rfl

/-- Slots read one after another, each once. -/
theorem FsState.slot_mendSlots (e : FsSlot → Bool) {l : List Nat} (hn : l.Nodup) (s : FsState) (j : Nat) :
    (l.foldl (FsState.mendSlot e) s).slot j = if j ∈ l then (s.slot j).mend (e (s.slot j)) else s.slot j := by
  induction l generalizing s with
  | nil => simp
  | cons i l ih =>
    obtain ⟨hi, hl⟩ := List.nodup_cons.mp hn
    rw [List.foldl_cons, ih hl, FsState.slot_mendSlot]
    by_cases hij : i = j
    · subst hij
      simp [hi]
    · simp [hij, Ne.symm hij]

theorem FsState.mended_mendSlots (e : FsSlot → Bool) (l : List Nat) (s : FsState) :
    s.mended ≤ (l.foldl (FsState.mendSlot e) s).mended := by
  induction l generalizing s with
  | nil => exact Nat.le_refl _
  | cons i l ih =>
    have h := ih (FsState.mendSlot e s i)
    rw [FsState.mended_mendSlot] at h
    exact Nat.le_trans (Nat.le_add_right _ _) h

/-- A slot among those read counts what it corrects. -/
theorem FsState.mends_le_mended (e : FsSlot → Bool) {l : List Nat} (hn : l.Nodup) (s : FsState) {j : Nat} (hj : j ∈ l) :
    (s.slot j).mends (e (s.slot j)) ≤ (l.foldl (FsState.mendSlot e) s).mended := by
  induction l generalizing s with
  | nil => cases hj
  | cons i l ih =>
    obtain ⟨hi, hl⟩ := List.nodup_cons.mp hn
    rw [List.foldl_cons]
    by_cases hij : i = j
    · subst hij
      have h := FsState.mended_mendSlots e l (FsState.mendSlot e s i)
      rw [FsState.mended_mendSlot] at h
      omega
    · have h := ih hl (FsState.mendSlot e s i) ((List.mem_cons.mp hj).resolve_left (Ne.symm hij))
      rwa [FsState.slot_mendSlot, if_neg hij] at h

theorem bucketSlots_nodup (b : Nat) : (bucketSlots b).Nodup := by simp [bucketSlots]

theorem mem_bucketSlots {b i : Nat} (h : i < 4) : 4 * b + i ∈ bucketSlots b := by
  simp only [bucketSlots, List.mem_cons, List.not_mem_nil, or_false]
  omega

section

variable (d : Dev)

@[simp] theorem Dev.fsMended_fs : d.fsMended.fs = { d.fs with mended := 0 } :=
  foldl_keeps (fun x : Dev => x.fs) _ (fun x _ => x.raise_fs _ 4) _ _

theorem Dev.fsMended_reg {r : Reg} (ho : obAddr r.addr = false) (hr : (R .FS_FLAGS).addr ≠ r.addr) : d.fsMended.reg r = d.reg r :=
  foldl_keeps (fun x : Dev => x.reg r) _ (fun x _ => x.raise_reg_ne _ _ 4 ho hr) _ _

/-- What a read corrects is reported. -/
theorem Dev.fsMended_reports (h : d.fs.mended ≠ 0) : d.fsMended.flag (R .FS_FLAGS) 4 = true := by
  obtain ⟨n, hn⟩ := Nat.exists_eq_succ_of_ne_zero h
  unfold Dev.fsMended
  rw [hn, List.range_succ, List.foldl_append, List.foldl_cons, List.foldl_nil]
  exact Dev.flag_raise _ (by decide) (by decide)

@[simp] theorem Dev.fsUe_fs (loc : Nat) : (d.fsUe loc).fs = d.fs := by simp [Dev.fsUe]

theorem Dev.fsUe_reports (loc : Nat) : (d.fsUe loc).flag (R .FS_FLAGS) 5 = true := Dev.flag_raise _ (by decide) (by decide)

theorem Dev.fsUe_up {loc i : Nat} {d : Dev} (h : d.flag (R .FS_FLAGS) i = true) : (d.fsUe loc).flag (R .FS_FLAGS) i = true :=
  Dev.flag_raise_up 5 (by rw [Dev.flag, Dev.reg_setReg_ne _ _ _ _ (by decide)]; exact h) (by decide) (by decide)

end

/-! ### The scrub (R265) -/

/-- The errors that the scrub logs: the fold over the slots that fail. -/
def Dev.logFailed (d : Dev) (l : List Nat) : Dev := l.foldl (fun d i => (d.fsUe i).record 0xC5 .fs 0 true [(4, i)]) d

@[simp] theorem Dev.logFailed_fs (d : Dev) (l : List Nat) : (d.logFailed l).fs = d.fs :=
  foldl_keeps (fun x : Dev => x.fs) _ (fun x i => by simp) l d

theorem Dev.logFailed_up {d : Dev} {i : Nat} (l : List Nat) (h : d.flag (R .FS_FLAGS) i = true) :
    (d.logFailed l).flag (R .FS_FLAGS) i = true := by
  induction l generalizing d with
  | nil => exact h
  | cons j l ih =>
    refine ih ?_
    rw [Dev.flag, Dev.record_reg _ _ _ _ _ _ _ (by decide)]
    exact Dev.fsUe_up h

theorem Dev.logFailed_reports {d : Dev} {l : List Nat} (h : l ≠ []) : (d.logFailed l).flag (R .FS_FLAGS) 5 = true := by
  cases l with
  | nil => exact absurd rfl h
  | cons j l =>
    refine Dev.logFailed_up l ?_
    rw [Dev.flag, Dev.record_reg _ _ _ _ _ _ _ (by decide)]
    exact Dev.fsUe_reports _ _

/-- The store after the scrub of bucket b, but for the corrections to report. -/
def FsState.scrubbed (s : FsState) (b : Nat) : FsState := (bucketSlots b).foldl (FsState.mendSlot fun _ => true) s

/-- The device after an error has arisen and the scrub has read bucket b. -/
def Dev.scrubRead (d : Dev) (b : Nat) (x : Nat × Nat) : Dev := (d.onFs fun s => s.upset x).fsRead fun s => s.scrubbed b

theorem FsState.slot_mended (s : FsState) (n j : Nat) : ({ s with mended := n } : FsState).slot j = s.slot j := rfl

theorem Dev.scrubRead_fs (d : Dev) (b : Nat) (x : Nat × Nat) :
    (d.scrubRead b x).fs = { (d.fs.upset x).scrubbed b with mended := 0 } := Dev.fsMended_fs _

theorem Dev.scrubRead_slot (d : Dev) (b : Nat) (x : Nat × Nat) (j : Nat) :
    (d.scrubRead b x).fs.slot j = ((d.fs.upset x).scrubbed b).slot j := by rw [Dev.scrubRead_fs, FsState.slot_mended]

/-- The scrub with one error that has arisen in a slot of the carved array. -/
theorem Dev.fsScrub_one (d : Dev) (b : Nat) {j : Nat} (k : Nat) (hj : j < 2097152 * d.units 0 / 256) :
    d.fsScrub b [(j, k)] = (d.scrubRead b (j, k)).logFailed ((bucketSlots b).filter fun i =>
      ((d.scrubRead b (j, k)).fs.slot i).failed) := by
  have hhere : [(j, k)].filter (fun x => bit x.1 31 || decide (x.1 < 2097152 * d.units 0 / 256)) = [(j, k)] := by simp [hj]
  unfold Dev.fsScrub Dev.scrubRead Dev.logFailed FsState.scrubbed
  simp only [hhere, List.foldl_cons, List.foldl_nil]

theorem slot_lt_bit {j : Nat} (h : j < 2 ^ 21) : bit j 31 = false := by
  simp only [bit, beq_eq_false_iff_ne]
  omega

/-- An error in a slot's entry (1, 2) or tag (3, 4). -/
theorem FsState.slot_upset (s : FsState) {j : Nat} (k : Nat) (hj : j < 2 ^ 21) (hk : 1 ≤ k ∧ k ≤ 4) : (s.upset (j, k)).slot j =
    if k ≤ 2 then { s.slot j with ent := max (s.slot j).ent k } else { s.slot j with tag := max (s.slot j).tag (k - 2) } := by
  have hb := slot_lt_bit hj
  unfold FsState.upset
  simp only [FsState.entry, FsState.write, hb, Bool.false_eq_true, false_and, if_false]
  by_cases h2 : k ≤ 2
  · rw [if_pos (by omega), if_pos h2]
    simp [FsState.slot]
  · rw [if_neg (by omega), if_pos (by omega), if_neg h2]
    simp [FsState.slot]

theorem FsState.slot_scrubbed (s : FsState) {b i : Nat} (hi : i < 4) : (s.scrubbed b).slot (4 * b + i) = (s.slot (4 * b + i)).mend true := by
  rw [FsState.scrubbed, FsState.slot_mendSlots _ (bucketSlots_nodup b), if_pos (mem_bucketSlots hi)]

/-- The scrub corrects and reports a single-bit error. -/
theorem Dev.fsScrub_corrects {d : Dev} {b i j k : Nat} (hi : i < 4) (hj : j = 4 * b + i) (hc : j < 2097152 * d.units 0 / 256)
    (hm : ((d.fs.upset (j, k)).slot j).mends true ≠ 0) : (d.fsScrub b [(j, k)]).flag (R .FS_FLAGS) 4 = true := by
  rw [d.fsScrub_one b k hc]
  refine Dev.logFailed_up _ (Dev.fsMended_reports _ ?_)
  have h := FsState.mends_le_mended (fun _ => true) (bucketSlots_nodup b) (d.fs.upset (j, k)) (mem_bucketSlots (b := b) hi)
  rw [← hj] at h
  show ((d.fs.upset (j, k)).scrubbed b).mended ≠ 0
  unfold FsState.scrubbed
  omega

/-- The scrub logs an uncorrectable error. -/
theorem Dev.fsScrub_logs {d : Dev} {b i j k : Nat} (hi : i < 4) (hj : j = 4 * b + i) (hc : j < 2097152 * d.units 0 / 256)
    (hf : (((d.fs.upset (j, k)).slot j).mend true).failed = true) : (d.fsScrub b [(j, k)]).flag (R .FS_FLAGS) 5 = true := by
  rw [d.fsScrub_one b k hc]
  refine Dev.logFailed_reports (List.ne_nil_of_mem (a := j) ?_)
  rw [List.mem_filter, hj]
  refine ⟨mem_bucketSlots hi, ?_⟩
  rw [Dev.scrubRead_slot, FsState.slot_scrubbed _ hi, ← hj]
  exact hf

/-- What the scrub leaves in the slot that the error struck. -/
theorem Dev.fsScrub_slot {d : Dev} {b i j : Nat} (k : Nat) (hi : i < 4) (hj : j = 4 * b + i) (hc : j < 2097152 * d.units 0 / 256) :
    (d.fsScrub b [(j, k)]).fs.slot j = ((d.fs.upset (j, k)).slot j).mend true := by
  rw [d.fsScrub_one b k hc, Dev.logFailed_fs, Dev.scrubRead_slot, hj, FsState.slot_scrubbed _ hi]

/-! ### Placement keeps the generation (R271) -/

/-- The store after a placement, whatever its outcome. -/
def Placed.store : Placed → FsState
  | .at s _ => s
  | .full s => s
  | .error s _ => s

@[simp] theorem FsState.mendSlot_gen (e : FsSlot → Bool) (s : FsState) (i : Nat) : (FsState.mendSlot e s i).gen = s.gen := by
  simp [FsState.mendSlot, apply_ite FsState.gen]

@[simp] theorem FsState.mendBucket_gen (s : FsState) (b : Nat × Bool) : (s.mendBucket b).gen = s.gen :=
  foldl_keeps FsState.gen _ (fun s i => s.mendSlot_gen _ i) _ s

@[simp] theorem FsState.mendSearch_gen (s : FsState) (b : Nat) : (s.mendSearch b).gen = s.gen :=
  foldl_keeps FsState.gen _ (fun s i => s.mendSlot_gen _ i) _ s

@[simp] theorem FsState.mendStash_gen (s : FsState) : s.mendStash.gen = s.gen :=
  foldl_keeps FsState.gen _ (fun s kv => by simp [apply_ite FsState.gen]) _ s

@[simp] theorem FsState.write_gen (s : FsState) (loc : Nat) (x : FsSlot) : (s.write loc x).gen = s.gen := by
  simp [FsState.write, apply_ite FsState.gen]

@[simp] theorem FsState.freeAll_gen (s : FsState) (l : List Nat) : (s.freeAll l).gen = s.gen :=
  foldl_keeps FsState.gen _ (fun s i => s.write_gen i _) l s

@[simp] theorem FsState.moveReverse_gen (s : FsState) (path : List (Nat × Bool)) (dest : Nat) : (s.moveReverse path dest).gen = s.gen := by
  induction path generalizing s dest with
  | nil => rfl
  | cons x path ih => rw [FsState.moveReverse, ih]

/-- The recursive calls that a search with `fuel` left finds below it. -/
abbrev FsState.searchBelow (fuel : Nat) := Nat.below (motive := fun _ => FsState → Nat → Nat → List (Nat × Bool) → Placed) fuel

/-- One move of the search (R266) keeps the generation when the search from there on does. Stated of the recursion's own
step: the equations that Lean derives for `search` evaluate the reads of a bucket and run out of time. -/
theorem FsState.searchStep_gen (l : FsLay) (step : Bool) (forbid : List Nat) (h1 : Nat) (new : FsSlot) (fuel : Nat)
    (below : FsState.searchBelow (fuel + 1)) (ih : ∀ s n x path, (below.1 s n x path).store.gen = s.gen) (s : FsState) (n x : Nat)
    (path : List (Nat × Bool)) : (FsState.search._f l step forbid h1 new (fuel + 1) below s n x path).store.gen = s.gen := by
  delta FsState.search._f
  dsimp only
  split
  · rfl
  · rename_i i y _
    have hm := s.mendSearch_gen y.1
    generalize s.mendSearch y.1 = s' at hm ⊢
    split
    · exact hm
    · split
      · exact (FsState.moveReverse_gen _ _ _).trans hm
      · exact (ih _ _ _ _).trans hm

/-- A recursion on the fuel keeps the generation when each of its steps does. -/
theorem FsState.brecOn_gen (F : (fuel : Nat) → FsState.searchBelow fuel → FsState → Nat → Nat → List (Nat × Bool) → Placed)
    (hzero : ∀ below s n x path, (F 0 below s n x path).store.gen = s.gen)
    (hsucc : ∀ fuel (below : FsState.searchBelow (fuel + 1)), (∀ s n x path, (below.1 s n x path).store.gen = s.gen) →
      ∀ s n x path, (F (fuel + 1) below s n x path).store.gen = s.gen) (fuel : Nat) :
    ∀ s n x path, (Nat.brecOn (motive := fun _ => FsState → Nat → Nat → List (Nat × Bool) → Placed) fuel F s n x path).store.gen =
      s.gen := by
  induction fuel with
  | zero => exact hzero _
  | succ fuel ih => exact hsucc fuel _ ih

theorem FsState.search_gen (l : FsLay) (step : Bool) (forbid : List Nat) (h1 : Nat) (new : FsSlot) (fuel : Nat) (s : FsState) (n x : Nat)
    (path : List (Nat × Bool)) : (FsState.search l step forbid h1 new fuel s n x path).store.gen = s.gen := by
  delta FsState.search
  refine FsState.brecOn_gen (FsState.search._f l step forbid h1 new) ?_ (FsState.searchStep_gen l step forbid h1 new) fuel s n x path
  exact fun _ _ _ _ _ => rfl

theorem FsState.place_gen (s : FsState) (l : FsLay) (step : Bool) (forbid : List Nat) (stashOk : Bool) (key act : Nat) :
    (s.place l step forbid stashOk key act).store.gen = s.gen := by
  unfold FsState.place
  generalize owners l s.gen key = c
  have hc : (c.foldl FsState.mendBucket s).gen = s.gen := foldl_keeps FsState.gen _ (fun s b => s.mendBucket_gen b) c s
  dsimp only
  generalize c.foldl FsState.mendBucket s = s1 at hc ⊢
  split
  · exact hc
  · rcases c with _ | ⟨a, _ | ⟨b, _ | ⟨_, _⟩⟩⟩
    case cons.cons.nil =>
      dsimp only
      split
      · exact (FsState.write_gen _ _ _).trans hc
      · exact (FsState.write_gen _ _ _).trans hc
      · have h2 : (s1.mendSearch a.1).gen = s.gen := (FsState.mendSearch_gen _ _).trans hc
        generalize s1.mendSearch a.1 = s2 at h2 ⊢
        split
        · exact h2
        · generalize keyH1 key (if l.moving ∧ !(a.2 == s2.gen) then l.newSeed else l.seed) = h1
          have hs := FsState.search_gen l step forbid h1 ⟨true, a.2, key, act, 0, 0⟩ 32 s2 0 a.1 []
          split
          · rename_i s3 h3
            rw [h3] at hs
            have hs3 : s3.gen = s.gen := hs.trans h2
            split
            · split
              · exact (FsState.write_gen _ _ _).trans hs3
              · exact hs3
            · exact hs3
          · exact hs.trans h2
    all_goals exact hc

theorem FsState.placeAll_gen (l : FsLay) (forbid : List Nat) (xs : List FsSlot) (s : FsState) :
    (FsState.placeAll l forbid s xs).1.gen = s.gen := by
  induction xs generalizing s with
  | nil => rfl
  | cons x xs ih =>
    have hp := s.place_gen l true forbid true x.key x.act
    rw [FsState.placeAll]
    split
    all_goals
      rename_i h
      rw [h] at hp
    · exact (ih _).trans hp
    · exact hp
    · exact hp

@[simp] theorem FsState.unstash_gen (l : FsLay) (s : FsState) : (s.unstash l).gen = s.gen := by
  unfold FsState.unstash
  refine (foldl_keeps FsState.gen _ (fun s kv => ?_) _ _).trans s.mendStash_gen
  split
  · rfl
  · have hp := s.place_gen l false [] false kv.2.key kv.2.act
    split
    all_goals
      rename_i h
      rw [h] at hp
      exact hp

/-- Slots below the stash freed. -/
theorem FsState.slot_freeAll {l : List Nat} (s : FsState) (hl : ∀ i ∈ l, bit i 31 = false) {j : Nat} (h : j ∈ l ∨ s.slot j = FsSlot.rest) :
    (s.freeAll l).slot j = FsSlot.rest := by
  induction l generalizing s with
  | nil => exact h.resolve_left List.not_mem_nil
  | cons i l ih =>
    refine ih (s.free i) (fun i hi => hl i (List.mem_cons_of_mem _ hi)) ?_
    have hfree : (s.free i).slot j = if i = j then FsSlot.rest else s.slot j := by
      simp [FsState.free, FsState.write, hl i (List.mem_cons_self ..), FsState.slot]
    rw [hfree]
    by_cases hij : i = j
    · exact Or.inr (if_pos hij)
    · rw [if_neg hij]
      exact h.imp_left fun hm => (List.mem_cons.mp hm).resolve_left (Ne.symm hij)

end Sys2Proof.Machine

end

/-! The migration of the flow store to a new layout (R272, R274). -/

section

namespace Sys2Proof.Machine

open Sys2Proof.Safety (obAddr reportAddr)

/-! ### The counts that follow the store (R281) -/

section

variable (d : Dev)

theorem Dev.raiseLevel_reg_ne {r q : Reg} (b : Nat) (c : Bool) (ho : obAddr q.addr = false) (hr : r.addr ≠ q.addr) :
    (d.raiseLevel r b c).reg q = d.reg q := by
  unfold Dev.raiseLevel
  split
  · exact d.raise_reg_ne r q b ho hr
  · exact d.reg_setFld_ne r q b b 1 hr

@[simp] theorem Dev.raiseLevel_fs (r : Reg) (b : Nat) (c : Bool) : (d.raiseLevel r b c).fs = d.fs := by
  simp [Dev.raiseLevel, apply_ite Dev.fs]

/-- The counts written: of the table's entries and of the stash's. -/
def Dev.fsCounted : Dev :=
  (d.fsMended.setFld (R .FS_COUNT) 21 0 (d.fsMended.fs.slots.filter fun kv => kv.2.valid).length).setFld (R .FS_STATUS) 8 0
    d.fsMended.fs.stash.length

/-- The counts follow, and with them at most the stash's warning. -/
theorem Dev.fsSync_eq : d.fsSync = d.fsCounted ∨ ∃ c, d.fsSync = d.fsCounted.raiseLevel (R .FS_FLAGS) 2 c := by
  unfold Dev.fsSync Dev.fsCounted
  extract_lets d' n k old warn d1
  split
  · exact Or.inr ⟨_, rfl⟩
  · exact Or.inl rfl

@[simp] theorem Dev.fsSync_fs : d.fsSync.fs = { d.fs with mended := 0 } := by
  obtain h | ⟨c, h⟩ := d.fsSync_eq <;> simp [h, Dev.fsCounted]

theorem Dev.fsSync_fsCounted {r : Reg} (ho : obAddr r.addr = false) (hf : (R .FS_FLAGS).addr ≠ r.addr) :
    d.fsSync.reg r = d.fsCounted.reg r := by
  obtain h | ⟨c, h⟩ := d.fsSync_eq
  · rw [h]
  · rw [h, Dev.raiseLevel_reg_ne _ _ _ ho hf]

theorem Dev.fsSync_reg {r : Reg} (ho : obAddr r.addr = false) (hf : (R .FS_FLAGS).addr ≠ r.addr) (hc : (R .FS_COUNT).addr ≠ r.addr)
    (hs : (R .FS_STATUS).addr ≠ r.addr) : d.fsSync.reg r = d.reg r := by
  rw [d.fsSync_fsCounted ho hf, Dev.fsCounted, Dev.reg_setFld_ne _ _ _ _ _ _ hs, Dev.reg_setFld_ne _ _ _ _ _ _ hc, d.fsMended_reg ho hf]

/-- FS_STATUS keeps what it says beside the stash's count. -/
theorem Dev.fsSync_status {i : Nat} (hi : 8 < i) : d.fsSync.flag (R .FS_STATUS) i = d.flag (R .FS_STATUS) i := by
  rw [Dev.flag, d.fsSync_fsCounted (by decide) (by decide), ← Dev.flag, Dev.fsCounted,
    Dev.flag_setFld_ne _ _ _ _ _ _ (by decide) (by decide) (Or.inr hi), Dev.flag, Dev.flag,
    Dev.reg_setFld_ne _ _ _ _ _ _ (by decide), d.fsMended_reg (by decide) (by decide)]

end

/-! ### The end of a rebuild (R274) -/

/-- A two-bit field that holds 0 has its upper bit clear. -/
theorem Dev.flag_of_fld_zero {d : Dev} {r : Reg} {i : Nat} (h : d.fld r (i + 1) i = 0) : d.flag r (i + 1) = false := by
  simp only [Dev.fld, Dev.flag, bits, bit, beq_eq_false_iff_ne] at *
  have h2 : 2 ^ (i + 1 + 1 - i) = 4 := by rw [show i + 1 + 1 - i = 2 by omega]; rfl
  have h3 : d.reg r / 2 ^ (i + 1) = d.reg r / 2 ^ i / 2 := by rw [Nat.pow_succ, Nat.div_div_eq_div_mul]
  rw [h2] at h
  omega

section

variable (d : Dev)

/-- The registers at the end of a rebuild: the new layout is the layout. -/
def Dev.relaid : Dev :=
  (((d.setReg (R .FS_SEED) (d.reg (R .FS_NEW_SEED))).setFld (R .FS_STATUS) 28 24 (d.fld (R .FS_STATUS) 20 16)).setFld
    (R .FS_STATUS) 31 30 0).setReg (R .FS_MIG_PTR) 0

/-- The store at the end of a rebuild. -/
def Dev.regenerated : Dev := d.relaid.onFs fun s => { s with gen := !s.gen }

/-- The stash offered back, and the counts that follow. -/
def Dev.restashed : Dev := (d.regenerated.onFs fun s => s.unstash d.regenerated.lay).fsSync

theorem Dev.regenerated_reg (f : FsState → FsState) (r : Reg) : (d.regenerated.onFs f).reg r = d.relaid.reg r := by
  rw [Dev.reg_congr (Dev.onFs_regs _ f), Dev.regenerated, Dev.reg_congr (Dev.onFs_regs _ _)]

theorem Dev.relaid_status : d.relaid.fld (R .FS_STATUS) 31 30 = 0 := by
  rw [Dev.relaid, Dev.fld, Dev.reg_setReg_ne _ _ _ _ (by decide), ← Dev.fld, Dev.fld_setFld _ _ _ _ _ (by decide) (by decide), Nat.zero_mod]

theorem Dev.relaid_seed : d.relaid.reg (R .FS_SEED) = d.reg (R .FS_NEW_SEED) := by
  rw [Dev.relaid, Dev.reg_setReg_ne _ _ _ _ (by decide), Dev.reg_setFld_ne _ _ _ _ _ _ (by decide),
    Dev.reg_setFld_ne _ _ _ _ _ _ (by decide), Dev.reg_setReg _ _ _ (by decide), Nat.mod_eq_of_lt (d.reg_lt _)]

theorem Dev.rebuildEnd_eq : ∃ fs, d.rebuildEnd = d.restashed.raiseRec (R .FS_FLAGS) 0 .fs 0 false fs := ⟨_, rfl⟩

theorem Dev.rebuildEnd_done : d.rebuildEnd.flag (R .FS_FLAGS) 0 = true := by
  obtain ⟨fs, h⟩ := d.rebuildEnd_eq
  rw [h, Dev.flag, Dev.raiseRec_reg_self _ _ _ _ _ _ _ (by decide)]
  exact Dev.flag_setFld _ _ _ (by decide)

theorem Dev.rebuildEnd_gen : d.rebuildEnd.fs.gen = !d.fs.gen := by
  obtain ⟨fs, h⟩ := d.rebuildEnd_eq
  rw [h, Dev.raiseRec_fs, Dev.restashed, Dev.fsSync_fs]
  exact FsState.unstash_gen _ _

theorem Dev.rebuildEnd_idle : d.rebuildEnd.flag (R .FS_STATUS) 31 = false := by
  obtain ⟨fs, h⟩ := d.rebuildEnd_eq
  rw [h, Dev.flag, Dev.raiseRec_reg_ne _ _ _ _ _ _ _ _ (by decide) (by decide), ← Dev.flag, Dev.restashed, Dev.fsSync_status _ (by decide)]
  exact Dev.flag_of_fld_zero ((congrArg (bits · 31 30) (Dev.regenerated_reg d _ _)).trans d.relaid_status)

theorem Dev.rebuildEnd_seed : d.rebuildEnd.reg (R .FS_SEED) = d.reg (R .FS_NEW_SEED) := by
  obtain ⟨fs, h⟩ := d.rebuildEnd_eq
  rw [h, Dev.raiseRec_reg_ne _ _ _ _ _ _ _ _ (by decide) (by decide), Dev.restashed,
    Dev.fsSync_reg _ (by decide) (by decide) (by decide) (by decide), Dev.regenerated_reg, Dev.relaid_seed]

end

/-! ### A migration step (R272) -/

/-- The store after the old bucket p was read and its entries `old`, placed in the store `st`, were freed. -/
def Dev.bucketPlaced (d : Dev) (p : Nat) (old : List Nat) (st : FsState) : Dev :=
  (d.fsRead fun s => s.mendBucket (p, s.gen)).onFs fun _ => st.freeAll old

theorem Dev.bucketPlaced_reg (d : Dev) (p : Nat) (old : List Nat) (st : FsState) {r : Reg} (ho : obAddr r.addr = false)
    (hf : (R .FS_FLAGS).addr ≠ r.addr) : (d.bucketPlaced p old st).reg r = d.reg r := by
  rw [Dev.bucketPlaced, Dev.reg_congr (Dev.onFs_regs _ _), Dev.fsRead, Dev.fsMended_reg _ ho hf, Dev.reg_congr (Dev.onFs_regs _ _)]

/-- The bucket moved: the next one's turn comes, and nothing stalls. -/
def Dev.bucketMoved (d : Dev) (p : Nat) (old : List Nat) (st : FsState) : Dev :=
  ((d.bucketPlaced p old st).setFld (R .FS_MIG_PTR) 18 0 (p + 1)).setFld (R .FS_STATUS) 30 30 0

@[simp] theorem Dev.bucketMoved_fs (d : Dev) (p : Nat) (old : List Nat) (st : FsState) : (d.bucketMoved p old st).fs = st.freeAll old := by
  rw [Dev.bucketMoved, Dev.setFld_fs, Dev.setFld_fs]
  rfl

theorem Dev.migrationStep_places {d : Dev} {x st : FsState} {old : List Nat} {z : Option Nat} (hm : d.flag (R .FS_STATUS) 31 = true)
    (hx : x = d.fs.mendBucket (d.lay.p, d.fs.gen)) (he : x.bucketErrs (d.lay.p, x.gen) = [])
    (hold : old = (bucketSlots d.lay.p).filter fun i => (x.slot i).valid && (x.slot i).gen == x.gen)
    (hpl : FsState.placeAll { d.lay with p := d.lay.p + 1 } old { x with mended := 0 } (old.map x.slot) = (st, true, z)) :
    d.migrationStep = if d.lay.p + 1 = 2 ^ (d.lay.log2 - 2) then (d.bucketMoved d.lay.p old st).rebuildEnd
      else (d.bucketMoved d.lay.p old st).fsSync := by
  have hfs : (d.fsRead fun s => s.mendBucket (d.lay.p, s.gen)).fs = { x with mended := 0 } := by
    rw [hx]
    exact Dev.fsMended_fs _
  have hmov : d.lay.moving = true := hm
  have he' : FsState.bucketErrs { x with mended := 0 } (d.lay.p, x.gen) = [] := he
  have hslot : FsState.slot { x with mended := 0 } = x.slot := rfl
  unfold Dev.migrationStep Dev.bucketMoved Dev.bucketPlaced
  dsimp only
  rw [if_neg (by simp [hmov]), hfs]
  dsimp only
  rw [he', hslot, ← hold, hpl]

variable {d : Dev} {p : Nat} {old : List Nat} {st : FsState}

/-- The last bucket moved: the rebuild is done. -/
theorem Dev.bucketMoved_ends (hg : st.gen = d.fs.gen) : ((d.bucketMoved p old st).rebuildEnd).flag (R .FS_STATUS) 31 = false ∧
    (d.bucketMoved p old st).rebuildEnd.reg (R .FS_SEED) = d.reg (R .FS_NEW_SEED) ∧
    (d.bucketMoved p old st).rebuildEnd.fs.gen = (!d.fs.gen) ∧ (d.bucketMoved p old st).rebuildEnd.flag (R .FS_FLAGS) 0 = true := by
  refine ⟨Dev.rebuildEnd_idle _, ?_, ?_, Dev.rebuildEnd_done _⟩
  · rw [Dev.rebuildEnd_seed, Dev.bucketMoved, Dev.reg_setFld_ne _ _ _ _ _ _ (by decide), Dev.reg_setFld_ne _ _ _ _ _ _ (by decide),
      Dev.bucketPlaced_reg _ _ _ _ (by decide) (by decide)]
  · rw [Dev.rebuildEnd_gen, Dev.bucketMoved_fs, FsState.freeAll_gen, hg]

/-- A bucket moved before the last: its slots are free, and the next bucket's turn comes. -/
theorem Dev.bucketMoved_goesOn (hm : d.flag (R .FS_STATUS) 31 = true) (hp : p < 2 ^ 19) (hold : ∀ i ∈ old, i ∈ bucketSlots p) :
    (d.bucketMoved p old st).fsSync.fld (R .FS_MIG_PTR) 18 0 = (p + 1) % 2 ^ 19 ∧
    (d.bucketMoved p old st).fsSync.flag (R .FS_STATUS) 31 = true ∧
    ∀ i ∈ old, ((d.bucketMoved p old st).fsSync.fs.slot i).valid = false := by
  refine ⟨?_, ?_, fun i hi => ?_⟩
  · rw [Dev.fld, Dev.fsSync_reg _ (by decide) (by decide) (by decide) (by decide), Dev.bucketMoved,
      Dev.reg_setFld_ne _ _ _ _ _ _ (by decide), ← Dev.fld, Dev.fld_setFld _ _ _ _ _ (by decide) (by decide)]
  · rw [Dev.fsSync_status _ (by decide), Dev.bucketMoved, Dev.flag_setFld_ne _ _ _ _ _ _ (by decide) (by decide) (by decide), Dev.flag,
      Dev.reg_setFld_ne _ _ _ _ _ _ (by decide), Dev.bucketPlaced_reg _ _ _ _ (by decide) (by decide)]
    exact hm
  · have hbit : ∀ j ∈ old, bit j 31 = false := fun j hj => by
      have hj := hold j hj
      simp only [bucketSlots, List.mem_cons, List.not_mem_nil, or_false] at hj
      exact slot_lt_bit (by omega)
    rw [Dev.fsSync_fs, FsState.slot_mended, Dev.bucketMoved_fs, st.slot_freeAll hbit (Or.inl hi)]
    rfl

end Sys2Proof.Machine

end

/-! What the flow store's events touch, and what the classifier's and the flow store's events leave (O35). -/

section

namespace Sys2Proof.Safety

open Sys2Proof.Machine

/-! ### The flow store's events touch the flow store -/

section

variable {ps : List Part} {reg : Nat → Bool} (d : Dev)

theorem leaves_raiseLevel_report (r : Reg) (b : Nat) (c : Bool) (h : reportAddr r.addr = true) (hr : reg r.addr = true) :
    Leaves ps reg d (d.raiseLevel r b c) :=
  Leaves.ite (leaves_raise_report d r b h) (leaves_setFld d r _ _ _ hr)

theorem leaves_fsRead (f : FsState → FsState) (h : Part.fs ∈ ps) : Leaves ps reg d (d.fsRead f) :=
  (leaves_onFs d f h).trans (leaves_fsMended _ h)

end

section

variable (d : Dev)

/-- What the flow store's operations touch: the flow store, observability and the block's registers. -/
abbrev FsLeaves (d d' : Dev) : Prop := Leaves [.fs, .ob] (block 0x1C00000 0x2000000) d d'

theorem leaves_fsSync : FsLeaves d d.fsSync := by
  have hcount : FsLeaves d d.fsCounted :=
    ((leaves_fsMended d (by decide)).trans (leaves_setFld _ _ _ _ _ (by decide))).trans (leaves_setFld _ _ _ _ _ (by decide))
  obtain h | ⟨c, h⟩ := d.fsSync_eq
  · rwa [h]
  · rw [h]
    exact hcount.trans (leaves_raiseLevel_report _ _ _ _ (by decide) (by decide))

theorem leaves_rebuildEnd : FsLeaves d d.rebuildEnd := by
  have hregs : FsLeaves d d.relaid :=
    (((leaves_setReg d _ _ (by decide)).trans (leaves_setFld _ _ _ _ _ (by decide))).trans (leaves_setFld _ _ _ _ _ (by decide))).trans
      (leaves_setReg _ _ _ (by decide))
  have hstore : FsLeaves d d.restashed :=
    ((hregs.trans (leaves_onFs _ _ (by decide))).trans (leaves_onFs _ _ (by decide))).trans (leaves_fsSync _)
  obtain ⟨fs, h⟩ := d.rebuildEnd_eq
  rw [h]
  exact hstore.trans (leaves_raiseRec _ _ _ _ _ _ _ (by decide) (by decide))

theorem leaves_migrationStep : FsLeaves d d.migrationStep := by
  unfold Dev.migrationStep
  extract_lets l d' next old moved
  have hread : FsLeaves d d' := leaves_fsRead d _ (by decide)
  split
  · exact Leaves.refl d
  split
  · exact hread.trans (leaves_fsUe _ _ (by decide))
  split
  · have hmoved : ∀ s : FsState, FsLeaves d (((d'.onFs fun _ => s).setFld (R .FS_MIG_PTR) 18 0 (l.p + 1)).setFld (R .FS_STATUS) 30 30 0) :=
      fun s => ((hread.trans (leaves_onFs _ _ (by decide))).trans (leaves_setFld _ _ _ _ _ (by decide))).trans
        (leaves_setFld _ _ _ _ _ (by decide))
    exact Leaves.ite ((hmoved _).trans (leaves_rebuildEnd _)) ((hmoved _).trans (leaves_fsSync _))
  · have hback : ∀ s : FsState, FsLeaves d (d'.onFs fun _ => s).fsSync := fun s =>
      (hread.trans (leaves_onFs _ _ (by decide))).trans (leaves_fsSync _)
    split
    · exact (hback _).trans (leaves_fsUe _ _ (by decide))
    · exact (((hback _).trans (leaves_onFs _ _ (by decide))).trans (leaves_setFld _ _ _ _ _ (by decide))).trans
        (leaves_raiseRec _ _ _ _ _ _ _ (by decide) (by decide))

theorem leaves_fsScrub (b : Nat) (ups : List (Nat × Nat)) : FsLeaves d (d.fsScrub b ups) := by
  unfold Dev.fsScrub
  extract_lets here d1
  exact ((leaves_onFs d _ (by decide)).trans (leaves_fsRead _ _ (by decide))).trans
    (Leaves.foldl (fun d i => (leaves_fsUe d i (by decide)).trans (leaves_record _ _ _ _ _ _ (by decide))) _ _)

theorem leaves_policerRefresh {ps : List Part} {reg : Nat → Bool} (n : Nat) (h : Part.fs ∈ ps) : Leaves ps reg d (d.policerRefresh n) :=
  Leaves.ite (leaves_onFs d _ h) (Leaves.refl d)

end

end Sys2Proof.Safety

/-! ### What they leave in the slot that an error struck -/

namespace Sys2Proof.Machine

open Sys2Proof.Safety

section

variable {d : Dev} {b i j : Nat} (hb : b < 2 ^ 19) (hi : i < 4) (hj : j = 4 * b + i) (hc : j < 2097152 * d.units 0 / 256)

include hb hi hj hc

theorem Dev.fsScrub_ent_single (h : (d.fs.slot j).ent = 0) :
    (d.fsScrub b [(j, 1)]).flag (R .FS_FLAGS) 4 = true ∧ ((d.fsScrub b [(j, 1)]).fs.slot j).ent = 0 := by
  have hu := d.fs.slot_upset 1 (j := j) (by omega) (by decide)
  rw [if_pos (by decide), h] at hu
  refine ⟨Dev.fsScrub_corrects hi hj hc ?_, ?_⟩
  · simp [hu, FsSlot.mends, b2n]
  · simp [Dev.fsScrub_slot 1 hi hj hc, hu, FsSlot.mend]

theorem Dev.fsScrub_tag_single (h : (d.fs.slot j).tag = 0) :
    (d.fsScrub b [(j, 3)]).flag (R .FS_FLAGS) 4 = true ∧ ((d.fsScrub b [(j, 3)]).fs.slot j).tag = 0 := by
  have hu := d.fs.slot_upset 3 (j := j) (by omega) (by decide)
  rw [if_neg (by decide), h] at hu
  refine ⟨Dev.fsScrub_corrects hi hj hc ?_, ?_⟩
  · simp [hu, FsSlot.mends, b2n]
  · simp [Dev.fsScrub_slot 3 hi hj hc, hu, FsSlot.mend]

theorem Dev.fsScrub_ent_double (h : (d.fs.slot j).ent < 3) :
    ((d.fsScrub b [(j, 2)]).fs.slot j).ent = 2 ∧ (d.fsScrub b [(j, 2)]).flag (R .FS_FLAGS) 5 = true := by
  have hu := d.fs.slot_upset 2 (j := j) (by omega) (by decide)
  rw [if_pos (by decide), max_eq_right (by omega)] at hu
  refine ⟨?_, Dev.fsScrub_logs hi hj hc ?_⟩
  · simp [Dev.fsScrub_slot 2 hi hj hc, hu, FsSlot.mend]
  · simp [hu, FsSlot.mend, FsSlot.failed]

theorem Dev.fsScrub_tag_double (h : (d.fs.slot j).tag < 3) :
    ((d.fsScrub b [(j, 4)]).fs.slot j).tag = 2 ∧ (d.fsScrub b [(j, 4)]).flag (R .FS_FLAGS) 5 = true := by
  have hu := d.fs.slot_upset 4 (j := j) (by omega) (by decide)
  rw [if_neg (by decide), max_eq_right (by omega)] at hu
  refine ⟨?_, Dev.fsScrub_logs hi hj hc ?_⟩
  · simp [Dev.fsScrub_slot 4 hi hj hc, hu, FsSlot.mend]
  · simp [hu, FsSlot.mend, FsSlot.failed]

end

/-- A policer of the device refilled at the tick (R277, R279). -/
theorem Dev.policer_refresh {d : Dev} {n : Nat} (h : n < d.nPolicers) :
    (d.policerRefresh n).policer n = (d.policer n).refill (d.polProf (d.policer n).prof) d.tick32 := by
  rw [Dev.policerRefresh, if_pos h]
  simp [Dev.policer, Dev.setPolicer]

theorem Dev.Kept.fsFlag {d d' : Dev} {b : Nat} (h : d.Kept d') (hb : d.flag (R .FS_FLAGS) b = true) : d'.flag (R .FS_FLAGS) b = true :=
  h.flags _ (mem_levelRegs_one (by simp)) b hb

theorem Dev.Kept.flag {d d' : Dev} (h : d.Kept d') {r : Reg} (hr : reportAddr r.addr = false) (b : Nat) : d'.flag r b = d.flag r b := by
  rw [Dev.flag, h.reg hr, ← Dev.flag]

theorem Dev.Kept.fld {d d' : Dev} (h : d.Kept d') {r : Reg} (hr : reportAddr r.addr = false) (hi lo : Nat) :
    d'.fld r hi lo = d.fld r hi lo := by
  rw [Dev.fld, h.reg hr, ← Dev.fld]

/-- What a step of the migration leaves: the old bucket's slots are free and the next bucket's turn comes, or the rebuild is done. -/
theorem Dev.Kept.migrationStep {d d' : Dev} {x st : FsState} {old : List Nat} {z : Option Nat} {p : Nat} (hd : d.migrationStep.Kept d')
    (hm : d.flag (R .FS_STATUS) 31 = true) (hp : p = d.fld (R .FS_MIG_PTR) 18 0) (hx : x = d.fs.mendBucket (p, d.fs.gen))
    (he : x.bucketErrs (p, x.gen) = []) (hold : old = (bucketSlots p).filter fun i => (x.slot i).valid && (x.slot i).gen == x.gen)
    (hpl : FsState.placeAll { d.lay with p := p + 1 } old { x with mended := 0 } (old.map x.slot) = (st, true, z)) :
    if p + 1 = 2 ^ (d.fld (R .FS_STATUS) 28 24 - 2) then d'.flag (R .FS_STATUS) 31 = false ∧
      d'.reg (R .FS_SEED) = d.reg (R .FS_NEW_SEED) ∧ d'.fs.gen = !d.fs.gen ∧ d'.flag (R .FS_FLAGS) 0 = true
    else d'.fld (R .FS_MIG_PTR) 18 0 = (p + 1) % 2 ^ 19 ∧ d'.flag (R .FS_STATUS) 31 = true ∧ ∀ i ∈ old, (d'.fs.slot i).valid = false := by
  have hpLay : d.lay.p = p := hp.symm
  have hLog : d.lay.log2 = d.fld (R .FS_STATUS) 28 24 := rfl
  have hgen : st.gen = d.fs.gen := by
    have hg := FsState.placeAll_gen { d.lay with p := p + 1 } old (old.map x.slot) { x with mended := 0 }
    have hread : x.gen = d.fs.gen := by rw [hx, FsState.mendBucket_gen]
    rw [hpl] at hg
    exact hg.trans hread
  have hlt : p < 2 ^ 19 := by rw [hp]; exact bits_lt _ 18 0
  have hin : ∀ i ∈ old, i ∈ bucketSlots p := fun i hi => by
    rw [hold] at hi
    exact (List.mem_filter.mp hi).1
  have hstep := Dev.migrationStep_places (x := x) (st := st) (old := old) (z := z) hm
  rw [hpLay, hLog] at hstep
  rw [hstep hx he hold hpl] at hd
  split
  case isTrue hend =>
    rw [if_pos hend] at hd
    obtain ⟨hst, hseed, hg, hfl⟩ := Dev.bucketMoved_ends (p := p) (old := old) hgen
    exact ⟨(hd.flag (by decide) _).trans hst, (hd.reg (by decide)).trans hseed, (congrArg FsState.gen hd.fs).trans hg, hd.fsFlag hfl⟩
  case isFalse hend =>
    rw [if_neg hend] at hd
    obtain ⟨hptr, hst, hfree⟩ := Dev.bucketMoved_goesOn (old := old) (st := st) hm hlt hin
    exact ⟨(hd.fld (by decide) _ _).trans hptr, (hd.flag (by decide) _).trans hst, fun i hi => by rw [hd.fs]; exact hfree i hi⟩

end Sys2Proof.Machine

/-! ### The answers (O35) -/

namespace Sys2Proof.Safety

open Sys2Proof.Machine

/-- An event whose condition holds answers with what its operation leaves, where no distributing set depends on that. -/
theorem answers_event_kept {i : Instr} {s : State} {dt : Nat} {can : Dev → Bool} {f : Dev → Dev} {ps : List Part} {reg : Nat → Bool}
    (hq : Quiet (s.dev.elapse dt)) (hex : exec i s = event s dt can f) (hc : can (s.dev.elapse dt) = true) (ha : LagApart ps reg)
    (h : Leaves ps reg (s.dev.elapse dt) (f (s.dev.elapse dt))) : Answers i s fun d => (f (s.dev.elapse dt)).Kept d :=
  answers_event hex hc (h.2.trans hq.1) (h.still ha hq.2)

theorem lagApart_fs : LagApart [.fs, .ob] (block 0x1C00000 0x2000000) := lagApart_block _ _ (by decide) (by decide) (by decide)

section

variable {s : State} {dt : Nat} (hq : Quiet (s.dev.elapse dt)) (ha : (s.dev.elapse dt).alive = true)

include hq ha

/-- A full seam stalls the pipeline: the packets wait. -/
theorem answers_ingress_stalled {pipe : Nat} (hp : pipe < 4) (h : (s.dev.elapse dt).pipeStalled pipe = true) :
    Answers (.packetIngress dt pipe) s fun d => d.pc = (s.dev.elapse dt).pc := by
  have hf : (s.dev.elapse dt).ingress pipe = s.dev.elapse dt := Dev.ingress_stalled h
  refine (answers_event_kept (can := fun d => d.alive && decide (pipe < 4)) (f := fun d => d.ingress pipe) hq rfl (by simp [ha, hp])
    lagApart_fs ?_).imp fun d hd => ?_
  · rw [hf]
    exact Leaves.refl _
  · rw [hd.pc, hf]

section

variable {pipe : Nat} (hp : pipe < 4) (h : (s.dev.elapse dt).pipeStalled pipe = false) {p : Pkt} {rest : List Pkt}
  (ht : takeFirst (fun p => (s.dev.elapse dt).pktPipe p == pipe) (s.dev.elapse dt).pc.arrivals = some (p, rest))

include hp h ht

/-- A packet enters, whichever bank it counts in: the others wait on. -/
theorem answers_ingress_arrivals : Answers (.packetIngress dt pipe) s fun d => d.pc.arrivals = rest := by
  obtain ⟨hl, harr⟩ := leaves_ingress (reg := fun _ => true) h ht rfl rfl rfl
  refine ⟨_, rfl, rfl, ?_⟩
  dsimp only
  rw [if_pos (by simp [ha, hp]), Dev.settle_pc _ (hl.2.trans hq.1), harr]

/-- A packet of the first pass enters in the active bank. -/
theorem answers_ingress_first (h2 : p.second = false) :
    Answers (.packetIngress dt pipe) s fun d => ((s.dev.elapse dt).ingress pipe).Kept d ∧ d.pc.arrivals = rest := by
  have hbank := (s.dev.elapse dt).activeBank_lt
  have haddr : (R .PC_INFLIGHT (s.dev.elapse dt).activeBank).addr = 0x1800004 + 4 * (s.dev.elapse dt).activeBank := rfl
  obtain ⟨hl, harr⟩ := leaves_ingress (reg := block 0x1800000 0x2000000) h ht (by decide) (by decide) (by
    rw [if_neg (by simp [h2]), haddr, block, decide_eq_true_eq]
    omega)
  refine (answers_event_kept (can := fun d => d.alive && decide (pipe < 4)) (f := fun d => d.ingress pipe) hq rfl (by simp [ha, hp])
    (lagApart_block _ _ (by decide) (by decide) (by decide)) hl).imp fun d hd => ⟨hd, ?_⟩
  rw [hd.pc, harr]

end

/-- A migration step moves the old bucket P (R272), and the last one ends the rebuild (R274). -/
theorem answers_migrationStep {x st : FsState} {old : List Nat} {z : Option Nat} {p : Nat} (hdt : dt = 0)
    (hm : s.dev.flag (R .FS_STATUS) 31 = true) (hp : p = s.dev.fld (R .FS_MIG_PTR) 18 0) (hx : x = s.dev.fs.mendBucket (p, s.dev.fs.gen))
    (he : x.bucketErrs (p, x.gen) = []) (hold : old = (bucketSlots p).filter fun i => (x.slot i).valid && (x.slot i).gen == x.gen)
    (hpl : FsState.placeAll { s.dev.lay with p := p + 1 } old { x with mended := 0 } (old.map x.slot) = (st, true, z)) :
    Answers .migrationStep s fun d =>
      if p + 1 = 2 ^ (s.dev.fld (R .FS_STATUS) 28 24 - 2) then d.flag (R .FS_STATUS) 31 = false ∧
        d.reg (R .FS_SEED) = s.dev.reg (R .FS_NEW_SEED) ∧ d.fs.gen = !s.dev.fs.gen ∧ d.flag (R .FS_FLAGS) 0 = true
      else d.fld (R .FS_MIG_PTR) 18 0 = (p + 1) % 2 ^ 19 ∧ d.flag (R .FS_STATUS) 31 = true ∧ ∀ i ∈ old, (d.fs.slot i).valid = false := by
  subst hdt hp
  refine (answers_event_kept (can := Dev.alive) (f := Dev.migrationStep) hq rfl ha lagApart_fs (leaves_migrationStep _)).imp
    fun d hd => ?_
  obtain ⟨f, hf⟩ := elapse_zero_eq s.dev
  have hfs : (s.dev.elapse 0).fs = s.dev.fs := by rw [hf, Dev.onPx_fs]
  have hreg : ∀ r, (s.dev.elapse 0).reg r = s.dev.reg r := fun r => by rw [hf, Dev.reg_congr (Dev.onPx_regs _ _)]
  have hlay : (s.dev.elapse 0).lay = s.dev.lay := by simp only [Dev.lay, Dev.fld, Dev.flag, hreg]
  have hmove := hd.migrationStep (p := s.dev.fld (R .FS_MIG_PTR) 18 0) (by rw [Dev.flag, hreg]; exact hm) (by rw [Dev.fld, Dev.fld, hreg])
    (by rw [hfs]; exact hx) he hold (by rw [hlay]; exact hpl)
  have hfld : ∀ r hi lo, (s.dev.elapse 0).fld r hi lo = s.dev.fld r hi lo := fun r hi lo => by rw [Dev.fld, Dev.fld, hreg]
  rwa [hreg, hfs, hfld] at hmove

/-- The scrub of a bucket after errors have arisen in the store. -/
theorem answers_fsScrub (b : Nat) (ents tags : List (Nat × Nat)) : Answers (.flowStoreScrub dt b ents tags) s fun d =>
    ((s.dev.elapse dt).fsScrub b (ents ++ tags.map fun x => (x.1, x.2 + 2))).Kept d :=
  answers_event_kept (can := Dev.alive) (f := fun d => d.fsScrub b (ents ++ tags.map fun x => (x.1, x.2 + 2))) hq rfl ha lagApart_fs
    (leaves_fsScrub _ _ _)

theorem answers_policerRefresh {n : Nat} (h : n < (s.dev.elapse dt).nPolicers) : Answers (.policerRefresh dt n) s fun d =>
    d.policer n = ((s.dev.elapse dt).policer n).refill ((s.dev.elapse dt).polProf ((s.dev.elapse dt).policer n).prof)
      (s.dev.elapse dt).tick32 := by
  refine (answers_event_kept (can := Dev.alive) (f := fun d => d.policerRefresh n) hq rfl ha lagApart_fs (leaves_policerRefresh _ n (by decide))).imp fun d hd => ?_
  rw [← Dev.policer_refresh h]
  exact congrArg (fun x : FsState => x.policers.getD n Policer.rest) hd.fs

end

/-- Settles O35: a packet enters its pipeline unless a full seam stalls it, a migration step moves a bucket, the scrub corrects or logs what
has arisen, and a policer is refilled. Which packet comes first is the model's choice (`takeFirst`, log entry 123; R30 leaves it open). -/
theorem classifierEventsTakeEffect : Obligations.ClassifierEventsTakeEffect := by
  unfold Obligations.ClassifierEventsTakeEffect
  rintro s dt e rfl hq ha
  refine ⟨fun pipe hp h => answers_ingress_stalled hq ha hp h, fun pipe hp h p rest ht => ?_,
    fun hdt hm p hp x hx he old st z hold hpl => answers_migrationStep hq ha hdt hm hp hx he hold hpl,
    fun b hb i hi j hj hc => ⟨fun h => ?_, fun h => ?_, fun h => ?_, fun h => ?_⟩, fun n hn => answers_policerRefresh hq ha hn⟩
  · cases h2 : p.second with
    | true => exact (answers_ingress_arrivals hq ha hp h ht).imp fun d hd => ⟨hd, nofun, nofun⟩
    | false =>
      refine (answers_ingress_first hq ha hp h ht h2).imp fun d ⟨hd, harr⟩ => ⟨harr, fun _ hr => ?_, ?_⟩
      · have hfl := Dev.ingress_noRules h ht h2 hr
        rw [← hd.flag (by decide)] at hfl
        split
        case isTrue h0 => rwa [if_pos h0] at hfl
        case isFalse h0 => rwa [if_neg h0] at hfl
      · rintro r act - h0 hpick rfl hl hf hm hc hqueue
        obtain ⟨f, hflights, hpipe, hout⟩ := Dev.ingress_forwards h ht h2 h0 hpick hl hf hm hc hqueue
        exact ⟨f, by rw [hd.pc, hflights], hpipe, hout⟩
  · obtain ⟨hfl, hs⟩ := Dev.fsScrub_ent_single hb hi hj hc h
    exact (answers_fsScrub hq ha b _ _).imp fun d hd => ⟨hd.fsFlag hfl, by rw [hd.fs]; exact hs⟩
  · obtain ⟨hfl, hs⟩ := Dev.fsScrub_tag_single hb hi hj hc h
    exact (answers_fsScrub hq ha b _ _).imp fun d hd => ⟨hd.fsFlag hfl, by rw [hd.fs]; exact hs⟩
  · obtain ⟨hs, hfl⟩ := Dev.fsScrub_ent_double hb hi hj hc h
    exact (answers_fsScrub hq ha b _ _).imp fun d hd => ⟨by rw [hd.fs]; exact hs, hd.fsFlag hfl⟩
  · obtain ⟨hs, hfl⟩ := Dev.fsScrub_tag_double hb hi hj hc h
    exact (answers_fsScrub hq ha b _ _).imp fun d hd => ⟨by rw [hd.fs]; exact hs, hd.fsFlag hfl⟩

end Sys2Proof.Safety

end

/-! An event at once: the mate lanes have codewords to send since the structure was set, and do so although no time passes. -/

section

namespace Sys2Proof.Safety

open Sys2Proof.Machine

/-- A running unit of a hot pair 80 ticks on, one codeword of its mate lanes (R446), that has sent none: as when the structure that
makes it hot is set at that time. -/
def dLateWord : Dev := { demo with tb := { demo.tb with ticks := 80 } }

theorem dLateWord_quiet : Quiet (dLateWord.elapse 0) := by unfold Quiet; decide +kernel

/-- The end of a background erase, given with no time: the lanes' word moves on from 0 to 1. -/
theorem lateWord_moves : (match exec .clearEraseDone (at_ dLateWord) with
    | .next t => t.dev.px.word
    | _ => 0) = 1 ∧ dLateWord.px.word = 0 := by decide +kernel

end Sys2Proof.Safety

open Sys2Proof Sys2Proof.Machine Sys2Proof.Safety

/-- Refutes O58: CLEAR_ERASE_DONE lets 0 ticks pass before it, and in these the mate lanes still send what was due, which changes the
protection unit: not among the parts named. -/
theorem not_eventsTouchOnlyTheirBlock : ¬ Obligations.EventsTouchOnlyTheirBlock := by
  unfold Obligations.EventsTouchOnlyTheirBlock
  intro h
  obtain ⟨-, -, -, -, -, -, -, -, -, -, -, -, -, -, erase, -⟩ := h (at_ dLateWord) 0 dLateWord_quiet
  obtain ⟨t, ht, -, ⟨hparts, -⟩, -⟩ := erase rfl .clearEraseDone (by simp)
  have hpx : t.dev.px = dLateWord.px := hparts .px (by decide)
  obtain ⟨hmoved, hbefore⟩ := lateWord_moves
  rw [ht] at hmoved
  simp [hpx, hbefore] at hmoved

end

section

namespace Sys2Proof.Safety

open Sys2Proof.Machine

/-! A flush that reaches a LAG group: a packet's bank is unbounded in a state of no run, and its in-flight count may lie on a member's
word. -/

/-- A queue that holds one recirculating packet of a bank. -/
def inBank (b : Nat) (q : Queue) : Queue := { q with near := [⟨100, 0, [7], { pkt with recirc := true, bank := b }⟩] }

/-- Group 0 flushes the members that leave; members 0 and 1 distribute over port 0 with BASE 0, and their words lie where the packets of
queue 5 and of queue 0x7FFFF count in flight: one packet less and IN_SYNC is gone, while BASE borrows to 0x7FFFF. -/
def dLag : Dev :=
  let d := (dTm.onQueue 5 (inBank 0x740003)).onQueue 0x7FFFF (inBank 0x740004)
  let d := ((d.setReg (R .UL_LAG_CFG 0) (2 ^ 30 + 1)).setReg (R .UL_LAG_MEMBER 0 0) 0xA0000000).setReg (R .UL_LAG_MEMBER 0 1) 0xA0000000
  d.onUl fun x => { x with lagDist := [(0, 3)] }

/-- The flush of queue 5 waits. -/
def sLag : State := ⟨dLag, [.queueFlush flushFive]⟩

theorem dLag_quiet : Quiet dLag := by unfold Quiet; decide +kernel

/-- The step's end follows member 0 out of the set, and the flush that this asks for takes member 1 out behind it. -/
theorem lag_left_behind : (match step sLag with
    | .next t => (t.dev.ul.lagDist.getD 0 0, t.dev.lagDist 0) == (2, 0)
    | _ => false) = true := by decide +kernel

end Sys2Proof.Safety

open Sys2Proof Sys2Proof.Machine Sys2Proof.Safety

/-- Refutes O4: the step's end follows a changed LAG set once, and the flush that it starts there may change the set again, where a packet
of a bank that the classifier does not have counts in flight on a member's word. -/
theorem not_everyStepKeepsTheDeviceQuiet : ¬ Obligations.EveryStepKeepsTheDeviceQuiet := by
  unfold Obligations.EveryStepKeepsTheDeviceQuiet
  intro h
  have hleft := lag_left_behind
  split at hleft
  next t ht =>
    have hstill : t.dev.ul.lagDist.getD 0 0 = t.dev.lagDist 0 := (h sLag t dLag_quiet ht).2 0 (by decide)
    simp only [beq_iff_eq, Prod.mk.injEq] at hleft
    obtain ⟨hold, hnew⟩ := hleft
    rw [hold, hnew] at hstill
    exact absurd hstill (by decide)
  next => exact absurd hleft (by decide)

end

section

namespace Sys2Proof.Machine

open Sys2Proof.Safety

/-! The level-set flags at the step's end (R68): what a command does before it is of no matter. -/

/-- Whatever the command, its next state's device comes out of the step's end. -/
theorem exec_settles (i : Instr) (s : State) : ∃ d, exec i s = .next { s with dev := Dev.settle s.dev d } := by
  cases i <;> exact ⟨_, rfl⟩

theorem step_settles (s : State) : ∃ d0 d q, step s = .next ⟨Dev.settle d0 d, q⟩ := by
  unfold step
  split
  · exact ⟨s.dev, s.dev.elapse 1, s.pending, rfl⟩
  · next i q _ =>
    obtain ⟨d, hd⟩ := exec_settles i { s with pending := q }
    exact ⟨s.dev, d, q, hd⟩

theorem Dev.flag_holdLevel (d : Dev) {c : Bool} (r : Reg) {b : Nat} (hb : b < 32) (h : c = true) : (d.holdLevel c r b).flag r b = true := by
  rw [Dev.holdLevel, if_pos h]
  exact Dev.flag_setFld d r b hb

theorem Dev.flag_stepLevel (d : Dev) (c : Bool) {c' : Bool} {r : Reg} {b : Nat} (hb : b < 32) (ho : obAddr r.addr = false)
    (h : c' = true) : (d.stepLevel c c' r b).flag r b = true := by
  rw [Dev.stepLevel, if_pos h, Dev.raiseLevel]
  split
  · rw [Dev.flag, Dev.raise_reg_self _ _ _ ho]
    exact Dev.flag_setFld d r b hb
  · exact Dev.flag_setFld d r b hb

/-- A level flag that one member of a fold sets stands at the fold's end. -/
theorem Dev.flag_foldl {β : Type} {f : Dev → β → Dev} (hk : ∀ (d : Dev) b, d.Kept (f d b)) {r : Reg} (hr : r ∈ levelRegs) {i : Nat} {b : β}
    (hb : ∀ d, (f d b).flag r i = true) {l : List β} (hm : b ∈ l) (d : Dev) : (l.foldl f d).flag r i = true := by
  obtain ⟨l1, l2, rfl⟩ := List.append_of_mem hm
  rw [List.foldl_append, List.foldl_cons]
  exact (Dev.Kept.foldl hk l2 _).flags r hr i (hb _)

/-- What a table lists is in it. -/
theorem Table.mem_of_get? {α : Type} {t : Table α} {k : Nat} {v : α} (h : t.get? k = some v) : (k, v) ∈ t := by
  induction t with
  | nil => cases h
  | cons p t ih =>
    rw [Table.get?] at h
    split at h
    next hk => exact Option.some.inj h ▸ hk ▸ List.mem_cons_self
    next => exact List.mem_cons_of_mem _ (ih h)

/-- A key whose value differs from the rest value is in the table. -/
theorem Table.mem_of_getD_ne {α : Type} {t : Table α} {k : Nat} {z : α} (h : t.getD k z ≠ z) : (k, t.getD k z) ∈ t := by
  unfold Table.getD at h ⊢
  cases hv : t.get? k with
  | none => exact absurd (by rw [hv]; rfl) h
  | some v => exact Table.mem_of_get? hv

section

variable {d d' : Dev} (h : d.Kept d')

include h

theorem Dev.Kept.drifts : d'.drifts = d.drifts := by
  simp only [Dev.drifts, h.fld (r := R .TB_FRAME_CFG) (by decide), h.reg (r := R .TB_FRAME_PHASE) (by decide)]

theorem Dev.Kept.thermWarn : d'.thermWarn = d.thermWarn := by
  have hr : ∀ n < 24, reportAddr (R .MC_TEMP n).addr = false := by decide
  have hsensor : ∀ n ∈ List.range 24, _ := fun n hn => congrArg₂ (fun a b => a && tempAbove (signed 10 b) (d.fld (R .MC_THERM_CFG) 23 16))
    (h.flag (hr n (List.mem_range.1 hn)) 31) (h.fld (hr n (List.mem_range.1 hn)) 9 0)
  unfold Dev.thermWarn
  rw [h.fld (r := R .MC_THERM_CFG) (by decide)]
  exact Bool.eq_iff_iff.2 (by simp only [List.any_eq_true]; exact exists_congr fun n => and_congr_right fun hn => by rw [hsensor n hn])

theorem Dev.Kept.phaseOk : d'.phaseOk = d.phaseOk := by
  simp only [Dev.phaseOk, h.reg (r := R .PX_MATE_PHASE) (by decide)]

theorem Dev.Kept.stashHigh : d'.stashHigh = d.stashHigh := by
  simp only [Dev.stashHigh, h.fld (r := R .FS_CFG) (by decide), h.fld (r := R .FS_STATUS) (by decide)]

theorem Dev.Kept.rangeReq (t : Nat) : (d'.gs t).rangeReq = (d.gs t).rangeReq := by
  simp only [Dev.gs, h.rx_gs]

/-- The step's end takes no level flag back, and leaves what the conditions read. -/
theorem Dev.Kept.levelsHold (hd : levelsHold d) : levelsHold d' := by
  obtain ⟨hdrift, htherm, hphase, hstash, hrange, hskew⟩ := hd
  have one {r : Reg} (hr : r ∈ [R .TB_FLAGS, R .PX_FLAGS, R .FS_FLAGS, R .MC_FLAGS]) (b : Nat) := h.flags r (mem_levelRegs_one hr) b
  refine ⟨fun hc => one (by simp) 20 (hdrift (h.drifts ▸ hc)), fun hc => one (by simp) 7 (htherm (h.thermWarn ▸ hc)),
    fun hc => one (by simp) 3 (hphase (h.phaseOk ▸ hc)), fun hc => one (by simp) 2 (hstash (h.stashHigh ▸ hc)),
    fun t ht hc => h.flags _ (mem_levelRegs_gs ht) 6 (hrange t ht (h.rangeReq t ▸ hc)),
    fun n hn hc => h.flags _ (mem_levelRegs_lane hn) 5 (hskew n hn (h.lx ▸ hc))⟩

end

/-- After the level-set flags are held, every condition that holds has its flag (R68). -/
theorem Dev.levels_hold (d0 d : Dev) : levelsHold (Dev.levels d0 d) := by
  unfold Dev.levels
  extract_lets d1 d2 d3 d4 d5 d6
  have skewKept : ∀ (d : Dev) n, d.Kept (d.holdLevel (decide (n < 16)) (if n < 12 then R .LX_UL_FLAGS n else R .LX_ML_FLAGS (n - 12)) 5) :=
    fun d n => Dev.Kept.holdLevel d _ _ 5 (fun hc => mem_levelRegs_lane (by simpa using hc)) (by omega)
  have gsKept : ∀ (d : Dev) (g : Nat × GsTree), d.Kept (d.holdLevel (decide (g.1 < 64) && !g.2.rangeReq.isEmpty) (R .GS_FLAGS g.1) 6) :=
    fun d g => Dev.Kept.holdLevel d _ _ 6 (fun hc => mem_levelRegs_gs (of_decide_eq_true (Bool.and_eq_true_iff.1 hc).1)) (by omega)
  have k2 : d1.Kept d2 := Dev.Kept.foldl skewKept _ _
  have k3 : d2.Kept d3 := Dev.Kept.foldl gsKept _ _
  have k4 : d3.Kept d4 := Dev.Kept.foldl_mem _ (fun d r hr => Dev.Kept.coopLevel d r (by simpa using hr)) _
  have kStash : d4.Kept (d4.holdLevel d4.stashHigh (R .FS_FLAGS) 2) := Dev.Kept.holdLevel _ _ _ _ (fun _ => mem_levelRegs_one (by simp)) (by omega)
  have kPhase : (d4.holdLevel d4.stashHigh (R .FS_FLAGS) 2).Kept d5 := Dev.Kept.holdLevel _ _ _ _ (fun _ => mem_levelRegs_one (by simp)) (by omega)
  have kDrift : d5.Kept d6 := Dev.Kept.stepLevel _ _ _ _ _ (mem_levelRegs_one (by simp)) (by omega)
  have kTherm : d6.Kept (d6.stepLevel d0.thermWarn d6.thermWarn (R .MC_FLAGS) 7) :=
    Dev.Kept.stepLevel _ _ _ _ _ (mem_levelRegs_one (by simp)) (by omega)
  have from4 := ((kStash.trans kPhase).trans kDrift).trans kTherm
  have from3 := k4.trans from4
  refine ⟨?drift, ?therm, ?phase, ?stash, ?range, ?skew⟩
  case drift =>
    intro hc
    rw [kTherm.drifts, kDrift.drifts] at hc
    exact kTherm.flags _ (mem_levelRegs_one (by simp)) 20 (Dev.flag_stepLevel d5 _ (by omega) (by decide) hc)
  case therm =>
    intro hc
    rw [kTherm.thermWarn] at hc
    exact Dev.flag_stepLevel d6 _ (by omega) (by decide) hc
  case phase =>
    intro hc
    rw [kTherm.phaseOk, kDrift.phaseOk, kPhase.phaseOk, kStash.phaseOk] at hc
    exact (kDrift.trans kTherm).flags _ (mem_levelRegs_one (by simp)) 3 (Dev.flag_holdLevel _ _ (by omega) (by rw [hc]; rfl))
  case stash =>
    intro hc
    rw [from4.stashHigh] at hc
    exact ((kPhase.trans kDrift).trans kTherm).flags _ (mem_levelRegs_one (by simp)) 2 (Dev.flag_holdLevel d4 _ (by omega) hc)
  case range =>
    intro t ht hc
    rw [(k3.trans from3).rangeReq, Dev.gs] at hc
    have hm : (t, d2.rx.gs.getD t GsTree.rest) ∈ d2.rx.gs := Table.mem_of_getD_ne fun he => hc (by rw [he]; rfl)
    refine from3.flags _ (mem_levelRegs_gs ht) 6 (Dev.flag_foldl gsKept (mem_levelRegs_gs ht) (fun d => ?_) hm d2)
    exact Dev.flag_holdLevel d _ (by omega) (by simpa [ht] using hc)
  case skew =>
    intro n hn hc
    rw [((k2.trans k3).trans from3).lx] at hc
    refine (k3.trans from3).flags _ (mem_levelRegs_lane hn) 5 (Dev.flag_foldl skewKept (mem_levelRegs_lane hn) (fun d => ?_) hc d1)
    exact Dev.flag_holdLevel d _ (by omega) (by simpa using hn)

end Sys2Proof.Machine

open Sys2Proof Sys2Proof.Machine Sys2Proof.Safety

/-- Settles O5: out of HELD every step ends by holding the level-set flags, and interrupt delivery takes none back. -/
theorem levelFlagsStandAfterEveryStep : Obligations.LevelFlagsStandAfterEveryStep := by
  unfold Obligations.LevelFlagsStandAfterEveryStep
  intro s t ht hstate
  obtain ⟨d0, d, q, hstep⟩ := step_settles s
  rw [hstep, Host.Outcome.next.injEq] at ht
  subst ht
  simp only [Dev.settle] at hstate ⊢
  split at hstate
  next hheld => exact absurd hheld hstate
  next hheld =>
    rw [if_neg hheld]
    exact (Dev.deliver_kept _).levelsHold (Dev.levels_hold _ _)

end

section

namespace Sys2Proof.Safety

open Sys2Proof.Machine

/-! The reset state, evaluated: what the start instant leaves written lies in the observability block and in IM_DEV_STATUS. -/

theorem reset_levelsHold : levelsHold State.reset.dev := by unfold levelsHold; decide +kernel

theorem reset_delivered : delivered State.reset.dev := by unfold delivered; decide +kernel

theorem reset_parts : State.reset.dev.wins = [] ∧ State.reset.dev.rx = RxState.rest ∧ State.reset.dev.mc.sent = [] := by decide +kernel

theorem reset_written : ∀ kv ∈ State.reset.dev.regs, obAddr kv.1 = true ∨ kv.1 = (R .IM_DEV_STATUS).addr := by decide +kernel

/-- A register at no address that is written is at its reset value. -/
theorem reg_of_unwritten {d : Dev} {r : Reg} (h : ∀ kv ∈ d.regs, kv.1 ≠ r.addr) : d.reg r = r.reset := by
  cases hv : d.regs.get? r.addr with
  | none => rw [Dev.reg_def, hv]
  | some v => exact absurd rfl (h _ (Table.mem_of_get? hv))

end Sys2Proof.Safety

open Sys2Proof Sys2Proof.Machine Sys2Proof.Safety

/-- Settles O3: the reset state by evaluation, and each register out of the two blocks written by its absence from the file. -/
theorem resetIsTheStartInstant : Obligations.ResetIsTheStartInstant := by
  unfold Obligations.ResetIsTheStartInstant
  obtain ⟨hwins, hrx, hsent⟩ := reset_parts
  refine ⟨rfl, by decide +kernel, test_reset_quiet.1, reset_levelsHold, reset_delivered, fun w => ?_, fun t => ?_, hsent, fun r hob him => ?_⟩
  · rw [Dev.win, hwins]
    rfl
  · rw [Dev.tf, hrx]
    rfl
  · have hfree : ∀ kv ∈ State.reset.dev.regs, kv.1 ≠ r.addr := fun kv hkv he => by simpa [he, hob, him] using reset_written kv hkv
    rw [reg_of_unwritten hfree, BitVec.toNat_ofNat, Nat.mod_eq_of_lt r.reset_lt]

end

section

namespace Sys2Proof.Machine

open Sys2Proof.Safety

/-! A device in HELD (R46, R543): no source reaches it, no time passes in it, and no event finds it in a state in which it occurs. -/

section

variable {d : Dev} (h : d.im.state = .held)

include h

theorem Dev.busUp_held (src : Src) : d.busUp src = false := by simp [Dev.busUp, h]

theorem Dev.elapse_held (dt : Nat) : d.elapse dt = d := if_pos h

theorem Dev.busWrite_held (fails : Bool) (src : Src) (off be v : Nat) : d.busWrite fails src off be v = d := by
  simp [Dev.busWrite, Dev.busUp_held h]

theorem Dev.busRead_held (src : Src) (off be : Nat) : d.busRead src off be = d := by simp [Dev.busRead, Dev.busUp_held h]

theorem Dev.putWord_held (w : WordW) : d.putWord w = d := by simp [Dev.putWord, Dev.busUp_held h]

theorem Dev.cfgAccess_held (src : Src) (f : CfgField) (w : Option Nat) : d.cfgAccess src f w = d := by
  unfold Dev.cfgAccess
  split
  · rfl
  · rw [if_pos (Or.inr (Or.inl h))]

theorem Dev.access_held (src : Src) (off : Nat) (a : BusAcc) : d.access src off a = d := by
  cases a <;> simp [Dev.access, Dev.busUp_held h, Dev.cfgAccess_held h]

theorem Dev.sameCycle_held (src : Src) (off : Nat) (a : BusAcc) (also : List (Src × Nat × BusAcc)) : d.sameCycle src off a also = d := by
  unfold Dev.sameCycle
  split
  · exact Dev.access_held h src off a
  · extract_lets all words gos d1 d2 d3
    have h1 : d1 = d := List.foldl_fixed' (Dev.putWord_held h) _
    have h2 : d2 = d := by
      show List.foldl _ d1 all = d
      rw [h1]
      refine List.foldl_fixed' (fun x => ?_) _
      split
      · exact Dev.cfgAccess_held h _ _ _
      · exact Dev.cfgAccess_held h _ _ _
      · simp [Dev.busUp_held h]
      · refine List.foldl_fixed' (fun y => ?_) _
        simp [Dev.putWord_held h]
    have h3 : d3 = d := by
      show List.foldl _ d2 _ = d
      rw [h2]
      exact List.foldl_fixed' (fun (k : Nat) => List.foldl_fixed' (Dev.putWord_held h) (gos.filter fun x => bankOf x.src == k)) _
    rw [h3]
    simp [Dev.busUp_held h, Dev.seamStall]

theorem Dev.writeReg_held (src : Src) (r : Reg) (v : Nat) : d.writeReg src r v = d := by
  unfold Dev.writeReg
  split
  · rfl
  · split <;> simp [Dev.busWrite_held h, Dev.busUp_held h]

theorem Dev.readReg_held (src : Src) (r : Reg) : d.readReg src r = d := by
  unfold Dev.readReg
  split
  · rfl
  · split <;> simp [Dev.busRead_held h, Dev.busUp_held h]

theorem Dev.command_held (fails : Bool) (w : Win) (op : Nat) (c : CmdArgs) : d.command fails w op c = d := by
  unfold Dev.command
  extract_lets
  split
  · exact List.foldl_fixed' (fun x => Dev.busWrite_held h _ _ _ _ _) _
  · simp [Dev.busUp_held h]
  · rfl

theorem Dev.mayWrite_held (src : Src) (r : Reg) : d.mayWrite src r = false := by simp [Dev.mayWrite, Dev.busUp_held h]

theorem Dev.writeAnd_held (src : Src) (r : Reg) (v : Nat) (g : Dev → Dev) : d.writeAnd src r v g = d := by
  simp [Dev.writeAnd, Dev.mayWrite_held h, Dev.writeReg_held h]

theorem Dev.pcntWrite_held (src : Src) (k v occ : Nat) : d.pcntWrite src k v occ = d := by
  simp [Dev.pcntWrite, Dev.mayWrite_held h, Dev.writeReg_held h]

theorem Dev.awake_held : d.awake = false := by simp [Dev.awake, h]

theorem Dev.laneLive_held : d.laneLive = false := by simp [Dev.laneLive, Dev.awake_held h]

theorem Dev.alive_held : d.alive = false := by simp [Dev.alive, h]

end

section

variable {s : State} (h : s.dev.im.state = .held) (hk : s.dev.kicks = [])

include h hk

/-- What leaves a held device as it is leaves the state: the step's end has nothing to do (R46). -/
theorem act_held {f : Dev → Dev} (hf : f s.dev = s.dev) : act s f = .next s := by
  obtain ⟨d, q⟩ := s
  have hd : { d with kicks := [] } = d := by cases d; cases hk; rfl
  rw [act, show f d = d from hf, Dev.settle, if_pos h, hd]

theorem act_command_held (fails : Bool) (w : Win) (op : Nat) (c : CmdArgs) : (act s fun d => d.command fails w op c) = .next s :=
  act_held h hk (Dev.command_held h ..)

theorem act_treeCommand_held (p : Prop) [Decidable p] (w : Win) (op : Nat) (c : CmdArgs) :
    (act s fun d => if p then d.command false w op c else d) = .next s :=
  act_held h hk (by rw [Dev.command_held h, ite_self])

theorem act_writeReg_held (src : Src) (r : Reg) (v : Dev → Nat) : (act s fun d => d.writeReg src r (v d)) = .next s :=
  act_held h hk (Dev.writeReg_held h ..)

theorem act_readReg_held (src : Src) (r : Reg) : (act s fun d => d.readReg src r) = .next s :=
  act_held h hk (Dev.readReg_held h ..)

/-- An event does not occur in HELD. -/
theorem event_held {dt : Nat} {can : Dev → Bool} {f : Dev → Dev} (hcan : can s.dev = false) : event s dt can f = .next s :=
  act_held h hk (by rw [Dev.elapse_held h, hcan]; rfl)

end

end Sys2Proof.Machine

open Sys2Proof Sys2Proof.Machine Sys2Proof.Safety

/-- Settles O7: in HELD an access does not reach the device, a window takes no command, and no event finds the state in which it
occurs. -/
theorem heldDeviceTakesOnlyPins : Obligations.HeldDeviceTakesOnlyPins := by
  unfold Obligations.HeldDeviceTakesOnlyPins
  intro i s h hk hpins
  cases i <;> rw [exec]
  case porstN | srstN | pwrfailNFall | pciePerstN | refclkLoss | refclkReturn | jtagInstruction | railLoss | pwrfailNRise | railsGood =>
    exact absurd hpins (by simp [atPins])
  case registerWrite => exact act_held h hk (Dev.sameCycle_held h ..)
  case outOfSliceAccess => exact act_held h hk (Dev.access_held h ..)
  case chkClr | clrStats | clrLost => exact act_held h hk (Dev.writeAnd_held h ..)
  case alignedInstant =>
    rw [execAlignedInstant]
    exact event_held h hk (Dev.alive_held h)
  case pcntCfgWrite => exact act_held h hk (Dev.pcntWrite_held h ..)
  case lowWordWrite | ponidHiWrite | incHiWrite | cmpTgtHiWrite | pnThreshHiWrite | defectPop | ploamuPop | discPop | coopPiWrite
      | coopEnWrite | eccPop | laPiWrite | keyEvtPop | todcapArm | txtsPop | coreReset | ringPiWrite | intEoi | vfEoi | errInject
      | kick | dmaGo | replan =>
    exact act_writeReg_held h hk ..
  case sfcLoRead | ulStatLoRead | mgmtStatLoRead | cntLoRead | nowLoRead | todNsRead | capLoRead | todcapTLoRead | freeErrRead =>
    exact act_readReg_held h hk ..
  case start | quiesce | resume | warmReset | loadHost | loadReach | lightReach | darkenReach | ruleWrite | ruleRead |
      keyProfileWrite | keyProfileRead | mirrorWrite | mirrorRead | bankCopy | bankSwap | bankClear | insert | update | delete |
      lookup | slotRead | rebuild | policerWrite | policerRead | profWrite | profRead | queueWrite | queueRead | queueFlush |
      queueHold | nodeWrite | nodeRead | shaperWrite | shaperRead | bufAlloc | bufFree | cellRead | cellWrite | cellRetire |
      retireRead | reclaim | eccInject | ponKeyInstall | ponKeySwitch | ponKeyClear | ponKeyRead | msSaKey | msSaParam | msSaPn |
      msSaEnable | msSaDisable | msSaRead | laKeyWrite | laKeyClear | laKeyRead | timeSet | timeStep | timeSlew | frameAlign |
      gclWrite | gclCommit | gclCancel | gclStop | gclRead | switch | lockout | lockoutClear | join | resync | pairKey |
      pairKeyClear | updBegin | updWrite | updVerify | updCommit | updAbort | updConfirm | recRead | recClear | recWrite |
      cntClear | statBind | statRead | statClear | sampleRead | sampleRestart =>
    exact act_command_held h hk ..
  case treeOff | treeStandby | treeActive | setSfc | termDefects | pmRead | pmResetCurrent | xgemPortAdd | xgemPortDel |
      xgemPortRead | termProvision | termAssign | termDeactivate | termDisable | termEnable | termRelease | termSetIk | termRead |
      profileRead | profileInvalidate | ploamTail | ploamSend | allocAdd | allocModify | allocDel | allocRead | predRead |
      predReset | mapRead =>
    exact act_treeCommand_held h hk ..
  case bootLoad | reachLoadDone | cattrip | compareFire | captureEdge | chainModeChange | watchdogExpiry | scratchpadAccess |
      dmaComplete | mgmtFrameReceive | mgmtLinkChange | vfFlr | thermalSample | marginRun | recordFlush | chainInPpsEdge |
      slewComplete | clockFallback | mgmtTransmit | pfFlr | opSecondsPersist | clearEraseDone =>
    exact event_held h hk (by simp [Dev.awake_held h])
  case pllUnlock | laneLosSet | laneLosClear | laneLolSet | laneLolClear | mateLaneRejoin | eyeScanDone | prbsLockLoss | pllRelock
      | markerLockLoss | prbsCheckerLock | memoryTemperatureHot =>
    exact event_held h hk (by simp [Dev.laneLive_held h])
  case frameBoundary | swapBit | profileRefill | burstOutcome | ungrantedEnergy | reasmTimeout | pmHistoryWrite | serialNumberOnu
      | registration | acknowledge | ploamuHostMessage | activationFail | lostTimeout | adjWaitExpiry | mapComputationStart |
      mapDeadline | predictorBinEnd | dayProfileLoad | packetIngress | enqueueCommit | flowStoreScrub | policerRefresh |
      dequeueDecision | agingScan | shaperRefresh | allocationRound | prefetch | memoryScrub | laDescriptor | uplinkFrameReceive |
      pauseFrame | pfcFrame | pauseTimerExpiry | xoffRepeat | portConditionChange | portUp | degradedWindowEnd |
      gclStart | helloCell | switchReqCell | commitCell | recordCell | mapCell | needCell | markerCell | copyFrame | wtrExpiry |
      linkTakeover | startupTakeover | standdown | snapshotWrite | coldTakeover | injectionDescriptor | migrationStep |
      queueFlushDone | reclaimDone | resyncReqCell | mateLinkUp | mateLinkDown =>
    exact event_held h hk (by simp [Dev.alive_held h])

end

section

namespace Sys2Proof.Safety

open Sys2Proof.Machine

/-! Frames where a window changes beside: the window's banks are in no part. -/

theorem Frame.of_kept {d d' : Dev} (h : d.Kept d') : Frame [] (fun _ => false) d d' :=
  ⟨fun p _ => same_of_kept h p, fun a _ ha => h.regs a ha⟩

/-- A change of a window is in no frame. -/
theorem Frame.of_onWin {ps : List Part} {reg : Nat → Bool} {d d' : Dev} {w : Win} {f : Window → Window}
    (h : Frame ps reg (d.onWin w f) d') : Frame ps reg d d' := by
  obtain ⟨hp, hr⟩ := h
  refine ⟨fun p hn => ?_, hr⟩
  cases p <;> exact hp _ hn

theorem win_onWin_ne (d : Dev) {w v : Win} (f : Window → Window) (h : v.base ≠ w.base) : (d.onWin w f).win v = d.win v := by
  simp [Dev.win, Dev.onWin, Ne.symm h]

/-- A change of one bank of a window leaves the other windows and the other banks. -/
theorem othersKept_of_kept {d d' : Dev} {w : Win} {src : Src} {g : Bank → Bank}
    (h : (d.onWin w fun x => x.onBank (bankOf src) g).Kept d') : othersKept d d' w src := by
  refine ⟨fun v hv => (Dev.win_congr h.wins v).trans (win_onWin_ne d _ hv), fun b hb => ?_⟩
  rw [Dev.win_congr h.wins w, Dev.win_onWin, Window.bank_onBank_ne _ _ _ _ hb.symm]

/-- A word of PF0 to a window that it sees is a word of its bank (R53). -/
theorem writeWin_pf0 {d : Dev} {w : Win} (hn : winNumber w = true) (hup : d.busUp .pf0 = true) (ha : d.answers w.base = true)
    (ht : d.winThere w = true) {k : Nat} (hk : k < 10) (v : Nat) :
    d.access .pf0 (w.base + 4 * k) (.write [(15, v)]) = d.bankWrite false w .pf0 (4 * k) (v % 2 ^ 32) := by
  have hsees : d.sees w .pf0 = true := by simp [Dev.sees, hup, ha, ht]
  rw [← Dev.busWrite_win (mem_allWins hn) hsees false rfl hk v, Dev.access, if_pos hup]
  rfl

/-- GO in a busy bank notes its SEQ and runs nothing (R56). -/
theorem bankWrite_go_busy {d : Dev} {w : Win} {src : Src} {v : Nat} (hb : ((d.win w).bank (bankOf src)).busy = true) (hv : bit v 31 = true) :
    d.bankWrite false w src 0x24 v = d.onWin w fun x => x.onBank (bankOf src) fun b =>
      { b with seq := bits v 15 8, opcode := bits v 7 0, rejValid := true, rejSeq := bits v 15 8 } := by
  simp only [Dev.bankWrite, hv, if_true, Dev.issue, Dev.win_onWin, Window.bank_onBank, hb, Dev.onWin_onWin, Window.onBank_onBank]
  rfl

end Sys2Proof.Safety

open Sys2Proof Sys2Proof.Machine Sys2Proof.Safety

/-- Settles O15: PF0's GO reaches its bank, which is busy and only notes it. -/
theorem goInBusyBankIsRejected : Obligations.GoInBusyBankIsRejected := by
  unfold Obligations.GoInBusyBankIsRejected
  intro s w v hq hn hup ha ht hbusy hgo
  have hv31 : bit (v % 2 ^ 32) 31 = true := by simp only [bit, beq_iff_eq] at hgo ⊢; omega
  have hseq : bits (v % 2 ^ 32) 15 8 = bits v 15 8 := by simp only [bits]; omega
  have hgoes := (writeWin_pf0 hn hup ha ht (k := 9) (by omega) v).trans (bankWrite_go_busy hbusy hv31)
  have hex := exec_registerWrite .pf0 (w.base + 4 * 9) (.write [(15, v)]) s
  refine (answers_act hex ?_ ?_).imp fun d hd => ?_
  · rw [hgoes]
    exact hq.1
  · rw [hgoes]
    exact hq.2
  · rw [hgoes, hseq] at hd
    refine ⟨?_, ?_, ?_, ?_, ?_, othersKept_of_kept hd, (Frame.of_kept hd).of_onWin⟩ <;> rw [Dev.win_congr hd.wins w, Dev.win_onWin]
    · exact congrArg Bank.rejValid (Window.bank_onBank _ _ _)
    · exact congrArg Bank.rejSeq (Window.bank_onBank _ _ _)
    · exact (congrArg Bank.busy (Window.bank_onBank _ _ _)).trans hbusy
    · rfl
    · rfl

end

section

namespace Sys2Proof.Safety

open Sys2Proof.Machine

/-! A refusal (R57, R58): the command completes with its STATUS, and only the report of it is left. -/

/-- The report of a refusal touches observability, and of a refusal in IM_CMD its flag. -/
theorem leaves_reportRefusal {ps : List Part} {reg : Nat → Bool} (d : Dev) (w : Win) (a : Accepted) (st : Status) (obj : Nat)
    (ho : Part.ob ∈ ps) (hf : w = .im → reg (R .IM_FLAGS).addr = true) : Leaves ps reg d (d.reportRefusal w a st obj) := by
  have logged (e : Nat) (fs : List (Nat × Nat)) :
      Leaves ps reg d (if w = .im then ((d.count e).record e w.rsrc.1 w.rsrc.2 false fs).raise (R .IM_FLAGS) 4
        else (d.count e).record e w.rsrc.1 w.rsrc.2 false fs) := by
    have hrec := (leaves_count (ps := ps) (reg := reg) d e).trans (leaves_record _ e w.rsrc.1 w.rsrc.2 false fs ho)
    split
    · next hw => exact hrec.trans (leaves_raise _ _ _ (hf hw))
    · exact hrec
  cases st
  case notInState => exact logged 0x19 _
  case denied => exact logged 0x1A _
  case badArgument => exact leaves_count d 0x1B
  case busy => exact leaves_count d 0x1C
  all_goals exact Leaves.refl d

/-- A ready window's command that its window refuses is done with the STATUS and no result, and changes no object. -/
theorem answers_refuse {i : Instr} {s : State} {w : Win} {c : CmdArgs} {op : Nat} {reg : Nat → Bool} {st : Status} {obj : Nat}
    (hq : Quiet s.dev) (h : ready s.dev w c.src = true) (hex : exec i s = act s fun d => d.command false w op c)
    (hr : runOp false w (latched op c) (s.dev.accepted w op c) = .refuse st obj) (ha : LagApart [.ob] reg)
    (hf : w = .im → reg (R .IM_FLAGS).addr = true) (hop : op < 256 := by omega) :
    Answers i s fun d => done d w c st [] ∧ Frame [.ob] reg s.dev d := by
  have hc : s.dev.command false w op c =
      ((s.dev.accepted w op c).complete w (latched op c) st []).reportRefusal w (latched op c) st obj := by
    rw [Dev.command_ready h false op hop, hr]
    rfl
  have hl := leaves_reportRefusal (reg := reg) ((s.dev.accepted w op c).complete w (latched op c) st []) w (latched op c) st obj
    (List.mem_singleton.2 rfl) hf
  refine (answers_act hex ?_ ?_).imp fun d hd => ?_
  · rw [hc]
    exact hl.2.trans hq.1
  · rw [hc]
    exact hl.still ha hq.2
  · rw [hc] at hd
    obtain ⟨hframe, hwin⟩ := Only.kept hl.1 hd
    refine ⟨?_, hframe.of_onWin.of_onWin⟩
    have hdone := Dev.done_complete (d := s.dev) (d1 := s.dev.accepted w op c) (w := w) (op := op) (c := c) rfl st []
    unfold done at hdone ⊢
    rwa [hwin w]

/-- A refusal of a window other than IM_CMD changes no register but the report's. -/
theorem answers_refuse_plain {i : Instr} {s : State} {w : Win} {c : CmdArgs} {op : Nat} {st : Status} {obj : Nat} (hq : Quiet s.dev)
    (h : ready s.dev w c.src = true) (hw : w ≠ .im) (hex : exec i s = act s fun d => d.command false w op c)
    (hr : runOp false w (latched op c) (s.dev.accepted w op c) = .refuse st obj) (hop : op < 256 := by omega) :
    Answers i s fun d => done d w c st [] ∧ Frame [.ob] (fun _ => false) s.dev d :=
  answers_refuse hq h hex hr (lagApart_none (by decide) (by decide)) (fun hi => absurd hi hw) hop

/-- A field below bit 32 of the latched object is the command's. -/
theorem bits_latched (op : Nat) (c : CmdArgs) {hi lo : Nat} (hh : hi < 32) (hl : lo ≤ 32) :
    bits (latched op c).obj hi lo = bits c.obj hi lo := by
  have hsplit : (2 : Nat) ^ 32 = 2 ^ lo * 2 ^ (32 - lo) := by rw [← Nat.pow_add, Nat.add_sub_cancel' hl]
  simp only [bits, latched]
  rw [hsplit, Nat.mod_mul_right_div_self, Nat.mod_mod_of_dvd _ (Nat.pow_dvd_pow 2 (by omega))]

theorem bit_latched (op : Nat) (c : CmdArgs) {i : Nat} (h : i < 32) : bit (latched op c).obj i = bit c.obj i := by
  simp only [bit_eq_testBit, latched, Nat.testBit_mod_two_pow, h, decide_true, Bool.true_and]

section

variable {a : Accepted} {d : Dev}

/-- The opcodes of a gate list refuse a VF (R434). -/
theorem gcl_denied (h : trusted a.src = false) : ∀ f ∈ [opGclWrite, opGclCommit, opGclCancel, opGclStop, opGclRead],
    f a d = .refuse .denied (b2n (d.gates (bits a.obj 3 0)).pending.isSome) := by
  simp [opGclWrite, opGclCommit, opGclCancel, opGclStop, opGclRead, h]

/-- The opcodes of a gate list refuse an object that is no port (R434). -/
theorem gcl_badPort (h : trusted a.src = true) (hp : d.portDef (bits a.obj 3 0) = none) :
    ∀ f ∈ [opGclWrite, opGclCommit, opGclCancel, opGclStop, opGclRead], f a d = .refuse .badArgument 0 := by
  simp [opGclWrite, opGclCommit, opGclCancel, opGclStop, opGclRead, h, Dev.gclPort, hp]

/-- The commands that move C or the frame refuse a VF (R434). -/
theorem time_denied (h : trusted a.src = false) : ∀ f ∈ [opTimeSet, opTimeStep, opTimeSlew, opFrameAlign], f a d = .refuse .denied 0 := by
  simp [opTimeSet, opTimeStep, opTimeSlew, opFrameAlign, h]

/-- The MACsec commands refuse a VF (R378). -/
theorem ms_denied (h : trusted a.src = false) : ∀ f ∈ [opMsSaKey, opMsSaParam, opMsSaPn, opMsSaEnable, opMsSaDisable, opMsSaRead],
    f a d = .refuse .denied (d.sa (bits a.obj 11 0)).state := by
  simp [opMsSaKey, opMsSaParam, opMsSaPn, opMsSaEnable, opMsSaDisable, opMsSaRead, msOnly, h]

/-- A command for a terminal that lies on a tree which the source does not own is refused first (R192, R571). -/
theorem term_denied {r : Nat} (hb : bit a.obj 16 = false) (ho : d.treeOpen a.src (bits a.obj 15 0 / 512) = false) :
    ∀ f ∈ [opTermProvision, opTermAssign, opTermDeactivate, opTermDisable, opTermEnable, opTermRelease,
      opTermSetIk, opTermRead, opProfileRead, opProfileInvalidate], f r a d = .refuse .denied (d.term (bits a.obj 15 0)).state.code := by
  simp [opTermProvision, opTermAssign, opTermDeactivate, opTermDisable, opTermEnable, opTermRelease,
    opTermSetIk, opTermRead, opProfileRead, opProfileInvalidate, Dev.rgTerm, hb, ho]

end

end Sys2Proof.Safety

open Sys2Proof Sys2Proof.Machine Sys2Proof.Safety

/-- Settles O16: each of the commands is refused before its window's state changes. -/
theorem refusedCommandsChangeNoObject : Obligations.RefusedCommandsChangeNoObject := by
  unfold Obligations.RefusedCommandsChangeNoObject
  intro s c hq
  refine ⟨fun h hst hobj => ?start, fun h hv => ?time, fun h hv hp => ?gate, fun h hv => ?macsec, fun h h0 => ?update,
    fun r hr h hb ho => ?terminal⟩
  case start =>
    have hsrc : trusted c.src = true := by
      cases hc : c.src with
      | vf v => simp [ready, hc, Dev.winOpen] at h
      | _ => rfl
    refine answers_refuse hq h rfl (st := .notInState) (obj := s.dev.im.state.code) ?_ (lagApart_one _ (by decide) (by decide) (by decide)) fun _ => by simp
    show opStart (latched 1 c) _ = _
    have hobj' : (latched 1 c).obj = 0 := hobj
    have hsrc' : trusted (latched 1 c).src = true := hsrc
    simp [opStart, imWait, imObj0, hsrc', hobj', hst]
  case time =>
    have denied (op : Nat) (f : Accepted → Dev → CmdRes) (hf : f ∈ [opTimeSet, opTimeStep, opTimeSlew, opFrameAlign]) :=
      time_denied (a := latched op c) (d := s.dev.accepted .tb op c) hv f hf
    have closed (op : Nat) (f : Accepted → Dev → CmdRes) (hf : f ∈ [opGclWrite, opGclCommit, opGclCancel, opGclStop, opGclRead]) :=
      gcl_denied (a := latched op c) (d := s.dev.accepted .tb op c) hv f hf
    intro i hi
    simp only [List.mem_cons, List.not_mem_nil, or_false] at hi
    rcases hi with rfl | rfl | rfl | rfl | rfl | rfl | rfl | rfl | rfl
    · exact answers_refuse_plain hq h (by decide) rfl (denied 0x01 opTimeSet (by simp))
    · exact answers_refuse_plain hq h (by decide) rfl (denied 0x02 opTimeStep (by simp))
    · exact answers_refuse_plain hq h (by decide) rfl (denied 0x03 opTimeSlew (by simp))
    · exact answers_refuse_plain hq h (by decide) rfl (denied 0x04 opFrameAlign (by simp))
    · exact answers_refuse_plain hq h (by decide) rfl (closed 0x10 opGclWrite (by simp))
    · exact answers_refuse_plain hq h (by decide) rfl (closed 0x11 opGclCommit (by simp))
    · exact answers_refuse_plain hq h (by decide) rfl (closed 0x12 opGclCancel (by simp))
    · exact answers_refuse_plain hq h (by decide) rfl (closed 0x13 opGclStop (by simp))
    · exact answers_refuse_plain hq h (by decide) rfl (closed 0x14 opGclRead (by simp))
  case gate =>
    have bad (op : Nat) (f : Accepted → Dev → CmdRes) (hf : f ∈ [opGclWrite, opGclCommit, opGclCancel, opGclStop, opGclRead]) :=
      gcl_badPort (a := latched op c) (d := s.dev.accepted .tb op c) hv
        (by rw [bits_latched op c (by omega) (by omega)]; exact hp) f hf
    intro i hi
    simp only [List.mem_cons, List.not_mem_nil, or_false] at hi
    rcases hi with rfl | rfl | rfl | rfl | rfl
    · exact answers_refuse_plain hq h (by decide) rfl (bad 0x10 opGclWrite (by simp))
    · exact answers_refuse_plain hq h (by decide) rfl (bad 0x11 opGclCommit (by simp))
    · exact answers_refuse_plain hq h (by decide) rfl (bad 0x12 opGclCancel (by simp))
    · exact answers_refuse_plain hq h (by decide) rfl (bad 0x13 opGclStop (by simp))
    · exact answers_refuse_plain hq h (by decide) rfl (bad 0x14 opGclRead (by simp))
  case macsec =>
    have denied (op : Nat) (f : Accepted → Dev → CmdRes) (hf : f ∈ [opMsSaKey, opMsSaParam, opMsSaPn, opMsSaEnable, opMsSaDisable, opMsSaRead]) :=
      ms_denied (a := latched op c) (d := s.dev.accepted .ce op c) hv f hf
    intro i hi
    simp only [List.mem_cons, List.not_mem_nil, or_false] at hi
    rcases hi with rfl | rfl | rfl | rfl | rfl | rfl
    · exact answers_refuse_plain hq h (by decide) rfl (denied 0x10 opMsSaKey (by simp))
    · exact answers_refuse_plain hq h (by decide) rfl (denied 0x11 opMsSaParam (by simp))
    · exact answers_refuse_plain hq h (by decide) rfl (denied 0x12 opMsSaPn (by simp))
    · exact answers_refuse_plain hq h (by decide) rfl (denied 0x13 opMsSaEnable (by simp))
    · exact answers_refuse_plain hq h (by decide) rfl (denied 0x14 opMsSaDisable (by simp))
    · exact answers_refuse_plain hq h (by decide) rfl (denied 0x15 opMsSaRead (by simp))
  case update =>
    have session0 (op : Nat) : (s.dev.accepted .upd op c).session = 0 := h0
    intro i hi
    simp only [List.mem_cons, List.not_mem_nil, or_false] at hi
    rcases hi with rfl | rfl
    · exact answers_refuse_plain hq h (by decide) rfl (if_pos (by rw [session0]; decide))
    · exact answers_refuse_plain hq h (by decide) rfl (if_pos (by rw [session0]; decide))
  case terminal =>
    have denied (op : Nat) (f : Nat → Accepted → Dev → CmdRes) (hf : f ∈ [opTermProvision, opTermAssign, opTermDeactivate, opTermDisable, opTermEnable, opTermRelease,
        opTermSetIk, opTermRead, opProfileRead, opProfileInvalidate]) :=
      term_denied (a := latched op c) (d := s.dev.accepted (.rg r) op c) (r := r) (by rw [bit_latched op c (by omega)]; exact hb)
        (by rw [bits_latched op c (by omega) (by omega)]; exact ho) f hf
    have exec_rg (op : Nat) : (act s fun d => if r < 8 then d.command false (.rg r) op c else d) =
        act s fun d => d.command false (.rg r) op c := by simp only [hr, if_true]
    intro i hi
    simp only [List.mem_cons, List.not_mem_nil, or_false] at hi
    rcases hi with rfl | rfl | rfl | rfl | rfl | rfl | rfl | rfl | rfl | rfl
    · exact answers_refuse_plain hq h (by simp) (exec_rg 0x01) (denied 0x01 opTermProvision (by simp))
    · exact answers_refuse_plain hq h (by simp) (exec_rg 0x02) (denied 0x02 opTermAssign (by simp))
    · exact answers_refuse_plain hq h (by simp) (exec_rg 0x03) (denied 0x03 opTermDeactivate (by simp))
    · exact answers_refuse_plain hq h (by simp) (exec_rg 0x04) (denied 0x04 opTermDisable (by simp))
    · exact answers_refuse_plain hq h (by simp) (exec_rg 0x05) (denied 0x05 opTermEnable (by simp))
    · exact answers_refuse_plain hq h (by simp) (exec_rg 0x06) (denied 0x06 opTermRelease (by simp))
    · exact answers_refuse_plain hq h (by simp) (exec_rg 0x07) (denied 0x07 opTermSetIk (by simp))
    · exact answers_refuse_plain hq h (by simp) (exec_rg 0x08) (denied 0x08 opTermRead (by simp))
    · exact answers_refuse_plain hq h (by simp) (exec_rg 0x10) (denied 0x10 opProfileRead (by simp))
    · exact answers_refuse_plain hq h (by simp) (exec_rg 0x11) (denied 0x11 opProfileInvalidate (by simp))

end

section

namespace Sys2Proof.Safety

open Sys2Proof.Machine

/-! What the recorder does of its own (R517, R520 to R524) touches observability alone. -/

section

variable {ps : List Part} {reg : Nat → Bool} (ho : Part.ob ∈ ps) (d : Dev)

include ho

theorem leaves_makeRec (typ src inst : Nat) (fault mate : Bool) (body : List Byte) :
    Leaves ps reg d (d.makeRec typ src inst fault mate body) := by
  refine ⟨⟨⟨fun p hp => ?_, fun a _ ha => ?_⟩, Dev.win_congr (by simp)⟩, by simp⟩
  · cases p
    case ob => exact absurd ho hp
    all_goals simp [same, Dev.ulPort]
  · unfold Dev.makeRec
    split
    · rfl
    · simp only [Dev.stage_get? _ _ _ (reportAddr_ob ha), Dev.onOb_regs]

theorem leaves_ownRec (typ : Nat) (fault : Bool) (width : Nat) (fs : List (Nat × Nat)) : Leaves ps reg d (d.ownRec typ fault width fs) :=
  leaves_makeRec ho d _ _ _ _ _ _

theorem leaves_recFail (addr op : Nat) : Leaves ps reg d (d.recFail addr op) :=
  ((leaves_onOb d _ ho).trans (leaves_raise_report _ _ _ (by decide))).trans (leaves_ownRec ho _ _ _ _ _)

theorem leaves_ctlWrite : Leaves ps reg d d.ctlWrite :=
  Leaves.ite (Leaves.refl d) (Leaves.ite (leaves_recFail ho d _ _) (leaves_onOb d _ ho))

theorem leaves_persist (r : Rec) : Leaves ps reg d (d.persist r) :=
  Leaves.ite ((leaves_onOb d _ ho).trans (leaves_ctlWrite ho _)) (leaves_onOb d _ ho)

theorem leaves_writeStaged (n : Nat) : Leaves ps reg d (d.writeStaged n) := by
  induction n generalizing d with
  | zero => exact Leaves.refl d
  | succ n ih =>
    unfold Dev.writeStaged
    split
    · exact Leaves.refl d
    · exact Leaves.ite (Leaves.refl d) (((leaves_onOb d _ ho).trans (leaves_persist ho _ _)).trans (ih _))

theorem leaves_lossRec : Leaves ps reg d d.lossRec := by
  unfold Dev.lossRec
  split
  · exact Leaves.ite ((leaves_onOb d _ ho).trans (leaves_ownRec ho _ _ _ _ _)) (Leaves.refl d)
  · exact Leaves.refl d

theorem leaves_recordFlush (fails : List RecOp) (eraseFail ctlFail : Bool) : Leaves ps reg d (d.recordFlush fails eraseFail ctlFail) := by
  unfold Dev.recordFlush
  split
  · exact Leaves.refl d
  · extract_lets n
    refine Leaves.ite (leaves_recFail ho d _ _) (Leaves.ite ((leaves_onOb d _ ho).trans (leaves_recFail ho _ _ _)) ?_)
    split
    · exact ((leaves_onOb d _ ho).trans (leaves_onOb _ _ ho)).trans (leaves_recFail ho _ _ _)
    · exact ((leaves_onOb d _ ho).trans (leaves_writeStaged ho _ _)).trans (leaves_lossRec ho _)
    · exact (leaves_writeStaged ho d _).trans (leaves_lossRec ho _)

end

/-! ### A window that runs on with no command left (R56) -/

theorem kickFuel_pos (d : Dev) : ∃ n, d.kickFuel = n + 1 := by
  have grows (l : List Nat) (k : Nat) : k ≤ l.foldl (· + ·) k := by
    induction l generalizing k with
    | nil => exact Nat.le_refl k
    | cons x l ih => exact (Nat.le_add_right k x).trans (ih _)
  exact Nat.exists_eq_add_of_le' ((Nat.le_add_left 1 _).trans (grows _ _))

/-- No window waits to run on, or only w, which has no command left. -/
def KicksIdle (w : Win) (d : Dev) : Prop := d.kicks = [] ∨ d.kicks = [w.base] ∧ (d.win w).queue = []

theorem runKicks_idle {d : Dev} {w : Win} (hw : Win.ofBase w.base = some w) (h : KicksIdle w d) :
    d.runKicks d.kickFuel = { d with kicks := [] } := by
  obtain ⟨n, hn⟩ := kickFuel_pos d
  rw [hn]
  rcases h with hk | ⟨hk, hq⟩
  · rw [Dev.runKicks_nil hk]
    cases d
    cases hk
    rfl
  · rw [Dev.runKicks, hk]
    simp only [hw]
    have hq' : (Dev.win { d with kicks := [] } w).queue = [] := hq
    rw [hq', List.length_nil, Dev.runWin, Dev.runKicks_nil rfl]

/-- With no command to run on and the distributing sets still, the step's end keeps what the command left. -/
theorem settle_kept_idle (d0 : Dev) {d : Dev} {w : Win} (hw : Win.ofBase w.base = some w) (h : KicksIdle w d) (hl : d.lagStill) :
    d.Kept (Dev.settle d0 d) := by
  have he : Dev.settle d0 d = Dev.settle d0 { d with kicks := [] } := by
    unfold Dev.settle
    rw [runKicks_idle hw h, Dev.runKicks_nil rfl]
  have hk : d.Kept { d with kicks := [] } :=
    ⟨rfl, rfl, rfl, rfl, rfl, rfl, rfl, rfl, rfl, rfl, rfl, rfl, rfl, rfl, rfl, rfl, rfl, fun _ => rfl, fun _ _ => rfl, fun _ _ _ h => h⟩
  rw [he]
  exact hk.trans (Dev.settle_kept d0 rfl hl)

/-! ### Entry to FAILED (R49, R60, R518) -/

/-- A command that waits is its window's first. -/
theorem waitingCmd_some {d : Dev} {w : Win} {op : Nat} {a : Accepted} (h : d.waitingCmd w op = some a) : ∃ l, (d.win w).queue = a :: l := by
  unfold Dev.waitingCmd at h
  split at h
  · split at h
    next b l hq =>
      split at h
      · exact ⟨l, (Option.some.inj h) ▸ hq⟩
      · cases h
    next => cases h
  · cases h

/-- A command that completes leaves its window's queue. -/
theorem complete_queue (d : Dev) (w : Win) (a : Accepted) (st : Status) (out : List (Nat × Nat)) :
    ((d.complete w a st out).win w).queue = (d.win w).queue.drop 1 := by
  rw [Dev.complete, Dev.win_onWin]
  dsimp only
  split <;> rfl

/-- Only kicks differ: no part of a frame. -/
theorem Frame.withKicks {ps : List Part} {reg : Nat → Bool} {d d' : Dev} (h : Frame ps reg d d') (ks : List Nat) :
    Frame ps reg d { d' with kicks := ks } := by
  obtain ⟨hp, hr⟩ := h
  refine ⟨fun p hn => ?_, hr⟩
  cases p <;> exact hp _ hn

theorem Frame.trans {ps : List Part} {reg : Nat → Bool} {a b c : Dev} (h : Frame ps reg a b) (k : Frame ps reg b c) : Frame ps reg a c :=
  ⟨fun p hn => same_trans (h.1 p hn) (k.1 p hn), fun x hx hx' => (k.2 x hx hx').trans (h.2 x hx hx')⟩

theorem Frame.reg {ps : List Part} {reg : Nat → Bool} {d d' : Dev} (h : Frame ps reg d d') {r : Reg} (hr : reg r.addr = false)
    (hp : reportAddr r.addr = false) : d'.reg r = d.reg r := by
  rw [Dev.reg_def, Dev.reg_def, h.2 _ hr hp]

theorem Frame.flag {ps : List Part} {reg : Nat → Bool} {d d' : Dev} (h : Frame ps reg d d') {r : Reg} (hr : reg r.addr = false)
    (hp : reportAddr r.addr = false) (b : Nat) : d'.flag r b = d.flag r b := by
  rw [Dev.flag, Dev.flag, h.reg hr hp]

theorem Frame.mono {ps qs : List Part} {reg : Nat → Bool} {d d' : Dev} (h : Frame ps reg d d') (hp : ∀ p ∈ ps, p ∈ qs) :
    Frame qs reg d d' := ⟨fun p hn => h.1 p fun hm => hn (hp p hm), h.2⟩

/-- What depends on no distributing set leaves them still. -/
theorem Frame.still {ps : List Part} {reg : Nat → Bool} {d d' : Dev} (h : Frame ps reg d d') (ha : LagApart ps reg) (hs : d.lagStill) :
    d'.lagStill := by
  have hleaves : Leaves ps reg d { d' with wins := d.wins, kicks := d.kicks } := by
    obtain ⟨hp, hr⟩ := h
    refine ⟨⟨⟨fun p hn => ?_, hr⟩, fun _ => rfl⟩, rfl⟩
    cases p <;> exact hp _ hn
  exact hleaves.still ha hs

/-- d' is d but for observability, IM_FLAGS and the refusal of the one command of IM_CMD. -/
def Refuses (d d' : Dev) : Prop :=
  Frame [.ob] (fun a => a == (R .IM_FLAGS).addr) d d' ∧ KicksIdle .im d' ∧ (d'.win .im).queue.length ≤ 1

/-- A command of IM_CMD that is refused while it waits leaves the queue, and the window has none to run on with. -/
theorem refuseWaiting_refuses {d : Dev} (op : Nat) (st : Status) (obj : Nat) (h : KicksIdle .im d) (hq : (d.win .im).queue.length ≤ 1) :
    Refuses d (d.refuseWaiting .im op st obj) := by
  unfold Dev.refuseWaiting
  split
  next a ha =>
    obtain ⟨l, hl⟩ := waitingCmd_some ha
    have hk : d.kicks = [] := h.resolve_right fun hk => by simp [hl] at hk
    have hrep := leaves_reportRefusal (ps := [.ob]) (reg := fun a => a == (R .IM_FLAGS).addr) (d.complete .im a st []) .im a st obj
      (by decide) (by simp)
    obtain ⟨⟨hframe, hwin⟩, -⟩ := hrep
    have hempty : (((d.complete .im a st []).reportRefusal .im a st obj).win .im).queue = [] := by
      rw [hwin, complete_queue, hl]
      rw [hl, List.length_cons] at hq
      exact List.drop_eq_nil_of_le (by rw [List.length_cons]; omega)
    refine ⟨Frame.withKicks hframe.of_onWin _, Or.inr ⟨by rw [hk]; rfl, hempty⟩, ?_⟩
    exact (congrArg List.length hempty).trans_le (Nat.zero_le 1)
  next => exact ⟨⟨fun p _ => same_refl d p, fun _ _ _ => rfl⟩, h, hq⟩

theorem refuseAll_refuses (ops : List Nat) (st : Status) (obj : Nat) {d : Dev} (h : KicksIdle .im d) (hq : (d.win .im).queue.length ≤ 1) :
    Refuses d (ops.foldl (fun d op => d.refuseWaiting .im op st obj) d) := by
  induction ops generalizing d with
  | nil => exact ⟨⟨fun p _ => same_refl d p, fun _ _ _ => rfl⟩, h, hq⟩
  | cons op ops ih =>
    obtain ⟨hframe, hidle, hlen⟩ := refuseWaiting_refuses op st obj h hq
    obtain ⟨kframe, kidle, klen⟩ := ih hidle hlen
    exact ⟨hframe.trans kframe, kidle, klen⟩

/-- The device in FAILED (R49): its state has changed; what else differs is observability, the timebase's pending start, IM_FLAGS and the
refused command of IM_CMD. -/
theorem toFailed_frame {d : Dev} (c : FailCause) (hheld : d.im.state ≠ .held) (hfailed : d.im.state ≠ .failed) (hk : d.kicks = [])
    (hq : (d.win .im).queue.length ≤ 1) : Frame [.ob, .tb] (fun a => a == (R .IM_FLAGS).addr) (d.onIm fun m => { m with state := .failed })
      (d.toFailed c) ∧ KicksIdle .im (d.toFailed c) := by
  unfold Dev.toFailed
  split
  next h => exact absurd h hheld
  next h => exact absurd h hfailed
  next =>
    extract_lets d1 d2
    have hstate : d.toState .failed = (d.onIm fun m => { m with state := .failed }).raise (R .IM_FLAGS) 0 := if_neg hfailed
    have enter : Leaves [.ob] (fun a => a == (R .IM_FLAGS).addr) (d.onIm fun m => { m with state := .failed }) d1 := by
      show Leaves _ _ _ ((d.toState .failed).record ..)
      rw [hstate]
      exact (leaves_raise _ _ _ (by simp)).trans (leaves_record _ _ _ _ _ _ (by decide))
    obtain ⟨⟨hframe1, hwin1⟩, hkicks1⟩ := enter
    obtain ⟨hframe2, hidle2, -⟩ : Refuses d1 d2 :=
      refuseAll_refuses [1, 2, 3, 5] .notInState _ (Or.inl (hkicks1.trans hk)) (by rw [hwin1]; exact hq)
    have flush : Leaves [.ob, .tb] (fun a => a == (R .IM_FLAGS).addr) d2
        ((d2.onTb fun b => { b with startAt := none }).recordFlush [] false false) :=
      (leaves_onTb _ _ (by decide)).trans (leaves_recordFlush (by decide) _ _ _ _)
    obtain ⟨⟨hframe3, hwin3⟩, hkicks3⟩ := flush
    refine ⟨((hframe1.trans hframe2).mono (by decide)).trans hframe3, ?_⟩
    unfold KicksIdle
    rw [hwin3, hkicks3]
    exact hidle2

theorem toFailed_state {d : Dev} (c : FailCause) (hheld : d.im.state ≠ .held) (hfailed : d.im.state ≠ .failed) (hk : d.kicks = [])
    (hq : (d.win .im).queue.length ≤ 1) : (d.toFailed c).im.state = .failed :=
  congrArg ImState.state ((toFailed_frame c hheld hfailed hk hq).1.1 .im (by decide))

/-- The entry to FAILED changes no register but IM_FLAGS and those of the step's end. -/
theorem toFailed_reg {d : Dev} (c : FailCause) (hheld : d.im.state ≠ .held) (hfailed : d.im.state ≠ .failed) (hk : d.kicks = [])
    (hq : (d.win .im).queue.length ≤ 1) {r : Reg} (hr : r.addr ≠ (R .IM_FLAGS).addr) (hp : reportAddr r.addr = false) :
    (d.toFailed c).reg r = d.reg r :=
  ((toFailed_frame c hheld hfailed hk hq).1.reg (by simpa using hr) hp).trans (Dev.reg_congr rfl r)

/-- The change of state leaves the distributing sets still. -/
theorem toFailed_still {d : Dev} (c : FailCause) (hheld : d.im.state ≠ .held) (hfailed : d.im.state ≠ .failed) (hk : d.kicks = [])
    (hq : (d.win .im).queue.length ≤ 1) (hl : d.lagStill) : (d.toFailed c).lagStill := by
  have hl' : (d.onIm fun m => { m with state := .failed }).lagStill := hl
  exact (toFailed_frame c hheld hfailed hk hq).1.still (lagApart_one _ (by decide) (by decide) (by decide)) hl'

/-- An event that leaves at most a window without commands to run on answers with its effect, but for what the step's end may change. -/
theorem answers_event_idle {i : Instr} {s : State} {dt : Nat} {can : Dev → Bool} {f : Dev → Dev} {w : Win} (hw : Win.ofBase w.base = some w)
    (hex : exec i s = event s dt can f) (hc : can (s.dev.elapse dt) = true) (hk : KicksIdle w (f (s.dev.elapse dt)))
    (hl : (f (s.dev.elapse dt)).lagStill) : Answers i s fun d => (f (s.dev.elapse dt)).Kept d := by
  refine ⟨_, hex, rfl, ?_⟩
  have hkept := settle_kept_idle s.dev hw hk hl
  simp only [hc, if_true]
  exact hkept

end Sys2Proof.Safety
end

section

namespace Sys2Proof.Safety

open Sys2Proof.Machine

/-! The memories' temperatures and the trip (R320, R347). -/

theorem flag_setFld_b2n (d : Dev) (r : Reg) {b : Nat} (hb : b < 32) (c : Bool) : (d.setFld r b b (b2n c)).flag r b = c := by
  cases c with
  | false => rw [Dev.flag, Dev.reg_setFld _ _ _ _ _ hb (by omega), show b2n false = 0 from rfl, bit_putBits_zero]
  | true => exact Dev.flag_setFld d r b hb

theorem cattrip_eq {d : Dev} (hheld : d.im.state ≠ .held) (hfailed : d.im.state ≠ .failed) :
    d.cattrip = (d.setFld (R .BP_HBM_STATUS) 30 30 1).toFailed .cattrip := by
  unfold Dev.cattrip
  split
  next h => exact absurd h hheld
  next h => exact absurd h hfailed
  next => rfl

/-- The trip holds the cause and fails the device. -/
theorem cattrip_effect {d : Dev} (hheld : d.im.state ≠ .held) (hfailed : d.im.state ≠ .failed) (hk : d.kicks = []) (hl : d.lagStill)
    (hq : (d.win .im).queue.length ≤ 1) : d.cattrip.im.state = .failed ∧ d.cattrip.flag (R .BP_HBM_STATUS) 30 = true ∧
      KicksIdle .im d.cattrip ∧ d.cattrip.lagStill := by
  rw [cattrip_eq hheld hfailed]
  have hset : Leaves [] (fun a => a == (R .BP_HBM_STATUS).addr) d (d.setFld (R .BP_HBM_STATUS) 30 30 1) :=
    leaves_setFld _ _ _ _ _ (by simp)
  have hl1 := hset.still (lagApart_one _ (by decide) (by decide) (by decide)) hl
  have hset30 := Dev.flag_setFld d (R .BP_HBM_STATUS) 30 (by omega)
  obtain ⟨⟨⟨hparts, -⟩, hwin⟩, hkicks⟩ := hset
  generalize d.setFld (R .BP_HBM_STATUS) 30 30 1 = e at *
  have him : e.im = d.im := hparts .im (by decide)
  rw [← him] at hheld hfailed
  rw [← hwin] at hq
  rw [← hkicks] at hk
  refine ⟨toFailed_state .cattrip hheld hfailed hk hq, ?_, (toFailed_frame .cattrip hheld hfailed hk hq).2,
    toFailed_still .cattrip hheld hfailed hk hq hl1⟩
  rw [Dev.flag, toFailed_reg .cattrip hheld hfailed hk hq (by decide) (by decide)]
  exact hset30

end Sys2Proof.Safety

open Sys2Proof Sys2Proof.Machine Sys2Proof.Safety

/-- Settles O37: the trip and the entry to FAILED, the registers that show a temperature, and the pop, each kept by the step's end. -/
theorem memoryTemperatureAndEccLogAct : Obligations.MemoryTemperatureAndEccLogAct := by
  unfold Obligations.MemoryTemperatureAndEccLogAct
  rintro s dt e rfl hq
  have hbm : reportAddr (R .BP_HBM_STATUS).addr = false := by decide
  refine ⟨fun hheld hfailed hlen => ?trip, fun hlive temp tenths => ⟨?hbm, fun ch hch => ?ddr⟩, fun hdt src ho => ?pop⟩
  case trip =>
    obtain ⟨hstate, hflag, hidle, hstill⟩ := cattrip_effect hheld hfailed hq.1 hq.2 hlen
    have hcan : Dev.awake (s.dev.elapse dt) = true := by simpa [Dev.awake] using hheld
    refine (answers_event_idle (w := .im) (f := Dev.cattrip) rfl rfl hcan hidle hstill).imp fun d hd => ⟨?_, ?_⟩
    · rw [hd.im]
      exact hstate
    · rw [hd.flag hbm]
      exact hflag
  case hbm =>
    refine (answers_event_kept (ps := []) (reg := fun a => a == (R .BP_HBM_STATUS).addr) (can := fun d => d.laneLive && decide (0 < 5))
      (f := fun d => d.memoryHot 0 temp tenths) hq rfl (by simpa using hlive) (lagApart_one _ (by decide) (by decide) (by decide))
      ((leaves_setFld _ _ _ _ _ (by simp)).trans (leaves_setFld _ _ _ _ _ (by simp)))).imp fun d hd => ⟨?_, ?_⟩
    · rw [hd.flag hbm]
      exact (Dev.flag_setFld_ne _ _ _ _ _ _ (by omega) (by omega) (by omega)).trans (flag_setFld_b2n _ _ (by omega) _)
    · rw [hd.fld hbm]
      exact (Dev.fld_setFld _ _ _ _ _ (by omega) (by omega)).trans (Nat.mod_eq_of_lt (by omega))
  case ddr =>
    have hrep : reportAddr (R .BP_DDR_STATUS ch).addr = false := by interval_cases ch <;> decide
    have hlag : LagApart [] fun a => a == (R .BP_DDR_STATUS ch).addr :=
      lagApart_one _ (by decide) (by decide) (by interval_cases ch <;> decide)
    have hhot (e : Dev) : e.memoryHot (1 + ch) temp tenths =
        e.setFld (R .BP_DDR_STATUS ch) 30 30 (b2n (decide (850 < 10 * temp + tenths))) := by
      rw [Dev.memoryHot, if_neg (by omega), if_pos (by omega), Nat.add_sub_cancel_left]
    refine (answers_event_kept (can := fun d => d.laneLive && decide (1 + ch < 5)) (f := fun d => d.memoryHot (1 + ch) temp tenths) hq rfl
      (by simp [hlive]; omega) hlag (by rw [hhot]; exact leaves_setFld _ _ _ _ _ (by simp))).imp fun d hd => ?_
    rw [hd.flag hrep, hhot, flag_setFld_b2n _ _ (by omega)]
  case pop =>
    subst hdt
    obtain ⟨f, hf⟩ := elapse_zero_eq s.dev
    have hq0 : Quiet s.dev := by
      rw [hf] at hq
      exact hq
    refine (answers_write (fun _ => 1) hq0 ho rfl (Leaves.ite (leaves_eccPop _ (ps := [.bp]) (by decide)) (Leaves.refl _))
      (lagApart_none (by decide) (by decide))).imp ?_
    rintro d ⟨hd, -⟩
    exact congrArg BpState.log hd.bp

end

section

namespace Sys2Proof.Safety

open Sys2Proof.Machine

/-! The commands of the control window (R47, R50, R51, R60), each where its device state and its reach let it run. -/

theorem onWin_flag (d : Dev) (w : Win) (f : Window → Window) (r : Reg) (b : Nat) : (d.onWin w f).flag r b = d.flag r b := rfl

theorem onWin_fld (d : Dev) (w : Win) (f : Window → Window) (r : Reg) (hi lo : Nat) : (d.onWin w f).fld r hi lo = d.fld r hi lo := rfl

section

variable {ps : List Part} {reg : Nat → Bool} (d : Dev)

theorem leaves_onPx (f : PxState → PxState) (h : Part.px ∈ ps) : Leaves ps reg d (d.onPx f) := by
  refine Leaves.of_parts (fun p hp => ?_) rfl rfl rfl
  cases p
  case px => exact absurd h hp
  case ul => exact ⟨rfl, rfl, fun _ => rfl⟩
  all_goals rfl

theorem leaves_raiseRec_report (r : Reg) (b : Nat) (s : RSrc) (inst : Nat) (fault : Bool) (fs : List (Nat × Nat))
    (hr : reportAddr r.addr = true) (ho : Part.ob ∈ ps) : Leaves ps reg d (d.raiseRec r b s inst fault fs) := by
  unfold Dev.raiseRec
  dsimp only
  split
  · exact (leaves_raise_report d r b hr).trans (leaves_record _ _ _ _ _ _ ho)
  · exact leaves_raise_report d r b hr

variable (hpx : Part.px ∈ ps) (ho : Part.ob ∈ ps)

include hpx

theorem leaves_mateAdvance : Leaves ps reg d d.mateAdvance := by
  obtain ⟨f, hf⟩ := mateAdvance_eq d
  rw [hf]
  exact leaves_onPx d f hpx

theorem leaves_cellOut (kind t sfc : Nat) (content : List Byte) : Leaves ps reg d (d.cellOut kind t sfc content) :=
  Leaves.ite ((leaves_mateAdvance d hpx).trans (leaves_onPx _ _ hpx)) (Leaves.refl d)

include ho

/-- A request for a switch touches the protection unit and is recorded where it is refused. -/
theorem leaves_switchRequest (t cause : Nat) : Leaves ps reg d (d.switchRequest t cause).1 := by
  have denied : Leaves ps reg d (d.pswDenied t cause) := leaves_raiseRec_report d _ _ _ _ _ _ (by decide) ho
  unfold Dev.switchRequest
  extract_lets x
  split
  · exact leaves_onPx d _ hpx
  · split
    · exact (leaves_onPx d _ hpx).trans (leaves_cellOut _ hpx _ _ _ _)
    · exact denied
  · split
    · exact leaves_cellOut d hpx _ _ _ _
    · exact denied
  · exact denied

theorem leaves_pxDarken (r : Nat) : Leaves ps reg d (d.pxDarken r) :=
  Leaves.foldl (fun d t => leaves_switchRequest d hpx ho t 2) _ d

end

/-- Where the device is in the state that a command of no object asks for, the command waits (R47). -/
theorem answers_imWait {i : Instr} {s : State} {c : CmdArgs} {op : Nat} {st : DevState} {f : Dev → Dev} (hq : Quiet s.dev)
    (hrdy : ready s.dev .im c.src = true) (htr : trusted c.src = true) (hobj : c.obj % 2 ^ 32 = 0) (hst : s.dev.im.state = st)
    (hex : exec i s = act s fun d => d.command false .im op c) (hrun : runOp false .im (latched op c) (s.dev.accepted .im op c) =
      imWait st f (latched op c) (s.dev.accepted .im op c)) {ps : List Part} {reg : Nat → Bool} (hw : ∀ d, (f d).wins = d.wins)
    (hf : ∀ d, Leaves ps reg d (f d)) (ha : LagApart ps reg) (hop : op < 256 := by omega) :
    Answers i s fun d => waits d .im c op ∧ ((f (s.dev.accepted .im op c)).onWin .im fun x => { x with waiting := true }).Kept d := by
  have hobj' : (latched op c).obj = 0 := hobj
  have htr' : trusted (latched op c).src = true := htr
  refine answers_wait hrdy hop hex (hrun.trans ?_) (hw _) ((hf _).2.trans hq.1) ((hf _).still ha hq.2)
  simp [imWait, imObj0, htr', hobj', hst]

/-- As `answers_ok`, for an operation that leaves what no distributing set depends on: its bank holds the results, and the rest is as the
operation left it, but for what the step's end may change. -/
theorem answers_ok_leaves {i : Instr} {s : State} {w : Win} {c : CmdArgs} {op : Nat} {ps : List Part} {reg : Nat → Bool}
    (h : ready s.dev w c.src = true) (hex : exec i s = act s fun d => d.command false w op c) {x d1 : Dev} {out : List (Nat × Nat)}
    (hr : runOp false w (latched op c) (s.dev.accepted w op c) = .done d1 .ok out) (hx : x.wins = (s.dev.accepted w op c).wins)
    (hk : x.kicks = []) (hl : x.lagStill) (hd1 : Leaves ps reg x d1) (ha : LagApart ps reg) (hop : op < 256 := by omega) :
    Answers i s fun d => done d w c .ok out ∧ (d1.complete w (latched op c) .ok out).Kept d := by
  have hc : s.dev.command false w op c = d1.complete w (latched op c) .ok out := by
    rw [Dev.command_ready h false op hop, hr]
    rfl
  refine (answers_act hex ?_ ?_).imp fun d hd => ?_
  · rw [hc]
    exact hd1.2.trans hk
  · rw [hc]
    exact hd1.still ha hl
  · rw [hc] at hd
    refine ⟨?_, hd⟩
    have hdone := Dev.done_complete hx .ok out
    have hwin : (d1.complete w (latched op c) .ok out).win w = (x.complete w (latched op c) .ok out).win w := by
      rw [Dev.complete, Dev.win_onWin, hd1.1.2 w, Dev.complete, Dev.win_onWin]
    unfold done at hdone ⊢
    rwa [Dev.win_congr hd.wins w, hwin]

theorem ready_awake {d : Dev} {w : Win} {src : Src} (h : ready d w src = true) : d.im.state ≠ .held := by
  intro hheld
  simp [ready, Dev.busUp, hheld] at h

theorem warmReset_parts {d : Dev} (h : d.im.state ≠ .held) : d.warmReset.ul = UlState.rest ∧ d.warmReset.im.str = Structure.none ∧
    d.warmReset.kicks = [] ∧ d.warmReset.wins = [] ∧ d.warmReset.im.state = .booting ∧ d.warmReset.im.bootsrc = d.im.bootsrc ∧
      d.warmReset.tb.c = d.tb.c := by
  unfold Dev.warmReset
  split
  next hheld => exact absurd hheld h
  next => exact ⟨rfl, rfl, rfl, rfl, rfl, rfl, rfl⟩

/-- The device right after a warm reset has no distributing set. -/
theorem warmReset_still {d : Dev} (h : d.im.state ≠ .held) : d.warmReset.lagStill := by
  obtain ⟨hul, hstr, -⟩ := warmReset_parts h
  have hdown : ∀ u, d.warmReset.portUp u = false := fun u => by simp [Dev.portUp, Dev.portDef, hstr, Structure.none]
  intro g _
  rw [hul, Dev.lagDist]
  simp only [Dev.lagDistributes, hdown, Bool.and_false]
  rfl

/-- The command of a reach that exists, from PF0 or a core, runs on that reach (R60). -/
theorem imReach_runs {d : Dev} {c : CmdArgs} {op r : Nat} (htr : trusted c.src = true) (hr : c.obj % 2 ^ 32 = r)
    (hex : d.reachExists r = true) (k : Nat → CmdRes) : imReach (latched op c) (d.accepted .im op c) k = k r := by
  have hobj : (latched op c).obj = r := hr
  have htr' : trusted (latched op c).src = true := htr
  have hex' : (d.accepted .im op c).reachExists r = true := hex
  simp [imReach, htr', hobj, hex']

/-- A change of the reaches alone leaves the distributing sets still. -/
theorem onIm_still {d : Dev} (h : d.lagStill) {f : ImState → ImState} (hf : (f d.im).str = d.im.str) : (d.onIm f).lagStill :=
  Dev.lagStill_congr h rfl (fun _ => rfl) (congrArg Structure.ports hf) fun _ _ _ => rfl

/-- The reach that a load takes, and the load (R50). -/
def loadStarts (d : Dev) (a : Accepted) (r : Nat) : Dev :=
  (d.onReach r fun x => { x with state := .loading, loaded := false, lightPending := false }).onIm fun m =>
    { m with load := some ⟨r, a.dat64 0, a.dat 2⟩ }

theorem loadStarts_still {d : Dev} (h : d.lagStill) (a : Accepted) (r : Nat) : (loadStarts d a r).lagStill :=
  onIm_still (onIm_still h rfl) rfl

theorem reach_onReach (d : Dev) (r : Nat) (f : Reach → Reach) : (d.onReach r f).reach r = f (d.reach r) := by
  simp [Dev.reach, Dev.onReach, Dev.onIm]

theorem loadStarts_reach (d : Dev) (a : Accepted) (r : Nat) : (loadStarts d a r).reach r =
    { d.reach r with state := .loading, loaded := false, lightPending := false } :=
  reach_onReach d r fun x => { x with state := .loading, loaded := false, lightPending := false }

end Sys2Proof.Safety

open Sys2Proof Sys2Proof.Machine Sys2Proof.Safety

/-- Settles O21: in a ready window each command is accepted and runs, and its device state or reach lets it through. -/
theorem deviceCommandsComplete : Obligations.DeviceCommandsComplete := by
  unfold Obligations.DeviceCommandsComplete
  intro s c hq hrdy htr
  refine ⟨fun hobj => ⟨fun hst => ?start, fun hst => ?quiesce, fun hst => ?resume, fun hst => ?warm, fun hst hwait => ?host⟩,
    fun r hr hex => ⟨fun hal hdark hload => ?load, fun ht hdark hloaded hp => ?light, fun ht hlit hd => ?darken⟩⟩
  case start =>
    refine (answers_imWait (f := fun d => d.onTb fun b => { b with startAt := some b.ticks, startOff := d.fld (R .TB_FRAME_CFG) 16 0 })
      hq hrdy htr hobj hst rfl rfl (fun _ => rfl) (fun d => leaves_onTb (ps := [.tb]) (reg := fun _ => false) d _ (by decide))
      (lagApart_none (by decide) (by decide))).imp ?_
    rintro d ⟨hw, hd⟩
    exact ⟨hw, congrArg TbState.startAt hd.tb, (congrArg ImState.state hd.im).trans hst⟩
  case quiesce =>
    refine (answers_imWait (f := id) hq hrdy htr hobj hst rfl rfl (fun _ => rfl) (Leaves.refl (ps := []) (reg := fun _ => false))
      (lagApart_none (by decide) (by decide))).imp ?_
    rintro d ⟨hw, hd⟩
    exact ⟨hw, (congrArg ImState.state hd.im).trans hst⟩
  case resume =>
    refine (answers_imWait (f := id) hq hrdy htr hobj hst rfl rfl (fun _ => rfl) (Leaves.refl (ps := []) (reg := fun _ => false))
      (lagApart_none (by decide) (by decide))).imp ?_
    rintro d ⟨hw, hd⟩
    exact ⟨hw, (congrArg ImState.state hd.im).trans hst⟩
  case warm =>
    have hheld : s.dev.im.state ≠ .held := ready_awake hrdy
    have hrun : runOp false .im (latched 4 c) (s.dev.accepted .im 4 c) = .reset (s.dev.accepted .im 4 c).warmReset := by
      have hobj' : (latched 4 c).obj = 0 := hobj
      have htr' : trusted (latched 4 c).src = true := htr
      show opWarmReset _ _ = _
      simp [opWarmReset, imObj0, htr', hobj', hst]
    have hc : s.dev.command false .im 4 c = (s.dev.accepted .im 4 c).warmReset := by
      rw [Dev.command_ready hrdy false 4 (by omega), hrun]
      rfl
    obtain ⟨-, -, hkicks, hwins, hstate, hsrc, hc'⟩ := warmReset_parts (d := s.dev.accepted .im 4 c) hheld
    refine (answers_act (f := fun d => d.command false .im 4 c) rfl ?_ ?_).imp fun d hd => ?_
    · rw [hc]
      exact hkicks
    · rw [hc]
      exact warmReset_still hheld
    · rw [hc] at hd
      rw [hd.im, hd.wins, hd.tb]
      exact ⟨hstate, hwins, hc', hsrc⟩
  case host =>
    have hrun : runOp false .im (latched 5 c) (s.dev.accepted .im 5 c) =
        .wait (((s.dev.accepted .im 5 c).setFld (R .IM_DEV_STATUS) 6 5 2).setFld (R .IM_DEV_STATUS) 4 4 0) := by
      have hobj' : (latched 5 c).obj = 0 := hobj
      have htr' : trusted (latched 5 c).src = true := htr
      have hwait' : (s.dev.accepted .im 5 c).flag (R .IM_DEV_STATUS) 4 = true := hwait
      show opLoadHost _ _ = _
      simp [opLoadHost, imObj0, htr', hobj', hst, hwait']
    have hset : Leaves [] (fun a => a == (R .IM_DEV_STATUS).addr) (s.dev.accepted .im 5 c)
        (((s.dev.accepted .im 5 c).setFld (R .IM_DEV_STATUS) 6 5 2).setFld (R .IM_DEV_STATUS) 4 4 0) :=
      (leaves_setFld _ _ _ _ _ (by simp)).trans (leaves_setFld _ _ _ _ _ (by simp))
    refine (answers_wait (op := 5) (fails := false) hrdy (by omega) rfl hrun rfl (hset.2.trans hq.1)
      (hset.still (lagApart_one _ (by decide) (by decide) (by decide)) hq.2)).imp ?_
    rintro d ⟨hw, hd⟩
    refine ⟨hw, ?_, ?_⟩
    · rw [hd.flag (by decide), onWin_flag]
      exact flag_setFld_b2n _ _ (by omega) false
    · rw [hd.fld (by decide), onWin_fld, Dev.fld_setFld_ne _ _ _ _ _ _ _ (by omega) (by omega) (by omega),
        Dev.fld_setFld _ _ _ _ _ (by omega) (by omega)]
      rfl
  case load =>
    have hrun : runOp false .im (latched 0x10 c) (s.dev.accepted .im 0x10 c) =
        .done ((loadStarts (s.dev.accepted .im 0x10 c) (latched 0x10 c) r).raise (R .IM_FLAGS) 1) .ok [] := by
      have hal' : (s.dev.accepted .im 0x10 c).alive = true := hal
      have hdark' : ((s.dev.accepted .im 0x10 c).reach r).state = .dark := hdark
      show opLoadReach _ _ = _
      rw [opLoadReach, imReach_runs htr hr hex]
      simp [hal', hdark', hload]
      rfl
    have hacc : (s.dev.accepted .im 0x10 c).lagStill := hq.2
    refine (answers_ok_leaves (x := loadStarts (s.dev.accepted .im 0x10 c) (latched 0x10 c) r) (ps := [])
      (reg := fun a => a == (R .IM_FLAGS).addr) hrdy rfl hrun rfl hq.1 (loadStarts_still hacc _ r) (leaves_raise _ _ _ (by simp)) (lagApart_one _ (by decide) (by decide) (by decide))).imp ?_
    rintro d ⟨hdone, hd⟩
    have him : d.im = (loadStarts (s.dev.accepted .im 0x10 c) (latched 0x10 c) r).im := hd.im.trans (Dev.raise_im ..)
    have hreach : d.reach r = _ := (congrArg (fun m : ImState => m.reaches.getD r Reach.rest) him).trans (loadStarts_reach _ _ r)
    refine ⟨hdone, by rw [hreach], by rw [hreach], (congrArg ImState.load him).trans ?_, ?_⟩
    · rfl
    · rw [hd.flag (by decide), Dev.complete, onWin_flag]
      exact Dev.flag_raise _ (by decide) (by omega)
  case light =>
    have hrun : runOp false .im (latched 0x11 c) (s.dev.accepted .im 0x11 c) =
        .done ((s.dev.accepted .im 0x11 c).onReach r fun x => { x with lightPending := true }) .ok [] := by
      have ht' : (s.dev.accepted .im 0x11 c).traffic = true := ht
      have hdark' : ((s.dev.accepted .im 0x11 c).reach r).state = .dark := hdark
      have hloaded' : ((s.dev.accepted .im 0x11 c).reach r).loaded = true := hloaded
      have hp' : ((s.dev.accepted .im 0x11 c).reach r).lightPending = false := hp
      show opLightReach _ _ = _
      rw [opLightReach, imReach_runs htr hr hex]
      simp [ht', hdark', hloaded', hp']
    have hacc : (s.dev.accepted .im 0x11 c).lagStill := hq.2
    refine (answers_ok (d1 := (s.dev.accepted .im 0x11 c).onReach r fun x => { x with lightPending := true }) hrdy (by omega) rfl hrun rfl
      hq.1 (onIm_still hacc rfl)).imp ?_
    rintro d ⟨hdone, hd⟩
    have hreach : d.reach r = _ := (congrArg (fun m : ImState => m.reaches.getD r Reach.rest) hd.im).trans
      (reach_onReach (s.dev.accepted .im 0x11 c) r fun x => { x with lightPending := true })
    rw [hreach]
    exact ⟨hdone, rfl, hdark⟩
  case darken =>
    let x := (s.dev.accepted .im 0x12 c).onReach r fun x => { x with darkenIn := some 0 }
    have hrun : runOp false .im (latched 0x12 c) (s.dev.accepted .im 0x12 c) = .done (x.pxDarken r) .ok [] := by
      have ht' : (s.dev.accepted .im 0x12 c).traffic = true := ht
      have hlit' : ((s.dev.accepted .im 0x12 c).reach r).state = .lit := hlit
      have hd' : ((s.dev.accepted .im 0x12 c).reach r).darkenIn = none := hd
      show opDarkenReach _ _ = _
      rw [opDarkenReach, imReach_runs htr hr hex]
      simp [ht', hlit', hd']
      rfl
    have hacc : (s.dev.accepted .im 0x12 c).lagStill := hq.2
    have hdarken := leaves_pxDarken (ps := [.px, .ob]) (reg := fun _ => false) x (by decide) (by decide) r
    refine (answers_ok_leaves (x := x) hrdy rfl hrun rfl hq.1 (onIm_still hacc rfl) hdarken (lagApart_none (by decide) (by decide))).imp ?_
    rintro d ⟨hdone, hk⟩
    have him : d.im = x.im := hk.im.trans (hdarken.1.1.1 .im (by decide))
    have hreach : d.reach r = _ := (congrArg (fun m : ImState => m.reaches.getD r Reach.rest) him).trans
      (reach_onReach (s.dev.accepted .im 0x12 c) r fun x => { x with darkenIn := some 0 })
    rw [hreach]
    exact ⟨hdone, rfl, hlit⟩

end

section

namespace Sys2Proof.Machine

/-! What most operations leave: the device's states, the windows, and the trees' frame counts. -/

/-- The part of the device by which states and frames move on: image and control, the windows and those that wait to run on, the boundary
count, each tree's SFC with the value that the next boundary loads, and what a restore starts from. -/
structure Control where
  im : ImState
  wins : Table Window
  kicks : List Nat
  bnd : Nat
  sfc : Nat → Nat
  load : Nat → Option Nat
  restore : Nat → Option (Nat × Nat)

def Dev.control (d : Dev) : Control :=
  ⟨d.im, d.wins, d.kicks, d.rx.bnd, fun t => (d.tf t).sfc, fun t => (d.tf t).sfcLoad, fun t => (d.pt t).restore⟩

theorem Dev.control_congr {d d' : Dev} (hi : d'.im = d.im) (hw : d'.wins = d.wins) (hk : d'.kicks = d.kicks) (hr : d'.rx = d.rx)
    (hp : d'.px = d.px) : d'.control = d.control := by simp only [Dev.control, Dev.tf, Dev.pt, hi, hw, hk, hr, hp]

@[simp] theorem control_ite (c : Prop) [Decidable c] (a b : Dev) : (if c then a else b).control = if c then a.control else b.control :=
  apply_ite Dev.control c a b

@[simp] theorem control_foldl {β : Type} {f : Dev → β → Dev} (h : ∀ d b, (f d b).control = d.control) (l : List β) (d : Dev) :
    (l.foldl f d).control = d.control := foldl_keeps Dev.control f h l d

@[simp] theorem control_upTo {f : Nat → Dev → Dev} (h : ∀ i d, (f i d).control = d.control) (n : Nat) (d : Dev) :
    (upTo n d f).control = d.control := upTo_keeps Dev.control n f h d

section

variable (d : Dev)

@[simp] theorem Dev.onTb_control (f : TbState → TbState) : (d.onTb f).control = d.control := Dev.control_congr rfl rfl rfl rfl rfl
@[simp] theorem Dev.onMc_control (f : McState → McState) : (d.onMc f).control = d.control := Dev.control_congr rfl rfl rfl rfl rfl
@[simp] theorem Dev.onOb_control (f : ObState → ObState) : (d.onOb f).control = d.control := Dev.control_congr rfl rfl rfl rfl rfl
@[simp] theorem Dev.onLx_control (f : LxState → LxState) : (d.onLx f).control = d.control := Dev.control_congr rfl rfl rfl rfl rfl
@[simp] theorem Dev.onPc_control (f : PcState → PcState) : (d.onPc f).control = d.control := Dev.control_congr rfl rfl rfl rfl rfl
@[simp] theorem Dev.onFs_control (f : FsState → FsState) : (d.onFs f).control = d.control := Dev.control_congr rfl rfl rfl rfl rfl
@[simp] theorem Dev.onTm_control (f : TmState → TmState) : (d.onTm f).control = d.control := Dev.control_congr rfl rfl rfl rfl rfl
@[simp] theorem Dev.onBp_control (f : BpState → BpState) : (d.onBp f).control = d.control := Dev.control_congr rfl rfl rfl rfl rfl
@[simp] theorem Dev.onCe_control (f : CeState → CeState) : (d.onCe f).control = d.control := Dev.control_congr rfl rfl rfl rfl rfl
@[simp] theorem Dev.onUl_control (f : UlState → UlState) : (d.onUl f).control = d.control := Dev.control_congr rfl rfl rfl rfl rfl
@[simp] theorem Dev.setReg_control (r : Reg) (v : Nat) : (d.setReg r v).control = d.control := Dev.control_congr rfl rfl rfl rfl rfl
@[simp] theorem Dev.setFld_control (r : Reg) (hi lo v : Nat) : (d.setFld r hi lo v).control = d.control := Dev.control_congr rfl rfl rfl rfl rfl
@[simp] theorem Dev.respond_control (c : Completion) : (d.respond c).control = d.control := Dev.control_congr rfl rfl rfl rfl rfl

/-- The trees and the boundary count lie in the reaches' state. -/
@[simp] theorem Dev.onRx_control {f : RxState → RxState} (h : ∀ x, (f x).tf = x.tf ∧ (f x).bnd = x.bnd) : (d.onRx f).control = d.control := by
  simp only [Dev.control, Dev.tf, Dev.onRx_rx, (h d.rx).1, (h d.rx).2]
  rfl

/-- A tree that keeps its SFC and what it loads. -/
@[simp] theorem Dev.onTf_control (t : Nat) {f : TfTree → TfTree} (h : ∀ x, (f x).sfc = x.sfc ∧ (f x).sfcLoad = x.sfcLoad) :
    (d.onTf t f).control = d.control := by
  have htf : ∀ u, ((d.onTf t f).tf u).sfc = (d.tf u).sfc ∧ ((d.onTf t f).tf u).sfcLoad = (d.tf u).sfcLoad := fun u => by
    simp only [Dev.tf, Dev.onTf, Dev.onRx_rx, Table.getD_put]
    split
    next hu => rw [(h _).1, (h _).2, hu]; exact ⟨rfl, rfl⟩
    next => exact ⟨rfl, rfl⟩
  simp only [Dev.control, htf]
  rfl

@[simp] theorem Dev.onPx_control {f : PxState → PxState} (h : ∀ x, (f x).trees = x.trees) : (d.onPx f).control = d.control := by
  have hp : ∀ u, (d.onPx f).pt u = d.pt u := fun u => congrArg (·.getD u PxTree.rest) (h d.px)
  simp only [Dev.control, hp]
  rfl

/-- A protected tree that keeps its restore. -/
@[simp] theorem Dev.onPt_control (t : Nat) {f : PxTree → PxTree} (h : ∀ x, (f x).restore = x.restore) : (d.onPt t f).control = d.control := by
  have hp : ∀ u, ((d.onPt t f).pt u).restore = (d.pt u).restore := fun u => by
    have hu : (d.onPt t f).pt u = (d.px.trees.put PxTree.rest t (f (d.px.trees.getD t PxTree.rest))).getD u PxTree.rest := rfl
    rw [hu, Table.getD_put]
    split
    next htu => rw [h, htu]; rfl
    next => rfl
  simp only [Dev.control, hp]
  rfl

@[simp] theorem Dev.countBy_control (k e n p m : Nat) : (Dev.countBy k d e n p m).control = d.control := Dev.control_congr (by simp) (by simp) (by simp) (by simp) (by simp)
@[simp] theorem Dev.countN_control (e n : Nat) : (d.countN e n).control = d.control := Dev.control_congr (by simp) (by simp) (by simp) (by simp) (by simp)
@[simp] theorem Dev.count_control (e : Nat) : (d.count e).control = d.control := Dev.control_congr (by simp) (by simp) (by simp) (by simp) (by simp)
@[simp] theorem Dev.raise_control (r : Reg) (b : Nat) : (d.raise r b).control = d.control := Dev.control_congr (by simp) (by simp) (by simp) (by simp) (by simp)
@[simp] theorem Dev.record_control (e : Nat) (s : RSrc) (inst : Nat) (fault : Bool) (fs : List (Nat × Nat)) :
    (d.record e s inst fault fs).control = d.control := Dev.control_congr (by simp) (by simp) (by simp) (by simp) (by simp)
@[simp] theorem Dev.raiseRec_control (r : Reg) (b : Nat) (s : RSrc) (inst : Nat) (fault : Bool) (fs : List (Nat × Nat)) :
    (d.raiseRec r b s inst fault fs).control = d.control := Dev.control_congr (by simp) (by simp) (by simp) (by simp) (by simp)
@[simp] theorem Dev.makeRec_control (typ src inst : Nat) (fault mate : Bool) (body : List Byte) :
    (d.makeRec typ src inst fault mate body).control = d.control := Dev.control_congr (by simp) (by simp) (by simp) (by simp) (by simp)

end

end Sys2Proof.Machine
end

section

namespace Sys2Proof.Machine

section

variable (d : Dev)

@[simp] theorem Dev.cfgRefused_control (flags : Reg) (b : Nat) : (d.cfgRefused flags b).control = d.control := by simp [Dev.cfgRefused]
@[simp] theorem Dev.avsCfgWrite_control (v : Nat) : (d.avsCfgWrite v).control = d.control := by simp [Dev.avsCfgWrite]
@[simp] theorem Dev.bprofWrite_control (t n v : Nat) : (d.bprofWrite t n v).control = d.control := by simp [Dev.bprofWrite]
@[simp] theorem Dev.plainWrite_control (r : Reg) (v : Nat) : (d.plainWrite r v).control = d.control := by simp [Dev.plainWrite]
@[simp] theorem Dev.capCfgWrite_control (n v : Nat) : (d.capCfgWrite n v).control = d.control := Dev.plainWrite_control ..
@[simp] theorem Dev.capWrite_control (p n v : Nat) : (d.capWrite p n v).control = d.control := by simp [Dev.capWrite]
@[simp] theorem Dev.chainCfgWrite_control (v : Nat) : (d.chainCfgWrite v).control = d.control := by simp [Dev.chainCfgWrite]
@[simp] theorem Dev.onPort_control (u : Nat) (f : UlPort → UlPort) : (d.onPort u f).control = d.control := by simp [Dev.onPort]
@[simp] theorem Dev.clrStats_control (u : Nat) (now : List Nat) : (d.clrStats u now).control = d.control := by simp [Dev.clrStats]
@[simp] theorem Dev.tbRefused_control : (d.tbRefused).control = d.control := by simp [Dev.tbRefused]
@[simp] theorem Dev.writeBut_control (r : Reg) (v : Nat) (keep : List (Nat × Nat)) : (d.writeBut r v keep).control = d.control := by simp [Dev.writeBut]
@[simp] theorem Dev.cmpCfgWrite_control (n v : Nat) : (d.cmpCfgWrite n v).control = d.control := by simp [Dev.cmpCfgWrite]
@[simp] theorem Dev.setCmpTarget_control (n t : Nat) : (d.setCmpTarget n t).control = d.control := by simp [Dev.setCmpTarget]
@[simp] theorem Dev.cmpHiWrite_control (n v : Nat) : (d.cmpHiWrite n v).control = d.control := by simp [Dev.cmpHiWrite]
@[simp] theorem Dev.pulse_control (pin : Nat) (x : Nat × Nat) : (d.pulse pin x).control = d.control := by simp [Dev.pulse]
@[simp] theorem Dev.cmpShapeWrite_control (r : Reg) (v : Nat) : (d.cmpShapeWrite r v).control = d.control := by simp [Dev.cmpShapeWrite]
@[simp] theorem Dev.coopCfgWrite_control (reg : Reg) (r v : Nat) (size : Bool) : (d.coopCfgWrite reg r v size).control = d.control := by simp [Dev.coopCfgWrite]
@[simp] theorem Dev.coopPiWrite_control (r v : Nat) : (d.coopPiWrite r v).control = d.control := by simp [Dev.coopPiWrite]
@[simp] theorem Dev.onCore_control (c : Nat) (f : MgmtCore → MgmtCore) : (d.onCore c f).control = d.control := by simp [Dev.onCore]
@[simp] theorem Dev.wdtRestart_control (c : Nat) : (d.wdtRestart c).control = d.control := by simp [Dev.wdtRestart]
@[simp] theorem Dev.coreCtlWrite_control (c v : Nat) : (d.coreCtlWrite c v).control = d.control := by simp [Dev.coreCtlWrite]
@[simp] theorem Dev.defaultWrite_control (t : Nat) (reg : Reg) (v : Nat) : (d.defaultWrite t reg v).control = d.control := by simp [Dev.defaultWrite]
@[simp] theorem Dev.defectPop_control (t : Nat) : (d.defectPop t).control = d.control := by simp [Dev.defectPop]
@[simp] theorem Dev.discPop_control (src : Src) (r : Nat) : (d.discPop src r).control = d.control := by simp [Dev.discPop]
@[simp] theorem Dev.dmaCtlWrite_control (c v : Nat) : (d.dmaCtlWrite c v).control = d.control := by simp [Dev.dmaCtlWrite]
@[simp] theorem Dev.dsCfgWrite_control (t v : Nat) : (d.dsCfgWrite t v).control = d.control := by simp [Dev.dsCfgWrite]
@[simp] theorem Dev.eccPop_control : (d.eccPop).control = d.control := by simp [Dev.eccPop]
@[simp] theorem Dev.eoi_control (i : Nat) : (d.eoi i).control = d.control := by simp [Dev.eoi]
@[simp] theorem Dev.eqCfgWrite_control (r v : Nat) : (d.eqCfgWrite r v).control = d.control := by simp [Dev.eqCfgWrite]
@[simp] theorem Dev.eyeCfgWrite_control (k : LaneKind) (reg : Reg) (v : Nat) : (d.eyeCfgWrite k reg v).control = d.control := by simp [Dev.eyeCfgWrite]
@[simp] theorem Dev.fcCfgWrite_control (u v : Nat) : (d.fcCfgWrite u v).control = d.control := by simp [Dev.fcCfgWrite]
@[simp] theorem Dev.structReject_control (r : Reg) (v : Nat) (src : Src) : (d.structReject r v src).control = d.control := by simp [Dev.structReject]
@[simp] theorem Dev.fcThWrite_control (u c v : Nat) (src : Src) : (d.fcThWrite u c v src).control = d.control := by simp [Dev.fcThWrite]
@[simp] theorem Dev.frameCfgWrite_control (v : Nat) : (d.frameCfgWrite v).control = d.control := by simp [Dev.frameCfgWrite]
@[simp] theorem Dev.raiseLevel_control (r : Reg) (b : Nat) (starts : Bool) : (d.raiseLevel r b starts).control = d.control := by simp [Dev.raiseLevel]
@[simp] theorem Dev.fsCfgWrite_control (v : Nat) : (d.fsCfgWrite v).control = d.control := by simp [Dev.fsCfgWrite]
@[simp] theorem Dev.holdCmp_control (n v : Nat) : (d.holdCmp n v).control = d.control := by simp [Dev.holdCmp]
@[simp] theorem Dev.holdInc_control (v : Nat) : (d.holdInc v).control = d.control := by simp [Dev.holdInc]
@[simp] theorem Dev.incHiWrite_control (v : Nat) : (d.incHiWrite v).control = d.control := by simp [Dev.incHiWrite]
@[simp] theorem Dev.keyEvtPop_control (src : Src) : (d.keyEvtPop src).control = d.control := by
  unfold Dev.keyEvtPop
  split <;> simp
@[simp] theorem Dev.ceRefused_control : (d.ceRefused).control = d.control := by simp [Dev.ceRefused]
@[simp] theorem Dev.laBaseWrite_control (n v : Nat) : (d.laBaseWrite n v).control = d.control := by simp [Dev.laBaseWrite]
@[simp] theorem Dev.laOwnerWrite_control (n v : Nat) (src : Src) : (d.laOwnerWrite n v src).control = d.control := by simp [Dev.laOwnerWrite]
@[simp] theorem Dev.laPi_control (n v : Nat) : (d.laPi n v).control = d.control := by simp [Dev.laPi]
@[simp] theorem Dev.laSizeWrite_control (n v : Nat) : (d.laSizeWrite n v).control = d.control := by simp [Dev.laSizeWrite]
@[simp] theorem Dev.lagRefused_control (g : Nat) : (d.lagRefused g).control = d.control := by simp [Dev.lagRefused]
@[simp] theorem Dev.lagCfgWrite_control (g v : Nat) : (d.lagCfgWrite g v).control = d.control := by simp [Dev.lagCfgWrite]
@[simp] theorem Dev.addShared_control (n : Nat) (x : Int) : (d.addShared n x).control = d.control := by simp [Dev.addShared]
@[simp] theorem Dev.creditCells_control (p n k : Nat) : (d.creditCells p n k).control = d.control := by simp [Dev.creditCells]
@[simp] theorem Dev.freeReject_control (n c p req kind : Nat) : (d.freeReject n c p req kind).control = d.control := by simp [Dev.freeReject]
@[simp] theorem Dev.onCell_control (n c : Nat) (f : Cell → Cell) : (d.onCell n c f).control = d.control := by simp [Dev.onCell]
@[simp] theorem Dev.freeDecided_control (n p req c : Nat) (n0 : Option Nat) : (d.freeDecided n p req c n0).control = d.control := by
  unfold Dev.freeDecided
  split <;> simp
@[simp] theorem Dev.freeCell_control (n p req : Nat) (c : Nat) : (d.freeCell n p req c).control = d.control := by simp [Dev.freeCell]
@[simp] theorem Dev.freeCells_control (n p req : Nat) (cs : List Nat) : (d.freeCells n p req cs).control = d.control := by simp [Dev.freeCells]
@[simp] theorem Dev.fetchAbandon_control (q : Nat) : (d.fetchAbandon q).control = d.control := by
  unfold Dev.fetchAbandon
  split <;> simp
@[simp] theorem Dev.fetchSync_control (q : Nat) (shrunk : Bool) : (d.fetchSync q shrunk).control = d.control := by simp [Dev.fetchSync]
@[simp] theorem Dev.fetchLost_control (q n : Nat) : (d.fetchLost q n).control = d.control := by simp [Dev.fetchLost]
@[simp] theorem Dev.onQueue_control (q : Nat) (f : Queue → Queue) : (d.onQueue q f).control = d.control := by simp [Dev.onQueue]
@[simp] theorem Dev.onNode_control (n : Nat) (f : Node → Node) : (d.onNode n f).control = d.control := by simp [Dev.onNode]
@[simp] theorem Dev.setDeficit_control (c : Child) (x : Int) : (d.setDeficit c x).control = d.control := by
  unfold Dev.setDeficit
  split <;> simp
@[simp] theorem Dev.settleEmpty_control (n0 : Nat) (n1 : Child) : (d.settleEmpty n0 n1).control = d.control := by
  induction n0 generalizing d n1 with
  | zero => rfl
  | succ k ih =>
    simp only [Dev.settleEmpty]
    split
    · rfl
    · split <;> simp [ih]
@[simp] theorem Dev.raiseIf_control (c : Bool) (r : Reg) (b : Nat) : (d.raiseIf c r b).control = d.control := by simp [Dev.raiseIf]
@[simp] theorem Dev.inflightDown_control (n : Nat) : (d.inflightDown n).control = d.control := by simp [Dev.inflightDown]
@[simp] theorem Dev.dropRecirc_control (p : Pkt) : (d.dropRecirc p).control = d.control := by simp [Dev.dropRecirc]
@[simp] theorem Dev.writeSample_control (packet : Nat) (bs : List Byte) : (d.writeSample packet bs).control = d.control := by simp [Dev.writeSample]
@[simp] theorem Dev.sampleDone_control (q : Nat) (p : Pkt) (len reason : Nat) : (d.sampleDone q p len reason).control = d.control := by
  unfold Dev.sampleDone
  split <;> simp
@[simp] theorem Dev.stat_control (q i n : Nat) : (d.stat q i n).control = d.control := by
  unfold Dev.stat
  split <;> simp
@[simp] theorem Dev.tmDrop_control (q : Nat) (p : Pkt) (len reason : Nat) : (d.tmDrop q p len reason).control = d.control := by simp [Dev.tmDrop]
@[simp] theorem Dev.breakList_control (q n c : Nat) : (d.breakList q n c).control = d.control := by simp [Dev.breakList]
@[simp] theorem Dev.eccEvent_control (n c : Nat) (ue link : Bool) (source : Nat) : (d.eccEvent n c ue link source).control = d.control := by simp [Dev.eccEvent]
@[simp] theorem Dev.cellCheck_control (n c : Nat) (link : Bool) (source : Nat) : (d.cellCheck n c link source).1.control = d.control := by
  simp [Dev.cellCheck, apply_ite Prod.fst]
@[simp] theorem Dev.checkLinks_control (n source : Nat) (n0 : List Nat) : (d.checkLinks n source n0).1.control = d.control := by
  induction n0 generalizing d with
  | nil => rfl
  | cons c cs ih =>
    have hc := d.cellCheck_control n c true source
    rw [Dev.checkLinks]
    dsimp only
    split
    · exact hc
    · exact (ih _).trans hc
@[simp] theorem Dev.discardHead_control (q n reason : Nat) : (d.discardHead q n reason).control = d.control := by
  unfold Dev.discardHead
  split
  · rfl
  · next h rest _ =>
    have hl := Dev.checkLinks_control d n (if n = 0 then 0 else 2) h.cells
    split <;> next hc =>
      rw [hc] at hl
      simpa using hl
@[simp] theorem Dev.discardAll_control (q reason : Nat) (n0 : Nat) : (d.discardAll q reason n0).control = d.control := by
  induction n0 generalizing d with
  | zero => rfl
  | succ k ih =>
    simp only [Dev.discardAll]
    split
    · simp [ih]
    · rfl
@[simp] theorem Dev.flushQueue_control (q : Nat) : (d.flushQueue q).control = d.control := by simp [Dev.flushQueue]
@[simp] theorem Dev.lagFlush_control (g b : Nat) : (d.lagFlush g b).control = d.control := by simp [Dev.lagFlush]
@[simp] theorem Dev.lagSyncAt_control (base : Nat → Nat → Nat) : (d.lagSyncAt base).control = d.control := by simp [Dev.lagSyncAt]
@[simp] theorem Dev.lagMemberWrite_control (g m v : Nat) (src : Src) : (d.lagMemberWrite g m v src).control = d.control := by simp [Dev.lagMemberWrite]
@[simp] theorem Dev.laneRefused_control (k : LaneKind) (i : Nat) (reg : Reg) (v : Nat) (src : Src) : (d.laneRefused k i reg v src).control = d.control := by
  unfold Dev.laneRefused
  split <;> simp
@[simp] theorem Dev.laneCtlWrite_control (k : LaneKind) (i v : Nat) (src : Src) : (d.laneCtlWrite k i v src).control = d.control := by simp [Dev.laneCtlWrite]
@[simp] theorem Dev.mapCfgWrite_control (r v : Nat) : (d.mapCfgWrite r v).control = d.control := by simp [Dev.mapCfgWrite]
@[simp] theorem Dev.mgmtStat_control (i n : Nat) : (d.mgmtStat i n).control = d.control := by simp [Dev.mgmtStat]
@[simp] theorem Dev.mgmtLink_control : (d.mgmtLink).control = d.control := by simp [Dev.mgmtLink]
@[simp] theorem Dev.mgmtCfgWrite_control (v : Nat) : (d.mgmtCfgWrite v).control = d.control := by simp [Dev.mgmtCfgWrite]
@[simp] theorem Dev.msCfgWrite_control (u v : Nat) : (d.msCfgWrite u v).control = d.control := by simp [Dev.msCfgWrite]
@[simp] theorem Dev.pcCfgWrite_control (v : Nat) : (d.pcCfgWrite v).control = d.control := by simp [Dev.pcCfgWrite]
@[simp] theorem Dev.pcQueueWrite_control (r : Reg) (v : Nat) (owner : Option Nat) (port : Nat) (src : Src) : (d.pcQueueWrite r v owner port src).control = d.control := by simp [Dev.pcQueueWrite]
@[simp] theorem Dev.pcntCfgWrite_control (k v occ : Nat) : (d.pcntCfgWrite k v occ).control = d.control := by simp [Dev.pcntCfgWrite]
@[simp] theorem Dev.onRg_control (t : Nat) (f : RgTree → RgTree) : (d.onRg t f).control = d.control := by simp [Dev.onRg]
@[simp] theorem Dev.ploamuPop_control (t : Nat) : (d.ploamuPop t).control = d.control := by simp [Dev.ploamuPop]
@[simp] theorem Dev.onPm_control (r : Nat) (f : PmReach → PmReach) : (d.onPm r f).control = d.control := by simp [Dev.onPm]
@[simp] theorem Dev.pmDay_control (r : Nat) : (d.pmDay r).control = d.control := by simp [Dev.pmDay]
@[simp] theorem Dev.pmCfgWrite_control (r v : Nat) : (d.pmCfgWrite r v).control = d.control := by simp [Dev.pmCfgWrite]
@[simp] theorem Dev.pnHiWrite_control (v : Nat) : (d.pnHiWrite v).control = d.control := by
  unfold Dev.pnHiWrite
  split <;> simp
@[simp] theorem Dev.ponidHiWrite_control (t v : Nat) : (d.ponidHiWrite t v).control = d.control := by simp [Dev.ponidHiWrite]
@[simp] theorem Dev.portCfgWrite_control (p v : Nat) : (d.portCfgWrite p v).control = d.control := by simp [Dev.portCfgWrite]
@[simp] theorem Dev.skewLost_control (k : LaneKind) (i : Nat) : (d.skewLost k i).control = d.control := by simp [Dev.skewLost]
@[simp] theorem Dev.portMarkers_control (u : Nat) (on : Bool) : (d.portMarkers u on).control = d.control := by simp [Dev.portMarkers]
@[simp] theorem Dev.lagSync_control : (d.lagSync).control = d.control := by simp [Dev.lagSync]
@[simp] theorem Dev.ulStat_control (u i n : Nat) : (d.ulStat u i n).control = d.control := by simp [Dev.ulStat]
@[simp] theorem Dev.setPort_control (u : Nat) (st : PortState) (cause : Nat) : (d.setPort u st cause).control = d.control := by simp [Dev.setPort]
@[simp] theorem Dev.ulAbort_control (u : Nat) (sending stamped receiving : Bool) : (d.ulAbort u sending stamped receiving).control = d.control := by simp [Dev.ulAbort]
@[simp] theorem Dev.ulReport_control (u : Nat) : (d.ulReport u).control = d.control := by simp [Dev.ulReport]
@[simp] theorem Dev.portEnable_control (u : Nat) (en : Bool) : (d.portEnable u en).control = d.control := by simp [Dev.portEnable]
@[simp] theorem Dev.portCfgWriteUl_control (u v : Nat) : (d.portCfgWriteUl u v).control = d.control := by simp [Dev.portCfgWriteUl]
@[simp] theorem Dev.onChk_control (k : LaneKind) (i : Nat) (f : PrbsChk → PrbsChk) : (d.onChk k i f).control = d.control := by simp [Dev.onChk]
@[simp] theorem Dev.chkClr_control (k : LaneKind) (i : Nat) (errNow : Bool) : (d.chkClr k i errNow).control = d.control := by
  unfold Dev.chkClr
  split <;> simp
@[simp] theorem Dev.errInject_control (k : LaneKind) (i : Nat) : (d.errInject k i).control = d.control := by simp [Dev.errInject]
@[simp] theorem Dev.genFollow_control (k : LaneKind) (i : Nat) : (d.genFollow k i).control = d.control := by simp [Dev.genFollow]
@[simp] theorem Dev.prbsCtlWrite_control (k : LaneKind) (i v : Nat) (src : Src) : (d.prbsCtlWrite k i v src).control = d.control := by simp [Dev.prbsCtlWrite]
@[simp] theorem Dev.pxCfgWrite_control (v : Nat) : (d.pxCfgWrite v).control = d.control := by simp [Dev.pxCfgWrite]
@[simp] theorem Dev.pxSnapLoWrite_control (r : Reg) (v : Nat) : (d.pxSnapLoWrite r v).control = d.control := by simp [Dev.pxSnapLoWrite]
@[simp] theorem Dev.rgTreeCfgWrite_control (t v : Nat) : (d.rgTreeCfgWrite t v).control = d.control := by simp [Dev.rgTreeCfgWrite]
@[simp] theorem Dev.ringRefused_control (n : Nat) : (d.ringRefused n).control = d.control := by simp [Dev.ringRefused]
@[simp] theorem Dev.ringBaseWrite_control (n : Nat) (tx hi : Bool) (v : Nat) : (d.ringBaseWrite n tx hi v).control = d.control := by simp [Dev.ringBaseWrite]
@[simp] theorem Dev.ringCfgWrite_control (n : Nat) (tx : Bool) (v : Nat) : (d.ringCfgWrite n tx v).control = d.control := by simp [Dev.ringCfgWrite]
@[simp] theorem Dev.ringPi_control (n : Nat) (tx : Bool) (v : Nat) : (d.ringPi n tx v).control = d.control := by simp [Dev.ringPi]
@[simp] theorem Dev.ringWrite_control (n : Nat) (r : Reg) (v : Nat) : (d.ringWrite n r v).control = d.control := by
  unfold Dev.ringWrite
  split <;> simp
@[simp] theorem Dev.rxNodeWrite_control (k v : Nat) (src : Src) : (d.rxNodeWrite k v src).control = d.control := by simp [Dev.rxNodeWrite]
@[simp] theorem Dev.sampWrite_control (v : Nat) : (d.sampWrite v).control = d.control := by simp [Dev.sampWrite]
@[simp] theorem Dev.serCfgWrite_control (u v : Nat) : (d.serCfgWrite u v).control = d.control := by simp [Dev.serCfgWrite]
@[simp] theorem Dev.synceWrite_control (v : Nat) : (d.synceWrite v).control = d.control := by simp [Dev.synceWrite]
@[simp] theorem Dev.tbCtlWrite_control (v : Nat) : (d.tbCtlWrite v).control = d.control := by simp [Dev.tbCtlWrite]
@[simp] theorem Dev.todcapArm_control (n : Nat) : (d.todcapArm n).control = d.control := by simp [Dev.todcapArm]
@[simp] theorem Dev.todcapWrite_control (n v : Nat) : (d.todcapWrite n v).control = d.control := by simp [Dev.todcapWrite]
@[simp] theorem Dev.tpidWrite_control (v : Nat) : (d.tpidWrite v).control = d.control := by simp [Dev.tpidWrite]
@[simp] theorem Dev.clrLost_control (u : Nat) (lossNow : Bool) : (d.clrLost u lossNow).control = d.control := by simp [Dev.clrLost]
@[simp] theorem Dev.txtsPop_control (u : Nat) : (d.txtsPop u).control = d.control := by simp [Dev.txtsPop]
@[simp] theorem Dev.txPopWrite_control (u v : Nat) : (d.txPopWrite u v).control = d.control := by simp [Dev.txPopWrite]
@[simp] theorem Dev.txeqWrite_control (k : LaneKind) (i : Nat) (reg : Reg) (v : Nat) (src : Src) : (d.txeqWrite k i reg v src).control = d.control := by simp [Dev.txeqWrite]
@[simp] theorem Dev.vfSpWrite_control (s v : Nat) : (d.vfSpWrite s v).control = d.control := by simp [Dev.vfSpWrite]

end

end Sys2Proof.Machine
end

section

namespace Sys2Proof.Machine

/-- A register write moves no state, window or frame count (R11). -/
@[simp] theorem Dev.regWrite_control (d : Dev) (src : Src) (r : Reg) (v : Nat) : (d.regWrite src r v).control = d.control := by
  by_cases hs : Safety.special r.name = false
  · rw [Safety.regWrite_plain _ _ _ _ hs, Dev.plainWrite_control]
  · obtain ⟨n, i, j⟩ := r
    cases n <;> try exact absurd rfl hs
    all_goals simp [Dev.regWrite]

theorem Dev.imageWrite_control (d : Dev) (x : Nat × Nat) : (d.imageWrite x).control = d.control := by
  unfold Dev.imageWrite
  split
  · exact Dev.regWrite_control ..
  · rfl

end Sys2Proof.Machine
end

section

namespace Sys2Proof.Machine

open Sys2Proof.Safety

/-! The step's end where no window runs on: the distributing sets may flush queues (R393), which leaves states, windows, frame counts and the
registers of IM. -/

/-- Every register of the place lies outside the IM block. -/
def Place.apartIm : Place → Bool
  | .one a => decide (a < 0x800000 ∨ 0x801000 ≤ a)
  | .ix b _ _ | .ix2 b _ _ _ _ => decide (0x801000 ≤ b)
  | .tree _ | .tree2 _ _ => true

/-- The words of the IM block (R61 to R67). -/
def Dev.imWord (d : Dev) (a : Fin 0x1000) : Option RegWord := d.regs.get? (0x800000 + a)

theorem imWord_ob (a : Fin 0x1000) : obAddr (0x800000 + a) = false := by
  simp only [obAddr, decide_eq_false_iff_not]
  omega

theorem Reg.apartIm_ne {r : Reg} (h : r.name.place.apartIm = true) (a : Fin 0x1000) : r.addr ≠ 0x800000 + a := by
  have ha := a.isLt
  unfold Reg.addr
  split
  all_goals
    rename_i hp
    simp only [hp, Place.apartIm, decide_eq_true_eq, treeBase] at h ⊢
    omega

@[simp] theorem imWord_ite (c : Prop) [Decidable c] (a b : Dev) : (if c then a else b).imWord = if c then a.imWord else b.imWord :=
  apply_ite Dev.imWord c a b

section

variable (d : Dev)

theorem Dev.imWord_congr {d d' : Dev} (h : d'.regs = d.regs) : d'.imWord = d.imWord := funext fun a => by simp only [Dev.imWord, h]

@[simp] theorem Dev.onOb_imWord (f : ObState → ObState) : (d.onOb f).imWord = d.imWord := Dev.imWord_congr rfl
@[simp] theorem Dev.onBp_imWord (f : BpState → BpState) : (d.onBp f).imWord = d.imWord := Dev.imWord_congr rfl
@[simp] theorem Dev.onTm_imWord (f : TmState → TmState) : (d.onTm f).imWord = d.imWord := Dev.imWord_congr rfl
@[simp] theorem Dev.onUl_imWord (f : UlState → UlState) : (d.onUl f).imWord = d.imWord := Dev.imWord_congr rfl
@[simp] theorem Dev.count_imWord (e : Nat) : (d.count e).imWord = d.imWord := funext fun a => d.count_get? e _ (imWord_ob a)

variable {r : Reg} (h : r.name.place.apartIm = true)

include h

@[simp] theorem Dev.setReg_imWord (v : Nat) : (d.setReg r v).imWord = d.imWord := funext fun a => d.get?_setReg_ne r v _ (Reg.apartIm_ne h a)
@[simp] theorem Dev.raise_imWord (b : Nat) : (d.raise r b).imWord = d.imWord :=
  funext fun a => d.raise_get? r b _ (imWord_ob a) (Reg.apartIm_ne h a)
@[simp] theorem Dev.raiseIf_imWord (c : Bool) (b : Nat) : (d.raiseIf c r b).imWord = d.imWord := by simp [Dev.raiseIf, d.raise_imWord h]
@[simp] theorem Dev.raiseRec_imWord (b : Nat) (s : RSrc) (inst : Nat) (fault : Bool) (fs : List (Nat × Nat)) :
    (d.raiseRec r b s inst fault fs).imWord = d.imWord :=
  funext fun a => d.raiseRec_get? r b s inst fault fs _ (imWord_ob a) (Reg.apartIm_ne h a)

end

section

variable (d : Dev)

theorem Dev.eccEvent_imWord (n c : Nat) (ue link : Bool) (source : Nat) : (d.eccEvent n c ue link source).imWord = d.imWord := by
  simp (disch := (dsimp only [R]; decide)) [Dev.eccEvent]

theorem Dev.checkLinks_imWord (n source : Nat) (cs : List Nat) : (d.checkLinks n source cs).1.imWord = d.imWord := by
  induction cs generalizing d with
  | nil => rfl
  | cons c cs ih =>
    have hc : (d.cellCheck n c true source).1.imWord = d.imWord := by
      simp only [Dev.cellCheck, apply_ite Prod.fst, imWord_ite, Dev.eccEvent_imWord, ite_self]
    rw [Dev.checkLinks]
    dsimp only
    split
    · exact hc
    · exact (ih _).trans hc

@[simp] theorem Dev.freeCells_imWord (n p req : Nat) (cs : List Nat) : (d.freeCells n p req cs).imWord = d.imWord := by
  refine foldl_keeps Dev.imWord _ (fun d c => ?_) cs d
  unfold Dev.freeCell
  cases d.freeFault n c p with
  | none => simp (disch := (dsimp only [R]; decide)) [Dev.freeDecided, Dev.creditCells, Dev.addShared, Dev.onCell]
  | some k => simp (disch := (dsimp only [R]; decide)) [Dev.freeDecided, Dev.freeReject]

@[simp] theorem Dev.fetchLost_imWord (q n : Nat) : (d.fetchLost q n).imWord = d.imWord := by
  have ha : (d.fetchAbandon q).imWord = d.imWord := by
    unfold Dev.fetchAbandon
    split <;> simp
  simp [Dev.fetchLost, Dev.fetchSync, ha]

@[simp] theorem Dev.settleEmpty_imWord (k : Nat) (c : Child) : (d.settleEmpty k c).imWord = d.imWord := by
  induction k generalizing d c with
  | zero => rfl
  | succ k ih => cases c <;> simp [Dev.settleEmpty, Dev.setDeficit, Dev.onNode, Dev.onQueue, ih]

@[simp] theorem Dev.tmDrop_imWord (q : Nat) (p : Pkt) (len reason : Nat) : (d.tmDrop q p len reason).imWord = d.imWord := by
  have hstat : ∀ (x : Dev) (i n : Nat), (x.stat q i n).imWord = x.imWord := fun x i n => by
    unfold Dev.stat
    split <;> simp
  have hsample : ∀ x : Dev, (x.sampleDone q p len reason).imWord = x.imWord := fun x => by
    unfold Dev.sampleDone
    split <;> simp (disch := (dsimp only [R]; decide)) [Dev.writeSample]
  simp (disch := (dsimp only [R]; decide)) [Dev.tmDrop, Dev.dropRecirc, Dev.inflightDown, hstat, hsample]

theorem Dev.discardHead_imWord (q n reason : Nat) : (d.discardHead q n reason).imWord = d.imWord := by
  have hdrops : ∀ (l : List Held) (x : Dev), (l.foldl (fun d h => d.tmDrop q h.pkt h.len 8) x).imWord = x.imWord := fun l x =>
    foldl_keeps Dev.imWord _ (fun d (h : Held) => d.tmDrop_imWord q h.pkt h.len 8) l x
  unfold Dev.discardHead
  split
  · rfl
  · next h rest _ =>
    have hl := d.checkLinks_imWord n (if n = 0 then 0 else 2) h.cells
    split
    · next hc =>
      rw [hc] at hl
      simpa (disch := (dsimp only [R]; decide)) [Dev.breakList, Dev.onQueue, hdrops] using hl
    · next hc =>
      rw [hc] at hl
      simpa [Dev.onQueue] using hl

theorem Dev.discardAll_imWord (q reason k : Nat) : (d.discardAll q reason k).imWord = d.imWord := by
  induction k generalizing d with
  | zero => rfl
  | succ k ih =>
    rw [Dev.discardAll]
    split
    · rw [ih, Dev.discardHead_imWord]
    · rfl

/-- Link aggregation that follows its distributing sets flushes queues (R393), which writes no register of IM. -/
theorem Dev.lagSync_imWord : d.lagSync.imWord = d.imWord := by
  unfold Dev.lagSync Dev.lagSyncAt
  refine upTo_keeps Dev.imWord 8 _ (fun g x => ?_) d
  dsimp only
  split
  · rfl
  · split
    · refine (upTo_keeps Dev.imWord 8 _ (fun m y => ?_) _).trans (Dev.onUl_imWord ..)
      split
      · exact foldl_keeps Dev.imWord _ (fun z q => z.discardAll_imWord q 7 _) _ y
      · rfl
    · exact Dev.onUl_imWord ..

end

/-- What the step's end keeps where no window runs on, whatever the distributing sets do: the image's state, the windows, the frame counts
and the registers of IM. -/
structure Dev.Holds (d d' : Dev) : Prop where
  im : d'.im = d.im
  wins : d'.wins = d.wins
  bnd : d'.rx.bnd = d.rx.bnd
  sfc : ∀ t, (d'.tf t).sfc = (d.tf t).sfc
  word : d'.imWord = d.imWord

theorem Dev.Holds.of_control {d d' : Dev} (h : d'.control = d.control) (hw : d'.imWord = d.imWord) : d.Holds d' :=
  ⟨congrArg Control.im h, congrArg Control.wins h, congrArg Control.bnd h, congrFun (congrArg Control.sfc h), hw⟩

theorem Dev.Holds.trans {a b c : Dev} (h : a.Holds b) (k : b.Holds c) : a.Holds c :=
  ⟨k.im.trans h.im, k.wins.trans h.wins, k.bnd.trans h.bnd, fun t => (k.sfc t).trans (h.sfc t), k.word.trans h.word⟩

theorem imWord_report (a : Fin 0x1000) : reportAddr (0x800000 + a) = false := by
  have ha := a.isLt
  simp only [reportAddr, imWord_ob, Bool.or_eq_false_iff, Bool.and_eq_false_iff, decide_eq_false_iff_not, beq_eq_false_iff_ne]
  refine ⟨⟨⟨⟨⟨⟨trivial, Or.inl ?_⟩, ?_⟩, ?_⟩, ?_⟩, ?_⟩, Or.inl ?_⟩ <;> omega

theorem Dev.Kept.holds {d d' : Dev} (h : d.Kept d') : d.Holds d' where
  im := h.im
  wins := h.wins
  bnd := show d'.rx.sansCoop.bnd = d.rx.sansCoop.bnd by rw [h.rx]
  sfc t := show (d'.rx.sansCoop.tf.getD t TfTree.rest).sfc = (d.rx.sansCoop.tf.getD t TfTree.rest).sfc by rw [h.rx]
  word := funext fun a => h.regs _ (imWord_report a)

theorem Dev.lagSync_holds (d : Dev) : d.Holds d.lagSync :=
  Dev.Holds.of_control d.lagSync_control d.lagSync_imWord

theorem Dev.settle_holds (d0 : Dev) {d : Dev} (hk : d.kicks = []) : d.Holds (Dev.settle d0 d) := by
  unfold Dev.settle
  split
  · exact ⟨rfl, rfl, rfl, fun _ => rfl, rfl⟩
  · rw [Dev.runKicks_nil hk]
    refine Dev.Holds.trans ?_ ((Dev.levels_kept _ _).trans (Dev.deliver_kept _)).holds
    refine Dev.Holds.trans ?_ (Dev.lagSync_holds _)
    split
    · exact (Dev.fcEvaluate_kept d).holds
    · exact ⟨rfl, rfl, rfl, fun _ => rfl, rfl⟩

theorem Dev.Holds.reg {d d' : Dev} (h : d.Holds d') {r : Reg} (hr : 0x800000 ≤ r.addr ∧ r.addr < 0x801000) : d'.reg r = d.reg r := by
  have hw := congrFun h.word ⟨r.addr - 0x800000, by omega⟩
  simp only [Dev.imWord, show 0x800000 + (r.addr - 0x800000) = r.addr by omega] at hw
  rw [Dev.reg_def, Dev.reg_def, hw]

theorem Dev.Holds.flag {d d' : Dev} (h : d.Holds d') {r : Reg} (hr : 0x800000 ≤ r.addr ∧ r.addr < 0x801000) (b : Nat) :
    d'.flag r b = d.flag r b := by rw [Dev.flag, Dev.flag, h.reg hr]

theorem Dev.Holds.fld {d d' : Dev} (h : d.Holds d') {r : Reg} (hr : 0x800000 ≤ r.addr ∧ r.addr < 0x801000) (hi lo : Nat) :
    d'.fld r hi lo = d.fld r hi lo := by rw [Dev.fld, Dev.fld, h.reg hr]

end Sys2Proof.Machine
end

section

namespace Sys2Proof.Safety

open Sys2Proof.Machine

/-- An event that leaves no window to run on answers with its effect, but for what the step's end may change. -/
theorem answers_event_holds {i : Instr} {s : State} {dt : Nat} {can : Dev → Bool} {f : Dev → Dev} (hex : exec i s = event s dt can f)
    (hc : can (s.dev.elapse dt) = true) (hk : (f (s.dev.elapse dt)).kicks = []) :
    Answers i s fun d => (f (s.dev.elapse dt)).Holds d := by
  refine ⟨_, hex, rfl, ?_⟩
  simp only [hc, if_true]
  exact Dev.settle_holds s.dev hk

theorem control_im {d d' : Dev} (h : d'.control = d.control) : d'.im = d.im := congrArg Control.im h

theorem control_kicks {d d' : Dev} (h : d'.control = d.control) : d'.kicks = d.kicks := congrArg Control.kicks h

theorem control_reach {d d' : Dev} (h : d'.control = d.control) (r : Nat) : d'.reach r = d.reach r := by
  rw [Dev.reach, Dev.reach, control_im h]

theorem imageWrites_control (l : List (Nat × Nat)) (d : Dev) : (l.foldl Dev.imageWrite d).control = d.control :=
  control_foldl Dev.imageWrite_control l d

theorem awake_of_alive {d : Dev} (h : d.alive = true) : d.awake = true := by
  unfold Dev.alive at h
  unfold Dev.awake
  cases hs : d.im.state <;> simp_all

/-- A load that fails leaves its reach DARK and not loaded, with the error (R52). -/
theorem reachLoadDone_error {e : Dev} {l : ReachLoad} {fault : Nat} {x : LoadErr} (ha : e.alive = true) (hl : e.im.load = some l)
    (hx : loadReach e.mc.fuses ⟨e.mc.hostMem, l.addr, some l.len, fault⟩ l.reach e.structId = .error x) :
    e.reachLoadDone fault = ((((e.onIm fun m => { m with load := none }).onReach l.reach
      fun y => { y with state := .dark, loaded := false, loadErr := x.1 }).setFld (R .IM_DEV_STATUS) 31 16 x.2).raise (R .IM_FLAGS) 3).raise (R .IM_FLAGS) 1 := by
  simp only [Dev.reachLoadDone, ha, if_true, hl]
  split
  next y hy =>
    cases Except.error.inj (hy.symm.trans hx)
    rfl
  next m hm => cases hm.symm.trans hx

/-- A load that ends well leaves its reach DARK and loaded (R50), with the image's registers written. -/
theorem reachLoadDone_ok {e : Dev} {l : ReachLoad} {fault : Nat} {m : Img} (ha : e.alive = true) (hl : e.im.load = some l)
    (hm : loadReach e.mc.fuses ⟨e.mc.hostMem, l.addr, some l.len, fault⟩ l.reach e.structId = .ok m) :
    ∃ (str : Structure) (rs : List (Nat × Nat)), e.reachLoadDone fault = ((rs.foldl Dev.imageWrite ((e.onIm fun x => { x with load := none, str := str }).onReach l.reach
      fun y => { y with state := .dark, loaded := true })).raise (R .IM_FLAGS) 2).raise (R .IM_FLAGS) 1 := by
  simp only [Dev.reachLoadDone, ha, if_true, hl]
  split
  next y hy => cases hy.symm.trans hm
  next m' hm' =>
    refine ⟨{ e.im.str with trees := (decodeTrees m').foldl (fun t x => t.set x.1 x.2) (e.im.str.trees.keep fun t _ => !decide (t / 8 = l.reach)) },
      m'.reachRegs ++ m'.defaults, ?_⟩
    rw [List.foldl_append]
    rfl

/-- The last flags of a reach load: REACH_CHANGE after the flag of the outcome. -/
theorem reachLoad_flags {d d' : Dev} {b : Nat} (hb : b < 32) (h : ((d.raise (R .IM_FLAGS) b).raise (R .IM_FLAGS) 1).Holds d') :
    d'.flag (R .IM_FLAGS) 1 = true ∧ d'.flag (R .IM_FLAGS) b = true := by
  have hob : obAddr (R .IM_FLAGS).addr = false := by decide
  rw [h.flag (by decide), h.flag (by decide)]
  exact ⟨Dev.flag_raise _ hob (by decide), Dev.flag_raise_up 1 (Dev.flag_raise _ hob hb) hob (by decide)⟩

/-- Settles O22: the registers that a reach image writes move no state (R11), and the flags of IM are raised after them. -/
theorem reachLoadEndsDarkWithItsOutcome : Obligations.ReachLoadEndsDarkWithItsOutcome := by
  unfold Obligations.ReachLoadEndsDarkWithItsOutcome
  intro s dt fault e l he hq ha hl
  subst he
  cases hx : loadReach (s.dev.elapse dt).mc.fuses ⟨(s.dev.elapse dt).mc.hostMem, l.addr, some l.len, fault⟩ l.reach
      (s.dev.elapse dt).structId with
  | error x =>
    have hd := reachLoadDone_error ha hl hx
    refine (answers_event_holds (f := fun d => d.reachLoadDone fault) rfl (awake_of_alive ha) ?_).imp fun d h => ?_
    · rw [hd]
      simpa using hq.1
    · rw [hd] at h
      obtain ⟨h1, h3⟩ := reachLoad_flags (by decide) h
      have him := h.im
      simp only [Dev.raise_im, Dev.setFld_im] at him
      have hr : d.reach l.reach = _ := (congrArg (fun m : ImState => m.reaches.getD l.reach Reach.rest) him).trans (reach_onReach ..)
      exact ⟨by rw [him]; rfl, by rw [hr], h1, by rw [hr], by rw [hr], h3⟩
  | ok m =>
    obtain ⟨str, rs, hd⟩ := reachLoadDone_ok ha hl hx
    have hc := imageWrites_control rs (((s.dev.elapse dt).onIm fun x => { x with load := none, str := str }).onReach l.reach
      fun y => { y with state := .dark, loaded := true })
    refine (answers_event_holds (f := fun d => d.reachLoadDone fault) rfl (awake_of_alive ha) ?_).imp fun d h => ?_
    · rw [hd]
      simpa [control_kicks hc] using hq.1
    · rw [hd] at h
      obtain ⟨h1, h2⟩ := reachLoad_flags (by decide) h
      have him := h.im
      simp only [Dev.raise_im, control_im hc] at him
      have hr : d.reach l.reach = _ := (congrArg (fun m : ImState => m.reaches.getD l.reach Reach.rest) him).trans (reach_onReach ..)
      exact ⟨by rw [him]; rfl, by rw [hr], h1, by rw [hr], h2⟩

end Sys2Proof.Safety
end

section

namespace Sys2Proof.Machine

/-! ### What an image check reads (R41, R42): bytes from the image's place on, so that the control block's copies do not bear on it. -/

theorem leBytes_length (n v : Nat) : (leBytes n v).length = n := by
  induction n generalizing v with
  | zero => rfl
  | succ n ih => rw [leBytes, List.length_cons, ih]

theorem CtlBlock.bytes_length (c : CtlBlock) : c.bytes.length = 16 := by
  simp only [CtlBlock.bytes, List.length_append, leBytes_length]

/-- The memories agree from b upward. -/
def Mem.agreeFrom (b : Nat) (m m' : Mem) : Prop := ∀ a, b ≤ a → m'.read a = m.read a

theorem Mem.agreeFrom.readN {b : Nat} {m m' : Mem} (h : m.agreeFrom b m') {a : Nat} (ha : b ≤ a) (n : Nat) : m'.readN a n = m.readN a n :=
  List.map_congr_left fun i _ => h (a + i) (by omega)

section

variable {b : Nat} {m m' : Mem} (h : m.agreeFrom b m') (u : ImgUse) (f : Fuses) (len : Option Nat) (fault : Nat)

include h

theorem checkHeader_agree : checkHeader u f ⟨m', b, len, fault⟩ = checkHeader u f ⟨m, b, len, fault⟩ := by
  simp only [checkHeader, h.readN (Nat.le_refl b)]

theorem checkImage_agree : checkImage u f ⟨m', b, len, fault⟩ = checkImage u f ⟨m, b, len, fault⟩ := by
  simp only [checkImage, checkHeader_agree h, h.readN (Nat.le_refl b), h.readN (Nat.le_add_right b _)]

theorem loadFull_agree : loadFull f ⟨m', b, len, fault⟩ = loadFull f ⟨m, b, len, fault⟩ := by
  simp only [loadFull, checkImage_agree h]

theorem loadFirmware_agree : loadFirmware f ⟨m', b, len, fault⟩ = loadFirmware f ⟨m, b, len, fault⟩ := checkImage_agree h ..

end

/-- The copies of the control block lie below the slots (R501). -/
theorem Flash.writeCb_agree (f : Flash) (c : CtlBlock) (slot region : Nat) :
    f.cells.agreeFrom (regionBase slot region) (f.writeCb c).cells := by
  have hset : ∀ k, k < 2 → ∀ c : CtlBlock, f.cells.agreeFrom (regionBase slot region) (f.setCopy k c).cells := fun k hk c a ha => by
    refine Mem.read_writeL_frame _ _ _ _ (Or.inr ?_)
    rw [CtlBlock.bytes_length]
    simp only [regionBase, slotBase] at ha
    omega
  unfold Flash.writeCb
  extract_lets c'
  split
  · split
    · exact hset 0 (by decide) c'
    · exact hset 1 (by decide) c'
  · exact hset 1 (by decide) c'
  · exact hset 0 (by decide) c'

/-! ### What a boot leaves of states and windows -/

section

variable (d : Dev)

@[simp] theorem Dev.onFlash_control (f : Flash → Flash) : (d.onFlash f).control = d.control := by simp [Dev.onFlash]
@[simp] theorem Dev.spWrite_control (port a : Nat) (bs : List Byte) : (d.spWrite port a bs).control = d.control := by
  simp [Dev.spWrite, Dev.spUe]
@[simp] theorem Dev.firmwareIn_control (m : Img) : (d.firmwareIn m).control = d.control :=
  control_foldl (fun d x => by simp) _ d
@[simp] theorem Dev.avsInit_control : d.avsInit.control = d.control := by simp [Dev.avsInit]
@[simp] theorem Dev.train_control (cap : Nat) (b : BootIn) : (d.train cap b).1.control = d.control := by simp [Dev.train]
@[simp] theorem Dev.laneUp_control (k : LaneKind) (i : Nat) : (d.laneUp k i).control = d.control := by simp [Dev.laneUp]
@[simp] theorem Dev.lanesApply_control : d.lanesApply.control = d.control := by simp [Dev.lanesApply]
@[simp] theorem Dev.imageRegs_control (m : Img) : (d.imageRegs m).control = d.control := by simp [Dev.imageRegs]
@[simp] theorem Dev.restartScan_control : d.restartScan.control = d.control := by simp [Dev.restartScan]
@[simp] theorem Dev.tierRegs_control (n : Nat) : (d.tierRegs n).control = d.control := by simp [Dev.tierRegs]
@[simp] theorem Dev.poolRegs_control : d.poolRegs.control = d.control := by simp [Dev.poolRegs]
@[simp] theorem Dev.coresRun_control : d.coresRun.control = d.control := by simp [Dev.coresRun]
@[simp] theorem Dev.onCb_control (f : CtlBlock → CtlBlock) : (d.onCb f).control = d.control := by simp [Dev.onCb]

end

end Sys2Proof.Machine
end

section

namespace Sys2Proof.Safety

open Sys2Proof.Machine

/-- As `Dev.settle_holds`, where a window runs on that has no command left. -/
theorem settle_holds_idle (d0 : Dev) {d : Dev} {w : Win} (hw : Win.ofBase w.base = some w) (h : KicksIdle w d) : d.Holds (Dev.settle d0 d) := by
  have he : Dev.settle d0 d = Dev.settle d0 { d with kicks := [] } := by
    unfold Dev.settle
    rw [runKicks_idle hw h, Dev.runKicks_nil rfl]
  rw [he]
  have hd : d.Holds { d with kicks := [] } := ⟨rfl, rfl, rfl, fun _ => rfl, rfl⟩
  exact hd.trans (Dev.settle_holds d0 rfl)

/-- A start from flash with no command in IM's window (R44). -/
def Boots (d : Dev) : Prop := d.im.state = .booting ∧ d.im.bootsrc = 0 ∧ d.kicks = [] ∧ (d.win .im).queue = []

theorem Boots.of_control {d d' : Dev} (h : Boots d) (hc : d'.control = d.control) : Boots d' := by
  have hw : d'.wins = d.wins := congrArg Control.wins hc
  unfold Boots
  rw [control_im hc, control_kicks hc, Dev.win_congr hw]
  exact h

/-- The boot has ended in FAILED with the error x (R42, R47). -/
def bootFailed (x : LoadErr) (d : Dev) : Prop :=
  d.im.state = .failed ∧ d.fld (R .IM_DEV_STATUS) 15 8 = x.1 % 2 ^ 8 ∧ d.fld (R .IM_DEV_STATUS) 31 16 = x.2 % 2 ^ 16

/-- A load error at a boot from flash (R42, R47, R60). -/
theorem bootFail_failed {d : Dev} (h : Boots d) (x : LoadErr) : KicksIdle .im (d.bootFail x) ∧ bootFailed x (d.bootFail x) := by
  obtain ⟨hst, hsrc, hk, hq⟩ := h
  have hd : d.bootFail x = ((d.setFld (R .IM_DEV_STATUS) 31 16 x.2).setFld (R .IM_DEV_STATUS) 15 8 x.1).toFailed .loadError := by
    unfold Dev.bootFail
    exact if_neg (by simp [hsrc])
  rw [hd]
  generalize hd' : (d.setFld (R .IM_DEV_STATUS) 31 16 x.2).setFld (R .IM_DEV_STATUS) 15 8 x.1 = d'
  have hst' : d'.im.state = .booting := by rw [← hd']; exact hst
  have hk' : d'.kicks = [] := by rw [← hd']; exact hk
  have hq' : (d'.win .im).queue.length ≤ 1 := by
    rw [← hd']
    exact (congrArg List.length hq).trans_le (Nat.zero_le 1)
  have hheld : d'.im.state ≠ .held := by simp [hst']
  have hfailed : d'.im.state ≠ .failed := by simp [hst']
  refine ⟨(toFailed_frame _ hheld hfailed hk' hq').2, toFailed_state _ hheld hfailed hk' hq', ?_⟩
  have hreg := toFailed_reg .loadError hheld hfailed hk' hq' (r := R .IM_DEV_STATUS) (by decide) (by decide)
  rw [Dev.fld, Dev.fld, hreg, ← Dev.fld, ← Dev.fld, ← hd', Dev.fld_setFld _ _ _ _ _ (by decide) (by decide),
    Dev.fld_setFld_ne _ _ _ _ _ _ _ (by decide) (by decide) (by decide), Dev.fld_setFld _ _ _ _ _ (by decide) (by decide)]
  exact ⟨rfl, rfl⟩

/-- The boot has ended in STRUCTURED (R46, R47, R61). -/
def bootStructured (d : Dev) : Prop :=
  d.im.state = .structured ∧ d.fld (R .IM_DEV_STATUS) 15 8 = 0 ∧ d.flag (R .IM_DEV_STATUS) 4 = false ∧ d.flag (R .IM_FLAGS) 0 = true

theorem bootFailed_holds {x : LoadErr} {d d' : Dev} (hd : d.Holds d') (h : bootFailed x d) : bootFailed x d' := by
  unfold bootFailed
  rw [hd.im, hd.fld (by decide), hd.fld (by decide)]
  exact h

theorem bootStructured_holds {d d' : Dev} (hd : d.Holds d') (h : bootStructured d) : bootStructured d' := by
  unfold bootStructured
  rw [hd.im, hd.fld (by decide), hd.flag (by decide), hd.flag (by decide)]
  exact h

/-- The entry to STRUCTURED (R46, R61). -/
theorem toState_structured {d : Dev} (h : Boots d) : bootStructured
    ((((d.setFld (R .IM_DEV_STATUS) 31 16 0).setFld (R .IM_DEV_STATUS) 15 8 0).setFld (R .IM_DEV_STATUS) 4 4 0).toState .structured) := by
  obtain ⟨hst, -⟩ := h
  generalize hd' : (d.setFld (R .IM_DEV_STATUS) 31 16 0).setFld (R .IM_DEV_STATUS) 15 8 0 = d1
  have hfld : d1.fld (R .IM_DEV_STATUS) 15 8 = 0 := by rw [← hd', Dev.fld_setFld _ _ _ _ _ (by decide) (by decide), Nat.zero_mod]
  have hst1 : d1.im.state = .booting := by rw [← hd']; exact hst
  generalize hd2 : d1.setFld (R .IM_DEV_STATUS) 4 4 0 = d2
  have hfld2 : d2.fld (R .IM_DEV_STATUS) 15 8 = 0 := by
    rw [← hd2, Dev.fld_setFld_ne _ _ _ _ _ _ _ (by decide) (by decide) (by decide), hfld]
  have hflag2 : d2.flag (R .IM_DEV_STATUS) 4 = false := by
    rw [← hd2]
    exact flag_setFld_b2n d1 _ (by decide) false
  have hst2 : d2.im.state ≠ .structured := by rw [← hd2]; simp [hst1]
  rw [Dev.toState, if_neg hst2]
  have hreg : ((d2.onIm fun m => { m with state := .structured }).raise (R .IM_FLAGS) 0).reg (R .IM_DEV_STATUS) = d2.reg (R .IM_DEV_STATUS) := by
    rw [Dev.raise_reg_ne _ _ _ _ (by decide) (by decide)]
    exact Dev.reg_congr rfl _
  refine ⟨by rw [Dev.raise_im]; rfl, ?_, ?_, Dev.flag_raise _ (by decide) (by decide)⟩
  · rw [Dev.fld, hreg, ← Dev.fld, hfld2]
  · rw [Dev.flag, hreg, ← Dev.flag, hflag2]

/-- What follows the entry to STRUCTURED changes no state, window or register of IM. -/
theorem coresRun_holds (d : Dev) : d.Holds d.coresRun :=
  Dev.Holds.of_control d.coresRun_control <| funext fun _ => by rfl

/-- A sound image with trained memories (R46, R47, R503): its registers move no state, and no command waits. -/
theorem applyImage_structured {d : Dev} (h : Boots d) (m : Img) (str : Structure) :
    (d.applyImage m str true).kicks = [] ∧ bootStructured (d.applyImage m str true) := by
  unfold Dev.applyImage
  extract_lets d1 d2 d3 d4 d5 d6 d7
  have h1 : Boots d1 := h
  have hc4 : d4.control = d1.control := by
    simp only [d4, d3, d2, imageWrites_control, Dev.lanesApply_control, Dev.onMc_control, Dev.setFld_control, Dev.poolRegs_control,
      Dev.tierRegs_control, Dev.restartScan_control, Dev.imageRegs_control]
  have h4 : Boots d4 := h1.of_control hc4
  have hs := toState_structured h4
  obtain ⟨hst4, -, hk4, hq4⟩ := h4
  generalize hx : (((d4.setFld (R .IM_DEV_STATUS) 31 16 0).setFld (R .IM_DEV_STATUS) 15 8 0).setFld (R .IM_DEV_STATUS) 4 4 0).toState .structured = x at hs
  have hx' : x.wins = d4.wins ∧ x.kicks = d4.kicks := by
    rw [← hx, Dev.toState, if_neg (by simp [hst4])]
    simp
  have h5 : x.Holds d5 ∧ d5.kicks = x.kicks := by
    rw [← hx]
    exact ⟨coresRun_holds _, control_kicks (Dev.coresRun_control _)⟩
  have h6 : d5.Holds d6 ∧ d6.kicks = d5.kicks := by
    simp only [d6]
    split
    · exact ⟨Dev.Holds.of_control (Dev.onCb_control ..) (Dev.imWord_congr rfl), rfl⟩
    · exact ⟨Dev.Holds.of_control rfl rfl, rfl⟩
  have h7 : d6.Holds d7 ∧ d7.kicks = d6.kicks := by
    simp only [d7]
    split
    · exact ⟨Dev.Holds.of_control (Dev.raiseRec_control ..) (Dev.raiseRec_imWord _ (by decide) ..), by simp⟩
    · exact ⟨Dev.Holds.of_control rfl rfl, rfl⟩
  have hholds : x.Holds d7 := (h5.1.trans h6.1).trans h7.1
  have hq7 : (d7.win .im).queue = [] := by rw [Dev.win_congr (hholds.wins.trans hx'.1), hq4]
  have hnone : d7.completeWaiting .im 5 .ok [] = d7 := by
    unfold Dev.completeWaiting Dev.waitingCmd
    rw [hq7]
    simp
  rw [hnone]
  exact ⟨by rw [h7.2, h6.2, h5.2, hx'.2, hk4], bootStructured_holds hholds hs⟩

/-- A boot from flash reads the slot that the control block selects (R503); the block's update does not bear on the slot's regions. -/
theorem bootFlash_cases {d : Dev} (h : Boots d) (b : BootIn) : ∃ d1 : Dev, Boots d1 ∧
    (∀ x, loadFirmware d.mc.fuses ⟨d.mc.flash.cells, regionBase d.mc.flash.ruling.select.1.active 0, none, b.fwFault⟩ = .error x →
      d.bootFlash b = d1.bootFail x) ∧
    ∀ fw, loadFirmware d.mc.fuses ⟨d.mc.flash.cells, regionBase d.mc.flash.ruling.select.1.active 0, none, b.fwFault⟩ = .ok fw →
      d.bootFlash b = (d1.firmwareIn fw).bootImage (loadFull d.mc.fuses ⟨d.mc.flash.cells,
        regionBase d.mc.flash.ruling.select.1.active 1, none, b.imgFault⟩) b true := by
  rcases hsel : d.mc.flash.ruling.select with ⟨cb, back⟩
  have hw := d.mc.flash.writeCb_agree cb cb.active
  unfold Dev.bootFlash
  simp only [hsel]
  generalize hd1 : ((d.onFlash fun f => f.writeCb cb).onMc fun m =>
    { m with runSlot := cb.active, trial := cb.trial, rolledBack := back }) = d1
  have hfuses : d1.mc.fuses = d.mc.fuses := by simp only [← hd1, Dev.onFlash, Dev.onMc_mc]
  have hflash : d1.mc.flash = d.mc.flash.writeCb cb := by simp only [← hd1, Dev.onFlash, Dev.onMc_mc]
  rw [hfuses, hflash, loadFirmware_agree (hw 0), loadFull_agree (hw 1)]
  refine ⟨d1, h.of_control (by rw [← hd1]; simp), fun x hx => ?_, fun fw hfw => ?_⟩
  · rw [hx]
  · rw [hfw]

/-- Training succeeds where the HBM2E and every DDR5 channel train with the capacity of the image (R320). -/
theorem train_ok (d : Dev) (cap : Nat) (b : BootIn) : (d.train cap b).2 = true ↔
    b.hbm = 0 ∧ (List.range 4).all (fun i => (b.ddr.getD i ⟨1, 0, 0⟩).err == 0 && (b.ddr.getD i ⟨1, 0, 0⟩).cap == cap) := by
  have hch : ∀ x : DdrIn, ddrErr cap x = 0 ↔ x.err = 0 ∧ x.cap = cap := fun x => by
    unfold ddrErr
    split <;> [skip; split] <;> simp_all
  simp [Dev.train, hch]

/-- A checked image at a boot from flash (R320, R541): applied where the memories train. -/
theorem bootImage_trained {d : Dev} (h : Boots d) (m : Img) (str : Structure) (b : BootIn) (ht : (d.avsInit.train str.ddrGiB b).2 = true) :
    (d.bootImage (.ok (m, str)) b true).kicks = [] ∧ bootStructured (d.bootImage (.ok (m, str)) b true) := by
  have hd : d.bootImage (.ok (m, str)) b true = (d.avsInit.train str.ddrGiB b).1.applyImage m str true := by
    unfold Dev.bootImage
    dsimp only
    generalize d.avsInit.train str.ddrGiB b = p at ht
    obtain ⟨d', t⟩ := p
    cases ht
    rfl
  rw [hd]
  exact applyImage_structured (h.of_control (by simp)) m str

theorem bootImage_untrained {d : Dev} (h : Boots d) (m : Img) (str : Structure) (b : BootIn)
    (ht : (d.avsInit.train str.ddrGiB b).2 = false) : KicksIdle .im (d.bootImage (.ok (m, str)) b true) ∧
      bootFailed (0x0A, 0) (d.bootImage (.ok (m, str)) b true) := by
  have hd : d.bootImage (.ok (m, str)) b true = ((d.avsInit.train str.ddrGiB b).1.onRx RxState.forget).bootFail (0x0A, 0) := by
    unfold Dev.bootImage
    dsimp only
    generalize d.avsInit.train str.ddrGiB b = p at ht
    obtain ⟨d', t⟩ := p
    cases ht
    rfl
  rw [hd]
  have hrx : ∀ x : Dev, (x.onRx RxState.forget).control = x.control := fun x => Dev.onRx_control x fun _ => ⟨rfl, rfl⟩
  exact bootFail_failed (h.of_control (by rw [hrx]; simp)) _

/-- Settles O20: the boot ends in FAILED by an error, or in STRUCTURED after an image whose registers move no state. -/
theorem bootLoadAppliesTheImageOrFailsWithItsError : Obligations.BootLoadAppliesTheImageOrFailsWithItsError := by
  unfold Obligations.BootLoadAppliesTheImageOrFailsWithItsError
  intro s dt b e he hq hst hhalt hsrc hqueue hwait
  have hboots : Boots e := ⟨hst, hsrc, hq.1, hqueue⟩
  have hload : e.bootLoad b = e.bootFlash b := by
    have hnone : e.waitingCmd .im 5 = none := by
      unfold Dev.waitingCmd
      rw [hqueue]
      simp
    simp [Dev.bootLoad, hst, hhalt, hnone, hwait, hsrc]
  have hans : ∀ {P : Dev → Prop}, KicksIdle .im (e.bootFlash b) → (∀ d, (e.bootFlash b).Holds d → P d) → Answers (.bootLoad dt b) s P := by
    intro P hk hP
    subst he
    have hawake : (s.dev.elapse dt).awake = true := by simp [Dev.awake, hst]
    refine ⟨_, rfl, rfl, hP _ ?_⟩
    simp only [hawake, if_true, hload]
    exact settle_holds_idle s.dev (by decide) hk
  obtain ⟨d1, h1, herr, hok⟩ := bootFlash_cases hboots b
  have failed : ∀ {x : LoadErr}, KicksIdle .im (e.bootFlash b) ∧ bootFailed x (e.bootFlash b) → Answers (.bootLoad dt b) s (bootFailed x) :=
    fun h => hans h.1 fun d hd => bootFailed_holds hd h.2
  dsimp only
  split
  next x hx => exact failed (herr x hx ▸ bootFail_failed h1 x)
  next fw hfw =>
    have h2 : Boots (d1.firmwareIn fw) := h1.of_control (by simp)
    have himg := hok fw hfw
    split
    next x hx =>
      rw [hx] at himg
      exact failed (himg ▸ bootFail_failed h2 x)
    next m str hx =>
      rw [hx] at himg
      split
      next ht =>
        have h := bootImage_trained h2 m str b ((train_ok ..).mpr ht)
        rw [← himg] at h
        exact hans (Or.inl h.1) fun d hd => bootStructured_holds hd h.2
      next ht =>
        have h := bootImage_untrained h2 m str b (Bool.eq_false_iff.mpr fun hc => ht ((train_ok ..).mp hc))
        exact failed (himg ▸ h)

end Sys2Proof.Safety
end

section

namespace Sys2Proof.Machine

/-! What moves no state and no frame count (R47, R116): the course of the device. Commands of PX_CMD and TF_CMD may complete and run on
beside it. -/

/-- The window base is that of neither PX_CMD nor a TF_CMD. -/
def apart (k : Nat) : Bool := k != Win.px.base && !(List.range 8).any fun r => k == (Win.tf r).base

/-- Image and control, the boundary count, each tree's SFC, the window of IM_CMD, and the windows that wait to run on but for PX_CMD and
TF_CMD. -/
def Control.course (c : Control) : ImState × Nat × (Nat → Nat) × Window × List Nat :=
  (c.im, c.bnd, c.sfc, c.wins.getD Win.im.base Window.rest, c.kicks.filter apart)

@[simp] theorem course_ite (c : Prop) [Decidable c] (a b : Control) : (if c then a else b).course = if c then a.course else b.course :=
  apply_ite Control.course c a b

@[simp] theorem course_foldl {β : Type} {f : Dev → β → Dev} (h : ∀ d b, (f d b).control.course = d.control.course) (l : List β) (d : Dev) :
    (l.foldl f d).control.course = d.control.course := foldl_keeps (fun d : Dev => d.control.course) f h l d

@[simp] theorem course_upTo {f : Nat → Dev → Dev} (h : ∀ i d, (f i d).control.course = d.control.course) (n : Nat) (d : Dev) :
    (upTo n d f).control.course = d.control.course := upTo_keeps (fun d : Dev => d.control.course) n f h d

@[simp] theorem control_foldl_fst {β γ : Type} {f : Dev × γ → β → Dev × γ} (h : ∀ x b, (f x b).1.control = x.1.control) (l : List β)
    (x : Dev × γ) : (l.foldl f x).1.control = x.1.control := foldl_keeps (fun x : Dev × γ => x.1.control) f h l x

section

variable (d : Dev)

@[simp] theorem Dev.onTf_course (t : Nat) {f : TfTree → TfTree} (h : ∀ x, (f x).sfc = x.sfc) :
    (d.onTf t f).control.course = d.control.course := by
  have htf : ∀ u, ((d.onTf t f).tf u).sfc = (d.tf u).sfc := fun u => by
    simp only [Dev.tf, Dev.onTf, Dev.onRx_rx, Table.getD_put]
    split
    next hu => rw [h, hu]
    next => rfl
  simp only [Control.course, Dev.control, htf]
  rfl

/-- What a change of a tree makes of its SFC and of the value that it loads. -/
theorem Dev.onTf_control_eq (t : Nat) (f : TfTree → TfTree) : (d.onTf t f).control = { d.control with
    sfc := Function.update d.control.sfc t (f (d.tf t)).sfc, load := Function.update d.control.load t (f (d.tf t)).sfcLoad } := by
  have htf : ∀ u, ((d.onTf t f).tf u).sfc = Function.update (fun u => (d.tf u).sfc) t (f (d.tf t)).sfc u ∧
      ((d.onTf t f).tf u).sfcLoad = Function.update (fun u => (d.tf u).sfcLoad) t (f (d.tf t)).sfcLoad u := fun u => by
    simp only [Dev.tf, Dev.onTf, Dev.onRx_rx, Table.getD_put, Function.update_apply, eq_comm (a := u)]
    split <;> exact ⟨rfl, rfl⟩
  simp only [Dev.control, htf]
  rfl

theorem Dev.onTf_sfc_control (t n : Nat) : (d.onTf t fun x => { x with sfc := n }).control =
    { d.control with sfc := Function.update d.control.sfc t n } := by
  rw [Dev.onTf_control_eq]
  exact congrArg (fun l => { d.control with sfc := Function.update d.control.sfc t n, load := l }) (Function.update_eq_self t _)

theorem pull_sfc (x : TfTree) : x.pull.sfc = x.sfc ∧ x.pull.sfcLoad = x.sfcLoad := by
  unfold TfTree.pull
  extract_lets b x1
  split <;> exact ⟨rfl, rfl⟩

@[simp] theorem Dev.onPx_course (f : PxState → PxState) : (d.onPx f).control.course = d.control.course := rfl
@[simp] theorem Dev.onPt_course (t : Nat) (f : PxTree → PxTree) : (d.onPt t f).control.course = d.control.course := rfl

@[simp] theorem Dev.reportRefusal_control (w : Win) (a : Accepted) (st : Status) (obj : Nat) :
    (d.reportRefusal w a st obj).control = d.control := by
  cases st <;> simp [Dev.reportRefusal]

/-- A window of PX_CMD or a TF_CMD that waits to run on. -/
theorem kick_course {w : Win} (hk : apart w.base = false) (ks : List Nat) (h : ks = d.kicks ++ [w.base]) :
    { d with kicks := ks }.control.course = d.control.course := by
  subst h
  have hfilter : (d.kicks ++ [w.base]).filter apart = d.kicks.filter apart := by simp [hk]
  simp only [Control.course, Dev.control, hfilter]
  rfl

/-- Base addresses that belong to PX_CMD or a TF_CMD are not that of IM_CMD. -/
theorem base_ne_of_apart {w : Win} (hk : apart w.base = false) : Win.im.base ≠ w.base := fun h => by
  rw [← h] at hk
  exact absurd hk (by decide)

variable {w : Win} (hk : apart w.base = false) (a : Accepted) (op : Nat) (st : Status) (out : List (Nat × Nat)) (obj : Nat)

include hk

@[simp] theorem Dev.onWin_course (f : Window → Window) : (d.onWin w f).control.course = d.control.course := by
  have hwin : (d.onWin w f).win .im = d.win .im := Safety.win_onWin_ne d _ (base_ne_of_apart hk)
  simp only [Control.course, Prod.mk.injEq]
  exact ⟨rfl, rfl, rfl, hwin, rfl⟩

@[simp] theorem Dev.complete_course : (d.complete w a st out).control.course = d.control.course := Dev.onWin_course d hk _

@[simp] theorem Dev.completeWaiting_course : (d.completeWaiting w op st out).control.course = d.control.course := by
  unfold Dev.completeWaiting
  split
  · exact (kick_course (d.complete w _ st out) hk _ rfl).trans (d.complete_course hk _ _ _)
  · rfl

@[simp] theorem Dev.refuseWaiting_course : (d.refuseWaiting w op st obj).control.course = d.control.course := by
  unfold Dev.refuseWaiting
  split
  next a _ =>
    have hr : ((d.complete w a st []).reportRefusal w a st obj).kicks = d.kicks := by
      exact (congrArg Control.kicks (Dev.reportRefusal_control _ w a st obj)).trans rfl
    refine (kick_course ((d.complete w a st []).reportRefusal w a st obj) hk _ (by rw [hr])).trans ?_
    rw [Dev.reportRefusal_control]
    exact d.complete_course hk _ _ _
  next => rfl

end

end Sys2Proof.Machine
end

section

namespace Sys2Proof.Machine

section

variable (d : Dev)

@[simp] theorem Dev.onGs_control (t : Nat) (f : GsTree → GsTree) : (d.onGs t f).control = d.control := by simp [Dev.onGs]
@[simp] theorem Dev.rangeRequest_control (g : Nat) : (d.rangeRequest g).control = d.control := by simp [Dev.rangeRequest]
@[simp] theorem Dev.cancelWindows_control (t n : Nat) : (d.cancelWindows t n).control = d.control := by simp [Dev.cancelWindows]
@[simp] theorem Dev.quiesceTree_control (t : Nat) : (d.quiesceTree t).control = d.control := by simp [Dev.quiesceTree]
@[simp] theorem Dev.mateRejoins_control : (d.mateRejoins).control = d.control := by simp [Dev.mateRejoins]
@[simp] theorem Dev.pmAdd_control (r key i n : Nat) : (d.pmAdd r key i n).control = d.control := by simp [Dev.pmAdd]
@[simp] theorem Dev.pmTree_control (t i n : Nat) : (d.pmTree t i n).control = d.control := by simp [Dev.pmTree]
@[simp] theorem Dev.emit_control (t : Nat) (p : XPiece) : (d.emit t p).control = d.control := by simp [Dev.emit]
@[simp] theorem Dev.idleOut_control (t n : Nat) : (d.idleOut t n).control = d.control := by simp [Dev.idleOut]
@[simp] theorem Dev.frameEnd_control (t : Nat) : (d.frameEnd t).control = d.control := by simp [Dev.frameEnd]
@[simp] theorem Dev.pmBoundary_control (r : Nat) : (d.pmBoundary r).control = d.control := by simp [Dev.pmBoundary]
@[simp] theorem Dev.onProf_control (g : Nat) (f : BProf → BProf) : (d.onProf g f).control = d.control := by simp [Dev.onProf]
@[simp] theorem Dev.profClear_control (g : Nat) : (d.profClear g).control = d.control := by simp [Dev.profClear]
@[simp] theorem Dev.profsInvalid_control (t : Nat) : (d.profsInvalid t).control = d.control := by simp [Dev.profsInvalid]
@[simp] theorem Dev.onKey_control (n : Nat) (f : KeySlot → KeySlot) : (d.onKey n f).control = d.control := by simp [Dev.onKey]
@[simp] theorem Dev.keyEvt_control (kind n : Nat) : (d.keyEvt kind n).control = d.control := by simp [Dev.keyEvt]
@[simp] theorem Dev.keyFlag_control (bit' kind n : Nat) (fault : Bool) (fs : List (Nat × Nat)) : (d.keyFlag bit' kind n fault fs).control = d.control := by simp [Dev.keyFlag]
@[simp] theorem Dev.onPair_control (pr : Nat) (f : KeyPair → KeyPair) : (d.onPair pr f).control = d.control := by simp [Dev.onPair]
@[simp] theorem Dev.pxEvent_control (t : Nat) (r : CopyObj) : (d.pxEvent t r).control = d.control := by simp [Dev.pxEvent]
@[simp] theorem Dev.keyCopied_control (n : Nat) : (d.keyCopied n).control = d.control := by simp [Dev.keyCopied]
@[simp] theorem Dev.holdEdge_control (n : Nat) (was : Bool) : (d.holdEdge n was).control = d.control := by simp [Dev.holdEdge]
@[simp] theorem Dev.setKeyState_control (n : Nat) (st : KeyState) : (d.setKeyState n st).control = d.control := by simp [Dev.setKeyState]
@[simp] theorem Dev.keySpent_control (n : Nat) : (d.keySpent n).control = d.control := by simp [Dev.keySpent]
@[simp] theorem Dev.keyCharge_control (n blocks : Nat) : (d.keyCharge n blocks).control = d.control := by simp [Dev.keyCharge]
@[simp] theorem Dev.gainCounts_control (t frames : Nat) : (d.gainCounts t frames).control = d.control := by simp [Dev.gainCounts]
@[simp] theorem Dev.pmTerm_control (g i n : Nat) : (d.pmTerm g i n).control = d.control := by simp [Dev.pmTerm]
@[simp] theorem Dev.defectSeconds_control (t : Nat) : (d.defectSeconds t).control = d.control := by simp [Dev.defectSeconds]
@[simp] theorem Dev.defectEvent_control (t slot code : Nat) (set : Bool) (off : Int) : (d.defectEvent t slot code set off).control = d.control := by simp [Dev.defectEvent]
@[simp] theorem Dev.countRx_control (t o : Nat) : (d.countRx t o).control = d.control := by simp [Dev.countRx]
@[simp] theorem Dev.onTerm_control (g : Nat) (f : Term → Term) : (d.onTerm g f).control = d.control := by simp [Dev.onTerm]
@[simp] theorem Dev.keyEmpty_control (n : Nat) (evt : Bool) : (d.keyEmpty n evt).control = d.control := by simp [Dev.keyEmpty]
@[simp] theorem Dev.keysClear_control (g : Nat) : (d.keysClear g).control = d.control := by simp [Dev.keysClear]
@[simp] theorem Dev.rangeCancel_control (g : Nat) : (d.rangeCancel g).control = d.control := by simp [Dev.rangeCancel]
@[simp] theorem Dev.gsSlotReset_control (g : Nat) : (d.gsSlotReset g).control = d.control := by simp [Dev.gsSlotReset]
@[simp] theorem Dev.invalidate_control (g cause : Nat) : (d.invalidate g cause).control = d.control := by simp [Dev.invalidate]
@[simp] theorem Dev.slotMove_control (g row : Nat) (new : TermState) : (d.slotMove g row new).control = d.control := by simp [Dev.slotMove]
@[simp] theorem Dev.losReported_control (g : Nat) (set : Bool) : (d.losReported g set).control = d.control := by
  unfold Dev.losReported
  split <;> simp
@[simp] theorem Dev.hwPush_control (g kind value : Nat) : (d.hwPush g kind value).1.control = d.control := by simp [Dev.hwPush, apply_ite Prod.fst]
@[simp] theorem Dev.hwPushRetry_control (g kind : Nat) : (d.hwPushRetry g kind).control = d.control := by simp [Dev.hwPushRetry]
@[simp] theorem Dev.deactivate_control (g : Nat) : (d.deactivate g).control = d.control := by
  unfold Dev.deactivate
  split <;> simp
@[simp] theorem Dev.pswRequest_control (t : Nat) (slot : Option Nat) (code : Nat) : (d.pswRequest t slot code).control = d.control := by simp [Dev.pswRequest]
@[simp] theorem Dev.act_control (t : Nat) (slot : Option Nat) (code : Nat) (done : List Nat) : (d.act t slot code done).1.control = d.control := by
  unfold Dev.act
  extract_lets a act slots profs d1
  have h1 : d1.control = d.control := by simp [d1]
  split
  next d2 done2 h2 =>
    have h2' : d2.control = d1.control := by
      rw [show d2 = _ from (congrArg Prod.fst h2).symm, apply_ite Prod.fst]
      simp [apply_ite Prod.fst]
    simp [h2', h1]
@[simp] theorem Dev.reportOne_control (t : Nat) (slot : Option Nat) (code : Nat) (set : Bool) (off : Int) (done : List Nat) : (d.reportOne t slot code set off done).1.control = d.control := by
  unfold Dev.reportOne
  cases slot <;> simp [apply_ite Prod.fst]
@[simp] theorem Dev.reportTree_control (t : Nat) (codes : List Nat) : (d.reportTree t codes).1.control = d.control := by simp [Dev.reportTree, apply_ite Prod.fst]
@[simp] theorem Dev.sufDeclare_control (t : Nat) : (d.sufDeclare t).control = d.control := by simp [Dev.sufDeclare]
@[simp] theorem Dev.reportDefects_control (t : Nat) : (d.reportDefects t).control = d.control := by
  unfold Dev.reportDefects
  extract_lets d0 p los q
  have hp : p.1.control = d.control := by simp [p, d0]
  refine (control_foldl_fst (fun x kv => ?_) _ p).trans hp
  extract_lets s x1
  have h1 : x1.1.control = x.1.control := by
    refine control_foldl_fst (fun x code => ?_) _ x
    split
    · rfl
    · split
      · rfl
      · simp
  split
  · exact h1
  · split
    · simp [h1]
    · exact h1
@[simp] theorem Dev.setSuspect_control (t : Nat) : (d.setSuspect t).control = d.control := by simp [Dev.setSuspect]
@[simp] theorem Dev.rogueFrame_control (t frame : Nat) (names : List Nat) : (d.rogueFrame t frame names).control = d.control := by
  unfold Dev.rogueFrame
  extract_lets d1 run n d2 d3
  have h1 : d1.control = d.control := by simp [d1, Dev.onRg]
  split
  · split
    · simp [d2, h1, Dev.onRg]
    · split <;> simp [h1]
  · split
    · simp [d3, h1, Dev.onRg]
    · exact h1
@[simp] theorem Dev.evalAcc_control (t : Nat) (a : FrameAcc) : (d.evalAcc t a).control = d.control := by
  unfold Dev.evalAcc
  extract_lets d0 d1 d2 n d3 d4
  have h2 : d2.control = d.control := by simp [d2, d1, d0]
  have h4 : d4.control = d.control := by
    refine (Dev.onTf_control _ _ fun x => ?_).trans ?_
    · split
      · exact ⟨rfl, rfl⟩
      · split <;> exact ⟨rfl, rfl⟩
    · simp [d3, h2]
  refine (control_foldl (fun d s => ?_) _ d4).trans h4
  extract_lets g x
  split
  · split <;> simp
  · rfl
@[simp] theorem Dev.evaluate_control (t : Nat) : (d.evaluate t).control = d.control := by simp [Dev.evaluate]
@[simp] theorem Dev.ptResume_control (t : Nat) : (d.ptResume t).control = d.control := by
  unfold Dev.ptResume
  split <;> simp
@[simp] theorem Dev.ponidStep_control (t : Nat) : (d.ponidStep t).control = d.control := by
  unfold Dev.ponidStep
  split <;> simp
@[simp] theorem Dev.keysVoid_control (t old new : Nat) : (d.keysVoid t old new).control = d.control := by simp [Dev.keysVoid]
@[simp] theorem Dev.todcapCancel_control (p : TodTarget → Bool) : (d.todcapCancel p).control = d.control := by simp [Dev.todcapCancel]
@[simp] theorem Dev.loadCancels_control (t : Nat) : (d.loadCancels t).control = d.control := by simp [Dev.loadCancels]
@[simp] theorem Dev.applyRec_course (ahead : Option Nat) (only : Nat → Bool) (r : CopyRec) : (d.applyRec ahead only r).control.course = d.control.course := by
  cases r with
  | tree t s seq sfc => cases ahead <;> simp [Dev.applyRec]
  | _ => simp [Dev.applyRec]
@[simp] theorem Dev.applyRecs_course (ahead : Option Nat) (only : Nat → Bool) (rs : List CopyRec) : (d.applyRecs ahead only rs).control.course = d.control.course := by simp [Dev.applyRecs]
@[simp] theorem Dev.setCopyState_control (s : Nat) : (d.setCopyState s).control = d.control := by simp [Dev.setCopyState]
@[simp] theorem Dev.copyApply_course : (d.copyApply).control.course = d.control.course := by
  unfold Dev.copyApply
  split <;> simp
@[simp] theorem Dev.pxCount_control (t : Nat) : (d.pxCount t).control = d.control := by simp [Dev.pxCount]
@[simp] theorem Dev.mateAdvance_control : (d.mateAdvance).control = d.control := by simp [Dev.mateAdvance]
@[simp] theorem Dev.cellPartOut_control (kind t sfc part parts : Nat) (content : List Byte) : (d.cellPartOut kind t sfc part parts content).control = d.control := by simp [Dev.cellPartOut]
@[simp] theorem Dev.cellOut_control (kind t sfc : Nat) (content : List Byte) : (d.cellOut kind t sfc content).control = d.control := by simp [Dev.cellOut]
@[simp] theorem Dev.commitSwitch_control (t cause : Nat) : (d.commitSwitch t cause).control = d.control := by simp [Dev.commitSwitch]
@[simp] theorem Dev.pswDenied_control (t cause : Nat) : (d.pswDenied t cause).control = d.control := by simp [Dev.pswDenied]
@[simp] theorem Dev.switchRequest_control (t cause : Nat) : (d.switchRequest t cause).1.control = d.control := by
  unfold Dev.switchRequest
  dsimp only
  split <;> simp [apply_ite Prod.fst]
@[simp] theorem Dev.pswStep_control (t : Nat) : (d.pswStep t).control = d.control := by
  unfold Dev.pswStep
  split <;> simp
@[simp] theorem Dev.pxRefusals_course (t : Nat) : (d.pxRefusals t).control.course = d.control.course := by
  unfold Dev.pxRefusals
  extract_lets x refuse quiet
  have hr : ∀ (y : Dev) (op : Nat) (c : Bool), (refuse y op c).control.course = y.control.course := fun y op c => by
    simp only [refuse]
    split
    · split
      · exact Dev.refuseWaiting_course y (by decide) ..
      · rfl
    · rfl
  rw [Dev.onPt_course, hr, hr]
@[simp] theorem Dev.flushTree_control (t : Nat) : (d.flushTree t).control = d.control := by simp [Dev.flushTree]
@[simp] theorem Dev.freeSlots_control (t : Nat) : (d.freeSlots t).control = d.control := by simp [Dev.freeSlots]
@[simp] theorem Dev.treeOffSlots_control (t : Nat) : (d.treeOffSlots t).control = d.control := by
  refine control_foldl (fun d kv => ?_) _ d
  split <;> simp
@[simp] theorem Dev.enterOff_control (t : Nat) : (d.enterOff t).control = d.control := by simp [Dev.enterOff]
@[simp] theorem Dev.treeTo_control (t : Nat) (new : TreeState) : (d.treeTo t new).control = d.control := by simp [Dev.treeTo]
@[simp] theorem Dev.enterHot_control (t : Nat) : (d.enterHot t).control = d.control := by simp [Dev.enterHot]
@[simp] theorem Dev.resyncReq_control : (d.resyncReq).control = d.control := by simp [Dev.resyncReq]
@[simp] theorem Dev.pxTo_course (t : Nat) (new : PxTreeState) (cause : Nat) : (d.pxTo t new cause).control.course = d.control.course := by
  unfold Dev.pxTo
  extract_lets old act warm d0 d1 d2 d3 d4 d5 d6 d7 d8 d9 ends
  split
  · rfl
  · have hends : ∀ (y : Dev) (op : Nat) (ok bad : Bool), (ends y op ok bad).control.course = y.control.course := fun y op ok bad => by
      simp only [ends]
      split
      · simp only [apply_ite Dev.control, course_ite, Dev.completeWaiting_course y (show apart Win.px.base = false by decide),
          Dev.refuseWaiting_course y (show apart Win.px.base = false by decide), ite_self]
      · rfl
    have h2 : d2.control = d.control := by simp [d2, d1, d0]
    have h4 : d4.control = d.control := by simp [d4, d3, h2]
    have h9 : d9.control.course = d.control.course := by simp [d9, d8, d7, d6, d5, h4]
    rw [hends, hends, h9]
@[simp] theorem Dev.standdown_course (t : Nat) : (d.standdown t).control.course = d.control.course := by simp [Dev.standdown]
@[simp] theorem Dev.pxStep_course (t : Nat) : (d.pxStep t).control.course = d.control.course := by
  unfold Dev.pxStep
  extract_lets x fit fresh prim e
  have he : e.control.course = d.control.course := Dev.pxRefusals_course d t
  split
  · simp [he]
  · split
    · split
      · split
        · exact he
        · split
          · simp [he]
          · exact (Dev.refuseWaiting_course e (by decide) ..).trans he
      · exact he
    · simp [he]
    · simp +zetaDelta [he]
    · simp [he]
@[simp] theorem Dev.needSend_control (t : Nat) : (d.needSend t).control = d.control := by simp [Dev.needSend]
@[simp] theorem Dev.openAcc_control (t : Nat) (m : GMap) : (d.openAcc t m).control = d.control := by simp [Dev.openAcc]
@[simp] theorem Dev.standbyMap_control (t : Nat) : (d.standbyMap t).control = d.control := by
  unfold Dev.standbyMap
  split
  · simp
  · split <;> simp
@[simp] theorem Dev.resyncStop_course : (d.resyncStop).control.course = d.control.course := by
  unfold Dev.resyncStop
  split
  · exact Dev.refuseWaiting_course _ (by decide) ..
  · rfl
@[simp] theorem Dev.seamStall_control (e before after : Nat) : (d.seamStall e before after).control = d.control := by simp [Dev.seamStall]
@[simp] theorem Dev.copySend_course : (d.copySend).control.course = d.control.course := by
  unfold Dev.copySend
  extract_lets ts c starts d1 gs changed per room ev left ps inPass ends f n d2 held
  split
  · rfl
  · have h1 : d1.control.course = d.control.course := by
      simp only [d1]
      split
      · exact (Dev.completeWaiting_course _ (by decide) ..).trans (Dev.onPx_course ..)
      · rfl
    simp [d2, h1]
@[simp] theorem Dev.cellsOut_control (kind t sfc flags n : Nat) (content : List Byte) : (d.cellsOut kind t sfc flags n content).control = d.control := by simp [Dev.cellsOut]
@[simp] theorem Dev.recordsOut_control : (d.recordsOut).control = d.control := by simp [Dev.recordsOut]
@[simp] theorem Dev.pxBoundary_course : (d.pxBoundary).control.course = d.control.course := by
  unfold Dev.pxBoundary
  split
  · rfl
  · extract_lets ts s newS d0 d1 d2 d3 d4 d5 due d6 d7
    have h3 : d3.control.course = d.control.course := by simp [d3, d2, d1, d0]
    have h5 : d5.control.course = d.control.course := by simp [d5, d4, h3]
    have h7 : d7.control.course = d.control.course := by simp [d7, d6, h5]
    simp [h7]
theorem apart_tf {r : Nat} (hr : r < 8) : apart (Win.tf r).base = false := by
  simp only [apart, Bool.and_eq_false_iff, Bool.not_eq_false', List.any_eq_true, List.mem_range, beq_iff_eq]
  exact Or.inr ⟨r, hr, rfl⟩
theorem Dev.tfCmdStep_course {r : Nat} (hr : r < 8) : (d.tfCmdStep r).control.course = d.control.course := by
  unfold Dev.tfCmdStep
  extract_lets go d1 d2 d3
  have hgo : ∀ (y : Dev) (op : Nat) (f : Dev → Nat → Dev), (∀ z t, (f z t).control = z.control) →
      (go y op f).control.course = y.control.course := fun y op f hf => by
    simp only [go]
    split
    · rw [Dev.completeWaiting_course _ (apart_tf hr), apply_ite Dev.control, hf, ite_self]
    · rfl
  have h1 : d1.control.course = d.control.course := hgo d 1 (fun d t => d.treeTo t .off) fun z t => Dev.treeTo_control ..
  have h2 : d2.control.course = d1.control.course := hgo d1 2 (fun d t => d.treeTo t .standby) fun z t => Dev.treeTo_control ..
  have h3 : d3.control.course = d2.control.course := hgo d2 3 (fun d t => d.treeTo t .active) fun z t => Dev.treeTo_control ..
  exact (hgo d3 4 (fun d _ => d) fun z t => rfl).trans (h3.trans (h2.trans h1))
@[simp] theorem Dev.switchDropped_control (n : Nat) : (d.switchDropped n).control = d.control := by simp [Dev.switchDropped]
@[simp] theorem Dev.keySwitchTo_control (pr i : Nat) (held : Bool) : (d.keySwitchTo pr i held).control = d.control := by
  unfold Dev.keySwitchTo
  dsimp only
  split
  · simp
  · split <;> simp
@[simp] theorem Dev.keySwitch_control (pr i : Nat) : (d.keySwitch pr i).control = d.control := by simp [Dev.keySwitch]
@[simp] theorem Dev.keyOutlived_control (n : Nat) : (d.keyOutlived n).control = d.control := by simp [Dev.keyOutlived]
@[simp] theorem Dev.pairBoundary_keep_control (pr i at_ : Nat) : (Dev.pairBoundary.keep pr d i at_).control = d.control := by
  simp [Dev.pairBoundary.keep]
@[simp] theorem Dev.pairBoundary_due_control (pr sfc : Nat) : (Dev.pairBoundary.due pr sfc d).control = d.control := by
  unfold Dev.pairBoundary.due
  extract_lets p auto
  split <;> simp
@[simp] theorem Dev.pairBoundary_control (pr sfc : Nat) : (d.pairBoundary pr sfc).control = d.control := by
  unfold Dev.pairBoundary
  split
  · simp
  · extract_lets n e k p x
    have he : e.control = d.control := by simp [e]
    split
    · split
      · have hx : x.control = d.control := by simp [x, he]
        split
        · split <;> simp [hx]
        · exact hx
      · simp [he]
    · simp [he]
@[simp] theorem Dev.keyCutStep_control (pr sfc : Nat) : (d.keyCutStep pr sfc).control = d.control := by
  unfold Dev.keyCutStep
  split <;> simp
@[simp] theorem Dev.keysBoundary_control (t : Nat) : (d.keysBoundary t).control = d.control := by simp [Dev.keysBoundary]
@[simp] theorem Dev.takeoverStep_control (t : Nat) : (d.takeoverStep t).control = d.control := by simp [Dev.takeoverStep]
@[simp] theorem Dev.slotFrames_control (t : Nat) : (d.slotFrames t).control = d.control := by simp [Dev.slotFrames]
@[simp] theorem Dev.hwRetries_control (t : Nat) : (d.hwRetries t).control = d.control := by simp [Dev.hwRetries]
@[simp] theorem Dev.replayRuns_control (t n : Nat) (m : GMap) : (d.replayRuns t n m).control = d.control := by simp [Dev.replayRuns]
@[simp] theorem Dev.onCoop_control (r : Nat) (f : CoopState → CoopState) : (d.onCoop r f).control = d.control := by simp [Dev.onCoop]
@[simp] theorem Dev.coopAdvance_control (r : Nat) : (d.coopAdvance r).control = d.control := by simp [Dev.coopAdvance]
@[simp] theorem Dev.coopFinal_control (r idx status reason placed missed last : Nat) : (d.coopFinal r idx status reason placed missed last).control = d.control := by simp [Dev.coopFinal]
@[simp] theorem Dev.coopStep_control (r : Nat) (c : Coop) (start : Option Nat) : (d.coopStep r c start).control = d.control := by simp [Dev.coopStep]
@[simp] theorem Dev.coopPast_control (t n : Nat) : (d.coopPast t n).control = d.control := by
  refine control_foldl (fun d c => ?_) _ d
  refine control_upTo (fun i d => ?_) _ d
  split <;> simp
@[simp] theorem Dev.mapDeadline_control (t : Nat) : (d.mapDeadline t).control = d.control := by simp [Dev.mapDeadline]
@[simp] theorem Dev.mapStatus_control (t : Nat) (m : GMap) : (d.mapStatus t m).control = d.control := by simp [Dev.mapStatus]
@[simp] theorem Dev.mapSend_control (t : Nat) (m : GMap) : (d.mapSend t m).control = d.control := by simp [Dev.mapSend]
@[simp] theorem Dev.resWrite_control (p : Nat → Bool) : (d.resWrite p).control = d.control := by
  unfold Dev.resWrite
  split <;> simp
@[simp] theorem Dev.binEnd_control (t : Nat) (day : Bool) : (d.binEnd t day).control = d.control := by simp [Dev.binEnd]
@[simp] theorem Dev.binsMove_control (t : Nat) : (d.binsMove t).control = d.control := by simp [Dev.binsMove]
@[simp] theorem Dev.hwSent_control (t : Nat) (m : HwMsg) : (d.hwSent t m).control = d.control := by
  unfold Dev.hwSent
  dsimp only
  split
  · simp
  · split <;> simp
@[simp] theorem Dev.takePloam_control (t : Nat) : (d.takePloam t).1.control = d.control := by simp [Dev.takePloam]
@[simp] theorem Dev.xgemSent_control (t port : Nat) : (d.xgemSent t port).control = d.control := by
  unfold Dev.xgemSent
  split <;> simp
@[simp] theorem Dev.keyMark_control (n sfc : Nat) : (d.keyMark n sfc).control = d.control := by simp [Dev.keyMark]
@[simp] theorem Dev.xgemOut_control (t : Nat) (b : List Byte) (p : DsPkt) (last : Bool) : (d.xgemOut t b p last).control = d.control := by
  unfold Dev.xgemOut
  split <;> simp
@[simp] theorem Dev.fill_control (t : Nat) (n0 : Nat) : (d.fill t n0).control = d.control := by
  induction n0 generalizing d with
  | zero => rfl
  | succ k ih =>
    rw [Dev.fill]
    split
    · rfl
    · extract_lets r
      split
      · rfl
      · split
        refine (ih _).trans ((Dev.onTf_control _ _ ?_).trans ?_)
        · exact fun y => pull_sfc _
        · simp +zetaDelta only [Dev.idleOut_control, control_ite, Dev.xgemOut_control, ite_self]
@[simp] theorem Dev.dsFrame_control (t : Nat) (m : GMap) : (d.dsFrame t m).control = d.control := by simp [Dev.dsFrame]
/-- The deadline of a map may fall due with the boundary's SFC still to come. -/
@[simp] theorem Dev.mapDeadline_before_control (t : Nat) : (((d.onTf t fun x => { x with sfc := d.sfc t - 1 }).mapDeadline t).onTf t
    fun x => { x with sfc := d.sfc t }).control = d.control := by
  rw [Dev.onTf_sfc_control, Dev.mapDeadline_control, Dev.onTf_sfc_control]
  simp only [Function.update_idem]
  exact congrArg (fun s => { d.control with sfc := s }) (Function.update_eq_self t _)
@[simp] theorem Dev.treeAfter_control (t : Nat) : (d.treeAfter t).control = d.control := by
  unfold Dev.treeAfter
  extract_lets d1 d2 n d3 m d4
  have h1 : d1.control = d.control := by simp [d1]
  split
  · exact h1
  · have h2 : d2.control = d.control := by simp [d2, h1]
    have h3 : d3.control = d.control := by simp [d3, n, h2]
    simp [d4, h3]
@[simp] theorem Dev.phaseMeasure_control : (d.phaseMeasure).control = d.control := by simp [Dev.phaseMeasure]
@[simp] theorem Dev.todcapStep_control : (d.todcapStep).control = d.control := by simp [Dev.todcapStep]
@[simp] theorem Dev.pmStart_control (r : Nat) : (d.pmStart r).control = d.control := by simp [Dev.pmStart]
@[simp] theorem Dev.laneLock_control (k : LaneKind) (i : Nat) : (d.laneLock k i).control = d.control := by simp [Dev.laneLock]
@[simp] theorem Dev.pxReach_course (r : Nat) (lit : Bool) : (d.pxReach r lit).control.course = d.control.course := by simp [Dev.pxReach]
@[simp] theorem Dev.pmDiscard_control (r : Nat) : (d.pmDiscard r).control = d.control := by simp [Dev.pmDiscard]
@[simp] theorem Dev.laneDark_control (t : Nat) : (d.laneDark t).control = d.control := by simp [Dev.laneDark]

end

end Sys2Proof.Machine
end

section

namespace Sys2Proof.Machine

/-! ### Commands of PX_CMD and TF_CMD (R149, R469) move no state and no frame count -/

/-- The device that a command leaves. -/
def CmdRes.after (d : Dev) : CmdRes → Dev
  | .refuse _ _ => d
  | .refuseAt x _ _ | .done x _ _ | .wait x | .reset x => x

@[simp] theorem after_ite (d : Dev) (c : Prop) [Decidable c] (a b : CmdRes) :
    (if c then a else b).after d = if c then a.after d else b.after d := apply_ite (CmdRes.after d) c a b

@[simp] theorem after_refuse (d : Dev) (st : Status) (obj : Nat) : (CmdRes.refuse st obj).after d = d := rfl
@[simp] theorem after_refuseAt (d x : Dev) (st : Status) (obj : Nat) : (CmdRes.refuseAt x st obj).after d = x := rfl
@[simp] theorem after_done (d x : Dev) (st : Status) (out : List (Nat × Nat)) : (CmdRes.done x st out).after d = x := rfl
@[simp] theorem after_wait (d x : Dev) : (CmdRes.wait x).after d = x := rfl
@[simp] theorem after_reset (d x : Dev) : (CmdRes.reset x).after d = x := rfl

section

variable (d : Dev) (r : Nat) (a : Accepted)

theorem tfTree_control {k : Nat → CmdRes} (h : ∀ t, ((k t).after d).control = d.control) : ((d.tfTree r a k).after d).control = d.control := by
  simp [Dev.tfTree, h]

theorem tfTerm_control {k : Nat → CmdRes} (h : ∀ g, ((k g).after d).control = d.control) : ((d.tfTerm r a k).after d).control = d.control := by
  simp [Dev.tfTerm, h]

theorem pmObj_control {k : Nat → CmdRes} (h : ∀ n, ((k n).after d).control = d.control) : ((d.pmObj r a k).after d).control = d.control := by
  simp [Dev.pmObj, tfTree_control d r a fun _ => h _, tfTerm_control d r a fun _ => h _]

theorem opTreeState_control (from_ : List TreeState) (prot : Bool) : ((opTreeState r from_ prot a d).after d).control = d.control :=
  tfTree_control d r a fun t => by simp

@[simp] theorem Dev.resRead_control (c source : Nat) : (d.resRead c source).1.control = d.control := by
  simp [Dev.resRead, apply_ite Prod.fst]

theorem opPmRead_control : ((opPmRead r a d).after d).control = d.control :=
  pmObj_control d r a fun key => by
    extract_lets bin part
    split
    · rfl
    · split
      · rfl
      · split
        · rfl
        · split
          · have hr := fun c => d.resRead_control c 5
            split <;> next c _ _ _ hc => simpa [hc] using hr c
          · rfl

theorem tfCmd_control : ((tfCmd r a d).after d).control = d.control := by
  unfold tfCmd
  split
  · exact opTreeState_control ..
  · exact opTreeState_control ..
  · exact opTreeState_control ..
  · exact tfTree_control d r a fun t => by simp
  · exact tfTerm_control d r a fun g => rfl
  · exact opPmRead_control ..
  · exact pmObj_control d r a fun key => by simp [Dev.pmReset]
  · exact tfTree_control d r a fun t => by simp
  · exact tfTree_control d r a fun t => by simp
  · exact tfTree_control d r a fun t => by
      dsimp only
      split <;> rfl
  · rfl

theorem pxTreeCmd_control {k : Nat → CmdRes} (h : ∀ t, ((k t).after d).control = d.control) : ((d.pxTreeCmd a k).after d).control = d.control := by
  simp [Dev.pxTreeCmd, h]

theorem pxCmd_control : ((pxCmd a d).after d).control = d.control := by
  unfold pxCmd
  split
  · exact pxTreeCmd_control d a fun t => by simp
  · exact pxTreeCmd_control d a fun t => by simp
  · exact pxTreeCmd_control d a fun t => by simp
  · exact pxTreeCmd_control d a fun t => by simp
  · simp [opResync]
  · simp [opPairKey]
  · simp [opPairKeyClear]
  · rfl

end

/-! ### The windows that run on behind a boundary (R56) -/

theorem finish_course (d : Dev) {w : Win} (hk : apart w.base = false) (a : Accepted) (res : CmdRes) :
    (d.finish w a res).control.course = (res.after d).control.course := by
  cases res with
  | refuse st obj => simp [Dev.finish, Dev.complete_course d hk]
  | refuseAt x st obj => simp [Dev.finish, Dev.complete_course x hk]
  | done x st out => simp [Dev.finish, Dev.complete_course x hk]
  | wait x => exact Dev.onWin_course x hk _
  | reset x => rfl

theorem runWin_course {w : Win} (hk : apart w.base = false) (h : ∀ (a : Accepted) (d : Dev), ((runOp false w a d).after d).control = d.control)
    (n : Nat) (d : Dev) : (d.runWin false n w).control.course = d.control.course := by
  induction n generalizing d with
  | zero => rfl
  | succ n ih =>
    rw [Dev.runWin]
    split
    · rfl
    · split
      · rfl
      · rw [ih, finish_course d hk, h]

/-- A window base that is not apart is that of PX_CMD or a TF_CMD. -/
theorem not_apart {k : Nat} (h : apart k = false) : k = Win.px.base ∨ ∃ r < 8, k = (Win.tf r).base := by
  simpa [apart, or_iff_not_imp_left] using h

/-- A window of PX_CMD or a TF_CMD runs on. -/
theorem runLocal_course {k : Nat} (h : apart k = false) : ∃ w, Win.ofBase k = some w ∧
    ∀ (n : Nat) (d : Dev), (d.runWin false n w).control.course = d.control.course := by
  obtain rfl | ⟨r, hr, rfl⟩ := not_apart h
  · exact ⟨.px, by decide, runWin_course h fun a d => pxCmd_control d a⟩
  · exact ⟨.tf r, by interval_cases r <;> decide, runWin_course h fun a d => tfCmd_control d r a⟩

end Sys2Proof.Machine
end

section

namespace Sys2Proof.Machine

/-! ### IM_CMD keeps the frame counts, the warm reset among its commands (R116, R450) -/

/-- The frame counts stand, and no window but those of PX_CMD and the TF_CMDs is newly set to run on. -/
structure Dev.Frames (d d' : Dev) : Prop where
  bnd : d'.rx.bnd = d.rx.bnd
  sfc : ∀ t, (d'.tf t).sfc = (d.tf t).sfc
  kicks : ∀ k ∈ d'.kicks, apart k = true → k ∈ d.kicks

theorem Dev.Frames.refl (d : Dev) : d.Frames d := ⟨rfl, fun _ => rfl, fun _ hk _ => hk⟩

theorem Dev.Frames.trans {a b c : Dev} (h : a.Frames b) (k : b.Frames c) : a.Frames c :=
  ⟨k.bnd.trans h.bnd, fun t => (k.sfc t).trans (h.sfc t), fun n hn ha => h.kicks n (k.kicks n hn ha) ha⟩

theorem Dev.Frames.of_course {d d' : Dev} (h : d'.control.course = d.control.course) : d.Frames d' := by
  simp only [Control.course, Dev.control, Prod.mk.injEq] at h
  obtain ⟨-, hbnd, hsfc, -, hk⟩ := h
  refine ⟨hbnd, congrFun hsfc, fun k hm ha => ?_⟩
  have hf : k ∈ d'.kicks.filter apart := List.mem_filter.mpr ⟨hm, ha⟩
  rw [hk] at hf
  exact (List.mem_filter.mp hf).1

theorem Dev.Frames.of_control {d d' : Dev} (h : d'.control = d.control) : d.Frames d' := Dev.Frames.of_course (congrArg Control.course h)

/-- A change of image and control. -/
theorem Dev.Frames.onIm (d : Dev) (f : ImState → ImState) : d.Frames (d.onIm f) := ⟨rfl, fun _ => rfl, fun _ hk _ => hk⟩

theorem Dev.Frames.onReach (d : Dev) (r : Nat) (f : Reach → Reach) : d.Frames (d.onReach r f) := Dev.Frames.onIm d _

theorem Dev.warmReset_frames (d : Dev) : d.Frames d.warmReset := by
  unfold Dev.warmReset
  split
  · exact Dev.Frames.refl d
  · refine ⟨rfl, fun t => ?_, fun k hk => absurd hk (List.not_mem_nil)⟩
    have hrx : ∀ x : RxState, (x.warm.tf.getD t TfTree.rest).sfc = (x.tf.getD t TfTree.rest).sfc := fun x => by
      rw [RxState.warm, Table.getD_mapPut, Table.getD]
      cases x.tf.get? t <;> rfl
    exact hrx d.rx

theorem Dev.Frames.ite {d a b : Dev} {c : Prop} [Decidable c] (h : d.Frames a) (k : d.Frames b) : d.Frames (if c then a else b) := by
  split
  · exact h
  · exact k

theorem imObj0_frames {a : Accepted} {d : Dev} {k : CmdRes} (h : d.Frames (k.after d)) : d.Frames ((imObj0 a d k).after d) := by
  unfold imObj0
  simp only [after_ite, after_refuse]
  exact (Dev.Frames.refl d).ite ((Dev.Frames.refl d).ite h)

theorem imWait_frames (st : DevState) {f : Dev → Dev} (a : Accepted) {d : Dev} (h : (f d).control = d.control) :
    d.Frames ((imWait st f a d).after d) := by
  refine imObj0_frames ?_
  simp only [after_ite, after_wait, after_refuse]
  exact (Dev.Frames.of_control h).ite (Dev.Frames.refl d)

theorem imReach_frames (a : Accepted) {d : Dev} {k : Nat → CmdRes} (h : ∀ r, d.Frames ((k r).after d)) :
    d.Frames ((imReach a d k).after d) := by
  unfold imReach
  simp only [after_ite, after_refuse]
  exact (Dev.Frames.refl d).ite ((Dev.Frames.refl d).ite (h _))

theorem imCmd_frames (a : Accepted) (d : Dev) : d.Frames ((imCmd a d).after d) := by
  unfold imCmd
  split
  · exact imWait_frames _ a (Dev.onTb_control _ _)
  · exact imWait_frames _ a rfl
  · exact imWait_frames _ a rfl
  · refine imObj0_frames ?_
    simp only [after_ite, after_refuse, after_reset]
    exact (Dev.Frames.refl d).ite d.warmReset_frames
  · refine imObj0_frames ?_
    simp only [after_ite, after_refuse, after_wait]
    exact (Dev.Frames.of_control (by simp)).ite (Dev.Frames.refl d)
  · refine imReach_frames a fun r => ?_
    simp only [after_ite, after_refuse, after_done]
    exact (Dev.Frames.refl d).ite ((Dev.Frames.refl d).ite
      (((Dev.Frames.onReach d r _).trans (Dev.Frames.onIm _ _)).trans (Dev.Frames.of_control (Dev.raise_control ..))))
  · refine imReach_frames a fun r => ?_
    simp only [after_ite, after_refuse, after_done]
    exact (Dev.Frames.refl d).ite (Dev.Frames.onReach d r _)
  · refine imReach_frames a fun r => ?_
    simp only [after_ite, after_refuse, after_done]
    have h := Dev.Frames.onReach d r fun x => { x with darkenIn := some 0 }
    exact (Dev.Frames.refl d).ite (h.trans (Dev.Frames.of_control (by simp [Dev.pxDarken])))
  · exact Dev.Frames.refl d

theorem finish_frames {d0 : Dev} (d : Dev) (w : Win) (a : Accepted) {res : CmdRes} (h : d0.Frames (res.after d)) :
    d0.Frames (d.finish w a res) := by
  have hwin : ∀ (x : Dev) (f : Window → Window), x.Frames (x.onWin w f) := fun x f => ⟨rfl, fun _ => rfl, fun _ hk _ => hk⟩
  have hrep : ∀ (x : Dev) (st : Status) (obj : Nat), x.Frames (x.reportRefusal w a st obj) := fun x st obj =>
    Dev.Frames.of_control (Dev.reportRefusal_control x w a st obj)
  cases res with
  | refuse st obj => exact h.trans ((hwin _ _).trans (hrep _ _ _))
  | refuseAt x st obj => exact h.trans ((hwin _ _).trans (hrep _ _ _))
  | done x st out => exact h.trans ((hwin _ _).trans (hrep _ _ _))
  | wait x => exact h.trans (hwin x fun y => { y with waiting := true })
  | reset x => exact h

theorem runIm_frames (n : Nat) (d : Dev) : d.Frames (d.runWin false n .im) := by
  induction n generalizing d with
  | zero => exact Dev.Frames.refl d
  | succ n ih =>
    rw [Dev.runWin]
    split
    · exact Dev.Frames.refl d
    · split
      · exact Dev.Frames.refl d
      · exact (finish_frames d .im _ (imCmd_frames _ d)).trans (ih _)

/-! ### The windows that a boundary sets free run on (R56) -/

/-- Beside windows of PX_CMD and the TF_CMDs only IM_CMD runs on. -/
def Dev.KicksNear (d : Dev) : Prop := ∀ k ∈ d.kicks, apart k = true → k = Win.im.base

theorem Dev.Frames.near {d d' : Dev} (h : d.Frames d') (hd : d.KicksNear) : d'.KicksNear := fun k hk ha => hd k (h.kicks k hk ha) ha

/-- Whatever runs on, no boundary is counted and no SFC moves. -/
theorem runKicks_frames (n : Nat) {d : Dev} (hd : d.KicksNear) : d.Frames (d.runKicks n) := by
  induction n generalizing d with
  | zero => exact ⟨rfl, fun _ => rfl, fun _ hk => absurd hk List.not_mem_nil⟩
  | succ n ih =>
    rw [Dev.runKicks]
    split
    · exact Dev.Frames.refl d
    · next k ks hks =>
      have h0 : d.Frames { d with kicks := ks } := ⟨rfl, fun _ => rfl, fun j hj _ => by rw [hks]; exact List.mem_cons_of_mem _ hj⟩
      have step : ∀ {x : Dev}, Dev.Frames { d with kicks := ks } x → d.Frames (x.runKicks n) := fun h =>
        (h0.trans h).trans (ih ((h0.trans h).near hd))
      by_cases hk : apart k = true
      · obtain rfl : k = Win.im.base := hd k (by rw [hks]; exact List.mem_cons_self ..) hk
        rw [show Win.ofBase Win.im.base = some .im from by decide]
        exact step (runIm_frames _ _)
      · obtain ⟨w, hw, hrun⟩ := runLocal_course (Bool.eq_false_iff.mpr hk)
        rw [hw]
        exact step (Dev.Frames.of_course (hrun _ _))

/-- IM_CMD does not run on, or has no command left. -/
def Dev.ImIdle (d : Dev) : Prop := d.KicksNear ∧ (d.kicks.filter apart = [] ∨ (d.win .im).queue = [])

theorem Dev.ImIdle.of_course {d d' : Dev} (h : d.ImIdle) (hc : d'.control.course = d.control.course) : d'.ImIdle := by
  refine ⟨(Dev.Frames.of_course hc).near h.1, ?_⟩
  simp only [Control.course, Dev.control, Prod.mk.injEq] at hc
  obtain ⟨-, -, -, hwin, hk⟩ := hc
  rw [hk, show d'.win .im = d.win .im from hwin]
  exact h.2

/-- What runs on beside IM_CMD moves no state. -/
theorem runKicks_im (n : Nat) {d : Dev} (hd : d.ImIdle) : (d.runKicks n).im = d.im := by
  induction n generalizing d with
  | zero => rfl
  | succ n ih =>
    rw [Dev.runKicks]
    split
    · rfl
    · next k ks hks =>
      obtain ⟨hnear, hidle⟩ := hd
      have hnear' : Dev.KicksNear { d with kicks := ks } := fun j hj => hnear j (by rw [hks]; exact List.mem_cons_of_mem _ hj)
      by_cases hk : apart k = true
      · have hq : (d.win .im).queue = [] := hidle.resolve_left (by simp [hks, hk])
        obtain rfl : k = Win.im.base := hnear k (by rw [hks]; exact List.mem_cons_self ..) hk
        rw [show Win.ofBase Win.im.base = some .im from by decide]
        have hrun : Dev.runWin false (Dev.win { d with kicks := ks } .im).queue.length { d with kicks := ks } .im = { d with kicks := ks } := by
          rw [show (Dev.win { d with kicks := ks } .im).queue = [] from hq]
          rfl
        dsimp only
        rw [hrun]
        exact ih ⟨hnear', Or.inr hq⟩
      · have hidle' : Dev.ImIdle { d with kicks := ks } := ⟨hnear', by
          rw [hks, List.filter_cons_of_neg hk] at hidle
          exact hidle⟩
        obtain ⟨w, hw, hrun⟩ := runLocal_course (Bool.eq_false_iff.mpr hk)
        rw [hw]
        have hc := hrun (Dev.win { d with kicks := ks } w).queue.length { d with kicks := ks }
        exact (ih (hidle'.of_course hc)).trans (congrArg Prod.fst hc)

/-- The step's end behind the windows that run on. -/
theorem settle_runs (d0 : Dev) {d : Dev} (h : d.im.state ≠ .held) : (d.runKicks d.kickFuel).Holds (Dev.settle d0 d) := by
  unfold Dev.settle
  rw [if_neg h]
  refine Dev.Holds.trans ?_ ((Dev.levels_kept _ _).trans (Dev.deliver_kept _)).holds
  refine Dev.Holds.trans ?_ (Dev.lagSync_holds _)
  split
  · exact (Dev.fcEvaluate_kept _).holds
  · exact ⟨rfl, rfl, rfl, fun _ => rfl, rfl⟩

end Sys2Proof.Machine
end

section

namespace Sys2Proof.Machine

/-! ### The order of a boundary (R47, R50, R116): what each part of it does to states and frame counts -/

/-- A fold whose steps touch a projection at one member alone. -/
theorem foldl_once {α β γ : Type} {f : α → β → α} {p : α → γ} {Inv : α → Prop} {b : β} (hinv : ∀ a c, Inv a → Inv (f a c))
    (hne : ∀ a c, c ≠ b → p (f a c) = p a) {v v' : γ} (hat : ∀ a, Inv a → p a = v → p (f a b) = v') {l : List β} (hl : l.Nodup)
    (hb : b ∈ l) (a : α) (ha : Inv a) (hp : p a = v) : p (l.foldl f a) = v' := by
  induction l generalizing a with
  | nil => exact absurd hb List.not_mem_nil
  | cons c l ih =>
    obtain ⟨hc, hl'⟩ := List.nodup_cons.mp hl
    rw [List.foldl_cons]
    by_cases hcb : c = b
    · subst hcb
      rw [foldl_keeps_mem p f l _ fun a x hx => hne a x fun h => hc (h ▸ hx)]
      exact hat a ha hp
    · exact ih hl' ((List.mem_cons.mp hb).resolve_left (Ne.symm hcb)) _ (hinv a c ha) ((hne a c hcb).trans hp)

/-- A fold whose steps keep a projection under an invariant. -/
theorem foldl_keeps_inv {α β γ : Type} {f : α → β → α} {p : α → γ} {Inv : α → Prop} (hinv : ∀ a c, Inv a → Inv (f a c)) {l : List β}
    (h : ∀ a, Inv a → ∀ c ∈ l, p (f a c) = p a) (a : α) (ha : Inv a) : p (l.foldl f a) = p a := by
  induction l generalizing a with
  | nil => rfl
  | cons c l ih =>
    rw [List.foldl_cons, ih (fun a ha c hc => h a ha c (List.mem_cons_of_mem _ hc)) _ (hinv a c ha)]
    exact h a ha c (List.mem_cons_self ..)

section

variable (d : Dev)

theorem litReaches_nodup : d.litReaches.Nodup := List.nodup_range.filter _

theorem mem_litReaches {r : Nat} : r ∈ d.litReaches ↔ r < 8 ∧ (d.reach r).state = .lit := by simp [Dev.litReaches]

theorem mem_treesOf {r t : Nat} : t ∈ treesOf r ↔ t / 8 = r := by
  simp only [treesOf, List.mem_map, List.mem_range]
  constructor
  · rintro ⟨i, hi, rfl⟩
    omega
  · exact fun h => ⟨t % 8, by omega, by omega⟩

theorem treesOf_nodup (r : Nat) : (treesOf r).Nodup := List.nodup_range.map fun i j (h : 8 * r + i = 8 * r + j) => by omega

theorem litTrees_nodup : d.litTrees.Nodup := by
  refine List.nodup_flatMap.mpr ⟨fun r _ => treesOf_nodup r, (litReaches_nodup d).imp fun hne => ?_⟩
  exact fun t h h' => hne ((mem_treesOf.mp h).symm.trans (mem_treesOf.mp h'))

theorem mem_litTrees {t : Nat} : t ∈ d.litTrees ↔ t < 64 ∧ d.lit t = true := by
  simp only [Dev.litTrees, List.mem_flatMap, mem_litReaches, mem_treesOf, Dev.lit, beq_iff_eq]
  constructor
  · rintro ⟨r, ⟨hr, hs⟩, rfl⟩
    exact ⟨by omega, hs⟩
  · exact fun ⟨ht, hs⟩ => ⟨t / 8, ⟨by omega, hs⟩, rfl⟩

end

/-! #### Frames that a darkening reach counts (R51) -/

/-- The reaches count a frame of their darkening. -/
structure Dev.Aged (d d' : Dev) : Prop where
  control : d'.control = { d.control with im := d'.im }
  state : d'.im.state = d.im.state
  str : d'.im.str = d.im.str
  reach : ∀ r, (d'.reach r).state = (d.reach r).state ∧ (d'.reach r).lightPending = (d.reach r).lightPending ∧
    ((d.reach r).darkenIn = none → (d'.reach r).darkenIn = none)

theorem Dev.reach_onReach_ne (d : Dev) {r u : Nat} (h : r ≠ u) (f : Reach → Reach) : (d.onReach r f).reach u = d.reach u :=
  (Table.getD_put ..).trans (if_neg h)

theorem aged (l : List Nat) (d : Dev) : d.Aged (l.foldl (fun d r => d.onReach r fun x => { x with darkenIn := x.darkenIn.map (· + 1) }) d) := by
  induction l generalizing d with
  | nil => exact ⟨rfl, rfl, rfl, fun _ => ⟨rfl, rfl, id⟩⟩
  | cons r l ih =>
    obtain ⟨hc, hs, hstr, hr⟩ := ih (d.onReach r fun x => { x with darkenIn := x.darkenIn.map (· + 1) })
    refine ⟨hc.trans rfl, hs, hstr, fun u => ?_⟩
    obtain ⟨h1, h2, h3⟩ := hr u
    by_cases hu : r = u
    · subst hu
      rw [Safety.reach_onReach] at h1 h2 h3
      exact ⟨h1, h2, fun hn => h3 (by simp [hn])⟩
    · rw [d.reach_onReach_ne hu] at h1 h2 h3
      exact ⟨h1, h2, h3⟩

/-! #### The device's state (R47, R48) -/

theorem toState_control (d : Dev) (s : DevState) : (d.toState s).control = { d.control with im := { d.im with state := s } } := by
  unfold Dev.toState
  split
  next h => rw [← h]; rfl
  next => rw [Dev.raise_control]; rfl

/-- A change of the device's state at a boundary: the command of IM_CMD that waited for it has completed. -/
structure Dev.Stepped (d d' : Dev) : Prop where
  im : d'.im = { d.im with state := d'.im.state }
  rx : d'.rx.bnd = d.rx.bnd ∧ d'.control.sfc = d.control.sfc ∧ d'.control.load = d.control.load ∧ d'.control.restore = d.control.restore
  other : ∀ w : Win, w.base ≠ Win.im.base → d'.win w = d.win w
  kicks : d'.kicks = d.kicks ∨ d'.kicks = d.kicks ++ [Win.im.base] ∧ (d'.win .im).queue = (d.win .im).queue.drop 1

theorem Dev.Stepped.refl (d : Dev) : d.Stepped d := ⟨rfl, ⟨rfl, rfl, rfl, rfl⟩, fun _ _ => rfl, Or.inl rfl⟩

theorem Dev.Stepped.of_control {d x d' : Dev} (h : d.Stepped x) (hc : d'.control = x.control) : d.Stepped d' := by
  obtain ⟨him, ⟨hb, hs, hl, hr⟩, ho, hk⟩ := h
  have hw : ∀ w, d'.win w = x.win w := fun w => Dev.win_congr (congrArg Control.wins hc) w
  have him' : d'.im = x.im := congrArg Control.im hc
  have hk' : d'.kicks = x.kicks := congrArg Control.kicks hc
  refine ⟨him' ▸ him, ⟨(congrArg Control.bnd hc).trans hb, ?_, ?_, ?_⟩, fun w hne => (hw w).trans (ho w hne), ?_⟩
  · rw [hc, hs]
  · rw [hc, hl]
  · rw [hc, hr]
  · rw [hw, hk']
    exact hk

theorem toState_stepped (d : Dev) (s : DevState) : d.Stepped (d.toState s) := by
  have hs := toState_control d s
  have him : (d.toState s).im = { d.im with state := s } := congrArg Control.im hs
  refine ⟨by rw [him], ⟨congrArg Control.bnd hs, ?_, ?_, ?_⟩, fun w _ => Dev.win_congr (congrArg Control.wins hs) w,
    Or.inl (congrArg Control.kicks hs)⟩ <;> rw [hs]

theorem completeIm_stepped (d : Dev) (s : DevState) (op : Nat) : d.Stepped ((d.toState s).completeWaiting .im op .ok []) := by
  obtain ⟨him, hrx, ho, hk⟩ := toState_stepped d s
  have hw : (d.toState s).win .im = d.win .im := Dev.win_congr (congrArg Control.wins (toState_control d s)) .im
  have hk : (d.toState s).kicks = d.kicks := congrArg Control.kicks (toState_control d s)
  unfold Dev.completeWaiting
  split
  next a _ =>
    have hother : ∀ w : Win, w.base ≠ Win.im.base → ((d.toState s).complete .im a .ok []).win w = d.win w := fun w hne =>
      (Safety.win_onWin_ne _ _ hne).trans (ho w hne)
    exact ⟨him, hrx, hother, Or.inr ⟨congrArg (· ++ [Win.im.base]) hk, (Safety.complete_queue _ _ _ _ _).trans (by rw [hw])⟩⟩
  next => exact toState_stepped d s

theorem completeIm_state (d : Dev) (s : DevState) (op : Nat) : ((d.toState s).completeWaiting .im op .ok []).im.state = s := by
  have him : (d.toState s).im = { d.im with state := s } := congrArg Control.im (toState_control d s)
  have hc : ((d.toState s).completeWaiting .im op .ok []).im = (d.toState s).im := by
    unfold Dev.completeWaiting
    split <;> rfl
  rw [hc, him]

theorem quiesceTrees_control (l : List Nat) (d : Dev) : (l.foldl Dev.quiesceTree d).control = d.control :=
  control_foldl Dev.quiesceTree_control l d

theorem deviceStep_stepped (d : Dev) : d.Stepped d.deviceStep := by
  unfold Dev.deviceStep
  split
  · exact (completeIm_stepped d .quiesced 2).of_control (quiesceTrees_control _ _)
  · split
    · exact completeIm_stepped d .running 3
    · exact Dev.Stepped.refl d

/-- A waiting QUIESCE takes effect (R47). -/
theorem deviceStep_quiesce {d : Dev} (h : (d.waitingCmd .im 2).isSome = true) (hs : d.im.state = .running) : d.deviceStep.im.state = .quiesced := by
  rw [Dev.deviceStep, if_pos ⟨h, hs⟩]
  exact (congrArg (fun c => c.im.state) (quiesceTrees_control _ _)).trans (completeIm_state d .quiesced 2)

/-- A waiting RESUME takes effect (R48), but for a RECLAIM that runs. -/
theorem deviceStep_resume {d : Dev} (h : (d.waitingCmd .im 3).isSome = true) (hs : d.im.state = .quiesced) (hb : d.waitingCmd .bp 0x20 = none) :
    d.deviceStep.im.state = .running := by
  rw [Dev.deviceStep, if_neg (by simp [hs]), if_pos ⟨h, hs, by simp [hb]⟩]
  exact completeIm_state d .running 3

/-- The change of state leaves a device that carries traffic in traffic. -/
theorem deviceStep_traffic {d : Dev} (h : d.traffic = true) : d.deviceStep.traffic = true := by
  have htr : ∀ x : Dev, x.traffic = true ↔ x.im.state = .running ∨ x.im.state = .quiesced := fun x => by simp [Dev.traffic]
  unfold Dev.deviceStep
  split
  · rw [htr]
    exact Or.inr ((congrArg (fun c => c.im.state) (quiesceTrees_control _ _)).trans (completeIm_state d .quiesced 2))
  · split
    · rw [htr]
      exact Or.inl (completeIm_state d .running 3)
    · exact h

end Sys2Proof.Machine
end

section

namespace Sys2Proof.Machine

/-! #### The SFCs of a boundary (R116) -/

/-- What the SFC steps leave: all but SFCs and the values that they load. -/
def Control.base (c : Control) : ImState × Table Window × List Nat × Nat × (Nat → Option (Nat × Nat)) := (c.im, c.wins, c.kicks, c.bnd, c.restore)

/-- A tree's SFC and the value that the next boundary loads. -/
def Control.tick (c : Control) (t : Nat) : Nat × Option Nat := (c.sfc t, c.load t)

theorem tick_eq {d : Dev} {t : Nat} {v : Nat × Option Nat} (h : d.control.tick t = v) : (d.tf t).sfc = v.1 ∧ (d.tf t).sfcLoad = v.2 :=
  Prod.mk.inj h

section

variable (d : Dev)

theorem onTf_base (t : Nat) (f : TfTree → TfTree) : (d.onTf t f).control.base = d.control.base := by
  rw [Dev.onTf_control_eq]
  rfl

theorem onTf_tick (t : Nat) (f : TfTree → TfTree) : (d.onTf t f).control.tick t = ((f (d.tf t)).sfc, (f (d.tf t)).sfcLoad) := by
  rw [Dev.onTf_control_eq]
  simp [Control.tick]

theorem onTf_tick_ne {t u : Nat} (h : u ≠ t) (f : TfTree → TfTree) : (d.onTf t f).control.tick u = d.control.tick u := by
  rw [Dev.onTf_control_eq]
  simp [Control.tick, h]

/-! A waiting SET_SFC. -/

theorem sfcLoadStep_base (r : Nat) : (d.sfcLoadStep r).control.base = d.control.base := by
  unfold Dev.sfcLoadStep
  split
  · dsimp only
    split
    · exact onTf_base ..
    · rfl
  · rfl

theorem sfcLoadStep_ne {r t : Nat} (h : r ≠ t / 8) : (d.sfcLoadStep r).control.tick t = d.control.tick t := by
  unfold Dev.sfcLoadStep
  split
  · dsimp only
    split
    · next a _ hr => exact onTf_tick_ne d (fun he => h (by rw [he]; exact hr.symm)) _
    · rfl
  · rfl

theorem sfcLoadStep_none {r : Nat} (h : d.waitingCmd (.tf r) 4 = none) : d.sfcLoadStep r = d := by
  rw [Dev.sfcLoadStep, h]

theorem sfcLoadStep_some {t : Nat} {a : Accepted} (h : d.waitingCmd (.tf (t / 8)) 4 = some a) (ht : bits a.obj 15 0 = t) :
    (d.sfcLoadStep (t / 8)).control.tick t = ((d.tf t).sfc, some (a.dat 0 % 2 ^ 32 + 2 ^ 32 * a.db 1 18 0)) := by
  rw [Dev.sfcLoadStep, h]
  simp only [ht, if_true]
  exact onTf_tick ..

/-! A restore of a protected tree. -/

theorem pxPre_base (t : Nat) : (d.pxPre t).control.base = d.control.base := by
  unfold Dev.pxPre
  split
  · split
    · simp only [Dev.profsInvalid_control, Dev.gainCounts_control]
      exact onTf_base ..
    · rfl
  · rfl

theorem pxPre_ne {t u : Nat} (h : u ≠ t) : (d.pxPre t).control.tick u = d.control.tick u := by
  unfold Dev.pxPre
  split
  · split
    · simp only [Dev.profsInvalid_control, Dev.gainCounts_control]
      exact onTf_tick_ne d h _
    · rfl
  · rfl

theorem pxPre_none {t : Nat} (h : (d.pt t).restore = none) : d.pxPre t = d := by
  rw [Dev.pxPre, h]

/-! The step itself. -/

theorem treeBefore_control (t : Nat) (hold : Bool) : (d.treeBefore t hold).control = if hold then d.control else (d.onTf t fun x =>
    { x with sfc := (x.sfcLoad.getD (x.sfc + 1)) % 2 ^ 51, sfcLoad := none }).control := by
  simp only [Dev.treeBefore, Dev.evaluate_control, Dev.ptResume_control, Dev.ponidStep_control, control_ite]
  congr 1
  simp only [Dev.sfcStep, control_ite, Dev.keysVoid_control, ite_self]

theorem treeBefore_base (t : Nat) (hold : Bool) : (d.treeBefore t hold).control.base = d.control.base := by
  rw [treeBefore_control]
  split
  · rfl
  · exact onTf_base ..

theorem treeBefore_ne {t u : Nat} (h : u ≠ t) (hold : Bool) : (d.treeBefore t hold).control.tick u = d.control.tick u := by
  rw [treeBefore_control]
  split
  · rfl
  · exact onTf_tick_ne d h _

theorem treeBefore_tick (t : Nat) : (d.treeBefore t false).control.tick t = (((d.tf t).sfcLoad.getD ((d.tf t).sfc + 1)) % 2 ^ 51, none) := by
  rw [treeBefore_control, if_neg (by decide)]
  exact onTf_tick ..

end

/-! #### A boundary by its parts -/

/-- The count and the frames of darkening reaches. -/
def Dev.boundaryCount (d : Dev) : Dev :=
  let d := d.onRx fun x => { x with bnd := x.bnd + 1, bndAt := d.tb.ticks }
  (d.litReaches.foldl (fun d r => d.onReach r fun x => { x with darkenIn := x.darkenIn.map (· + 1) }) d).mateRejoins

/-- The end of the frames, the bins, and the values that SFCs load. -/
def Dev.boundaryLoads (d : Dev) : Dev :=
  let d := d.litTrees.foldl Dev.frameEnd d
  let d := d.litReaches.foldl (fun d r => (d.pmBoundary r).sfcLoadStep r) d
  (d.protTrees.filter d.lit).foldl Dev.pxPre d

/-- The reaches that become DARK. -/
def Dev.boundaryDark (d : Dev) : List Nat := d.litReaches.filter fun r => d.darkDue r

/-- The SFCs step, but those of reaches that become DARK. -/
def Dev.boundarySfcs (d : Dev) (dark : List Nat) : Dev :=
  d.litTrees.foldl (fun d t => (d.loadCancels t).treeBefore t (dark.contains (t / 8))) d

/-- PON-IDs, the tree commands, the protection unit, the keys and the frames. -/
def Dev.boundaryFrames (d : Dev) (dark : List Nat) : Dev :=
  let d := upTo 64 d fun t d => d.ponidStep t
  let d := (d.litReaches.foldl Dev.tfCmdStep d).pxBoundary
  let d := (d.litTrees.filter fun t => !dark.contains (t / 8)).foldl Dev.keysBoundary d
  (d.litTrees.filter fun t => !dark.contains (t / 8)).foldl (fun d t => (d.treeAfter t).takeoverStep t) d

/-- What the trees do at a boundary. -/
def Dev.boundaryTrees (d : Dev) : Dev :=
  (d.boundaryLoads.boundarySfcs d.boundaryLoads.boundaryDark).boundaryFrames d.boundaryLoads.boundaryDark

theorem frameBoundary_eq {d : Dev} (h : d.alive = true) : d.frameBoundary =
    (upTo 8 d.boundaryCount.deviceStep.boundaryTrees fun r d => d.reachStep r).todcapStep.phaseMeasure := by
  rw [Dev.frameBoundary, if_neg (by simp [h])]
  rfl

theorem boundaryFrames_course (d : Dev) (dark : List Nat) : (d.boundaryFrames dark).control.course = d.control.course := by
  unfold Dev.boundaryFrames
  extract_lets d1 d2 d3
  have h1 : d1.control.course = d.control.course := by simp [d1]
  have h2 : d2.control.course = d1.control.course := by
    simp only [d2, Dev.pxBoundary_course]
    exact foldl_keeps_mem (fun d : Dev => d.control.course) _ _ _ fun x r hr => Dev.tfCmdStep_course x ((mem_litReaches d1).mp hr).1
  have h3 : d3.control = d2.control := control_foldl Dev.keysBoundary_control _ d2
  refine (congrArg Control.course (control_foldl (fun x t => ?_) _ d3)).trans ((congrArg Control.course h3).trans (h2.trans h1))
  rw [Dev.takeoverStep_control, Dev.treeAfter_control]

/-! The loads. -/

theorem waitingCmd_congr {d d' : Dev} {w : Win} (h : d'.win w = d.win w) (op : Nat) : d'.waitingCmd w op = d.waitingCmd w op := by
  rw [Dev.waitingCmd, Dev.waitingCmd, h]

section

variable {d d' : Dev} (h : d'.control.base = d.control.base)

include h

theorem base_im : d'.im = d.im := congrArg Prod.fst h

theorem base_reach (r : Nat) : d'.reach r = d.reach r := by rw [Dev.reach, Dev.reach, base_im h]

theorem base_lit (t : Nat) : d'.lit t = d.lit t := by rw [Dev.lit, Dev.lit, base_reach h]

theorem base_isProt (t : Nat) : d'.isProt t = d.isProt t := by rw [Dev.isProt, Dev.isProt, base_im h]

theorem base_restore (t : Nat) : (d'.pt t).restore = (d.pt t).restore := by
  simp only [Control.base, Dev.control, Prod.mk.injEq] at h
  exact congrFun h.2.2.2.2 t

theorem base_waitingCmd (w : Win) (op : Nat) : d'.waitingCmd w op = d.waitingCmd w op := by
  simp only [Control.base, Dev.control, Prod.mk.injEq] at h
  exact waitingCmd_congr (Dev.win_congr h.2.1 w) op

theorem base_litReaches : d'.litReaches = d.litReaches := by simp only [Dev.litReaches, base_reach h]

theorem base_litTrees : d'.litTrees = d.litTrees := by simp only [Dev.litTrees, base_litReaches h]

end

theorem loadStep_base (d : Dev) (r : Nat) : ((d.pmBoundary r).sfcLoadStep r).control.base = d.control.base :=
  (sfcLoadStep_base _ r).trans (by rw [Dev.pmBoundary_control])

/-- The SET_SFC commands of the LIT reaches load what tree t takes, where they do so at its own reach. -/
theorem loadSteps_tick {d : Dev} {t : Nat} (ht : t < 64) (hlit : d.lit t = true) {v : Nat × Option Nat}
    (hat : ∀ x : Dev, x.control.base = d.control.base → x.control.tick t = d.control.tick t → (x.sfcLoadStep (t / 8)).control.tick t = v) :
    (d.litReaches.foldl (fun d r => (d.pmBoundary r).sfcLoadStep r) d).control.tick t = v := by
  refine foldl_once (p := fun x : Dev => x.control.tick t) (Inv := fun x => x.control.base = d.control.base) (b := t / 8)
    (fun x r hx => (loadStep_base x r).trans hx) (fun x r hr => ?_) (fun x hx hv => ?_) (litReaches_nodup d) ?_ d rfl rfl
  · exact (sfcLoadStep_ne _ hr).trans (by rw [Dev.pmBoundary_control])
  · exact hat _ (by rw [Dev.pmBoundary_control]; exact hx) (by rw [Dev.pmBoundary_control]; exact hv)
  · exact (mem_litReaches d).mpr ⟨by omega, by simpa [Dev.lit] using hlit⟩

/-- A tree with no restore loads nothing from one. -/
theorem restores_tick {d : Dev} {t : Nat} (hr : d.isProt t = false ∨ (d.pt t).restore = none) :
    ((d.protTrees.filter d.lit).foldl Dev.pxPre d).control.tick t = d.control.tick t := by
  refine foldl_keeps_inv (p := fun x : Dev => x.control.tick t) (Inv := fun x => x.control.base = d.control.base)
    (fun x u hx => (pxPre_base x u).trans hx) (fun x hx u hu => ?_) d rfl
  by_cases hut : u = t
  · subst hut
    have hprot : d.isProt u = true := (List.mem_filter.mp (List.mem_filter.mp hu).1).2
    have hnone : (x.pt u).restore = none := (base_restore hx u).trans (hr.resolve_left (by simp [hprot]))
    rw [pxPre_none x hnone]
  · exact pxPre_ne x (Ne.symm hut)

theorem boundaryLoads_base (d : Dev) : d.boundaryLoads.control.base = d.control.base := by
  unfold Dev.boundaryLoads
  extract_lets d1 d2
  have h1 : d1.control = d.control := control_foldl Dev.frameEnd_control _ d
  have h2 : d2.control.base = d1.control.base := foldl_keeps (fun d : Dev => d.control.base) _ loadStep_base _ d1
  exact (foldl_keeps (fun d : Dev => d.control.base) _ pxPre_base _ d2).trans (h2.trans (congrArg Control.base h1))

/-- The value that a boundary loads into a tree of a LIT reach with no restore. -/
theorem boundaryLoads_tick {d : Dev} {t : Nat} (ht : t < 64) (hlit : d.lit t = true) (hr : d.isProt t = false ∨ (d.pt t).restore = none)
    {v : Nat × Option Nat} (hat : ∀ x : Dev, x.control.base = d.control.base → x.control.tick t = d.control.tick t →
      (x.sfcLoadStep (t / 8)).control.tick t = v) : d.boundaryLoads.control.tick t = v := by
  unfold Dev.boundaryLoads
  extract_lets d1 d2
  have h1 : d1.control = d.control := control_foldl Dev.frameEnd_control _ d
  have hb1 : d1.control.base = d.control.base := congrArg Control.base h1
  have h2 : d2.control.base = d1.control.base := foldl_keeps (fun d : Dev => d.control.base) _ loadStep_base _ d1
  have hb2 : d2.control.base = d.control.base := h2.trans hb1
  rw [restores_tick (by rw [base_isProt hb2, base_restore hb2]; exact hr)]
  exact loadSteps_tick ht (by rw [base_lit hb1]; exact hlit) fun x hx hv => hat x (hx.trans hb1) (hv.trans (by rw [h1]))

theorem boundarySfcs_base (d : Dev) (dark : List Nat) : (d.boundarySfcs dark).control.base = d.control.base :=
  foldl_keeps (fun d : Dev => d.control.base) _ (fun x t => (treeBefore_base _ t _).trans (by rw [Dev.loadCancels_control])) _ d

/-- Each tree of a LIT reach that stays LIT takes its step once. -/
theorem boundarySfcs_tick {d : Dev} {dark : List Nat} {t : Nat} (ht : t < 64) (hlit : d.lit t = true) (hd : t / 8 ∉ dark) :
    ((d.boundarySfcs dark).tf t).sfc = ((d.tf t).sfcLoad.getD ((d.tf t).sfc + 1)) % 2 ^ 51 := by
  have hfold : (d.boundarySfcs dark).control.tick t = (((d.tf t).sfcLoad.getD ((d.tf t).sfc + 1)) % 2 ^ 51, none) := by
    refine foldl_once (p := fun x : Dev => x.control.tick t) (Inv := fun _ => True) (b := t) (fun _ _ h => h) (fun x u hu => ?_)
      (fun x _ hx => ?_) (litTrees_nodup d) ((mem_litTrees d).mpr ⟨ht, hlit⟩) d trivial rfl
    · exact (treeBefore_ne _ (Ne.symm hu) _).trans (by rw [Dev.loadCancels_control])
    · have hdark : dark.contains (t / 8) = false := by simpa using hd
      have hx' : (x.loadCancels t).control.tick t = d.control.tick t := by rw [Dev.loadCancels_control]; exact hx
      simp only [Control.tick, Dev.control, Prod.mk.injEq] at hx'
      rw [hdark, treeBefore_tick, hx'.1, hx'.2]
  exact (tick_eq hfold).1

end Sys2Proof.Machine
end

section

namespace Sys2Proof.Machine

/-! #### A boundary's count -/

/-- A boundary's count moves the count and the frames of darkening reaches. -/
theorem boundaryCount_control (d : Dev) : d.boundaryCount.control = { d.control with im := d.boundaryCount.im, bnd := d.rx.bnd + 1 } := by
  unfold Dev.boundaryCount
  extract_lets d1
  have ha := (aged d1.litReaches d1).control
  rw [Safety.control_im (Dev.mateRejoins_control _), Dev.mateRejoins_control, ha]
  rfl

theorem boundaryCount_state (d : Dev) : d.boundaryCount.im.state = d.im.state := by
  unfold Dev.boundaryCount
  extract_lets d1
  rw [Safety.control_im (Dev.mateRejoins_control _)]
  exact (aged d1.litReaches d1).state

theorem boundaryCount_str (d : Dev) : d.boundaryCount.im.str = d.im.str := by
  unfold Dev.boundaryCount
  extract_lets d1
  rw [Safety.control_im (Dev.mateRejoins_control _)]
  exact (aged d1.litReaches d1).str

theorem boundaryCount_reach (d : Dev) (r : Nat) : (d.boundaryCount.reach r).state = (d.reach r).state ∧
    (d.boundaryCount.reach r).lightPending = (d.reach r).lightPending ∧
    ((d.reach r).darkenIn = none → (d.boundaryCount.reach r).darkenIn = none) := by
  unfold Dev.boundaryCount
  extract_lets d1
  rw [Safety.control_reach (Dev.mateRejoins_control _)]
  exact (aged d1.litReaches d1).reach r

/-! #### Reaches that light and darken (R50, R51) -/

/-- Reach r alone moves frame counts; the states of the device stand. -/
structure Dev.Beside (r : Nat) (d d' : Dev) : Prop where
  im : d'.im = d.im
  bnd : d'.rx.bnd = d.rx.bnd
  sfc : ∀ t, t / 8 ≠ r → (d'.tf t).sfc = (d.tf t).sfc
  win : d'.win .im = d.win .im
  kicks : d'.kicks.filter apart = d.kicks.filter apart

section

variable {r : Nat}

theorem Dev.Beside.refl (d : Dev) : d.Beside r d := ⟨rfl, rfl, fun _ _ => rfl, rfl, rfl⟩

theorem Dev.Beside.trans {a b c : Dev} (h : a.Beside r b) (k : b.Beside r c) : a.Beside r c :=
  ⟨k.im.trans h.im, k.bnd.trans h.bnd, fun t ht => (k.sfc t ht).trans (h.sfc t ht), k.win.trans h.win, k.kicks.trans h.kicks⟩

theorem Dev.Beside.of_course {d d' : Dev} (h : d'.control.course = d.control.course) : d.Beside r d' := by
  simp only [Control.course, Dev.control, Prod.mk.injEq] at h
  obtain ⟨him, hbnd, hsfc, hwin, hk⟩ := h
  exact ⟨him, hbnd, fun t _ => congrFun hsfc t, hwin, hk⟩

theorem Dev.Beside.of_control {d d' : Dev} (h : d'.control = d.control) : d.Beside r d' := Dev.Beside.of_course (congrArg Control.course h)

theorem Dev.Beside.foldl {β : Type} {f : Dev → β → Dev} {l : List β} (h : ∀ d : Dev, ∀ b ∈ l, d.Beside r (f d b)) (d : Dev) :
    d.Beside r (l.foldl f d) := by
  induction l generalizing d with
  | nil => exact Dev.Beside.refl d
  | cons b l ih =>
    exact (h d b (List.mem_cons_self ..)).trans (ih (fun d c hc => h d c (List.mem_cons_of_mem _ hc)) _)

theorem Dev.Beside.onReach {d d' : Dev} (h : d.Beside r d') (f : Reach → Reach) : (d.onReach r f).Beside r (d'.onReach r f) := by
  obtain ⟨him, hbnd, hsfc, hwin, hk⟩ := h
  exact ⟨by simp only [Dev.onReach, Dev.onIm, him], hbnd, hsfc, hwin, hk⟩

theorem sfcStep_beside (d : Dev) {t : Nat} (ht : t / 8 = r) : d.Beside r (d.sfcStep t) := by
  have hstep : (d.sfcStep t).control = (d.onTf t fun x => { x with sfc := (x.sfcLoad.getD (x.sfc + 1)) % 2 ^ 51, sfcLoad := none }).control := by
    simp only [Dev.sfcStep, control_ite, Dev.keysVoid_control, ite_self]
  refine Dev.Beside.trans ?_ (Dev.Beside.of_control hstep)
  refine ⟨rfl, rfl, fun u hu => ?_, rfl, rfl⟩
  exact congrArg Prod.fst (onTf_tick_ne d (u := u) (fun he => hu (he ▸ ht)) _)

theorem reachLight_beside (d : Dev) (r : Nat) :
    (d.onReach r fun x => { x with state := .lit, lightPending := false }).Beside r (d.reachLight r) := by
  unfold Dev.reachLight
  extract_lets d1 d2 d3
  have h1 : d1.control = (d.onReach r fun x => { x with state := .lit, lightPending := false }).control := Dev.raise_control ..
  have h2 : d1.Beside r d2 := by
    refine Dev.Beside.trans (Dev.Beside.foldl (fun x t ht => ?_) d1) (Dev.Beside.of_control (Dev.pmStart_control _ r))
    refine Dev.Beside.trans (Dev.Beside.of_control ?_) (sfcStep_beside _ ((mem_treesOf).mp ht))
    simp
  have h3 : d3.control = d2.control := by simp [d3]
  refine (Dev.Beside.of_control h1).trans (h2.trans ((Dev.Beside.of_control h3).trans (Dev.Beside.of_course ?_)))
  simp

theorem reachDark_beside (d : Dev) (r : Nat) :
    (d.onReach r fun x => { x with state := .dark, darkenIn := none }).Beside r (d.reachDark r) := by
  unfold Dev.reachDark
  extract_lets d1 d2 d3 d4 d5
  have h1 : d1.control.course = d.control.course := by simp [d1]
  have h2 : d2.control = (d1.onReach r fun x => { x with state := .dark, darkenIn := none }).control := Dev.raise_control ..
  have h3 : d3.control = d2.control := by
    refine control_foldl (fun x kv => ?_) _ d2
    exact Dev.invalidate_control ..
  have h4 : d4.control = d3.control := (Dev.pmDiscard_control _ r).trans (Dev.onRx_control _ fun x => ⟨rfl, rfl⟩)
  have h5 : d5.control = d4.control := by
    refine control_foldl (fun x t => ?_) _ d4
    exact (Dev.onGs_control ..).trans (Dev.laneDark_control ..)
  have h0 : (d.onReach r fun x => { x with state := .dark, darkenIn := none }).Beside r
      (d1.onReach r fun x => { x with state := .dark, darkenIn := none }) := Dev.Beside.onReach (Dev.Beside.of_course h1) _
  refine h0.trans (Dev.Beside.of_control ?_)
  rw [Dev.todcapCancel_control, h5, h4, h3, h2]

end

/-- A reach's part of a boundary: the other reaches and their frame counts stand, and so do the device's state and the windows apart. -/
structure Dev.Alone (r : Nat) (d d' : Dev) : Prop where
  reach : ∀ u, u ≠ r → d'.reach u = d.reach u
  state : d'.im.state = d.im.state
  bnd : d'.rx.bnd = d.rx.bnd
  sfc : ∀ t, t / 8 ≠ r → (d'.tf t).sfc = (d.tf t).sfc
  win : d'.win .im = d.win .im
  kicks : d'.kicks.filter apart = d.kicks.filter apart

theorem Dev.Beside.alone {d d' : Dev} {r : Nat} {f : Reach → Reach} (h : (d.onReach r f).Beside r d') : d.Alone r d' := by
  obtain ⟨him, hbnd, hsfc, hwin, hk⟩ := h
  refine ⟨fun u hu => ?_, by rw [him]; rfl, hbnd, hsfc, hwin, hk⟩
  rw [Dev.reach, him]
  exact d.reach_onReach_ne (Ne.symm hu) f

theorem Dev.Beside.reach {d d' : Dev} {r : Nat} {f : Reach → Reach} (h : (d.onReach r f).Beside r d') : d'.reach r = f (d.reach r) := by
  rw [Dev.reach, h.im]
  exact Safety.reach_onReach d r f

theorem reachStep_alone (d : Dev) (r : Nat) : d.Alone r (d.reachStep r) := by
  unfold Dev.reachStep
  extract_lets x
  split
  · exact (reachLight_beside d r).alone
  · split
    · exact (reachDark_beside d r).alone
    · exact ⟨fun _ _ => rfl, rfl, rfl, fun _ _ => rfl, rfl, rfl⟩

/-- A LIT reach that does not darken stays as it is. -/
theorem reachStep_lit {d : Dev} {r : Nat} (hs : (d.reach r).state = .lit) (hd : (d.reach r).darkenIn = none) : d.reachStep r = d := by
  have hdue : d.darkDue r = false := by rw [Dev.darkDue, hd]
  rw [Dev.reachStep, if_neg (by simp [hs]), if_neg (by simp [hdue])]

/-- A pending LIGHT_REACH makes its reach LIT. -/
theorem reachStep_light {d : Dev} {r : Nat} (ht : d.traffic = true) (hs : (d.reach r).state = .dark) (hp : (d.reach r).lightPending = true) :
    ((d.reachStep r).reach r).state = .lit ∧ ((d.reachStep r).reach r).lightPending = false := by
  rw [Dev.reachStep, if_pos ⟨hs, hp, ht⟩, (reachLight_beside d r).reach]
  exact ⟨rfl, rfl⟩

/-- What all reaches leave. -/
theorem reachSteps_alone (d : Dev) : let d' := upTo 8 d fun r d => d.reachStep r
    d'.im.state = d.im.state ∧ d'.rx.bnd = d.rx.bnd ∧ d'.win .im = d.win .im ∧ d'.kicks.filter apart = d.kicks.filter apart := by
  have h := upTo_keeps (fun d : Dev => (d.im.state, d.rx.bnd, d.win .im, d.kicks.filter apart)) 8 (fun r d => d.reachStep r)
    (fun r d => by
      obtain ⟨-, hs, hb, -, hw, hk⟩ := reachStep_alone d r
      simp only [hs, hb, hw, hk]) d
  simpa only [Prod.mk.injEq] using h

/-- The SFC of a tree whose reach stays LIT. -/
theorem reachSteps_sfc {d : Dev} {t : Nat} (hs : (d.reach (t / 8)).state = .lit) (hd : (d.reach (t / 8)).darkenIn = none) :
    ((upTo 8 d fun r d => d.reachStep r).tf t).sfc = (d.tf t).sfc := by
  have hreach : ∀ (x : Dev) (r : Nat), x.reach (t / 8) = d.reach (t / 8) → (x.reachStep r).reach (t / 8) = d.reach (t / 8) := fun x r hx => by
    by_cases hr : t / 8 = r
    · subst hr
      rw [reachStep_lit (by rw [hx, hs]) (by rw [hx, hd]), hx]
    · exact ((reachStep_alone x r).reach _ hr).trans hx
  refine foldl_keeps_inv (p := fun x : Dev => (x.tf t).sfc) (Inv := fun x => x.reach (t / 8) = d.reach (t / 8)) hreach
    (fun x hx r _ => ?_) d rfl
  by_cases hr : t / 8 = r
  · subst hr
    rw [reachStep_lit (by rw [hx, hs]) (by rw [hx, hd])]
  · exact (reachStep_alone x r).sfc t hr

/-- A reach with a pending LIGHT_REACH becomes LIT among the others. -/
theorem reachSteps_light {d : Dev} {r : Nat} (hr : r < 8) (ht : d.traffic = true) (hs : (d.reach r).state = .dark)
    (hp : (d.reach r).lightPending = true) : ((upTo 8 d fun r d => d.reachStep r).reach r).state = .lit ∧
      ((upTo 8 d fun r d => d.reachStep r).reach r).lightPending = false := by
  have h := foldl_once (p := fun x : Dev => ((x.reach r).state, (x.reach r).lightPending)) (Inv := fun x => x.traffic = true) (b := r)
    (f := fun d r => d.reachStep r) (v := (.dark, true)) (v' := (.lit, false)) (l := List.range 8)
    (fun x u hx => ?_) (fun x u hu => ?_) (fun x hx hv => ?_) List.nodup_range (List.mem_range.mpr hr) d ht (by rw [hs, hp])
  · exact Prod.mk.inj h
  · rw [Dev.traffic, (reachStep_alone x u).state]
    exact hx
  · simp only [(reachStep_alone x u).reach r (Ne.symm hu)]
  · obtain ⟨h1, h2⟩ := Prod.mk.inj hv
    obtain ⟨h1', h2'⟩ := reachStep_light hx h1 h2
    simp only [h1', h2']

end Sys2Proof.Machine
end

section

namespace Sys2Proof.Machine

/-! #### The boundary as a whole -/

theorem control_bnd {d d' : Dev} (h : d'.control = d.control) : d'.rx.bnd = d.rx.bnd := congrArg Control.bnd h

theorem control_sfc {d d' : Dev} (h : d'.control = d.control) (t : Nat) : (d'.tf t).sfc = (d.tf t).sfc := congrFun (congrArg Control.sfc h) t

theorem control_win {d d' : Dev} (h : d'.control = d.control) (w : Win) : d'.win w = d.win w := Dev.win_congr (congrArg Control.wins h) w

theorem course_sfc {d d' : Dev} (h : d'.control.course = d.control.course) (t : Nat) : (d'.tf t).sfc = (d.tf t).sfc :=
  (Dev.Frames.of_course h).sfc t

/-- The trees leave states, the count and the windows apart as they are. -/
theorem boundaryTrees_keep (d : Dev) : d.boundaryTrees.im = d.im ∧ d.boundaryTrees.rx.bnd = d.rx.bnd ∧
    d.boundaryTrees.win .im = d.win .im ∧ d.boundaryTrees.kicks.filter apart = d.kicks.filter apart := by
  have hbase : (d.boundaryLoads.boundarySfcs d.boundaryLoads.boundaryDark).control.base = d.control.base :=
    (boundarySfcs_base ..).trans (boundaryLoads_base d)
  have hcourse := boundaryFrames_course (d.boundaryLoads.boundarySfcs d.boundaryLoads.boundaryDark) d.boundaryLoads.boundaryDark
  rw [← Dev.boundaryTrees] at hcourse
  generalize d.boundaryLoads.boundarySfcs d.boundaryLoads.boundaryDark = x at *
  simp only [Control.base, Dev.control, Prod.mk.injEq] at hbase
  simp only [Control.course, Dev.control, Prod.mk.injEq] at hcourse
  obtain ⟨him, hbnd, -, hwin, hk⟩ := hcourse
  obtain ⟨bim, bwins, bk, bbnd, -⟩ := hbase
  exact ⟨him.trans bim, hbnd.trans bbnd, hwin.trans (by rw [bwins]; rfl), hk.trans (by rw [bk])⟩

/-- A reach that does not darken is none of those that become DARK. -/
theorem boundaryDark_of_none {d : Dev} (r : Nat) (h : (d.reach r).darkenIn = none) : r ∉ d.boundaryDark := by
  have hdue : d.darkDue r = false := by rw [Dev.darkDue, h]
  simp [Dev.boundaryDark, hdue]

/-- The SFC of a tree whose reach stays LIT (R116). -/
theorem boundaryTrees_sfc {d : Dev} {t : Nat} (ht : t < 64) (hlit : d.lit t = true) (hd : (d.reach (t / 8)).darkenIn = none)
    (hr : d.isProt t = false ∨ (d.pt t).restore = none) {v : Nat × Option Nat}
    (hat : ∀ x : Dev, x.control.base = d.control.base → x.control.tick t = d.control.tick t → (x.sfcLoadStep (t / 8)).control.tick t = v) :
    (d.boundaryTrees.tf t).sfc = v.2.getD (v.1 + 1) % 2 ^ 51 := by
  have hbase := boundaryLoads_base d
  have htick : d.boundaryLoads.control.tick t = v := boundaryLoads_tick ht hlit hr hat
  have hdark := boundaryDark_of_none (t / 8) ((base_reach hbase (t / 8)).symm ▸ hd)
  obtain ⟨hv1, hv2⟩ := tick_eq htick
  have hsfc := boundarySfcs_tick ht ((base_lit hbase t).trans hlit) hdark
  rw [hv1, hv2] at hsfc
  exact (course_sfc (boundaryFrames_course _ _) t).trans hsfc

section

variable {e : Dev} (h : e.alive = true)

include h

theorem frameBoundary_control : e.frameBoundary.control =
    (upTo 8 e.boundaryCount.deviceStep.boundaryTrees fun r d => d.reachStep r).control := by
  rw [frameBoundary_eq h, Dev.phaseMeasure_control, Dev.todcapStep_control]

theorem frameBoundary_keep : e.frameBoundary.im.state = e.boundaryCount.deviceStep.im.state ∧ e.frameBoundary.rx.bnd = e.rx.bnd + 1 ∧
    e.frameBoundary.win .im = e.boundaryCount.deviceStep.win .im ∧
    e.frameBoundary.kicks.filter apart = e.boundaryCount.deviceStep.kicks.filter apart := by
  have hc := frameBoundary_control h
  obtain ⟨rs, rb, rw', rk⟩ := reachSteps_alone e.boundaryCount.deviceStep.boundaryTrees
  obtain ⟨ti, tb, tw, tk⟩ := boundaryTrees_keep e.boundaryCount.deviceStep
  have hcount : e.boundaryCount.rx.bnd = e.rx.bnd + 1 := congrArg Control.bnd (boundaryCount_control e)
  refine ⟨?_, ?_, ?_, ?_⟩
  · rw [Safety.control_im hc, rs, ti]
  · rw [control_bnd hc, rb, tb, (deviceStep_stepped _).rx.1, hcount]
  · rw [control_win hc, rw', tw]
  · rw [Safety.control_kicks hc]
    rw [rk, tk]

/-- A boundary of a device with no window to run on sets none but IM_CMD's free beside PX_CMD's and the TF_CMDs', and that one has its
command behind it. -/
theorem frameBoundary_near (hk : e.kicks = []) : e.frameBoundary.KicksNear ∧ ((e.win .im).queue.length ≤ 1 → e.frameBoundary.ImIdle) := by
  obtain ⟨-, -, hwin, hkicks⟩ := frameBoundary_keep h
  have hcount := boundaryCount_control e
  have hck : e.boundaryCount.kicks = [] := (congrArg Control.kicks hcount).trans hk
  have hcw : e.boundaryCount.win .im = e.win .im := Dev.win_congr (congrArg Control.wins hcount) .im
  obtain hs | ⟨hs, hq⟩ := (deviceStep_stepped e.boundaryCount).kicks
  · rw [hs, hck] at hkicks
    have hnear : e.frameBoundary.KicksNear := fun k hm ha => by
      have hf : k ∈ e.frameBoundary.kicks.filter apart := List.mem_filter.mpr ⟨hm, ha⟩
      rw [hkicks] at hf
      exact absurd hf List.not_mem_nil
    exact ⟨hnear, fun _ => ⟨hnear, Or.inl hkicks⟩⟩
  · rw [hs, hck] at hkicks
    have hnear : e.frameBoundary.KicksNear := fun k hm ha => by
      have hf : k ∈ e.frameBoundary.kicks.filter apart := List.mem_filter.mpr ⟨hm, ha⟩
      rw [hkicks] at hf
      exact List.mem_singleton.mp (List.mem_filter.mp hf).1
    refine ⟨hnear, fun hlen => ⟨hnear, Or.inr ?_⟩⟩
    rw [hwin, hq, hcw]
    exact List.drop_eq_nil_of_le hlen

/-- The SFC of a tree of a LIT reach, by what it loads (R116). -/
theorem frameBoundary_sfc {t : Nat} (ht : t < 64) (hlit : e.lit t = true) (hd : (e.reach (t / 8)).darkenIn = none)
    (hr : e.isProt t = false ∨ (e.pt t).restore = none) {v : Nat × Option Nat}
    (hat : ∀ x : Dev, x.waitingCmd (.tf (t / 8)) 4 = e.waitingCmd (.tf (t / 8)) 4 → x.control.tick t = e.control.tick t →
      (x.sfcLoadStep (t / 8)).control.tick t = v) : (e.frameBoundary.tf t).sfc = v.2.getD (v.1 + 1) % 2 ^ 51 := by
  have hcount := boundaryCount_control e
  obtain ⟨hrs, -, hrd⟩ := boundaryCount_reach e (t / 8)
  obtain ⟨him, ⟨-, hsfc, hload, hrestore⟩, hwins, -⟩ := deviceStep_stepped e.boundaryCount
  have hreach : e.boundaryCount.deviceStep.reach (t / 8) = e.boundaryCount.reach (t / 8) := by rw [Dev.reach, him]; rfl
  have hstr : e.boundaryCount.deviceStep.im.str = e.im.str := by rw [him]; exact boundaryCount_str e
  have hprot : e.boundaryCount.deviceStep.isProt t = e.isProt t := by rw [Dev.isProt, Dev.isProt, hstr]
  have hrest : (e.boundaryCount.deviceStep.pt t).restore = (e.pt t).restore :=
    (congrFun hrestore t).trans (congrFun (congrArg Control.restore hcount) t)
  have htick : e.boundaryCount.deviceStep.control.tick t = e.control.tick t := by
    rw [Control.tick, hsfc, hload, hcount, Control.tick]
  have hwait : e.boundaryCount.deviceStep.waitingCmd (.tf (t / 8)) 4 = e.waitingCmd (.tf (t / 8)) 4 := waitingCmd_congr
    ((hwins _ (base_ne_of_apart (apart_tf (by omega))).symm).trans (Dev.win_congr (congrArg Control.wins hcount) _)) 4
  have hlit' : e.boundaryCount.deviceStep.lit t = true := by
    rw [Dev.lit, hreach, hrs]
    exact hlit
  have hd' : (e.boundaryCount.deviceStep.reach (t / 8)).darkenIn = none := by
    rw [hreach]
    exact hrd hd
  have htrees := (boundaryTrees_keep e.boundaryCount.deviceStep).1
  have hreach' : e.boundaryCount.deviceStep.boundaryTrees.reach (t / 8) = e.boundaryCount.deviceStep.reach (t / 8) := by
    rw [Dev.reach, Dev.reach, htrees]
  rw [control_sfc (frameBoundary_control h)]
  refine (reachSteps_sfc (by rw [hreach']; simpa [Dev.lit] using hlit') (by rw [hreach', hd'])).trans ?_
  refine boundaryTrees_sfc ht hlit' hd' (by rw [hprot, hrest]; exact hr) fun x hx hv => hat x ?_ (hv.trans htick)
  exact (base_waitingCmd hx _ 4).trans hwait

/-- A pending LIGHT_REACH takes effect (R50). -/
theorem frameBoundary_light {r : Nat} (hr : r < 8) (ht : e.traffic = true) (hs : (e.reach r).state = .dark)
    (hp : (e.reach r).lightPending = true) :
    (e.frameBoundary.reach r).state = .lit ∧ (e.frameBoundary.reach r).lightPending = false := by
  obtain ⟨hrs, hrp, -⟩ := boundaryCount_reach e r
  have him := (deviceStep_stepped e.boundaryCount).im
  have htrees := (boundaryTrees_keep e.boundaryCount.deviceStep).1
  have hreach : e.boundaryCount.deviceStep.boundaryTrees.reach r = e.boundaryCount.reach r := by
    rw [Dev.reach, htrees, him]
    rfl
  have htraffic : e.boundaryCount.deviceStep.boundaryTrees.traffic = true := by
    rw [Dev.traffic, htrees]
    exact deviceStep_traffic (by rw [Dev.traffic, boundaryCount_state]; exact ht)
  rw [Safety.control_reach (frameBoundary_control h)]
  exact reachSteps_light hr htraffic (by rw [hreach, hrs, hs]) (by rw [hreach, hrp, hp])

end

end Sys2Proof.Machine
end

section

namespace Sys2Proof.Safety

open Sys2Proof.Machine

/-- The step's end leaves the frame counts of a boundary, and its states where IM_CMD has no further command. -/
theorem settle_boundary (d0 : Dev) {d : Dev} (hd : d.KicksNear) : (Dev.settle d0 d).rx.bnd = d.rx.bnd ∧
    (∀ t, ((Dev.settle d0 d).tf t).sfc = (d.tf t).sfc) ∧ (d.ImIdle → (Dev.settle d0 d).im = d.im) := by
  by_cases hs : d.im.state = .held
  · rw [Dev.settle, if_pos hs]
    exact ⟨rfl, fun _ => rfl, fun _ => rfl⟩
  · obtain ⟨him, -, hbnd, hsfc, -⟩ := settle_runs d0 hs
    obtain ⟨fbnd, fsfc, -⟩ := runKicks_frames d.kickFuel hd
    exact ⟨hbnd.trans fbnd, fun t => (hsfc t).trans (fsfc t), fun hidle => him.trans (runKicks_im d.kickFuel hidle)⟩

/-- A tree with no SET_SFC and no value to load steps by 1. -/
theorem frameBoundary_sfc_plain {e : Dev} (h : e.alive = true) {t : Nat} (ht : t < 64) (hlit : e.lit t = true)
    (hd : (e.reach (t / 8)).darkenIn = none) (hr : e.isProt t = false ∨ (e.pt t).restore = none) (hl : (e.tf t).sfcLoad = none)
    (hw : e.waitingCmd (.tf (t / 8)) 4 = none) : (e.frameBoundary.tf t).sfc = ((e.tf t).sfc + 1) % 2 ^ 51 := by
  refine frameBoundary_sfc h ht hlit hd hr (v := ((e.tf t).sfc, none)) fun x hx hv => ?_
  rw [sfcLoadStep_none x (hx.trans hw), hv]
  exact congrArg (Prod.mk _) hl

/-- A waiting SET_SFC gives its tree the value that it names. -/
theorem frameBoundary_sfc_set {e : Dev} (h : e.alive = true) {t : Nat} (ht : t < 64) (hlit : e.lit t = true)
    (hd : (e.reach (t / 8)).darkenIn = none) (hr : e.isProt t = false ∨ (e.pt t).restore = none) {a : Accepted}
    (hw : e.waitingCmd (.tf (t / 8)) 4 = some a) (ha : bits a.obj 15 0 = t) :
    (e.frameBoundary.tf t).sfc = a.dat 0 % 2 ^ 32 + 2 ^ 32 * a.db 1 18 0 := by
  have hlt : a.dat 0 % 2 ^ 32 + 2 ^ 32 * a.db 1 18 0 < 2 ^ 51 := by
    have hhigh : a.db 1 18 0 < 2 ^ 19 := bits_lt ..
    omega
  rw [← Nat.mod_eq_of_lt hlt]
  refine frameBoundary_sfc h ht hlit hd hr (v := ((e.tf t).sfc, some _)) fun x hx hv => ?_
  rw [sfcLoadStep_some x (hx.trans hw) ha]
  exact congrArg (fun p : Nat × Option Nat => (p.1, some _)) hv

/-- The windows that the device's state waits for are those before the count. -/
theorem boundaryCount_waitingCmd (e : Dev) (w : Win) (op : Nat) : e.boundaryCount.waitingCmd w op = e.waitingCmd w op :=
  waitingCmd_congr (Dev.win_congr (congrArg Control.wins (boundaryCount_control e)) w) op

end Sys2Proof.Safety

open Sys2Proof Sys2Proof.Machine Sys2Proof.Safety

/-- Settles O25: the boundary part by part, each of which leaves what the parts before it gave to count, SFC and state; the windows that
run on behind it move none of them, but for IM_CMD's next command. -/
theorem frameBoundaryAdvancesSfcAndStates : Obligations.FrameBoundaryAdvancesSfcAndStates := by
  unfold Obligations.FrameBoundaryAdvancesSfcAndStates
  rintro s dt e rfl hq halive
  obtain ⟨hstate, hbnd, -, -⟩ := frameBoundary_keep halive
  obtain ⟨hnear, himIdle⟩ := frameBoundary_near halive hq.1
  obtain ⟨ebnd, esfc, eim⟩ := settle_boundary s.dev hnear
  refine ⟨_, rfl, rfl, ?_⟩
  simp only [halive, if_true]
  refine ⟨ebnd.trans hbnd, fun t ht hlit hd hr => ⟨fun hl hw => ?plain, fun a hw ha => ?set⟩, fun hlen => ?states⟩
  case plain => rw [esfc, frameBoundary_sfc_plain halive ht hlit hd hr hl hw]
  case set => rw [esfc, frameBoundary_sfc_set halive ht hlit hd hr hw ha]
  case states =>
    have him := eim (himIdle hlen)
    refine ⟨fun hw hs => ?quiesce, fun hw hs hb => ?resume, fun r hr ht hs hp => ?light⟩
    case quiesce =>
      rw [him, hstate]
      exact deviceStep_quiesce (by rw [boundaryCount_waitingCmd, hw]) (by rw [boundaryCount_state, hs])
    case resume =>
      rw [him, hstate]
      exact deviceStep_resume (by rw [boundaryCount_waitingCmd, hw]) (by rw [boundaryCount_state, hs]) (by rw [boundaryCount_waitingCmd, hb])
    case light =>
      rw [Dev.reach, him, ← Dev.reach]
      exact frameBoundary_light halive hr ht hs hp

end

section

namespace Sys2Proof.Safety

open Sys2Proof.Machine

/-! A port that leaves UP under a wild bank: the flush of its LAG member counts a packet out of flight on the port's own flags. -/

/-- Port 0 distributes as member 0 of group 0, whose leavers are flushed; the packet of queue 5, in the member's span, carries a bank
whose in-flight count lies on the port's flags. -/
def dPortBank : Dev :=
  let d := (dTm.onQueue 5 (inBank 0x700001)).setReg (R .UL_LAG_CFG 0) (2 ^ 30 + 6)
  (d.setReg (R .UL_LAG_MEMBER 0 0) 0xA0000000).onUl fun x => { x with lagDist := [(0, 1)] }

theorem dPortBank_quiet : Quiet (dPortBank.elapse 0) := by unfold Quiet; decide +kernel

/-- The device runs, and its port 0 is UP. -/
theorem dPortBank_up : (dPortBank.elapse 0).alive = true ∧ ((dPortBank.elapse 0).portDef 0).isSome = true ∧
    ((dPortBank.elapse 0).ulPort 0).state = .up := by decide +kernel

/-- HI_BER takes the port down and raises 0x12 in its flags; the flush that follows counts one less there. -/
theorem portDown_uncounted : (match exec (.portConditionChange 0 0 ⟨3, []⟩ true false false false) (at_ dPortBank) with
    | .next t => t.dev.flag (R .UL_FLAGS 0) 1
    | _ => true) = false := by decide +kernel

end Sys2Proof.Safety

open Sys2Proof Sys2Proof.Machine Sys2Proof.Safety

/-- Refutes O40: a port that leaves UP may lose LINK_DOWN in the same step, where the flush of its LAG member discards a recirculating
packet of a bank that the classifier does not have, whose in-flight count lies on the port's flags. -/
theorem not_uplinkEventsTakeEffect : ¬ Obligations.UplinkEventsTakeEffect := by
  unfold Obligations.UplinkEventsTakeEffect
  intro h
  obtain ⟨halive, hdef, hup⟩ := dPortBank_up
  obtain ⟨-, -, -, -, -, condition, -⟩ := (h (at_ dPortBank) 0 _ rfl dPortBank_quiet).1 halive 0 (by decide)
  obtain ⟨t, ht, -, -, hon, -⟩ := condition hdef (by simp [at_, hup]) 3 true false false false [] (by decide) (by decide)
    (.inl rfl) (by decide)
  have hflag : t.dev.flag (R .UL_FLAGS 0) 1 = true := (hon rfl).2 hup
  have hlost := portDown_uncounted
  rw [ht] at hlost
  simp [hflag] at hlost

end

section

namespace Sys2Proof.Safety

open Sys2Proof.Machine

/-! The mate's cells (R436 to R456): each changes the protection unit, the mate lanes' deskew, the trees' maps and the recorder alone. -/

section

variable {ps : List Part} {reg : Nat → Bool} (d : Dev)

theorem leaves_onLx (f : LxState → LxState) (h : Part.lx ∈ ps) : Leaves ps reg d (d.onLx f) := by
  refine Leaves.of_parts (fun p hp => ?_) rfl rfl rfl
  cases p
  case lx => exact absurd h hp
  case ul => exact ⟨rfl, rfl, fun _ => rfl⟩
  all_goals rfl

theorem leaves_seamStall (e before after : Nat) : Leaves ps reg d (d.seamStall e before after) :=
  Leaves.ite (leaves_count d e) (Leaves.refl d)

theorem leaves_cellsInBy (n : Nat) (h : Part.px ∈ ps) : Leaves ps reg d (d.cellsInBy n) :=
  Leaves.ite (leaves_onPx d _ h) (Leaves.refl d)

theorem leaves_resyncReq (h : Part.px ∈ ps) : Leaves ps reg d d.resyncReq :=
  Leaves.ite (leaves_cellOut d h _ _ _ _) (Leaves.refl d)

end

/-- The parts that a cell may change. -/
def cellParts : List Part := [.px, .lx, .rx, .ob]

/-- What a cell does stays in those parts and below the packet classifier's registers. -/
abbrev CellLeaves (d d' : Dev) : Prop := Leaves cellParts (block 0 0x1000000) d d'

/-- An event of a running device that leaves what a cell leaves answers with its effect. -/
theorem answers_cell {i : Instr} {s : State} {dt : Nat} {can : Dev → Bool} {f : Dev → Dev} (hq : Quiet (s.dev.elapse dt))
    (hex : exec i s = event s dt can f) (hc : can (s.dev.elapse dt) = true) (h : CellLeaves (s.dev.elapse dt) (f (s.dev.elapse dt))) :
    Answers i s fun d => (f (s.dev.elapse dt)).Kept d :=
  answers_event_kept hq hex hc (lagApart_block _ _ (by decide) (by decide) (by decide)) h

/-- As `answers_cell`, for a cell that names a tree or a lane. -/
theorem answers_cell_of {i : Instr} {s : State} {dt : Nat} {f : Dev → Dev} {n k : Nat} (hq : Quiet (s.dev.elapse dt))
    (ha : (s.dev.elapse dt).alive = true) (hn : n < k) (hex : exec i s = event s dt (fun d => d.alive && decide (n < k)) f)
    (h : CellLeaves (s.dev.elapse dt) (f (s.dev.elapse dt))) : Answers i s fun d => (f (s.dev.elapse dt)).Kept d :=
  answers_cell hq hex (by simp [ha, hn]) h

/-! ### The protection unit's accessors -/

/-- The protection unit with n more cells received. -/
def moreCells (n : Nat) (x : PxState) : PxState := { x with cellsIn := x.cellsIn + n }

theorem hot_of_linkUp {d : Dev} (h : d.linkUp = true) : d.hot = true := by
  simp only [Dev.linkUp, Bool.and_eq_true] at h
  exact h.1.1

theorem cellsInBy_hot {d : Dev} (h : d.hot = true) (n : Nat) : d.cellsInBy n = d.onPx (moreCells n) := if_pos h

theorem pt_onPt (d : Dev) (t u : Nat) (f : PxTree → PxTree) : (d.onPt t f).pt u = if t = u then f (d.pt t) else d.pt u := by
  simp only [Dev.pt, Dev.onPt, Dev.onPx_px, Table.getD_put]

@[simp] theorem pt_onPt_self (d : Dev) (t : Nat) (f : PxTree → PxTree) : (d.onPt t f).pt t = f (d.pt t) := by simp [pt_onPt]

/-- A change of each tree of a list without repetition. -/
theorem pt_foldl_onPt (g : Nat → PxTree → PxTree) {l : List Nat} (hl : l.Nodup) (d : Dev) (u : Nat) :
    (l.foldl (fun d t => d.onPt t (g t)) d).pt u = if u ∈ l then g u (d.pt u) else d.pt u := by
  induction l generalizing d with
  | nil => simp
  | cons t l ih =>
    obtain ⟨ht, hl⟩ := List.nodup_cons.mp hl
    rw [List.foldl_cons, ih hl, pt_onPt]
    by_cases hu : t = u
    · subst hu
      simp [ht]
    · simp [hu, Ne.symm hu]

/-- Beside the trees it leaves the protection unit as it was. -/
theorem px_foldl_onPt (g : Nat → PxTree → PxTree) (l : List Nat) (d : Dev) :
    (l.foldl (fun d t => d.onPt t (g t)) d).px = { d.px with trees := (l.foldl (fun d t => d.onPt t (g t)) d).px.trees } := by
  induction l generalizing d with
  | nil => rfl
  | cons t l ih =>
    rw [List.foldl_cons, ih]
    rfl

theorem tb_foldl_onPt (g : Nat → PxTree → PxTree) (l : List Nat) (d : Dev) : (l.foldl (fun d t => d.onPt t (g t)) d).tb = d.tb :=
  foldl_keeps Dev.tb (fun d t => d.onPt t (g t)) (fun _ _ => rfl) l d

theorem protTrees_nodup (d : Dev) : d.protTrees.Nodup := List.nodup_range.filter _

theorem mem_protTrees {d : Dev} {t : Nat} (h : d.isProt t = true) : t ∈ d.protTrees := by
  have hb := h
  simp only [Dev.isProt, Bool.and_eq_true, decide_eq_true_eq] at hb
  exact List.mem_filter.mpr ⟨List.mem_range.mpr hb.1.2, h⟩

/-- A control cell sent touches only what waits to be sent and what has left. -/
theorem cellOut_px (d : Dev) (kind t sfc : Nat) (content : List Byte) : (d.cellOut kind t sfc content).px.trees = d.px.trees ∧
    (d.cellOut kind t sfc content).px.lastNo = d.px.lastNo ∧ (d.cellOut kind t sfc content).px.buf = d.px.buf := by
  unfold Dev.cellOut Dev.cellPartOut Dev.mateAdvance
  split
  · extract_lets w x n
    split <;> simp only [Dev.onPx_px, and_self]
  · exact ⟨rfl, rfl, rfl⟩

theorem cellOut_regs (d : Dev) (kind t sfc : Nat) (content : List Byte) : (d.cellOut kind t sfc content).regs = d.regs := by
  obtain ⟨f, hf⟩ := mateAdvance_eq d
  unfold Dev.cellOut Dev.cellPartOut
  split
  · rw [hf]
    rfl
  · rfl

/-! ### HELLO (R436, R449) -/

/-- A HELLO's four times are read the same in what it has changed so far. -/
theorem matePhase_congr {d d' : Dev} (ht : d'.tb = d.tb) (hb : d'.px.bndC = d.px.bndC) (h : HelloIn) : d'.matePhase h = d.matePhase h := by
  simp only [Dev.matePhase, Dev.cPs, ht, hb]

/-- A two's complement word of w bits. -/
theorem unsigned_lt (w : Nat) (x : Int) : unsigned w x < 2 ^ w := by
  have hpos : (0 : Int) < (2 ^ w : Nat) := by exact_mod_cast Nat.two_pow_pos w
  have hlt := Int.emod_lt_of_pos x hpos
  have hge := Int.emod_nonneg x (ne_of_gt hpos)
  unfold unsigned
  omega

/-- What a HELLO of a hot pair with a good lane leaves: the pairing, its times, and what it tells of each protected tree. -/
theorem hello_px {d : Dev} {h : HelloIn} (hhot : d.hot = true) (hgood : d.goodMateLanes ≠ []) :
    ((d.hello h).px.matched = true ↔ h.structId = d.structId ∧ h.role = 3 - d.im.str.role ∧ h.mode = d.im.str.mode ∧
      h.trees = d.im.str.protTrees ∧ ∃ k, d.px.pairKey = some k ∧ h.check = some (pairCheck k)) ∧
    (d.hello h).px.helloAge = some 0 ∧ (d.hello h).px.lastRx = some (h.c, d.cPs) ∧
    (∀ t, d.isProt t = true → ((d.hello h).pt t).mate = PxTreeState.ofCode (bits h.states (2 * t + 1) (2 * t)) ∧
      ((d.hello h).pt t).mateFit = bit h.fit t) ∧
    ∀ p, d.matePhase h = some p → (d.hello h).reg (R .PX_MATE_PHASE) = unsigned 32 p := by
  have hempty : d.goodMateLanes.isEmpty = false := by simpa using hgood
  generalize hx : d.hello h = x
  unfold Dev.hello at hx
  rw [if_neg (by simp [hhot, hempty]), cellsInBy_hot hhot] at hx
  extract_lets s same becomes d1 d2 at hx
  have hpx2 : d2.px = d1.px := by
    unfold d2
    split <;> simp
  have hd1 : d1.px = { d.px with
      cellsIn := d.px.cellsIn + 1, helloAge := some 0, matched := same, lastRx := some (h.c, d.cPs), trees := d1.px.trees } :=
    px_foldl_onPt _ d.protTrees _
  have htb : d2.tb = d.tb := by
    have htb1 : d1.tb = d.tb := tb_foldl_onPt _ d.protTrees _
    rw [← htb1]
    unfold d2
    split <;> simp
  have hphase : x.px = d1.px ∧ ∀ p, d.matePhase h = some p → x.reg (R .PX_MATE_PHASE) = unsigned 32 p := by
    rw [matePhase_congr htb (by rw [hpx2, hd1])] at hx
    cases hm : d.matePhase h with
    | none =>
      rw [hm] at hx
      subst hx
      exact ⟨hpx2, fun p hp => by cases hp⟩
    | some p =>
      rw [hm] at hx
      dsimp only at hx
      have hreg : (d2.setReg (R .PX_MATE_PHASE) (unsigned 32 p)).reg (R .PX_MATE_PHASE) = unsigned 32 p := by
        rw [Dev.reg_setReg _ _ _ (Reg.reset_lt _), Nat.mod_eq_of_lt (unsigned_lt 32 p)]
      subst hx
      split
      · refine ⟨by simp [Dev.raiseLevel, apply_ite Dev.px, hpx2], fun q hq => ?_⟩
        cases hq
        rw [Dev.raiseLevel_reg_ne _ _ _ (by decide) (by decide), hreg]
      · refine ⟨hpx2, fun q hq => ?_⟩
        cases hq
        exact hreg
  obtain ⟨hpx, hphase⟩ := hphase
  refine ⟨?_, ?_, ?_, fun t ht => ?_, hphase⟩
  · rw [hpx, hd1]
    show same = true ↔ _
    cases hc : h.check <;> cases hk : d.px.pairKey <;> simp [same, s, hc, hk, and_assoc]
  · rw [hpx, hd1]
  · rw [hpx, hd1]
  · rw [Dev.pt, hpx, ← Dev.pt]
    unfold d1
    rw [pt_foldl_onPt _ (protTrees_nodup d), if_pos (mem_protTrees ht)]
    exact ⟨rfl, rfl⟩

theorem hello_leaves (d : Dev) (h : HelloIn) : CellLeaves d (d.hello h) := by
  unfold Dev.hello
  split
  · exact Leaves.refl d
  · extract_lets s same becomes d1 d2
    have h1 : CellLeaves d d1 := ((leaves_cellsInBy d _ (by decide)).trans (leaves_onPx _ _ (by decide))).trans
      (Leaves.foldl (fun d t => leaves_onPx d _ (by decide)) _ _)
    have h2 : CellLeaves d d2 := h1.trans (Leaves.ite (leaves_raiseRec_report _ _ _ _ _ _ _ (by decide) (by decide)) (Leaves.refl _))
    split
    · exact h2
    · exact h2.trans ((leaves_setReg d2 _ _ (by decide)).trans
        (Leaves.ite (leaves_raiseLevel_report _ _ _ _ (by decide) (by decide)) (Leaves.refl _)))

/-! ### Marker cells (R87, R88, R446, R447) -/

theorem mlLane_addr (i : Nat) : (R .LX_ML_STATUS i).addr = 0x640004 + 0x4000 * i ∧ (R .LX_ML_FLAGS i).addr = 0x640008 + 0x4000 * i ∧
    (R .LX_ML_SKEW i).addr = 0x640024 + 0x4000 * i := ⟨rfl, rfl, rfl⟩

/-- The lanes of the mate link's group are mate lanes. -/
theorem mateGroup_lt {d : Dev} {x : Nat × Nat × Nat} (h : x ∈ d.mateGroup) : x.1 < 4 := by
  simp only [Dev.mateGroup, Dev.goodMateLanes, List.mem_filterMap, List.mem_filter, List.mem_range, Option.map_eq_some_iff] at h
  obtain ⟨m, ⟨hm, -⟩, y, -, rfl⟩ := h
  exact hm

theorem Leaves.foldl_mem {ps : List Part} {reg : Nat → Bool} {β : Type} {f : Dev → β → Dev} (l : List β)
    (h : ∀ (d : Dev), ∀ b ∈ l, Leaves ps reg d (f d b)) (d : Dev) : Leaves ps reg d (l.foldl f d) := by
  induction l generalizing d with
  | nil => exact Leaves.refl d
  | cons b l ih => exact (h d b (List.mem_cons_self ..)).trans (ih (fun d b hb => h d b (List.mem_cons_of_mem _ hb)) _)

theorem leaves_writeSkew {d : Dev} {g : List (Nat × Nat × Nat)} (hg : ∀ x ∈ g, x.1 < 4) : CellLeaves d (d.writeSkew .ml g) := by
  have hreg (x : Nat × Nat × Nat) (hx : x ∈ g) : block 0 0x1000000 (R .LX_ML_FLAGS x.1).addr = true ∧
      block 0 0x1000000 (R .LX_ML_SKEW x.1).addr = true := by
    obtain ⟨-, hf, hs⟩ := mlLane_addr x.1
    have := hg x hx
    rw [hf, hs]
    simp only [block, decide_eq_true_eq]
    omega
  refine (Leaves.foldl_mem g (fun d x hx => leaves_setReg d _ _ (hreg x hx).2) d).trans (Leaves.foldl_mem g (fun d x hx => ?_) _)
  exact (leaves_onLx d _ (by decide)).trans (Leaves.ite (leaves_raise _ _ _ (hreg x hx).1) (Leaves.refl _))

theorem leaves_mateLinkDown (d : Dev) : CellLeaves d d.mateLinkDown :=
  Leaves.ite (((leaves_onLx d _ (by decide)).trans (leaves_onPx _ _ (by decide))).trans
    (leaves_raiseRec_report _ _ _ _ _ _ _ (by decide) (by decide))) (Leaves.refl d)

theorem leaves_markerLock {d : Dev} {m : Nat} (hm : m < 4) : CellLeaves d (d.markerLock m) := by
  refine Leaves.ite ((leaves_setFld d _ _ _ _ ?_).trans (Leaves.ite (leaves_onLx _ _ (by decide)) (Leaves.refl _))) (Leaves.refl d)
  rw [(mlLane_addr m).1]
  simp only [block, decide_eq_true_eq]
  omega

theorem markerCell_leaves {d : Dev} {m : Nat} (hm : m < 4) (lane delay mask seq : Nat) :
    CellLeaves d (d.markerCell m lane delay mask seq) := by
  unfold Dev.markerCell
  extract_lets locked spaced d1 next d2
  refine Leaves.ite (Leaves.refl d) ?_
  have h2 : CellLeaves d d2 := ((leaves_onPx d _ (by decide)).trans (leaves_onLx _ _ (by decide))).trans
    (Leaves.ite (leaves_markerLock hm) (Leaves.refl _))
  exact (h2.trans (leaves_writeSkew fun x hx => mateGroup_lt hx)).trans (leaves_mateLinkDown _)

/-- The end of the mate link leaves what the markers and the lanes have shown. -/
theorem mateLinkDown_keeps (d : Dev) : d.mateLinkDown.px.mateMask = d.px.mateMask ∧ d.mateLinkDown.lx.delays = d.lx.delays ∧
    d.mateLinkDown.im = d.im ∧ (d.mateLinkDown.lx.mateUp = d.lx.mateUp → d.mateLinkDown.px.rxSeq = d.px.rxSeq) ∧
    ∀ r : Reg, reportAddr r.addr = false → d.mateLinkDown.reg r = d.reg r := by
  unfold Dev.mateLinkDown
  split
  case isTrue h =>
    have hup : d.lx.mateUp = true := by
      simp only [Bool.and_eq_true] at h
      exact h.1
    refine ⟨by simp, by simp, by simp, fun hd => by simp [hup] at hd, fun r hr => ?_⟩
    rw [Dev.raiseRec_reg_ne _ _ _ _ _ _ _ _ (reportAddr_ob hr) (by rintro hc; rw [← hc] at hr; exact absurd hr (by decide))]
    rfl
  case isFalse => exact ⟨rfl, rfl, rfl, fun _ => rfl, fun _ _ => rfl⟩

theorem mlLane_ob (i : Nat) : obAddr (R .LX_ML_STATUS i).addr = false ∧ obAddr (R .LX_ML_SKEW i).addr = false := by
  obtain ⟨hs, -, hk⟩ := mlLane_addr i
  simp only [obAddr, hs, hk, decide_eq_false_iff_not]
  omega

/-- Words with the same VALID written to the skew of the lanes of a group. -/
theorem flag_foldl_mlSkew {v : Nat × Nat × Nat → Nat} {ok : Bool} (hv : ∀ x, v x < 2 ^ 32 ∧ bit (v x) 15 = ok) (g : List (Nat × Nat × Nat))
    (d : Dev) (i : Nat) (h : (∃ x ∈ g, x.1 = i) ∨ d.flag (R .LX_ML_SKEW i) 15 = ok) :
    (g.foldl (fun d x => d.setReg (R .LX_ML_SKEW x.1) (v x)) d).flag (R .LX_ML_SKEW i) 15 = ok := by
  induction g generalizing d with
  | nil =>
    obtain ⟨x, hx, -⟩ | h := h
    · cases hx
    · exact h
  | cons y g ih =>
    refine ih _ ?_
    by_cases hy : y.1 = i
    · subst hy
      obtain ⟨hlt, hbit⟩ := hv y
      refine Or.inr ?_
      rw [Dev.flag, Dev.reg_setReg _ _ _ (Reg.reset_lt _), Nat.mod_eq_of_lt hlt, hbit]
    · have hne : (R .LX_ML_SKEW y.1).addr ≠ (R .LX_ML_SKEW i).addr := by
        rw [(mlLane_addr y.1).2.2, (mlLane_addr i).2.2]
        omega
      obtain ⟨x, hx, hxi⟩ | h := h
      · rcases List.mem_cons.mp hx with rfl | hx
        · exact absurd hxi hy
        · exact Or.inl ⟨x, hx, hxi⟩
      · exact Or.inr ((congrArg (bit · 15) (Dev.reg_setReg_ne d _ _ _ hne)).trans h)

/-- SKEW_UI with VALID fits its word. -/
theorem skewWord (ok : Bool) (n : Nat) : 2 ^ 15 * b2n ok + min n 16383 < 2 ^ 32 ∧ bit (2 ^ 15 * b2n ok + min n 16383) 15 = ok := by
  have hmin : min n 16383 ≤ 16383 := Nat.min_le_right _ _
  cases ok
  · rw [show b2n false = 0 from rfl, bit, beq_eq_false_iff_ne]
    omega
  · rw [show b2n true = 1 from rfl, bit, beq_iff_eq]
    omega

/-- A mate lane is marked as beyond the tolerance or not: the second half of `writeSkew`. -/
def markSkew (lo : Nat) (d : Dev) (x : Nat × Nat × Nat) : Dev :=
  let beyond := decide (skewLimit .ml < x.2.2 - lo)
  let was := d.lx.skewed.contains (holdKey .ml x.1)
  let d1 := d.onLx fun y =>
    { y with skewed := (y.skewed.filter fun z => z ≠ holdKey .ml x.1) ++ if beyond then [holdKey .ml x.1] else [] }
  if beyond ∧ !was then d1.raise (R .LX_ML_FLAGS x.1) 5 else d1

/-- The SKEW word of a lane whose group's earliest delay is lo. -/
def skewOf (ok : Bool) (lo : Nat) (x : Nat × Nat × Nat) : Nat := 2 ^ 15 * b2n ok + min (x.2.2 - lo) 16383

theorem writeSkew_eq (d : Dev) (g : List (Nat × Nat × Nat)) : ∃ lo, d.writeSkew .ml g =
    g.foldl (markSkew lo) (g.foldl (fun d x => d.setReg (R .LX_ML_SKEW x.1) (skewOf (groupAligns .ml g) lo x)) d) := ⟨_, rfl⟩

theorem markSkew_reg (lo : Nat) (d : Dev) (x : Nat × Nat × Nat) {r : Reg} (hr : obAddr r.addr = false)
    (hne : ∀ i, (R .LX_ML_FLAGS i).addr ≠ r.addr) : (markSkew lo d x).reg r = d.reg r := by
  unfold markSkew
  extract_lets beyond was d1
  split
  · exact Dev.raise_reg_ne _ _ _ _ hr (hne _)
  · rfl

/-- What no write of the skew changes. -/
def skewApart (d : Dev) : PxState × ImState × Table (Nat × Nat) × Bool × (Nat → Nat) :=
  (d.px, d.im, d.lx.delays, d.lx.mateUp, fun m => d.reg (R .LX_ML_STATUS m))

theorem markSkew_apart (lo : Nat) (d : Dev) (x : Nat × Nat × Nat) : skewApart (markSkew lo d x) = skewApart d := by
  have hreg (m : Nat) : (markSkew lo d x).reg (R .LX_ML_STATUS m) = d.reg (R .LX_ML_STATUS m) :=
    markSkew_reg lo d x (mlLane_ob m).1 fun i => by rw [(mlLane_addr i).2.1, (mlLane_addr m).1]; omega
  have hlx : (markSkew lo d x).lx.delays = d.lx.delays ∧ (markSkew lo d x).lx.mateUp = d.lx.mateUp ∧ (markSkew lo d x).px = d.px ∧
      (markSkew lo d x).im = d.im := by
    unfold markSkew
    extract_lets beyond was d1
    split <;> simp [d1]
  obtain ⟨hdelays, hup, hpx, him⟩ := hlx
  simp only [skewApart, hreg, hdelays, hup, hpx, him]

theorem setSkew_apart (d : Dev) (i v : Nat) : skewApart (d.setReg (R .LX_ML_SKEW i) v) = skewApart d := by
  have hreg (m : Nat) : (d.setReg (R .LX_ML_SKEW i) v).reg (R .LX_ML_STATUS m) = d.reg (R .LX_ML_STATUS m) :=
    Dev.reg_setReg_ne _ _ _ _ (by rw [(mlLane_addr i).2.2, (mlLane_addr m).1]; omega)
  simp only [skewApart, hreg]
  rfl

/-- The skew of a group of mate lanes: each lane's VALID is the group's, and beside the lanes' own flags and skew nothing but which of
them are beyond the tolerance changes. -/
theorem writeSkew_ml (d : Dev) (g : List (Nat × Nat × Nat)) :
    (∀ x ∈ g, (d.writeSkew .ml g).flag (R .LX_ML_SKEW x.1) 15 = groupAligns .ml g) ∧
      skewApart (d.writeSkew .ml g) = skewApart d := by
  obtain ⟨lo, h⟩ := writeSkew_eq d g
  rw [h]
  constructor
  · intro x hx
    rw [Dev.flag, foldl_keeps (·.reg (R .LX_ML_SKEW x.1)) _ fun e y =>
      markSkew_reg lo e y (mlLane_ob _).2 fun i => by rw [(mlLane_addr i).2.1, (mlLane_addr x.1).2.2]; omega]
    exact flag_foldl_mlSkew (fun y => skewWord _ (y.2.2 - lo)) g d x.1 (Or.inl ⟨x, hx, rfl⟩)
  · rw [foldl_keeps skewApart _ fun e y => markSkew_apart lo e y]
    exact foldl_keeps skewApart _ (fun e y => setSkew_apart e y.1 _) g d

/-- The group of the mate link depends on the mate lanes' status and the delays alone. -/
theorem mateGroup_congr {d d' : Dev} (him : d'.im = d.im) (hdelays : d'.lx.delays = d.lx.delays)
    (hreg : ∀ m < 4, d'.reg (R .LX_ML_STATUS m) = d.reg (R .LX_ML_STATUS m)) : d'.mateGroup = d.mateGroup := by
  have hgood : d'.goodMateLanes = d.goodMateLanes := List.filter_congr fun m hm => by
    simp only [Dev.laneRole, Dev.flag, him, hreg m (List.mem_range.mp hm)]
  simp only [Dev.mateGroup, hgood, hdelays]

theorem foldl_min_le (l : List Nat) (a : Nat) : l.foldl min a ≤ a ∧ ∀ b ∈ l, l.foldl min a ≤ b := by
  induction l generalizing a with
  | nil => exact ⟨le_rfl, fun _ h => by cases h⟩
  | cons c l ih =>
    obtain ⟨hle, hall⟩ := ih (min a c)
    refine ⟨hle.trans (min_le_left _ _), fun b hb => ?_⟩
    rcases List.mem_cons.mp hb with rfl | hb
    · exact hle.trans (min_le_right _ _)
    · exact hall b hb

/-- A group aligns only within its tolerance. -/
theorem groupAligns_within {k : LaneKind} {g : List (Nat × Nat × Nat)} (h : groupAligns k g = true) {x y : Nat × Nat × Nat} (hx : x ∈ g)
    (hy : y ∈ g) : x.2.2 ≤ y.2.2 + skewLimit k := by
  simp only [groupAligns, Bool.and_eq_true, List.all_eq_true, List.mem_map, decide_eq_true_eq] at h
  have hx := h.2 _ ⟨x, hx, rfl⟩
  have hy := (foldl_min_le (g.map fun x => x.2.2) x.2.2).2 y.2.2 (List.mem_map_of_mem hy)
  omega

/-- A marker lock touches the lane's status and the time from which it has been clear. -/
theorem markerLock_keeps (d : Dev) (m : Nat) : (d.markerLock m).px = d.px ∧ (d.markerLock m).im = d.im ∧
    (d.markerLock m).lx.delays = d.lx.delays ∧ (d.markerLock m).lx.mateUp = d.lx.mateUp := by
  unfold Dev.markerLock Dev.mateClean
  split
  · split <;> exact ⟨rfl, rfl, rfl, rfl⟩
  · exact ⟨rfl, rfl, rfl, rfl⟩

theorem markerLock_flag {d : Dev} {m : Nat} (h : d.laneRole .ml m = 5) : (d.markerLock m).flag (R .LX_ML_STATUS m) 6 = true := by
  have hset : (d.setFld (R .LX_ML_STATUS m) 6 6 1).flag (R .LX_ML_STATUS m) 6 = true := Dev.flag_setFld _ _ _ (by decide)
  unfold Dev.markerLock Dev.mateClean
  rw [if_pos h]
  split
  · exact hset
  · exact hset

theorem mlLane_report {m : Nat} (hm : m < 4) : reportAddr (R .LX_ML_STATUS m).addr = false ∧ reportAddr (R .LX_ML_SKEW m).addr = false := by
  interval_cases m <;> decide

section

variable {d : Dev} {m lane delay mask seq : Nat} (hrole : d.laneRole .ml m = 5) (hoff : d.rxOff .ml m = false)
  (hspaced : d.flag (R .LX_ML_STATUS m) 6 = true → ∀ a, d.px.markers.get? m = some a → markerSpaced a d.tb.ticks = true)

include hrole hoff hspaced

/-- A marker cell that its lane takes: what it shows enters the deskew, and the lane locks where it stands 1,024 codewords behind the
one before. -/
theorem markerCell_taken : (d.markerCell m lane delay mask seq).px.mateMask = mask % 16 ∧
    (d.markerCell m lane delay mask seq).lx.delays.get? m = some (lane, delay) ∧
    ((d.markerCell m lane delay mask seq).lx.mateUp = d.lx.mateUp →
      (d.markerCell m lane delay mask seq).px.rxSeq = some (d.px.rxSeq.getD (seq % 2 ^ 32))) ∧
    (∀ a, d.px.markers.get? m = some a → (d.tb.ticks - a + 40) / 80 = 1024 → m < 4 →
      (d.markerCell m lane delay mask seq).flag (R .LX_ML_STATUS m) 6 = true) ∧
    ∀ x ∈ (d.markerCell m lane delay mask seq).mateGroup, (d.markerCell m lane delay mask seq).flag (R .LX_ML_SKEW x.1) 15 =
      groupAligns .ml (d.markerCell m lane delay mask seq).mateGroup := by
  have htaken : ¬(d.laneRole .ml m ≠ 5 ∨ d.rxOff .ml m = true ∨ (d.flag (R .LX_ML_STATUS m) 6 = true ∧
      (d.px.markers.get? m).map (fun a => markerSpaced a d.tb.ticks) = some false)) := by
    rintro (h | h | ⟨hl, h⟩)
    · exact h hrole
    · simp [hoff] at h
    · obtain ⟨a, ha, hs⟩ := Option.map_eq_some_iff.mp h
      simp [hspaced hl a ha] at hs
  generalize hx : d.markerCell m lane delay mask seq = x
  unfold Dev.markerCell at hx
  extract_lets locked spaced d1 next d2 at hx
  rw [if_neg htaken] at hx
  have h2 : d2.px = d1.px ∧ d2.lx.delays = d1.lx.delays ∧ d2.lx.mateUp = d.lx.mateUp := by
    unfold d2
    split
    · obtain ⟨hpx, -, hdelays, hup⟩ := markerLock_keeps d1 m
      exact ⟨hpx, hdelays, hup⟩
    · exact ⟨rfl, rfl, rfl⟩
  obtain ⟨hpx2, hdelays2, hup2⟩ := h2
  obtain ⟨hvalid, happart⟩ := writeSkew_ml d2 d2.mateGroup
  simp only [skewApart, Prod.mk.injEq] at happart
  obtain ⟨hpx, him, hdelays, hup, hreg⟩ := happart
  obtain ⟨dmask, ddelays, dim, dseq, dreg⟩ := mateLinkDown_keeps (d2.writeSkew .ml d2.mateGroup)
  rw [hx] at dmask ddelays dim dseq dreg
  have hstatus (k : Nat) (hk : k < 4) : x.reg (R .LX_ML_STATUS k) = d2.reg (R .LX_ML_STATUS k) :=
    (dreg _ (mlLane_report hk).1).trans (congrFun hreg k)
  refine ⟨?_, ?_, fun h => ?_, fun a ha hn hm => ?_, ?_⟩
  · rw [dmask, hpx, hpx2]
    rfl
  · rw [ddelays, hdelays, hdelays2]
    exact (Table.get?_set _ _ _ _).trans (if_pos rfl)
  · rw [dseq (h.trans (hup2.symm.trans hup.symm)), hpx, hpx2]
    cases hr : d.px.rxSeq <;> simp [d1, hr]
  · have hnext : next = true := by simp [next, ha, hn]
    rw [Dev.flag, hstatus m hm, ← Dev.flag]
    unfold d2
    rw [if_pos hnext]
    exact markerLock_flag (d := d1) hrole
  · have hgroup : x.mateGroup = d2.mateGroup := mateGroup_congr (dim.trans him) (ddelays.trans hdelays) hstatus
    rw [hgroup]
    intro y hy
    rw [Dev.flag, dreg _ (mlLane_report (mateGroup_lt hy)).2, ← Dev.flag]
    exact hvalid y hy

end

/-! ### Requests, commits, maps and needs (R441, R443, R449, R456) -/

theorem commitSwitch_pt (d : Dev) (t cause : Nat) :
    ((d.commitSwitch t cause).pt t).change = some (d.rx.bnd + (if d.sinceBnd 115 then 1 else 2), cause) := by
  unfold Dev.commitSwitch
  extract_lets n
  rw [Dev.pt, (cellOut_px _ _ _ _ _).1, ← Dev.pt, pt_onPt_self]

theorem switchReqCell_leaves (d : Dev) (t cause : Nat) : CellLeaves d (d.switchReqCell t cause) := by
  unfold Dev.switchReqCell
  extract_lets d'
  have h : CellLeaves d d' := leaves_cellsInBy d 1 (by decide)
  exact h.trans (Leaves.ite (Leaves.refl _) (Leaves.ite (leaves_switchRequest _ (by decide) (by decide) _ _) (Leaves.refl _)))

theorem commitCell_leaves (d : Dev) (t sfc cause : Nat) : CellLeaves d (d.commitCell t sfc cause) := by
  unfold Dev.commitCell
  extract_lets d' n
  have h : CellLeaves d d' := leaves_cellsInBy d 1 (by decide)
  exact h.trans (Leaves.ite (Leaves.refl _) (Leaves.ite (leaves_onPx _ _ (by decide)) (Leaves.refl _)))

theorem mapCell_leaves (d : Dev) (t sfc part parts : Nat) (replayed : Bool) (ss : List MapStruct) :
    CellLeaves d (d.mapCell t sfc part parts replayed ss) := by
  unfold Dev.mapCell
  extract_lets d' st frame taken old m d1
  have h : CellLeaves d d' := leaves_cellsInBy d 1 (by decide)
  have h1 : CellLeaves d d1 := h.trans (leaves_onPx _ _ (by decide))
  exact Leaves.ite h (Leaves.ite (h1.trans (leaves_onRx _ _ (by decide))) h1)

theorem needCell_leaves (d : Dev) (t : Nat) (slots : List Nat) : CellLeaves d (d.needCell t slots) := by
  unfold Dev.needCell
  extract_lets d'
  have h : CellLeaves d d' := leaves_cellsInBy d 1 (by decide)
  exact Leaves.ite (h.trans (leaves_onRx _ _ (by decide))) h

theorem recordCell_leaves (d : Dev) (bytes : List Byte) : CellLeaves d (d.recordCell bytes) := by
  unfold Dev.recordCell
  extract_lets d'
  have h : CellLeaves d d' := leaves_cellsInBy d _ (by decide)
  exact Leaves.ite (h.trans (leaves_makeRec (by decide) _ _ _ _ _ _ _)) h

theorem resyncReqCell_leaves (d : Dev) : CellLeaves d d.resyncReqCell := by
  unfold Dev.resyncReqCell
  extract_lets d'
  have h : CellLeaves d d' := leaves_cellsInBy d _ (by decide)
  exact Leaves.ite (h.trans (leaves_onPx _ _ (by decide))) h

section

variable {d : Dev} (hlink : d.linkUp = true)

include hlink

theorem resyncReqCell_due (h : d.driven ≠ []) : d.resyncReqCell.px.passDue = true := by
  unfold Dev.resyncReqCell
  rw [cellsInBy_hot (hot_of_linkUp hlink)]
  rw [if_pos]
  · rfl
  · have hdriven : d.driven.isEmpty = false := by simpa using h
    show (d.linkUp && !d.driven.isEmpty) = true
    rw [hlink, hdriven]
    rfl

variable {t : Nat} (hprot : d.isProt t = true)

include hprot

theorem switchReqCell_commits {cause : Nat} (ha : (d.pt t).state = .active) (hc : (d.pt t).change = none)
    (he : d.eligibleSwitch t = true) :
    ((d.switchReqCell t cause).pt t).change = some (d.rx.bnd + (if d.sinceBnd 115 then 1 else 2), cause) := by
  unfold Dev.switchReqCell
  rw [cellsInBy_hot (hot_of_linkUp hlink)]
  extract_lets d'
  have hd' : d'.linkUp = true ∧ d'.isProt t = true ∧ (d'.pt t).state = .active ∧ (d'.pt t).change = none ∧ d'.eligibleSwitch t = true :=
    ⟨hlink, hprot, ha, hc, he⟩
  obtain ⟨hlink', hprot', ha', hc', he'⟩ := hd'
  rw [if_neg (by simp [hlink', hprot']), if_pos (by simp [ha', hc'])]
  have hreq : (d'.switchRequest t cause).1 = d'.commitSwitch t cause := by
    unfold Dev.switchRequest
    extract_lets x
    have hstate : x.state = .active := ha'
    have hchange : x.change = none := hc'
    rw [hstate, hchange]
    simp only [he', if_true]
  rw [hreq]
  exact commitSwitch_pt d' t cause

theorem commitCell_takes {sfc cause : Nat} {n : Int} (hs : (d.pt t).state = .standby)
    (hn : n = signed 32 (sfc + 2 ^ 32 - d.sfc t % 2 ^ 32)) (h1 : 1 < n) :
    ((d.commitCell t sfc cause).pt t).change = some (d.rx.bnd + n.toNat, cause) := by
  subst hn
  unfold Dev.commitCell
  rw [cellsInBy_hot (hot_of_linkUp hlink)]
  extract_lets d' k
  have hd' : d'.linkUp = true ∧ d'.isProt t = true ∧ (d'.pt t).state = .standby := ⟨hlink, hprot, hs⟩
  obtain ⟨hlink', hprot', hs'⟩ := hd'
  have hk : 1 < k := h1
  rw [if_neg (by simp [hlink', hprot']), if_pos ⟨hs', by omega, Or.inl hk⟩, pt_onPt_self]
  rfl

theorem mapCell_holds {sfc part parts : Nat} {replayed : Bool} {ss : List MapStruct} {n : Int} (hs : (d.pt t).state = .standby)
    (hp : parts ≠ 0) (hn : n = signed 32 (sfc + 2 ^ 32 - d.sfc t % 2 ^ 32)) (h0 : 0 < n) :
    ∃ m ∈ (d.mapCell t sfc part parts replayed ss).px.mapsIn, m.tree = t ∧ m.frame = d.sfc t + n.toNat ∧
      m.got.get? part = some (ss.take 75) := by
  subst hn
  unfold Dev.mapCell
  rw [cellsInBy_hot (hot_of_linkUp hlink)]
  extract_lets d' st frame taken old m d1
  have hd' : d'.linkUp = true ∧ d'.isProt t = true ∧ st = .standby := ⟨hlink, hprot, hs⟩
  obtain ⟨hlink', hprot', hs'⟩ := hd'
  have hframe : ¬frame ≤ d'.sfc t := by
    show ¬d.sfc t + (signed 32 (sfc + 2 ^ 32 - d.sfc t % 2 ^ 32)).toNat ≤ d.sfc t
    omega
  rw [if_neg (by simp [hlink', hprot', hs', hp, hframe])]
  have hold : old.tree = t ∧ old.frame = frame := by
    unfold old
    cases hf : d'.px.mapsIn.find? fun m => m.tree == t && m.frame == frame with
    | none => exact ⟨rfl, rfl⟩
    | some m =>
      have := List.find?_some hf
      simpa using this
  obtain ⟨htree, hfr⟩ := hold
  refine ⟨m, ?_, htree, hfr, by simp [m]⟩
  have hmem : m ∈ d1.px.mapsIn := List.mem_append_right _ (List.mem_singleton_self m)
  split
  · exact hmem
  · exact hmem

theorem needCell_need (slots : List Nat) : ((d.needCell t slots).gs t).need = slots.filter fun x => decide (x < 512) := by
  unfold Dev.needCell
  rw [cellsInBy_hot (hot_of_linkUp hlink)]
  rw [if_pos (by show (d.linkUp && d.isProt t) = true; rw [hlink, hprot]; rfl)]
  simp only [Dev.gs, Dev.onGs, Dev.onRx_rx, Table.getD_put, if_true]

end

/-! ### Records (R524) -/

theorem makeRoom_fits {o : ObState} {n : Nat} (k : Nat) (h : o.stagedBytes + n ≤ 65536) : makeRoom k n o = (o, 0) := by
  cases k with
  | zero => rfl
  | succ k => exact if_pos h

/-- Staging gains at most the LOSS record that is due. -/
theorem lossIn_staging (o : ObState) (r : Rec) : ∃ rest, (o.lossIn r).staging = o.staging ++ rest ∧ (o.loss = none → rest = []) := by
  unfold ObState.lossIn
  split
  · split
    · exact ⟨[], by simp, fun _ => rfl⟩
    · exact ⟨_, rfl, fun h => by simp_all⟩
  · exact ⟨[], by simp, fun _ => rfl⟩

/-- A record appended before the LOSS record that may be due. -/
theorem lossIn_after (r : Rec) (o : ObState) : ∃ rest, ({ o with staging := o.staging ++ [r] }.lossIn r).staging = o.staging ++ r :: rest ∧
    (o.loss = none → rest = []) := by
  obtain ⟨rest, hst, hrest⟩ := lossIn_staging { o with staging := o.staging ++ [r] } r
  exact ⟨rest, by rw [hst]; simp, hrest⟩

/-- A record for which staging has room enters it, and a LOSS record may follow. -/
theorem stage_staging {d : Dev} {r : Rec} (h : d.ob.stagedBytes + r.len ≤ 65536) : ∃ rest, (d.stage r).ob.staging = d.ob.staging ++ r :: rest ∧
    (d.ob.loss = none → rest = []) := by
  unfold Dev.stage
  rw [makeRoom_fits _ h]
  dsimp only
  rw [if_pos h]
  exact lossIn_after r _

/-- A mate's record for which staging has room is the body of a MATE_RECORD (R524). -/
theorem recordCell_stages {d : Dev} {bytes : List Byte} (hlink : d.linkUp = true) (hpwr : d.ob.pwrFail = false)
    (hroom : d.ob.stagedBytes + 32 + bytes.length ≤ 65536) : ∃ r rest, (d.recordCell bytes).ob.staging = d.ob.staging ++ r :: rest ∧
      (d.ob.loss = none → rest = []) ∧ r.typ = 6 ∧ r.body = bytes := by
  unfold Dev.recordCell
  rw [cellsInBy_hot (hot_of_linkUp hlink)]
  extract_lets d'
  have hd' : d'.linkUp = true ∧ d'.ob = d.ob := ⟨hlink, rfl⟩
  obtain ⟨hlink', hob⟩ := hd'
  rw [if_pos hlink']
  unfold Dev.makeRec
  rw [if_neg (by simp [hob, hpwr])]
  extract_lets flags r
  obtain ⟨rest, hst, hrest⟩ := stage_staging (d := d'.onOb fun o => { o with stepped := false }) (r := r) (by
    show d.ob.stagedBytes + (32 + bytes.length) ≤ 65536
    omega)
  refine ⟨r, rest, ?_, hrest, rfl, rfl⟩
  rw [Dev.onOb_ob]
  simp only [Bool.and_false, Bool.false_eq_true, if_false]
  exact hst

/-! ### Copy frames (R453) -/

theorem copyBad_leaves (d : Dev) : CellLeaves d d.copyBad :=
  (((leaves_onPx d _ (by decide)).trans (leaves_setFld _ _ _ _ _ (by decide))).trans
    (leaves_raiseRec_report _ _ _ _ _ _ _ (by decide) (by decide))).trans (leaves_resyncReq _ (by decide))

theorem copyFrame_leaves (d : Dev) (cells : List CellRx) (lost : Bool) : CellLeaves d (d.copyFrame cells lost) := by
  unfold Dev.copyFrame
  extract_lets n bytes d'
  refine Leaves.ite (Leaves.refl d) ?_
  have h : CellLeaves d d' := (leaves_onPx d _ (by decide)).trans (leaves_seamStall _ _ _ _)
  split
  · exact h.trans (copyBad_leaves d')
  · exact h.trans (Leaves.ite (copyBad_leaves d') (leaves_onPx _ _ (by decide)))

theorem resyncReq_keeps (d : Dev) : d.resyncReq.regs = d.regs ∧ d.resyncReq.px.lastNo = d.px.lastNo ∧ d.resyncReq.px.buf = d.px.buf := by
  unfold Dev.resyncReq
  split
  · exact ⟨cellOut_regs _ _ _ _ _, (cellOut_px _ _ _ _ _).2⟩
  · exact ⟨rfl, rfl, rfl⟩

/-- A copy frame has been discarded: the copy is RESYNCING with nothing to follow, what was held stays, and COPY_BAD is set. -/
def copyDiscarded (e d : Dev) : Prop := d.copyState = 1 ∧ d.px.lastNo = none ∧ d.px.buf = e.px.buf ∧ d.flag (R .PX_FLAGS) 7 = true

theorem copyBad_discards (d : Dev) : copyDiscarded d d.copyBad := by
  unfold Dev.copyBad
  extract_lets d1
  obtain ⟨hregs, hlast, hbuf⟩ := resyncReq_keeps (d1.raiseRec (R .PX_FLAGS) 7 .px 0 false [(8, d.px.lastNo.getD 0)])
  refine ⟨?_, ?_, ?_, ?_⟩
  · rw [Dev.copyState, Dev.fld, Dev.reg_congr hregs, Dev.raiseRec_reg_ne _ _ _ _ _ _ _ _ (by decide) (by decide), ← Dev.fld]
    exact Dev.fld_setFld _ _ _ _ _ (by decide) (by decide)
  · rw [hlast, Dev.raiseRec_px]
    rfl
  · rw [hbuf, Dev.raiseRec_px]
    rfl
  · rw [Dev.flag, Dev.reg_congr hregs, Dev.raiseRec_reg_self _ _ _ _ _ _ _ (by decide), ← Dev.flag]
    exact Dev.flag_setFld _ _ _ (by decide)

theorem copyDiscarded_kept {e d d' : Dev} (h : copyDiscarded e d) (hk : d.Kept d') : copyDiscarded e d' := by
  obtain ⟨hstate, hlast, hbuf, hflag⟩ := h
  exact ⟨(hk.fld (by decide) _ _).trans hstate, by rw [hk.px, hlast], by rw [hk.px, hbuf],
    hk.flags _ (mem_levelRegs_one (by decide)) _ hflag⟩

theorem structId_count (d : Dev) (e : Nat) : (d.count e).structId = d.structId := by
  have hreg (i : Nat) (hi : i < 4) : (d.count e).reg (R .IM_STRUCTURE_ID i) = d.reg (R .IM_STRUCTURE_ID i) :=
    d.count_reg e _ (by interval_cases i <;> decide)
  simp only [Dev.structId, List.flatMap]
  congr 1
  exact List.map_congr_left fun i hi => by rw [hreg i (List.mem_range.mp hi)]

/-- A seam's stall counts and changes nothing that a copy frame is judged by. -/
theorem seamStall_keeps (d : Dev) (e before after : Nat) : (d.seamStall e before after).px = d.px ∧
    (d.seamStall e before after).structId = d.structId := by
  unfold Dev.seamStall
  split
  · exact ⟨d.count_px e, structId_count d e⟩
  · exact ⟨rfl, rfl⟩

theorem copyBad_discards_of {e d : Dev} (h : d.px.buf = e.px.buf) : copyDiscarded e d.copyBad := by
  obtain ⟨hstate, hlast, hbuf, hflag⟩ := copyBad_discards d
  exact ⟨hstate, hlast, hbuf.trans h, hflag⟩

section

variable {d : Dev} (hlink : d.linkUp = true) (cells : List CellRx) (lost : Bool)

include hlink

/-- A copy frame is judged after its cells have counted, which changes nothing that it is judged by. -/
theorem copyFrame_eq : ∃ d' : Dev, d'.px.pairKey = d.px.pairKey ∧ d'.px.buf = d.px.buf ∧ d'.px.lastNo = d.px.lastNo ∧
    d'.structId = d.structId ∧ ((d.copyBytes cells).bind (parseCopy (d.px.pairKey.getD 0)) = none → d.copyFrame cells lost = d'.copyBad) ∧
    ∀ f, (d.copyBytes cells).bind (parseCopy (d.px.pairKey.getD 0)) = some f → d.copyFrame cells lost =
      if lost = false ∧ f.structId = d.structId ∧ f.frameNo = (d.px.lastNo.map fun n => n + f.cadence).getD f.frameNo
      then d'.onPx fun x => { x with buf := some f, lastNo := some f.frameNo } else d'.copyBad := by
  unfold Dev.copyFrame
  extract_lets n bytes d'
  rw [if_neg (by simp [hlink])]
  obtain ⟨hpx, hid⟩ := seamStall_keeps (d.onPx fun x => { x with cellsIn := x.cellsIn + n, rxSeq := some (d.nextSeq cells) }) 0x7F1 0 (624 * n)
  have hkey : d'.px.pairKey = d.px.pairKey := by
    have := congrArg PxState.pairKey hpx
    exact this
  have hbuf : d'.px.buf = d.px.buf := by
    have := congrArg PxState.buf hpx
    exact this
  have hlast : d'.px.lastNo = d.px.lastNo := by
    have := congrArg PxState.lastNo hpx
    exact this
  have hid : d'.structId = d.structId := hid
  have hbytes : d.copyBytes cells = bytes := rfl
  rw [hbytes]
  clear_value d' bytes
  refine ⟨d', hkey, hbuf, hlast, hid, fun h => ?_, fun f h => ?_⟩
  · rw [hkey, h]
  · rw [hkey, h, hlast, hid]
    dsimp only
    cases d.px.lastNo with
    | none => cases lost <;> by_cases hs : f.structId = d.structId <;> simp [hs]
    | some n => cases lost <;> by_cases hs : f.structId = d.structId <;> by_cases hn : f.frameNo = n + f.cadence <;> simp [hs, hn]

end

end Sys2Proof.Safety

open Sys2Proof Sys2Proof.Machine Sys2Proof.Safety

/-- Settles O48: each cell's effect is computed on the device when it comes, and the step's end keeps it. That after a discard any
FRAME_NO starts anew is the model's choice (log entry 37). -/
theorem mateCellsTakeEffect : Obligations.MateCellsTakeEffect := by
  unfold Obligations.MateCellsTakeEffect
  rintro s dt _ rfl hq ha
  refine ⟨fun h hhot hgood => ?hello, fun m hm lane hlane delay mask seq hrole hoff hspaced => ?marker, fun hlink => ?linked⟩
  case hello =>
    obtain ⟨hmatched, hage, hrx, htrees, hphase⟩ := hello_px (h := h) hhot hgood
    refine (answers_cell (f := fun d => d.hello h) hq rfl ha (hello_leaves _ h)).imp fun d hd => ?_
    refine ⟨by rw [hd.px]; exact hmatched, by rw [hd.px]; exact hage, by rw [hd.px]; exact hrx, fun t ht => ?_, fun p hp => ?_⟩
    · rw [Dev.pt, hd.px]
      exact htrees t ht
    · rw [hd.reg (by decide)]
      exact hphase p hp
  case marker =>
    obtain ⟨hmask, hdelays, hseq, hlock, hvalid⟩ := markerCell_taken (lane := lane) (delay := delay) (mask := mask) (seq := seq) hrole hoff hspaced
    refine (answers_cell_of (f := fun d => d.markerCell m lane delay mask seq) hq ha hm rfl
      (markerCell_leaves hm lane delay mask seq)).imp fun d hd => ?_
    have hgroup : d.mateGroup = ((s.dev.elapse dt).markerCell m lane delay mask seq).mateGroup :=
      mateGroup_congr hd.im (by rw [hd.lx]) fun k hk => hd.reg (mlLane_report hk).1
    refine ⟨by rw [hd.px, hmask], by rw [hd.lx, hdelays], fun h => ?_, fun a hma hn => ?_, fun x hx => ⟨?_, fun h y hy => ?_⟩⟩
    · rw [hd.px]
      exact hseq (by rw [← hd.lx]; exact h)
    · rw [hd.flag (mlLane_report hm).1]
      exact hlock a hma hn hm
    · rw [hd.flag (mlLane_report (mateGroup_lt hx)).2, hgroup]
      exact hvalid x (hgroup ▸ hx)
    · exact groupAligns_within h hx hy
  case linked =>
    refine ⟨fun t ht hprot => ⟨fun cause hst hch hel => ?switch, fun sfc cause n hst hn h1 => ?commit,
      fun sfc part parts replayed ss n hst hp hn h0 => ?map, fun slots => ?need⟩, fun bytes hpwr hroom => ?record, fun _ hdriven => ?resync,
      fun cells lost bad hbad => ⟨fun h => ?broken, fun f h => ?whole⟩⟩
    case switch =>
      refine (answers_cell_of (f := fun d => d.switchReqCell t cause) hq ha ht rfl (switchReqCell_leaves _ t cause)).imp fun d hd => ?_
      rw [Dev.pt, hd.px]
      exact switchReqCell_commits hlink hprot hst hch hel
    case commit =>
      refine (answers_cell_of (f := fun d => d.commitCell t sfc cause) hq ha ht rfl (commitCell_leaves _ t sfc cause)).imp
        fun d hd => ?_
      rw [Dev.pt, hd.px]
      exact commitCell_takes hlink hprot hst hn h1
    case map =>
      refine (answers_cell_of (f := fun d => d.mapCell t sfc part parts replayed ss) hq ha ht rfl
        (mapCell_leaves _ t sfc part parts replayed ss)).imp fun d hd => ?_
      rw [hd.px]
      exact mapCell_holds hlink hprot hst hp hn h0
    case need =>
      refine (answers_cell_of (f := fun d => d.needCell t slots) hq ha ht rfl (needCell_leaves _ t slots)).imp fun d hd => ?_
      rw [Dev.gs, hd.rx_gs]
      exact needCell_need hlink hprot slots
    case record =>
      refine (answers_cell (f := fun d => d.recordCell bytes) hq rfl ha (recordCell_leaves _ bytes)).imp fun d hd => ?_
      rw [hd.ob_staging]
      exact recordCell_stages hlink hpwr hroom
    case resync =>
      subst_vars
      refine (answers_cell (f := fun d => d.resyncReqCell) hq rfl ha (resyncReqCell_leaves _)).imp fun d hd => ?_
      rw [hd.px]
      exact resyncReqCell_due hlink hdriven
    case broken =>
      subst hbad
      refine (answers_cell (f := fun d => d.copyFrame cells lost) hq rfl ha (copyFrame_leaves _ cells lost)).imp fun d hd => ?_
      obtain ⟨d', -, hbuf, -, -, hnone, -⟩ := copyFrame_eq hlink cells lost
      rw [hnone h] at hd
      exact copyDiscarded_kept (copyBad_discards_of hbuf) hd
    case whole =>
      subst hbad
      refine (answers_cell (f := fun d => d.copyFrame cells lost) hq rfl ha (copyFrame_leaves _ cells lost)).imp fun d hd => ?_
      obtain ⟨d', -, hbuf, -, -, -, hsome⟩ := copyFrame_eq hlink cells lost
      rw [hsome f h] at hd
      split
      case isTrue hok =>
        rw [if_pos hok] at hd
        exact ⟨by rw [hd.px]; rfl, by rw [hd.px]; rfl⟩
      case isFalse hno =>
        rw [if_neg hno] at hd
        exact copyDiscarded_kept (copyBad_discards_of hbuf) hd

end


section

namespace Sys2Proof.Safety

open Sys2Proof.Machine

/-! The registers of the lanes (R100 to R113): where they lie, and what an event or write of a lane leaves. -/

/-- The address of the register at an offset in a lane's block. -/
def laneAt (k : LaneKind) (off j : Nat) : Nat :=
  (match k with
    | .pt => 0x400000
    | .pb => 0x500000
    | .ul => 0x600000
    | .ml => 0x640000) + off + 0x4000 * j

theorem laneCtl_addr (k : LaneKind) (j : Nat) : (laneCtl k j).addr = laneAt k 0 j := by cases k <;> rfl
theorem laneStatus_addr (k : LaneKind) (j : Nat) : (laneStatus k j).addr = laneAt k 4 j := by cases k <;> rfl
theorem laneFlags_addr (k : LaneKind) (j : Nat) : (laneFlags k j).addr = laneAt k 8 j := by cases k <;> rfl
theorem lanePrbsCtl_addr (k : LaneKind) (j : Nat) : (lanePrbsCtl k j).addr = laneAt k 0x60 j := by cases k <;> rfl

theorem lanePrbsErr_addr {k : LaneKind} {j : Nat} {r : Reg} (h : lanePrbsErr k j = some r) : r.addr = laneAt k 0x64 j := by
  cases k <;> cases h <;> rfl
theorem lanePrbsBlocks_addr {k : LaneKind} {j : Nat} {r : Reg} (h : lanePrbsBlocks k j = some r) : r.addr = laneAt k 0x68 j := by
  cases k <;> cases h <;> rfl
theorem laneEyeCfg_addr {k : LaneKind} {j : Nat} {r : Reg} (h : laneEyeCfg k j = some r) : r.addr = laneAt k 0x40 j := by
  cases k <;> cases h <;> rfl
theorem laneEyeResult_addr {k : LaneKind} {j : Nat} {r : Reg} (h : laneEyeResult k j = some r) : r.addr = laneAt k 0x44 j := by
  cases k <;> cases h <;> rfl

theorem laneAt_ne {k : LaneKind} {a b i j : Nat} (h : a ≠ b) (ha : a < 0x4000) (hb : b < 0x4000) : laneAt k a i ≠ laneAt k b j := by
  simp only [laneAt]
  omega

theorem laneAt_ge (k : LaneKind) (a j : Nat) : 0x400000 ≤ laneAt k a j := by
  cases k <;> simp only [laneAt] <;> omega

theorem laneAt_lt {k : LaneKind} {a j : Nat} (h : k.has j = true) (ha : a < 0x4000) : laneAt k a j < 0x650000 := by
  cases k <;> simp only [LaneKind.has, decide_eq_true_eq] at h <;> simp only [laneAt] <;> omega

theorem laneAt_ob (k : LaneKind) (a j : Nat) : obAddr (laneAt k a j) = false := by
  have := laneAt_ge k a j
  rw [obAddr, decide_eq_false_iff_not]
  omega

theorem laneAt_block {k : LaneKind} {a j : Nat} (h : k.has j = true) (ha : a < 0x4000) : block 0 0x1000000 (laneAt k a j) = true := by
  have := laneAt_lt h ha
  rw [block, decide_eq_true_eq]
  omega

/-- Of a lane's registers the step's end reports in the flags alone. -/
theorem laneAt_report {k : LaneKind} {a j : Nat} (h : k.has j = true) (ha : a < 0x4000) (h8 : a ≠ 8) : reportAddr (laneAt k a j) = false := by
  have hob := laneAt_ob k a j
  simp only [reportAddr, hob, Bool.false_or, Bool.or_eq_false_iff, Bool.and_eq_false_iff, decide_eq_false_iff_not, beq_eq_false_iff_ne]
  cases k <;> simp only [LaneKind.has, decide_eq_true_eq] at h <;> simp only [laneAt] <;> omega

/-- A lane whose PRBS control is open exists. -/
theorem has_of_opens {d : Dev} {src : Src} {k : LaneKind} {j : Nat} {w : Bool} (h : opens d src (lanePrbsCtl k j) w = true) : k.has j = true := by
  have hh : (lanePrbsCtl k j).name.place.holds (lanePrbsCtl k j).i (lanePrbsCtl k j).j = true := Reg.ofAddr_holds (opens_reg h).2.1
  cases k <;> simp only [lanePrbsCtl, R, RegName.place, Place.holds, Bool.and_eq_true, decide_eq_true_eq] at hh <;>
    simp [LaneKind.has, hh.1]

theorem lagApart_cell : LagApart cellParts (block 0 0x1000000) := lagApart_block _ _ (by decide) (by decide) (by decide)

/-! ### Profile slots (R77 to R79) -/

theorem get?_mapVal {α : Type} (f : Nat → α → α) (t : Table α) (k : Nat) : (t.mapVal f).get? k = (t.get? k).map (f k) := by
  induction t with
  | nil => rfl
  | cons p t ih =>
    show Table.get? ((p.1, f p.1 p.2) :: Table.mapVal t f) k = _
    rw [Table.get?_cons, Table.get?_cons, ih]
    dsimp only
    split
    · subst_vars; rfl
    · rfl

theorem leaves_invalidate (d : Dev) (g cause : Nat) : CellLeaves d (d.invalidate g cause) :=
  (Leaves.ite (leaves_count d _) (Leaves.refl d)).trans ((leaves_onRx _ _ (by decide)).trans (leaves_onLx _ _ (by decide)))

theorem leaves_refill (d : Dev) (t : Nat) (ue : Bool) : CellLeaves d (d.refill t ue) := by
  have put (q : List Burst) (l : List PbSlot) :
      CellLeaves d (d.onLx fun x => { x with pbQueue := x.pbQueue.put [] t q, pbSlots := x.pbSlots.put [] t l }) := leaves_onLx d _ (by decide)
  unfold Dev.refill
  extract_lets slots
  split
  · exact Leaves.refl d
  · refine Leaves.ite (Leaves.refl d) ?_
    split
    · exact put _ _
    · exact Leaves.ite (((put _ _).trans (leaves_onRx _ _ (by decide))).trans (leaves_invalidate _ _ _)) (put _ _)

/-- An invalidation leaves which bursts wait where. -/
theorem invalidate_bursts (d : Dev) (g cause t : Nat) : (d.invalidate g cause).lx.pbQueue = d.lx.pbQueue ∧
    ((d.invalidate g cause).lx.pbSlots.getD t []).map PbSlot.burst = (d.lx.pbSlots.getD t []).map PbSlot.burst := by
  have hlx : (if (d.prof g).valid then d.countRx (g / 512) (48 + cause) else d).lx = d.lx := by
    split
    · exact d.count_lx _
    · rfl
  refine ⟨(congrArg LxState.pbQueue hlx : _), ?_⟩
  simp only [Dev.invalidate, Dev.profClear, Dev.onLx_lx, Dev.onProf, Dev.onRx_lx, hlx, Table.getD, get?_mapVal]
  cases d.lx.pbSlots.get? t with
  | none => rfl
  | some l =>
    simp only [Option.map_some, Option.getD_some]
    split
    · rw [List.map_map]
      exact List.map_congr_left fun b _ => by simp only [Function.comp]; split <;> rfl
    · rfl

/-- A freed slot takes the next stamped burst, whatever the read of its profile finds. -/
theorem refill_takes {d : Dev} {t : Nat} {b : Burst} {q : List Burst} (hq : d.lx.pbQueue.getD t [] = b :: q)
    (hs : (d.lx.pbSlots.getD t []).length < 4) (ue : Bool) : (d.refill t ue).lx.pbQueue.getD t [] = q ∧
      ((d.refill t ue).lx.pbSlots.getD t []).map PbSlot.burst = (d.lx.pbSlots.getD t []).map PbSlot.burst ++ [b] := by
  have put (s : PbSlot) (h : s.burst = b) (x : LxState)
      (hx : x = { d.lx with pbQueue := d.lx.pbQueue.put [] t q, pbSlots := d.lx.pbSlots.put [] t (d.lx.pbSlots.getD t [] ++ [s]) }) :
      x.pbQueue.getD t [] = q ∧ (x.pbSlots.getD t []).map PbSlot.burst = (d.lx.pbSlots.getD t []).map PbSlot.burst ++ [b] := by
    subst hx h
    simp
  unfold Dev.refill
  rw [hq]
  dsimp only
  rw [if_neg (by omega)]
  split
  · exact put _ rfl _ rfl
  · split
    · obtain ⟨hpq, hps⟩ := invalidate_bursts (Dev.onProf (d.onLx fun x => { x with
        pbQueue := x.pbQueue.put [] t q
        pbSlots := x.pbSlots.put [] t (d.lx.pbSlots.getD t [] ++ [⟨b, [], false, true⟩]) }) (4096 * (t / 8) + _) _) _ 4 t
      rw [hpq, hps]
      exact put ⟨b, [], false, true⟩ rfl _ rfl
    · exact put _ rfl _ rfl

theorem leaves_swapBit (d : Dev) (t : Nat) : CellLeaves d (d.swapBit t) := by
  unfold Dev.swapBit
  extract_lets d' cfg
  have h : CellLeaves d d' := Leaves.ite (leaves_refill d t false) (Leaves.refl d)
  split
  · exact h
  · extract_lets used su d2
    have h2 : CellLeaves d d2 := h.trans (leaves_onLx _ _ (by decide))
    exact Leaves.ite (h2.trans (leaves_onLx _ _ (by decide))) h2

/-- A swap bit frees the slot at the head and brings its profile or the neutral set-up into force. -/
theorem swapBit_applies {d : Dev} {t : Nat} {p : PbSlot} {q : List PbSlot} (h : d.lx.pbSlots.getD t [] = p :: q) :
    (d.swapBit t).lx.pbSlots.getD t [] = q ∧ ∃ u, (d.swapBit t).lx.pbSetup.get? t = some u ∧ u.burst = p.burst ∧
      u.profile = if p.burst.stamp.isSome ∧ p.valid then some p.profile else none := by
  generalize hx : d.swapBit t = x
  unfold Dev.swapBit at hx
  extract_lets d' cfg at hx
  have hd' : d' = d := if_neg (by simp [h])
  split at hx
  next hnil =>
    rw [hd', h] at hnil
    cases hnil
  next s rest hcons =>
    rw [hd', h] at hcons
    cases hcons
    extract_lets used su d2 at hx
    have h2 : d2.lx.pbSlots.getD t [] = q ∧ d2.lx.pbSetup.get? t = some su := by simp [d2]
    have hx2 : x.lx.pbSlots = d2.lx.pbSlots ∧ x.lx.pbSetup = d2.lx.pbSetup := by
      subst hx
      split <;> exact ⟨rfl, rfl⟩
    obtain ⟨hslots, hsetup⟩ := hx2
    rw [hslots, hsetup]
    exact ⟨h2.1, su, h2.2, rfl, by simp [su, used]⟩

/-! ### PRBS controls (R98, R110) -/

section

variable {k : LaneKind} {j : Nat} (d : Dev)

theorem genFollow_regs : (d.genFollow k j).regs = d.regs := by
  unfold Dev.genFollow
  extract_lets key on p q
  split
  · rfl
  · split <;> rfl

theorem leaves_genFollow : CellLeaves d (d.genFollow k j) :=
  Leaves.ite (leaves_onLx d _ (by decide)) (Leaves.ite (leaves_onLx d _ (by decide)) (Leaves.refl d))

/-- A generator that runs on goes on. -/
theorem genFollow_running (hon : d.flag (lanePrbsCtl k j) 4 = true) (hgen : (d.lx.gens.get? (laneKey k j)).isSome = true) :
    d.genFollow k j = d := by
  unfold Dev.genFollow
  extract_lets key on p q
  have hnone : (d.lx.gens.get? key).isNone = false := by
    simpa using hgen
  rw [if_neg (by simp [hnone]), if_neg (by simp [on, hon])]

theorem chkClr_reg_ne (errNow : Bool) {r : Reg} {a : Nat} (hr : r.addr = laneAt k a j) (ha : a < 0x4000) (h4 : a ≠ 0x64) (h8 : a ≠ 0x68) :
    (d.chkClr k j errNow).reg r = d.reg r := by
  unfold Dev.chkClr
  split
  next e b he hb =>
    split
    · rfl
    · show ((d.setReg e _).setReg b 0).reg r = _
      rw [Dev.reg_setReg_ne _ _ _ _ (by rw [lanePrbsBlocks_addr hb, hr]; exact laneAt_ne (Ne.symm h8) (by decide) ha),
        Dev.reg_setReg_ne _ _ _ _ (by rw [lanePrbsErr_addr he, hr]; exact laneAt_ne (Ne.symm h4) (by decide) ha)]
  next => rfl

/-- What CHK_CLR leaves of the generators. -/
theorem chkClr_gens (errNow : Bool) : (d.chkClr k j errNow).lx.gens = d.lx.gens ∧ (d.chkClr k j errNow).tb = d.tb ∧
    (d.chkClr k j errNow).lx.injected = d.lx.injected ∧ (d.chkClr k j errNow).im = d.im := by
  unfold Dev.chkClr
  split
  · split <;> exact ⟨rfl, rfl, rfl, rfl⟩
  · exact ⟨rfl, rfl, rfl, rfl⟩

/-- CHK_CLR zeroes the counts but for an error in the same cycle of a checker that is locked. -/
theorem chkClr_counts {er bl : Reg} (he : lanePrbsErr k j = some er) (hb : lanePrbsBlocks k j = some bl) (hrole : d.laneRole k j ≠ 0)
    (errNow : Bool) : (d.chkClr k j errNow).reg bl = 0 ∧
      (d.chkClr k j errNow).reg er = b2n (errNow && d.flag (laneStatus k j) 5) := by
  have hne : bl.addr ≠ er.addr := by
    rw [lanePrbsBlocks_addr hb, lanePrbsErr_addr he]
    exact laneAt_ne (by decide) (by decide) (by decide)
  unfold Dev.chkClr
  rw [he, hb]
  dsimp only
  rw [if_neg hrole]
  refine ⟨Dev.reg_setReg _ _ _ (Reg.reset_lt _), ?_⟩
  show ((d.setReg er _).setReg bl 0).reg er = _
  rw [Dev.reg_setReg_ne _ _ _ _ hne, Dev.reg_setReg _ _ _ (Reg.reset_lt _)]
  cases (errNow && d.flag (laneStatus k j) 5) <;> rfl

/-- The checker's lock behind a write of its control: it stands as CHK_EN does. -/
theorem prbsCtlWrite_lock (v : Nat) (src : Src) (hok : patternOk k (bits v 27 24) = true) :
    (d.prbsCtlWrite k j v src).flag (laneStatus k j) 5 = (bit v 5 && decide (k ≠ .pt) && d.flag (laneStatus k j) 5) := by
  have hst := laneStatus_addr k j
  have hob : obAddr (laneStatus k j).addr = false := by rw [hst]; exact laneAt_ob _ _ _
  have hflags : (laneFlags k j).addr ≠ (laneStatus k j).addr := by
    rw [hst, laneFlags_addr]
    exact laneAt_ne (by decide) (by decide) (by decide)
  unfold Dev.prbsCtlWrite
  extract_lets r old gen badGen chk d1 d1' d2 d3 d4
  rw [if_neg (by simp [hok])]
  have h1 : d1'.reg (laneStatus k j) = d.reg (laneStatus k j) := by
    obtain ⟨w, hd1⟩ : ∃ w, d1 = d.setReg (lanePrbsCtl k j) w := ⟨_, rfl⟩
    clear_value d1
    rw [Dev.reg_congr (genFollow_regs d1), hd1]
    exact Dev.reg_setReg_ne _ _ _ _ (by rw [hst, lanePrbsCtl_addr]; exact laneAt_ne (by decide) (by decide) (by decide))
  clear_value d1'
  have h2 : d2.flag (laneStatus k j) 5 = (chk && d.flag (laneStatus k j) 5) := by
    unfold d2
    split
    case isTrue hc => rw [hc, Bool.true_and, Dev.flag, h1, ← Dev.flag]
    case isFalse hc =>
      rw [Bool.eq_false_iff.mpr hc, Bool.false_and]
      rw [Dev.flag, Dev.onChk, Dev.onLx_reg, Dev.reg_setFld _ _ _ _ _ (by decide) (by decide), bit_putBits_zero]
  have h3 : d3.reg (laneStatus k j) = d2.reg (laneStatus k j) := by
    unfold d3
    split
    · exact chkClr_reg_ne d2 _ hst (by decide) (by decide) (by decide)
    · rfl
  have h4 : d4.reg (laneStatus k j) = d3.reg (laneStatus k j) := by
    have hinj : (d3.errInject k j).regs = d3.regs := by
      unfold Dev.errInject
      extract_lets e
      split <;> rfl
    unfold d4
    split
    · exact Dev.reg_congr hinj _
    · rfl
  have h5 : (d4.laneRefused k j r v src).reg (laneStatus k j) = d4.reg (laneStatus k j) := by
    unfold Dev.laneRefused
    extract_lets e
    rw [Dev.record_reg _ _ _ _ _ _ _ hob, Dev.raise_reg_ne _ _ _ _ hob hflags]
  rw [← h2]
  split
  · rw [Dev.flag, h5, h4, h3, Dev.flag]
  · rw [Dev.flag, h4, h3, Dev.flag]

theorem genNext_congr {d' : Dev} (hg : d'.lx.gens = d.lx.gens) (ht : d'.tb = d.tb) : d'.genNext k j = d.genNext k j := by
  simp only [Dev.genNext, Dev.genUi, hg, ht]

theorem laneRole_congr {d d' : Dev} (h : d'.im = d.im) (k : LaneKind) (j : Nat) : d'.laneRole k j = d.laneRole k j := by
  unfold Dev.laneRole Dev.treeExists Dev.reachExists Dev.xg Dev.portOfLane
  rw [h]

/-- PATTERN, CHK_EN and GEN_EN fit their word. -/
theorem prbsWord {p : Nat} (hp : p < 16) (chk gen : Bool) :
    p * 2 ^ 24 + 32 * b2n chk + 16 * b2n gen < 2 ^ 32 ∧ bit (p * 2 ^ 24 + 32 * b2n chk + 16 * b2n gen) 4 = gen := by
  have hc : b2n chk ≤ 1 := by cases chk <;> decide
  cases gen
  · rw [show b2n false = 0 from rfl, bit, beq_eq_false_iff_ne]
    omega
  · rw [show b2n true = 1 from rfl, bit, beq_iff_eq]
    omega

theorem onChk_keeps (d : Dev) (k : LaneKind) (j : Nat) (f : PrbsChk → PrbsChk) :
    (d.onChk k j f).lx.gens = d.lx.gens ∧ (d.onChk k j f).tb = d.tb ∧ (d.onChk k j f).im = d.im := by
  rw [Dev.onChk, Dev.onLx_lx, Dev.onLx_tb, Dev.onLx_im]
  exact ⟨rfl, rfl, rfl⟩

/-- ERR_INJECT names the next bit of a generator that runs. -/
theorem prbsCtlWrite_injects (v : Nat) (src : Src) (hok : patternOk k (bits v 27 24) = true) (h8 : bit v 8 = true) (h4 : bit v 4 = true)
    (hpb : k ≠ .pb) (hrole : d.laneRole k j ≠ 0) (hon : d.flag (lanePrbsCtl k j) 4 = true)
    (hgens : (d.lx.gens.get? (laneKey k j)).isSome = true) : (k, j, d.genNext k j) ∈ (d.prbsCtlWrite k j v src).lx.injected := by
  unfold Dev.prbsCtlWrite
  extract_lets r old gen badGen chk d1 d1' d2 d3 d4
  rw [if_neg (by simp [hok])]
  have hbad : badGen = false := by
    have hold : bit old 4 = true := hon
    simp [badGen, hold]
  have hgen : gen = true := by simp [gen, h4, hpb]
  obtain ⟨w, hd1, hlt, hbit⟩ : ∃ w, d1 = d.setReg (lanePrbsCtl k j) w ∧ w < 2 ^ 32 ∧ bit w 4 = true := by
    obtain ⟨hlt, hbit⟩ := prbsWord (bits_lt v 27 24) chk (if badGen = true then false else gen)
    exact ⟨_, rfl, hlt, hbit.trans (by rw [hbad, hgen]; rfl)⟩
  clear_value d1
  have h1 : d1' = d1 := by
    refine genFollow_running d1 ?_ (by rw [hd1]; exact hgens)
    rw [hd1, Dev.flag, Dev.reg_setReg _ _ _ (Reg.reset_lt _), Nat.mod_eq_of_lt hlt, hbit]
  have hd1 : d1.lx.gens = d.lx.gens ∧ d1.tb = d.tb ∧ d1.im = d.im := by
    rw [hd1]
    exact ⟨rfl, rfl, rfl⟩
  have h2 : d2.lx.gens = d.lx.gens ∧ d2.tb = d.tb ∧ d2.im = d.im := by
    obtain ⟨hg, ht, hi⟩ := hd1
    unfold d2
    rw [h1]
    split
    · exact ⟨hg, ht, hi⟩
    · obtain ⟨cg, ct, ci⟩ := onChk_keeps (d1.setFld (laneStatus k j) 5 5 0) k j fun _ => PrbsChk.rest
      rw [cg, ct, ci, Dev.setFld_lx, Dev.setFld_tb, Dev.setFld_im]
      exact ⟨hg, ht, hi⟩
  have h3 : d3.lx.gens = d.lx.gens ∧ d3.tb = d.tb ∧ d3.im = d.im := by
    obtain ⟨hg, ht, hi⟩ := h2
    unfold d3
    split
    · obtain ⟨cg, ct, -, ci⟩ := chkClr_gens d2 false (k := k) (j := j)
      exact ⟨cg.trans hg, ct.trans ht, ci.trans hi⟩
    · exact ⟨hg, ht, hi⟩
  clear_value d3
  obtain ⟨hg, ht, hi⟩ := h3
  have hrole' : d3.laneRole k j ≠ 0 := by
    rw [laneRole_congr hi]
    exact hrole
  rw [if_neg (by simp [hbad])]
  unfold d4
  rw [if_pos h8]
  unfold Dev.errInject
  extract_lets e
  have he : e = (k, j, d.genNext k j) := by rw [← genNext_congr d hg ht]
  rw [← he]
  split
  case isTrue h =>
    obtain h | h | h := h
    · exact absurd h hpb
    · exact absurd h hrole'
    · exact List.contains_iff_mem.mp h
  case isFalse => exact List.mem_append_right _ (List.mem_singleton_self e)

variable (hk : k.has j = true)

include hk

theorem leaves_chkClr (errNow : Bool) : CellLeaves d (d.chkClr k j errNow) := by
  unfold Dev.chkClr
  split
  next e b he hb =>
    refine Leaves.ite (Leaves.refl d) (((leaves_setReg d _ _ ?_).trans (leaves_setReg _ _ _ ?_)).trans (leaves_onLx _ _ (by decide)))
    · rw [lanePrbsErr_addr he]
      exact laneAt_block hk (by decide)
    · rw [lanePrbsBlocks_addr hb]
      exact laneAt_block hk (by decide)
  next => exact Leaves.refl d

theorem leaves_laneRefused (r : Reg) (v : Nat) (src : Src) : CellLeaves d (d.laneRefused k j r v src) :=
  (leaves_raise d _ _ (by rw [laneFlags_addr]; exact laneAt_block hk (by decide))).trans (leaves_record _ _ _ _ _ _ (by decide))

theorem leaves_prbsCtlWrite (v : Nat) (src : Src) : CellLeaves d (d.prbsCtlWrite k j v src) := by
  unfold Dev.prbsCtlWrite
  extract_lets r old gen badGen chk d1 d1' d2 d3 d4
  refine Leaves.ite (leaves_laneRefused d hk _ _ _) ?_
  have h1 : CellLeaves d d1' :=
    (leaves_setReg d _ _ (by rw [lanePrbsCtl_addr]; exact laneAt_block hk (by decide))).trans (leaves_genFollow d1)
  have h2 : CellLeaves d d2 := Leaves.ite h1 ((h1.trans (leaves_setFld _ _ _ _ _ (by
    rw [laneStatus_addr]; exact laneAt_block hk (by decide)))).trans (leaves_onLx _ _ (by decide)))
  have h3 : CellLeaves d d3 := Leaves.ite (h2.trans (leaves_chkClr d2 hk _)) h2
  have h4 : CellLeaves d d4 := Leaves.ite (h3.trans (Leaves.ite (Leaves.refl _) (leaves_onLx _ _ (by decide)))) h3
  exact Leaves.ite (h4.trans (leaves_laneRefused d4 hk _ _ _)) h4

end

/-- A write of a lane's PRBS control (R110). -/
theorem regWrite_prbsCtl (d : Dev) (src : Src) (k : LaneKind) (j v : Nat) : d.regWrite src (lanePrbsCtl k j) v = d.prbsCtlWrite k j v src := by
  cases k <;> rfl

end Sys2Proof.Safety

open Sys2Proof Sys2Proof.Machine Sys2Proof.Safety

/-- Settles O24: what a slot, a swap bit and a PRBS control change is computed on the device, and the step's end keeps it. -/
theorem profileSlotsAndPrbsControlsAct : Obligations.ProfileSlotsAndPrbsControlsAct := by
  unfold Obligations.ProfileSlotsAndPrbsControlsAct
  rintro s dt _ rfl hq
  refine ⟨fun ha t ht => ⟨fun b q hb hlen ue => ?refill, fun p q hp => ?swap⟩, fun hq0 src k j ho hrole hok => ?prbs⟩
  case refill =>
    refine (answers_cell_of (f := fun d => d.refill t ue) hq ha ht rfl (leaves_refill _ t ue)).imp fun d hd => ?_
    rw [hd.lx]
    exact refill_takes hb hlen ue
  case swap =>
    refine (answers_cell_of (f := fun d => d.swapBit t) hq ha ht rfl (leaves_swapBit _ t)).imp fun d hd => ?_
    rw [hd.lx]
    exact swapBit_applies hp
  case prbs =>
    have hk := has_of_opens ho
    have hsame (b i : Nat) (h : i ≠ b) : bit (putBits (s.dev.reg (lanePrbsCtl k j)) b b 1) i = s.dev.flag (lanePrbsCtl k j) i :=
      bit_putBits_ne _ _ _ _ _ (by omega) (by omega)
    have hpat (b : Nat) (h : b < 24) : patternOk k (bits (putBits (s.dev.reg (lanePrbsCtl k j)) b b 1) 27 24) = true := by
      rw [bits_putBits_ne _ _ _ _ _ _ (by omega) (by omega)]
      exact hok
    have hlt (b : Nat) (h : b < 24) : putBits (s.dev.reg (lanePrbsCtl k j)) b b 1 % 2 ^ 32 = putBits (s.dev.reg (lanePrbsCtl k j)) b b 1 :=
      Nat.mod_eq_of_lt (putBits_lt (s.dev.reg_lt _) (by omega) (by omega))
    refine ⟨fun er bl he hb errNow => ?clr, fun hpb hon hgens => ?inject⟩
    case clr =>
      have hv := hlt 16 (by decide)
      have hpt : decide (k ≠ .pt) = true := by
        cases k <;> simp [lanePrbsErr] at he ⊢
      have hlock := prbsCtlWrite_lock s.dev (putBits (s.dev.reg (lanePrbsCtl k j)) 16 16 1) src (hpat 16 (by decide)) (k := k) (j := j)
      rw [hsame 16 5 (by decide), hpt, Bool.and_true] at hlock
      have hrole' : (s.dev.prbsCtlWrite k j (putBits (s.dev.reg (lanePrbsCtl k j)) 16 16 1) src).laneRole k j ≠ 0 := by
        rw [laneRole_congr ((leaves_prbsCtlWrite s.dev hk _ src).1.1.1 .im (by decide))]
        exact hrole
      obtain ⟨hbl, her⟩ := chkClr_counts _ he hb hrole' errNow
      rw [hlock, ← Bool.and_assoc] at her
      have hex : s.dev.chkClrWrite src k j errNow =
          (s.dev.prbsCtlWrite k j (putBits (s.dev.reg (lanePrbsCtl k j)) 16 16 1) src).chkClr k j errNow := by
        rw [Dev.chkClrWrite, Dev.writeAnd, Dev.mayWrite_eq, if_pos ho, Dev.writeReg_open ho, hv, regWrite_prbsCtl]
      have hl := (leaves_prbsCtlWrite s.dev hk (putBits (s.dev.reg (lanePrbsCtl k j)) 16 16 1) src).trans (leaves_chkClr _ hk errNow)
      rw [← hex] at hl hbl her
      refine (answers_leaves (f := fun d => d.chkClrWrite src k j errNow) hq0 rfl hl lagApart_cell).imp ?_
      rintro d ⟨hd, -⟩
      refine ⟨?_, ?_⟩
      · rw [hd.reg (by rw [lanePrbsBlocks_addr hb]; exact laneAt_report hk (by decide) (by decide)), hbl]
      · rw [hd.reg (by rw [lanePrbsErr_addr he]; exact laneAt_report hk (by decide) (by decide)), her]
    case inject =>
      have hv := hlt 8 (by decide)
      have hl := leaves_prbsCtlWrite s.dev hk (putBits (s.dev.reg (lanePrbsCtl k j)) 8 8 1) src
      rw [← hv, ← regWrite_prbsCtl] at hl
      refine (answers_write (fun d => putBits (d.reg (lanePrbsCtl k j)) 8 8 1) hq0 ho rfl hl lagApart_cell).imp ?_
      rintro d ⟨hd, -⟩
      rw [hv, regWrite_prbsCtl] at hd
      rw [hd.lx]
      exact prbsCtlWrite_injects _ _ _ (hpat 8 (by decide)) (bit_putBits_self _ _) ((hsame 8 4 (by decide)).trans hon) hpb hrole hon hgens

end


/-! What link aggregation does not reach even where it flushes queues (R393): the lanes, the framing and the registers below those of the
packet classifier, the forwarding and the uplinks. -/

section

namespace Sys2Proof.Machine

open Sys2Proof.Safety (obAddr reportAddr)

/-- Every register of the place lies above the registers of the trees, or in observability. -/
def Place.above : Place → Bool
  | .one a => decide (0x1800000 ≤ a) || obAddr a
  | .ix a _ _ | .ix2 a _ _ _ _ => decide (0x1800000 ≤ a)
  | .tree _ | .tree2 _ _ => false

theorem Reg.above_ne {r : Reg} (h : r.name.place.above = true) {a : Nat} (ha : a < 0x1800000) (ho : obAddr a = false) : r.addr ≠ a := by
  rintro rfl
  revert h ha ho
  unfold Reg.addr
  split
  next b hp =>
    intro h ha ho
    simp [hp, Place.above, ho] at h
    omega
  all_goals
    next hp =>
    intro h ha _
    simp only [hp, Place.above, decide_eq_true_eq, Bool.false_eq_true] at h <;> omega

/-- The lanes, the framing, the windows that wait to run on, and the words of the registers up to those of the trees. -/
structure Front where
  lx : LxState
  rx : RxState
  kicks : List Nat
  word : Nat → Option RegWord

/-- The word at an address up to those of the trees, outside observability. -/
def Dev.frontWord (d : Dev) (a : Nat) : Option RegWord := if a < 0x1800000 ∧ obAddr a = false then d.regs.get? a else none

def Dev.front (d : Dev) : Front := ⟨d.lx, d.rx, d.kicks, d.frontWord⟩

@[simp] theorem front_ite (c : Prop) [Decidable c] (a b : Dev) : (if c then a else b).front = if c then a.front else b.front :=
  apply_ite Dev.front c a b

/-- What keeps the lanes, the framing, the windows and the words keeps the front. -/
theorem Dev.front_congr {d d' : Dev} (hl : d'.lx = d.lx) (hr : d'.rx = d.rx) (hk : d'.kicks = d.kicks)
    (hw : ∀ a, a < 0x1800000 → obAddr a = false → d'.regs.get? a = d.regs.get? a) : d'.front = d.front := by
  have hword : d'.frontWord = d.frontWord := funext fun a => by
    unfold Dev.frontWord
    split
    next h => exact hw a h.1 h.2
    next => rfl
  rw [Dev.front, hl, hr, hk, hword]
  rfl

theorem Dev.front_reg {d d' : Dev} (h : d'.front = d.front) {r : Reg} (ha : r.addr < 0x1800000) (ho : obAddr r.addr = false) :
    d'.reg r = d.reg r := by
  have hw := congrFun (congrArg Front.word h) r.addr
  simp only [Dev.front, Dev.frontWord, ha, ho, and_self, if_true] at hw
  rw [Dev.reg_def, Dev.reg_def, hw]

section

variable (d : Dev)

theorem Dev.front_parts {d d' : Dev} (hl : d'.lx = d.lx) (hr : d'.rx = d.rx) (hk : d'.kicks = d.kicks) (hw : d'.regs = d.regs) :
    d'.front = d.front := Dev.front_congr hl hr hk fun a _ _ => by rw [hw]

@[simp] theorem Dev.onOb_front (f : ObState → ObState) : (d.onOb f).front = d.front := Dev.front_parts rfl rfl rfl rfl
@[simp] theorem Dev.onBp_front (f : BpState → BpState) : (d.onBp f).front = d.front := Dev.front_parts rfl rfl rfl rfl
@[simp] theorem Dev.onTm_front (f : TmState → TmState) : (d.onTm f).front = d.front := Dev.front_parts rfl rfl rfl rfl
@[simp] theorem Dev.onUl_front (f : UlState → UlState) : (d.onUl f).front = d.front := Dev.front_parts rfl rfl rfl rfl
@[simp] theorem Dev.onTb_front (f : TbState → TbState) : (d.onTb f).front = d.front := Dev.front_parts rfl rfl rfl rfl
@[simp] theorem Dev.onPx_front (f : PxState → PxState) : (d.onPx f).front = d.front := Dev.front_parts rfl rfl rfl rfl
@[simp] theorem Dev.onPort_front (u : Nat) (f : UlPort → UlPort) : (d.onPort u f).front = d.front := Dev.onUl_front ..
@[simp] theorem Dev.onQueue_front (q : Nat) (f : Queue → Queue) : (d.onQueue q f).front = d.front := Dev.onTm_front ..
@[simp] theorem Dev.onCell_front (n c : Nat) (f : Cell → Cell) : (d.onCell n c f).front = d.front := Dev.onBp_front ..
@[simp] theorem Dev.count_front (e : Nat) : (d.count e).front = d.front :=
  Dev.front_congr (by simp) (by simp) (by simp) fun a _ ho => d.count_get? e a ho

variable {r : Reg} (h : r.name.place.above = true)

include h

@[simp] theorem Dev.setReg_front (v : Nat) : (d.setReg r v).front = d.front :=
  Dev.front_congr rfl rfl rfl fun a ha ho => d.get?_setReg_ne r v a (Reg.above_ne h ha ho)
@[simp] theorem Dev.raise_front (b : Nat) : (d.raise r b).front = d.front :=
  Dev.front_congr (by simp) (by simp) (by simp) fun a ha ho => d.raise_get? r b a ho (Reg.above_ne h ha ho)
@[simp] theorem Dev.raiseIf_front (c : Bool) (b : Nat) : (d.raiseIf c r b).front = d.front := by simp [Dev.raiseIf, d.raise_front h]
@[simp] theorem Dev.raiseRec_front (b : Nat) (s : RSrc) (inst : Nat) (fault : Bool) (fs : List (Nat × Nat)) :
    (d.raiseRec r b s inst fault fs).front = d.front :=
  Dev.front_congr (by simp) (by simp) (by simp) fun a ha ho => d.raiseRec_get? r b s inst fault fs a ho (Reg.above_ne h ha ho)

end

section

variable (d : Dev)

@[simp] theorem Dev.eccEvent_front (n c : Nat) (ue link : Bool) (source : Nat) : (d.eccEvent n c ue link source).front = d.front := by
  simp (disch := (dsimp only [R]; decide)) [Dev.eccEvent]

theorem Dev.checkLinks_front (n source : Nat) (cs : List Nat) : (d.checkLinks n source cs).1.front = d.front := by
  induction cs generalizing d with
  | nil => rfl
  | cons c cs ih =>
    have hc : (d.cellCheck n c true source).1.front = d.front := by
      simp only [Dev.cellCheck, apply_ite Prod.fst, front_ite, Dev.eccEvent_front, ite_self]
    rw [Dev.checkLinks]
    dsimp only
    split
    · exact hc
    · exact (ih _).trans hc

@[simp] theorem Dev.freeCells_front (n p req : Nat) (cs : List Nat) : (d.freeCells n p req cs).front = d.front := by
  refine foldl_keeps Dev.front _ (fun d c => ?_) cs d
  unfold Dev.freeCell
  cases d.freeFault n c p with
  | none => simp (disch := (dsimp only [R]; decide)) [Dev.freeDecided, Dev.creditCells, Dev.addShared]
  | some k => simp (disch := (dsimp only [R]; decide)) [Dev.freeDecided, Dev.freeReject]

@[simp] theorem Dev.fetchLost_front (q n : Nat) : (d.fetchLost q n).front = d.front := by
  have habandon : (d.fetchAbandon q).front = d.front := by
    unfold Dev.fetchAbandon
    split <;> simp
  simp [Dev.fetchLost, Dev.fetchSync, habandon]

@[simp] theorem Dev.settleEmpty_front (k : Nat) (c : Child) : (d.settleEmpty k c).front = d.front := by
  induction k generalizing d c with
  | zero => rfl
  | succ k ih => cases c <;> simp [Dev.settleEmpty, Dev.setDeficit, Dev.onNode, ih]

@[simp] theorem Dev.tmDrop_front (q : Nat) (p : Pkt) (len reason : Nat) : (d.tmDrop q p len reason).front = d.front := by
  have hstat : ∀ (x : Dev) (i n : Nat), (x.stat q i n).front = x.front := fun x i n => by
    unfold Dev.stat
    split <;> simp
  have hsample : ∀ x : Dev, (x.sampleDone q p len reason).front = x.front := fun x => by
    unfold Dev.sampleDone
    split <;> simp (disch := (dsimp only [R]; decide)) [Dev.writeSample]
  simp (disch := (dsimp only [R]; decide)) [Dev.tmDrop, Dev.dropRecirc, Dev.inflightDown, hstat, hsample]

@[simp] theorem Dev.breakList_front (q n c : Nat) : (d.breakList q n c).front = d.front := by
  have hdrops : ∀ (l : List Held) (x : Dev), (l.foldl (fun d h => d.tmDrop q h.pkt h.len 8) x).front = x.front := fun l x =>
    foldl_keeps Dev.front _ (fun d (h : Held) => d.tmDrop_front q h.pkt h.len 8) l x
  simp (disch := (dsimp only [R]; decide)) [Dev.breakList, hdrops]

@[simp] theorem Dev.discardHead_front (q n reason : Nat) : (d.discardHead q n reason).front = d.front := by
  unfold Dev.discardHead
  split
  · rfl
  · next h rest _ =>
    have hl := d.checkLinks_front n (if n = 0 then 0 else 2) h.cells
    split
    all_goals
      next hc =>
      rw [hc] at hl
      simpa using hl

theorem Dev.discardAll_front (q reason k : Nat) : (d.discardAll q reason k).front = d.front := by
  induction k generalizing d with
  | zero => rfl
  | succ k ih =>
    rw [Dev.discardAll]
    split
    · rw [ih, Dev.discardHead_front]
    · rfl

@[simp] theorem Dev.lagSync_front : d.lagSync.front = d.front := by
  unfold Dev.lagSync Dev.lagSyncAt
  refine upTo_keeps Dev.front 8 _ (fun g x => ?_) d
  dsimp only
  split
  · rfl
  · split
    · refine (upTo_keeps Dev.front 8 _ (fun m y => ?_) _).trans (Dev.onUl_front ..)
      split
      · exact foldl_keeps Dev.front _ (fun z q => z.discardAll_front q 7 _) _ y
      · rfl
    · exact Dev.onUl_front ..

/-- What the step's end keeps whatever the distributing sets do: the lanes, the framing but for the cooperative entries, the registers
up to those of the trees, and the level-set flags among them. -/
structure Dev.FrontKept (d d' : Dev) : Prop where
  lx : d'.lx = d.lx
  rx : d'.rx.sansCoop = d.rx.sansCoop
  reg : ∀ {r : Reg}, r.addr < 0x1800000 → reportAddr r.addr = false → d'.reg r = d.reg r
  flag : ∀ {r : Reg}, r ∈ levelRegs → r.addr < 0x1800000 → ∀ {b}, d.flag r b = true → d'.flag r b = true

theorem Dev.FrontKept.trans {a b c : Dev} (h : a.FrontKept b) (k : b.FrontKept c) : a.FrontKept c where
  lx := k.lx.trans h.lx
  rx := k.rx.trans h.rx
  reg ha hr := (k.reg ha hr).trans (h.reg ha hr)
  flag hr ha _ hb := k.flag hr ha (h.flag hr ha hb)

theorem Dev.Kept.front {d d' : Dev} (h : d.Kept d') : d.FrontKept d' where
  lx := h.lx
  rx := h.rx
  reg _ hr := h.reg hr
  flag hr _ b hb := h.flags _ hr b hb

theorem Dev.FrontKept.of_front {d d' : Dev} (h : d'.front = d.front) : d.FrontKept d' where
  lx := congrArg Front.lx h
  rx := congrArg (fun x : Front => x.rx.sansCoop) h
  reg ha hr := Dev.front_reg h ha (reportAddr_ob hr)
  flag hr ha b hb := by
    rw [Dev.flag, Dev.front_reg h ha (levelRegs_ob _ hr).1]
    exact hb

theorem Dev.settle_front (d0 : Dev) {d : Dev} (hk : d.kicks = []) : d.FrontKept (Dev.settle d0 d) := by
  unfold Dev.settle
  split
  · exact ⟨rfl, rfl, fun _ _ => rfl, fun _ _ _ hb => hb⟩
  · rw [Dev.runKicks_nil hk]
    refine Dev.FrontKept.trans ?_ ((Dev.levels_kept _ _).trans (Dev.deliver_kept _)).front
    refine Dev.FrontKept.trans ?_ (Dev.FrontKept.of_front (Dev.lagSync_front _))
    split
    · exact (Dev.fcEvaluate_kept d).front
    · exact (Dev.Kept.refl d).front

end

end Sys2Proof.Machine

namespace Sys2Proof.Safety

open Sys2Proof.Machine

/-- An event that leaves no window to run on answers with its effect on lanes, framing and trees, whatever the distributing sets do. -/
theorem answers_event_front {i : Instr} {s : State} {dt : Nat} {can : Dev → Bool} {f : Dev → Dev} (hex : exec i s = event s dt can f)
    (hc : can (s.dev.elapse dt) = true) (hk : (f (s.dev.elapse dt)).kicks = []) :
    Answers i s fun d => (f (s.dev.elapse dt)).FrontKept d := by
  refine ⟨_, hex, rfl, ?_⟩
  simp only [hc, if_true]
  exact Dev.settle_front s.dev hk

end Sys2Proof.Safety

end


section

namespace Sys2Proof.Machine

/-! ### The uplinks keep the front (R380 to R393) -/

section

variable (d : Dev) (u : Nat)

@[simp] theorem Dev.ulStat_front (i n : Nat) : (d.ulStat u i n).front = d.front := Dev.onPort_front ..

theorem Dev.ulReport_front : (d.ulReport u).front = d.front := by
  refine foldl_keeps Dev.front _ (fun x code => ?_) _ d
  simp (disch := (dsimp only [R]; decide))

theorem Dev.setPort_front (st : PortState) (cause : Nat) : (d.setPort u st cause).front = d.front := by
  simp (disch := (dsimp only [R]; decide)) [Dev.setPort]

theorem Dev.ulEvaluate_front (cause : Nat) : (d.ulEvaluate u cause).front = d.front := by
  unfold Dev.ulEvaluate
  dsimp only
  split <;> simp [Dev.setPort_front]

theorem Dev.ulAbort_front (sending stamped receiving : Bool) : (d.ulAbort u sending stamped receiving).front = d.front := by
  simp (disch := (dsimp only [R]; decide)) [Dev.ulAbort]

theorem Dev.ulDeclare_front (code : Nat) (on sending stamped receiving : Bool) :
    (d.ulDeclare u code on sending stamped receiving).front = d.front := by
  simp [Dev.ulDeclare, Dev.ulAbort_front, Dev.ulEvaluate_front, Dev.ulReport_front]

end

end Sys2Proof.Machine

namespace Sys2Proof.Safety

open Sys2Proof.Machine

/-! ### What a lane shows while other lanes and its group follow (R90 to R93) -/

/-- A lane's PRBS_LOCK, PLL_LOCK, LOL and LOS stand, its flags stay set, and no window is newly set to run on. -/
structure LaneStands (k : LaneKind) (j : Nat) (d d' : Dev) : Prop where
  low : bits (d'.reg (laneStatus k j)) 5 0 = bits (d.reg (laneStatus k j)) 5 0
  flags : ∀ {b}, d.flag (laneFlags k j) b = true → d'.flag (laneFlags k j) b = true
  kicks : d'.kicks = d.kicks

section

variable {k : LaneKind} {j : Nat} {d d' : Dev}

/-- A bit of the low six. -/
theorem bit_low {v w i : Nat} (h : bits w 5 0 = bits v 5 0) (hi : i < 6) : bit w i = bit v i := by
  rw [bit_eq_testBit, bit_eq_testBit, ← Nat.zero_add i]
  have hb : (bits w 5 0).testBit i = (bits v 5 0).testBit i := by rw [h]
  simpa [testBit_bits, hi] using hb

theorem LaneStands.bit (h : LaneStands k j d d') {i : Nat} (hi : i < 6) : d'.flag (laneStatus k j) i = d.flag (laneStatus k j) i :=
  bit_low h.low hi

/-- LOL and LOS together. -/
theorem LaneStands.signal (h : LaneStands k j d d') : d'.fld (laneStatus k j) 1 0 = d.fld (laneStatus k j) 1 0 := by
  have hl := h.low
  simp only [Dev.fld, bits] at hl ⊢
  omega

theorem LaneStands.refl (d : Dev) : LaneStands k j d d := ⟨rfl, id, rfl⟩

theorem LaneStands.trans {a b c : Dev} (h : LaneStands k j a b) (g : LaneStands k j b c) : LaneStands k j a c :=
  ⟨g.low.trans h.low, fun hb => g.flags (h.flags hb), g.kicks.trans h.kicks⟩

theorem LaneStands.ite {a b : Dev} {c : Prop} [Decidable c] (h : LaneStands k j d a) (g : LaneStands k j d b) :
    LaneStands k j d (if c then a else b) := by
  split
  · exact h
  · exact g

theorem LaneStands.foldl {β : Type} {f : Dev → β → Dev} (h : ∀ d b, LaneStands k j d (f d b)) (l : List β) (d : Dev) :
    LaneStands k j d (l.foldl f d) := by
  induction l generalizing d with
  | nil => exact LaneStands.refl d
  | cons b l ih => exact (h d b).trans (ih _)

/-- An operation that writes no register. -/
theorem LaneStands.of_regs (hr : d'.regs = d.regs) (hk : d'.kicks = d.kicks) : LaneStands k j d d' :=
  ⟨by rw [Dev.reg_congr hr], fun hb => by rwa [Dev.flag, Dev.reg_congr hr], hk⟩

/-- An operation that keeps the front. -/
theorem LaneStands.of_front (hj : k.has j = true) (h : d'.front = d.front) : LaneStands k j d d' := by
  have hst : d'.reg (laneStatus k j) = d.reg (laneStatus k j) :=
    Dev.front_reg h (by rw [laneStatus_addr]; have := laneAt_lt hj (a := 4) (by decide); omega) (by rw [laneStatus_addr]; exact laneAt_ob k 4 j)
  have hfl : d'.reg (laneFlags k j) = d.reg (laneFlags k j) :=
    Dev.front_reg h (by rw [laneFlags_addr]; have := laneAt_lt hj (a := 8) (by decide); omega) (by rw [laneFlags_addr]; exact laneAt_ob k 8 j)
  exact ⟨by rw [hst], fun hb => by rwa [Dev.flag, hfl], congrArg Front.kicks h⟩

theorem LaneStands.setReg (d : Dev) {r : Reg} (v : Nat) (hs : r.addr ≠ laneAt k 4 j) (hf : r.addr ≠ laneAt k 8 j) :
    LaneStands k j d (d.setReg r v) :=
  ⟨by rw [Dev.reg_setReg_ne _ _ _ _ (by rwa [laneStatus_addr])],
    fun hb => by rwa [Dev.flag, Dev.reg_setReg_ne _ _ _ _ (by rwa [laneFlags_addr])], rfl⟩

/-- A field of a lane's status above PRBS_LOCK. -/
theorem LaneStands.setStatus (d : Dev) (i : Nat) {hi lo : Nat} (v : Nat) (h6 : 6 ≤ lo) (hh : hi < 32) (hl : lo ≤ hi + 1) :
    LaneStands k j d (d.setFld (laneStatus k i) hi lo v) := by
  refine ⟨?_, fun hb => ?_, rfl⟩
  · by_cases hij : i = j
    · subst hij
      rw [Dev.reg_setFld _ _ _ _ _ hh hl, bits_putBits_ne _ _ _ _ _ _ hl (by omega)]
    · rw [Dev.reg_setFld_ne _ _ _ _ _ _ ?_]
      rw [laneStatus_addr, laneStatus_addr]
      simp only [laneAt]
      omega
  · rw [Dev.flag, Dev.reg_setFld_ne _ _ _ _ _ _ ?_]
    · exact hb
    · rw [laneStatus_addr, laneFlags_addr]
      exact laneAt_ne (by decide) (by decide) (by decide)

/-- A flag of a lane that sets. -/
theorem LaneStands.raise (d : Dev) (i : Nat) {b : Nat} (hb : b < 32) : LaneStands k j d (d.raise (laneFlags k i) b) := by
  refine ⟨?_, fun hf => ?_, by simp⟩
  · rw [Dev.raise_reg_ne _ _ _ _ (by rw [laneStatus_addr]; exact laneAt_ob k 4 j)]
    rw [laneStatus_addr, laneFlags_addr]
    exact laneAt_ne (by decide) (by decide) (by decide)
  · have ho : obAddr (laneFlags k j).addr = false := by
      rw [laneFlags_addr]
      exact laneAt_ob k 8 j
    by_cases hij : i = j
    · subst hij
      exact Dev.flag_raise_up b hf ho hb
    · rw [Dev.flag, Dev.raise_reg_ne _ _ _ _ ho]
      · exact hf
      · rw [laneFlags_addr, laneFlags_addr]
        simp only [laneAt]
        omega

/-- A flag of a register below the lanes that sets, with its record. -/
theorem LaneStands.raiseRec (d : Dev) {r : Reg} (b : Nat) (s : RSrc) (inst : Nat) (fault : Bool) (fs : List (Nat × Nat)) (hr : r.addr < 0x400000) :
    LaneStands k j d (d.raiseRec r b s inst fault fs) := by
  have hreg (a : Nat) {q : Reg} (hq : q.addr = laneAt k a j) : (d.raiseRec r b s inst fault fs).reg q = d.reg q := by
    have := laneAt_ge k a j
    exact Dev.raiseRec_reg_ne _ _ _ _ _ _ _ _ (by rw [hq]; exact laneAt_ob k a j) (by omega)
  exact ⟨by rw [hreg 4 (laneStatus_addr k j)], fun hf => by rwa [Dev.flag, hreg 8 (laneFlags_addr k j)], by simp⟩

theorem laneSkew_addr (hk : pam4 k = true) (i : Nat) : (laneSkew k i).addr = laneAt k 0x24 i := by
  cases k
  case pt | pb => exact absurd hk (by decide)
  all_goals rfl

theorem skewLost_reg (d : Dev) (hk : pam4 k = true) (i : Nat) {r : Reg} {a : Nat} (ha : a < 0x4000) (h24 : a ≠ 0x24) (hr : r.addr = laneAt k a j) :
    (d.skewLost k i).reg r = d.reg r := by
  rw [Dev.skewLost, Dev.onLx_reg, Dev.reg_setFld_ne _ _ _ _ _ _ (by rw [laneSkew_addr hk, hr]; exact laneAt_ne h24.symm (by decide) ha)]

theorem LaneStands.skewLost (d : Dev) (hk : pam4 k = true) (i : Nat) : LaneStands k j d (d.skewLost k i) :=
  (LaneStands.setReg d _ (by rw [laneSkew_addr hk]; exact laneAt_ne (by decide) (by decide) (by decide))
    (by rw [laneSkew_addr hk]; exact laneAt_ne (by decide) (by decide) (by decide))).trans (LaneStands.of_regs rfl rfl)

/-! ### A mate lane that drops, and its link (R88, R92, R93) -/

/-- A mate lane that asserts LOS or LOL or has no marker lock (R92). -/
def mateBad (d : Dev) (m : Nat) : Prop := d.fld (R .LX_ML_STATUS m) 1 0 ≠ 0 ∨ d.flag (R .LX_ML_STATUS m) 6 = false

theorem mateDrop_drops {m : Nat} (hr : d.laneRole .ml m = 5) (hb : mateBad d m) : (d.mateDrop m).flag (laneStatus .ml m) 7 = true ∧
    (d.mateDrop m).flag (laneStatus .ml m) 6 = d.flag (laneStatus .ml m) 6 := by
  unfold Dev.mateDrop
  extract_lets bad d1
  have hbad : bad := by simpa [bad, mateBad] using hb
  have hst : d1.reg (laneStatus .ml m) = d.reg (laneStatus .ml m) :=
    (skewLost_reg _ rfl m (by decide) (by decide) (laneStatus_addr .ml m)).trans rfl
  have hlock : d.flag (laneStatus .ml m) 6 = d1.flag (laneStatus .ml m) 6 := by rw [Dev.flag, Dev.flag, hst]
  clear_value d1
  rw [if_pos ⟨hr, hbad⟩, hlock]
  split
  next h => exact ⟨h, rfl⟩
  next h =>
    simp only [Dev.flag]
    have hne : (R .LX_ML_FLAGS m).addr ≠ (laneStatus .ml m).addr := by
      rw [laneStatus_addr]
      exact laneAt_ne (k := .ml) (a := 8) (b := 4) (by decide) (by decide) (by decide)
    rw [Dev.raise_reg_ne _ _ _ _ (by rw [laneStatus_addr]; exact laneAt_ob .ml 4 m) hne]
    rw [show R .LX_ML_STATUS m = laneStatus .ml m from rfl, Dev.reg_setFld _ _ _ _ _ (by decide) (by decide)]
    exact ⟨bit_putBits_self _ _, bit_putBits_ne _ _ _ _ _ (by decide) (by decide)⟩

theorem mateDrop_stands (d : Dev) (m : Nat) : LaneStands .ml j d (d.mateDrop m) := by
  unfold Dev.mateDrop
  extract_lets bad d1
  have h1 : LaneStands .ml j d d1 := by
    unfold d1
    refine LaneStands.trans ?_ (LaneStands.skewLost _ rfl m)
    exact LaneStands.of_regs rfl rfl
  exact LaneStands.ite (LaneStands.ite h1 ((h1.trans (LaneStands.setStatus d1 m 1 (by decide) (by decide) (by decide))).trans
    (LaneStands.raise _ m (by decide)))) (LaneStands.refl d)

theorem mateClean_eq (d : Dev) (m : Nat) : ∃ f, d.mateClean m = d.onLx f := by
  unfold Dev.mateClean
  split
  · exact ⟨_, rfl⟩
  · exact ⟨id, rfl⟩

theorem writeSkew_stands (d : Dev) (g : List (Nat × Nat × Nat)) : LaneStands .ml j d (d.writeSkew .ml g) := by
  obtain ⟨lo, h⟩ := writeSkew_eq d g
  rw [h]
  refine (LaneStands.foldl (fun d x => ?_) g d).trans (LaneStands.foldl (fun d x => ?_) g _)
  · exact LaneStands.setReg d _ (laneAt_ne (k := .ml) (a := 0x24) (b := 4) (by decide) (by decide) (by decide))
      (laneAt_ne (k := .ml) (a := 0x24) (b := 8) (by decide) (by decide) (by decide))
  · unfold markSkew
    extract_lets beyond was d1
    have h1 : LaneStands .ml j d d1 := LaneStands.of_regs rfl rfl
    exact LaneStands.ite (h1.trans (LaneStands.raise d1 x.1 (by decide))) h1

theorem mateLinkDown_stands (d : Dev) : LaneStands .ml j d d.mateLinkDown := by
  unfold Dev.mateLinkDown
  extract_lets d1
  have h1 : LaneStands .ml j d d1 := LaneStands.of_regs rfl rfl
  exact LaneStands.ite (h1.trans (LaneStands.raiseRec d1 (r := R .PX_FLAGS) _ _ _ _ _ (by decide))) (LaneStands.refl d)

theorem mateFollow_stands (d : Dev) (m : Nat) : LaneStands .ml j d (d.mateFollow m) := by
  unfold Dev.mateFollow
  extract_lets d1
  have h1 : LaneStands .ml j d d1 := by
    obtain ⟨f, hf⟩ := mateClean_eq (d.mateDrop m) m
    exact (mateDrop_stands d m).trans (by unfold d1; rw [hf]; exact LaneStands.of_regs rfl rfl)
  exact LaneStands.ite (LaneStands.refl d) ((h1.trans (writeSkew_stands d1 _)).trans (mateLinkDown_stands _))

/-- A bad mate lane drops from the link, and its marker lock is as it was. -/
theorem mateFollow_drops {m : Nat} (hm : m < 4) (hr : d.laneRole .ml m = 5) (hb : mateBad d m) :
    (d.mateFollow m).flag (laneStatus .ml m) 7 = true ∧ (d.mateFollow m).flag (laneStatus .ml m) 6 = d.flag (laneStatus .ml m) 6 := by
  unfold Dev.mateFollow
  extract_lets d1
  obtain ⟨f, hf⟩ := mateClean_eq (d.mateDrop m) m
  have h1 : d1.reg (laneStatus .ml m) = (d.mateDrop m).reg (laneStatus .ml m) := by
    unfold d1
    rw [hf, Dev.onLx_reg]
  clear_value d1
  have hskew : (d1.writeSkew .ml d1.mateGroup).reg (laneStatus .ml m) = d1.reg (laneStatus .ml m) :=
    congrFun (congrArg (fun x => x.2.2.2.2) (writeSkew_ml d1 d1.mateGroup).2) m
  obtain ⟨-, -, -, -, hdown⟩ := mateLinkDown_keeps (d1.writeSkew .ml d1.mateGroup)
  have hrep : reportAddr (laneStatus .ml m).addr = false := by
    rw [laneStatus_addr]
    exact laneAt_report (by simpa [LaneKind.has] using hm) (by decide) (by decide)
  rw [if_neg (by simp [hr]), Dev.flag, Dev.flag, hdown _ hrep, hskew, h1]
  exact mateDrop_drops hr hb

/-! ### What an uplink lane's port makes of it (R91, R383) -/

theorem portMarkers_stands (d : Dev) (u : Nat) (on : Bool) : LaneStands .ul j d (d.portMarkers u on) := by
  refine LaneStands.foldl (fun x i => ?_) _ d
  have h1 : LaneStands .ul j x (x.setFld (laneStatus .ul (u + i)) 6 6 (b2n on)) :=
    LaneStands.setStatus x (u + i) (b2n on) (by decide) (by decide) (by decide)
  exact LaneStands.ite h1 (h1.trans (LaneStands.skewLost _ rfl _))

theorem ulDeclare_stands (hj : LaneKind.has .ul j = true) (d : Dev) (u code : Nat) (on sending stamped receiving : Bool) :
    LaneStands .ul j d (d.ulDeclare u code on sending stamped receiving) :=
  LaneStands.of_front hj (Dev.ulDeclare_front ..)

theorem ulLaneFollow_stands (hj : LaneKind.has .ul j = true) (d : Dev) (lane : Nat) (sending stamped receiving : Bool) :
    LaneStands .ul j d (d.ulLaneFollow lane sending stamped receiving) := by
  unfold Dev.ulLaneFollow
  split
  next p _ =>
    extract_lets d1
    have h1 : LaneStands .ul j d d1 := LaneStands.ite (LaneStands.refl d) (ulDeclare_stands hj d _ _ _ _ _ _)
    refine LaneStands.ite (LaneStands.refl d) (LaneStands.ite (h1.trans ?_) h1)
    exact ((portMarkers_stands d1 _ _).trans (ulDeclare_stands hj _ _ _ _ _ _ _)).trans (ulDeclare_stands hj _ _ _ _ _ _ _)
  next => exact LaneStands.refl d

/-- What follows a change of LOS or LOL keeps what the lane shows. -/
theorem laneFollow_stands (hk : pam4 k = true) (hj : k.has j = true) (d : Dev) (sending stamped receiving : Bool) :
    LaneStands k j d (d.laneFollow k j sending stamped receiving) := by
  cases k
  case pt | pb => exact absurd hk (by decide)
  case ul => exact ulLaneFollow_stands hj d j sending stamped receiving
  case ml => exact mateFollow_stands d j
end

end Sys2Proof.Safety

end


section

namespace Sys2Proof.Safety

open Sys2Proof.Machine

/-! ### What the step's end keeps of a lane -/

/-- The step's end reports in no flags of a PT or PB lane. -/
theorem treeFlags_report {k : LaneKind} {j : Nat} (hj : k.has j = true) (hk : pam4 k = false) : reportAddr (laneAt k 8 j) = false := by
  have hob := laneAt_ob k 8 j
  simp only [reportAddr, hob, Bool.false_or, Bool.or_eq_false_iff, Bool.and_eq_false_iff, decide_eq_false_iff_not, beq_eq_false_iff_ne]
  cases k
  case ul | ml => exact absurd hk (by decide)
  all_goals
    simp only [LaneKind.has, decide_eq_true_eq] at hj
    simp only [laneAt]
    omega

section

variable {k : LaneKind} {j : Nat} {d d' : Dev} (hj : k.has j = true)

include hj

theorem FrontKept.lane (h : d.FrontKept d') {r : Reg} {a : Nat} (hr : r.addr = laneAt k a j) (ha : a < 0x4000) (h8 : a ≠ 8) :
    d'.reg r = d.reg r := by
  have := laneAt_lt hj ha
  exact h.reg (by omega) (by rw [hr]; exact laneAt_report hj ha h8)

theorem FrontKept.laneStatus (h : d.FrontKept d') : d'.reg (laneStatus k j) = d.reg (laneStatus k j) :=
  FrontKept.lane hj h (laneStatus_addr k j) (by decide) (by decide)

theorem FrontKept.laneFlag (h : d.FrontKept d') {b : Nat} (hb : d.flag (laneFlags k j) b = true) : d'.flag (laneFlags k j) b = true := by
  have hlt := laneAt_lt (a := 8) hj (by decide)
  have haddr := laneFlags_addr k j
  cases k
  case pt | pb =>
    rw [Dev.flag, h.reg (by omega) (by rw [haddr]; exact treeFlags_report hj (by decide))]
    exact hb
  case ul =>
    simp only [LaneKind.has, decide_eq_true_eq] at hj
    have hm := mem_levelRegs_lane (n := j) (by omega)
    rw [if_pos hj] at hm
    exact h.flag hm (by rw [show R .LX_UL_FLAGS j = Machine.laneFlags .ul j from rfl]; omega) hb
  case ml =>
    simp only [LaneKind.has, decide_eq_true_eq] at hj
    have hm := mem_levelRegs_lane (n := 12 + j) (by omega)
    rw [if_neg (by omega), Nat.add_sub_cancel_left] at hm
    exact h.flag hm (by rw [show R .LX_ML_FLAGS j = Machine.laneFlags .ml j from rfl]; omega) hb

end

/-- A lane's event answers with its effect where the lanes have their roles. -/
theorem answers_lane {i : Instr} {s : State} {dt j : Nat} {k : LaneKind} {f : Dev → Dev} (hq : Quiet (s.dev.elapse dt))
    (hl : (s.dev.elapse dt).laneLive = true) (hj : k.has j = true) (hex : exec i s = event s dt (fun d => d.laneLive && k.has j) f)
    (hk : (f (s.dev.elapse dt)).kicks = (s.dev.elapse dt).kicks) : Answers i s fun d => (f (s.dev.elapse dt)).FrontKept d :=
  answers_event_front hex (by simp [hl, hj]) (hk.trans hq.1)

section

variable {k : LaneKind} {j : Nat} {d : Dev}

/-! ### A lane's status and flags -/

theorem laneStatus_ob (k : LaneKind) (j : Nat) : obAddr (laneStatus k j).addr = false := by
  rw [laneStatus_addr]
  exact laneAt_ob k 4 j

theorem laneFlags_ob (k : LaneKind) (j : Nat) : obAddr (laneFlags k j).addr = false := by
  rw [laneFlags_addr]
  exact laneAt_ob k 8 j

theorem lane_apart (k : LaneKind) (j : Nat) : (laneFlags k j).addr ≠ (laneStatus k j).addr := by
  rw [laneStatus_addr, laneFlags_addr]
  exact laneAt_ne (by decide) (by decide) (by decide)

/-- A field of the status written, and a flag set with it. -/
theorem status_report (d : Dev) (k : LaneKind) (j : Nat) {hi lo : Nat} (v b : Nat) (hh : hi < 32) (hl : lo ≤ hi + 1) (hb : b < 32) :
    ((d.setFld (laneStatus k j) hi lo v).raise (laneFlags k j) b).reg (laneStatus k j) = putBits (d.reg (laneStatus k j)) hi lo v ∧
      ((d.setFld (laneStatus k j) hi lo v).raise (laneFlags k j) b).flag (laneFlags k j) b = true := by
  refine ⟨?_, Dev.flag_raise _ (laneFlags_ob k j) hb⟩
  rw [Dev.raise_reg_ne _ _ _ _ (laneStatus_ob k j) (lane_apart k j), Dev.reg_setFld _ _ _ _ _ hh hl]

/-! ### PLLs (R76) -/

theorem pllUnlock_shows (hr : d.laneRole k j ≠ 0) (h4 : d.flag (laneStatus k j) 4 = true) :
    (d.pllUnlock k j).kicks = d.kicks ∧ (d.pllUnlock k j).flag (laneStatus k j) 4 = false ∧
      (d.pllUnlock k j).flag (laneFlags k j) 4 = true ∧
      (k = .pt → (d.pllUnlock k j).lx.ptFault.get? j = some none ∧ ((d.pllUnlock k j).tf j).txFault = true) := by
  unfold Dev.pllUnlock
  extract_lets d1
  obtain ⟨hst, hfl⟩ := status_report d k j (hi := 4) (lo := 4) 0 4 (by decide) (by decide) (by decide)
  have h1 : d1.kicks = d.kicks ∧ d1.flag (laneStatus k j) 4 = false ∧ d1.flag (laneFlags k j) 4 = true :=
    ⟨by simp [d1], by rw [Dev.flag, hst, bit_putBits_zero], hfl⟩
  clear_value d1
  rw [if_neg (by simp [hr, h4])]
  split
  · exact ⟨h1.1, h1.2.1, h1.2.2, fun _ => ⟨by simp [Dev.onTf, Table.get?_set], by simp [Dev.onTf, Dev.tf]⟩⟩
  next hk => exact ⟨h1.1, h1.2.1, h1.2.2, fun h => absurd h hk⟩

theorem pllRelock_shows (hr : d.laneRole k j ≠ 0) (h4 : d.flag (laneStatus k j) 4 = false) :
    (d.pllRelock k j).kicks = d.kicks ∧ (d.pllRelock k j).flag (laneStatus k j) 4 = true := by
  unfold Dev.pllRelock
  extract_lets d1
  have h1 : d1.kicks = d.kicks ∧ d1.flag (laneStatus k j) 4 = true := ⟨rfl, Dev.flag_setFld _ _ _ (by decide)⟩
  clear_value d1
  rw [if_neg (by simp [hr, h4])]
  split
  · exact h1
  · exact h1

/-! ### Detectors (R89 to R92) -/

theorem onDet_keeps (d : Dev) (k : LaneKind) (j : Nat) (f : LaneDet → LaneDet) :
    (d.onDet k j f).regs = d.regs ∧ (d.onDet k j f).im = d.im ∧ (d.onDet k j f).kicks = d.kicks := ⟨rfl, rfl, rfl⟩

theorem detects_of (hk : pam4 k = true) (hr : d.laneRole k j ≠ 0) : d.detects k j = true := by simp [Dev.detects, hk, hr]

/-- LOS asserts: LOS and LOL read 1 with the flag. -/
theorem losSet_shows (hd : d.detects k j = true) (h0 : d.flag (laneStatus k j) 0 = false) :
    (d.losSet k j).kicks = d.kicks ∧ (d.losSet k j).im = d.im ∧ (d.losSet k j).fld (laneStatus k j) 1 0 = 3 ∧
      (d.losSet k j).flag (laneFlags k j) 0 = true := by
  obtain ⟨hst, hfl⟩ := status_report d k j (hi := 1) (lo := 0) 3 0 (by decide) (by decide) (by decide)
  have hboth : bits (putBits (d.reg (laneStatus k j)) 1 0 3) 1 0 = 3 := (bits_putBits_self _ _ _ _ (by decide)).trans (by decide)
  rw [Dev.losSet, if_neg (by simp [hd, h0])]
  exact ⟨by simp, by simp, by rw [Dev.fld, hst, hboth], hfl⟩

/-- LOS clears: LOL stands. -/
theorem losClear_shows (hd : d.detects k j = true) (h0 : d.flag (laneStatus k j) 0 = true) :
    (d.losClear k j).kicks = d.kicks ∧ (d.losClear k j).flag (laneStatus k j) 0 = false ∧
      (d.losClear k j).flag (laneStatus k j) 1 = d.flag (laneStatus k j) 1 ∧ (d.losClear k j).flag (laneFlags k j) 1 = true := by
  obtain ⟨hst, hfl⟩ := status_report d k j (hi := 0) (lo := 0) 0 1 (by decide) (by decide) (by decide)
  rw [Dev.losClear, if_neg (by simp [hd, h0])]
  simp only [Dev.flag, Dev.onLx_reg, Dev.onLx_kicks, hst]
  exact ⟨by simp, bit_putBits_zero _ _, bit_putBits_ne _ _ _ _ _ (by decide) (by decide), hfl⟩

theorem lolSet_shows (hd : d.detects k j = true) (h1 : d.flag (laneStatus k j) 1 = false) :
    (d.lolSet k j).kicks = d.kicks ∧ (d.lolSet k j).im = d.im ∧ (d.lolSet k j).flag (laneStatus k j) 1 = true ∧
      (d.lolSet k j).flag (laneFlags k j) 2 = true := by
  obtain ⟨hst, hfl⟩ := status_report d k j (hi := 1) (lo := 1) 1 2 (by decide) (by decide) (by decide)
  rw [Dev.lolSet, if_neg (by simp [hd, h1])]
  exact ⟨by simp, by simp, by rw [Dev.flag, hst, bit_putBits_self], hfl⟩

theorem lolClear_shows (hd : d.detects k j = true) (h0 : d.flag (laneStatus k j) 0 = false) (h1 : d.flag (laneStatus k j) 1 = true) :
    (d.lolClear k j).kicks = d.kicks ∧ (d.lolClear k j).flag (laneStatus k j) 1 = false ∧ (d.lolClear k j).flag (laneFlags k j) 3 = true := by
  obtain ⟨hst, hfl⟩ := status_report d k j (hi := 1) (lo := 1) 0 3 (by decide) (by decide) (by decide)
  rw [Dev.lolClear, if_neg (by simp [hd, h0, h1])]
  simp only [Dev.flag, Dev.onLx_reg, Dev.onLx_kicks, hst]
  exact ⟨by simp, bit_putBits_zero _ _, hfl⟩

/-- A run of a raw condition that is not shown and has lasted its time ends. -/
theorem detRun_ends {cfg run n : Nat} {shown raw : Bool} (h : raw ≠ shown) (ht : detTime cfg raw ≤ run + n) :
    detRun cfg shown raw run n = (0, true) := by
  rw [detRun, if_neg h, if_pos ht]

section

variable (hk : pam4 k = true) (hr : d.laneRole k j ≠ 0) {n : Nat} (hn : 0 < n)

include hk hr hn

/-- Samples below the assert threshold that run their time bring LOS (R89). -/
theorem losSamples_sets {mv : Nat} (h0 : d.flag (laneStatus k j) 0 = false) (hmv : mv < 5 * d.fld (laneLosCfg k j) 31 24)
    (hrun : d.fld (laneLosCfg k j) 15 8 < (d.laneDet k j).losRun + n) :
    (d.losSamples k j mv n).kicks = d.kicks ∧ (d.losSamples k j mv n).im = d.im ∧ (d.losSamples k j mv n).fld (laneStatus k j) 1 0 = 3 ∧
      (d.losSamples k j mv n).flag (laneFlags k j) 0 = true := by
  unfold Dev.losSamples
  extract_lets cfg x raw r d1
  have hraw : raw = true := by
    have hlow : (if d.rxOff k j = true then 0 else mv) < 5 * bits cfg 31 24 := by
      split
      · exact Nat.lt_of_le_of_lt (Nat.zero_le mv) hmv
      · exact hmv
    simp [raw, losRaw, hlow]
  have hend : r = (0, true) := detRun_ends (by rw [hraw, h0]; decide) (by rw [hraw]; exact hrun)
  obtain ⟨hregs, him, hkicks⟩ := onDet_keeps d k j fun y => { y with losRaw := raw, losRun := r.1 }
  have hoff : d1.flag (laneStatus k j) 0 = false := (congrArg (bit · 0) (Dev.reg_congr hregs _)).trans h0
  obtain ⟨sk, si, ss, sf⟩ := losSet_shows (detects_of hk (by rw [laneRole_congr him]; exact hr)) hoff
  obtain ⟨lregs, lim, lkicks⟩ := onDet_keeps (d1.losSet k j) k j fun y => { y with lolRun := 0 }
  rw [if_neg (by simp [detects_of hk hr, Nat.pos_iff_ne_zero.mp hn]), if_neg (by simp [hend]), if_pos hraw, Dev.fld, Dev.flag, Dev.reg_congr lregs,
    Dev.reg_congr lregs]
  exact ⟨lkicks.trans (sk.trans hkicks), lim.trans (si.trans him), ss, sf⟩

/-- Samples above the clear threshold that run their time end LOS (R89). -/
theorem losSamples_clears {mv : Nat} (h0 : d.flag (laneStatus k j) 0 = true) (hon : d.rxOff k j = false)
    (hmv : 5 * max (d.fld (laneLosCfg k j) 23 16) (d.fld (laneLosCfg k j) 31 24) < mv)
    (hrun : 100 * d.fld (laneLosCfg k j) 7 0 < (d.laneDet k j).losRun + n) :
    (d.losSamples k j mv n).kicks = d.kicks ∧ (d.losSamples k j mv n).flag (laneStatus k j) 0 = false ∧
      (d.losSamples k j mv n).flag (laneStatus k j) 1 = d.flag (laneStatus k j) 1 ∧ (d.losSamples k j mv n).flag (laneFlags k j) 1 = true := by
  unfold Dev.losSamples
  extract_lets cfg x raw r d1
  have hraw : raw = false := by
    have hhigh : 5 * max (bits cfg 23 16) (bits cfg 31 24) < mv := hmv
    have hnot : ¬ mv < 5 * bits cfg 31 24 := by omega
    simp [raw, losRaw, hon, hhigh, hnot]
  have hend : r = (0, true) := detRun_ends (by rw [hraw, h0]; decide) (by rw [hraw]; exact hrun)
  obtain ⟨hregs, him, hkicks⟩ := onDet_keeps d k j fun y => { y with losRaw := raw, losRun := r.1 }
  have hflag (i : Nat) : d1.flag (laneStatus k j) i = d.flag (laneStatus k j) i := congrArg (bit · i) (Dev.reg_congr hregs _)
  obtain ⟨sk, s0, s1, sf⟩ := losClear_shows (detects_of hk (by rw [laneRole_congr him]; exact hr)) ((hflag 0).trans h0)
  obtain ⟨lregs, -, lkicks⟩ := onDet_keeps (d1.losClear k j) k j fun y => { y with lolRun := 0 }
  rw [if_neg (by simp [detects_of hk hr, Nat.pos_iff_ne_zero.mp hn]), if_neg (by simp [hend]), if_neg (by simp [hraw])]
  simp only [Dev.flag, Dev.reg_congr lregs]
  exact ⟨lkicks.trans (sk.trans hkicks), s0, s1.trans (hflag 1), sf⟩

/-- Samples beyond PPM_LIMIT that run their time bring LOL (R89, R90). -/
theorem lolSamples_sets {ppm : Nat} (h0 : d.flag (laneStatus k j) 0 = false) (h1 : d.flag (laneStatus k j) 1 = false)
    (hppm : 50 * atLeast1 (d.fld (laneLolCfg k j) 23 16) < ppm) (hrun : d.fld (laneLolCfg k j) 15 8 < (d.laneDet k j).lolRun + n) :
    (d.lolSamples k j ppm n).kicks = d.kicks ∧ (d.lolSamples k j ppm n).im = d.im ∧
      (d.lolSamples k j ppm n).flag (laneStatus k j) 1 = true ∧ (d.lolSamples k j ppm n).flag (laneFlags k j) 2 = true := by
  unfold Dev.lolSamples
  extract_lets cfg x raw r d1
  have hraw : raw = true := by
    have hfar : 50 * atLeast1 (bits cfg 23 16) < ppm := hppm
    simp [raw, lolRaw, hfar]
  have hend : r = (0, true) := by
    refine (if_neg (by simp [h0])).trans (detRun_ends (by rw [hraw, h1]; decide) ?_)
    rw [hraw]
    exact hrun
  obtain ⟨hregs, him, hkicks⟩ := onDet_keeps d k j fun y => { y with lolRaw := raw, lolRun := r.1 }
  have hoff : d1.flag (laneStatus k j) 1 = false := (congrArg (bit · 1) (Dev.reg_congr hregs _)).trans h1
  obtain ⟨sk, si, ss, sf⟩ := lolSet_shows (detects_of hk (by rw [laneRole_congr him]; exact hr)) hoff
  rw [if_neg (by simp [detects_of hk hr, Nat.pos_iff_ne_zero.mp hn]), if_neg (by simp [hend]), if_pos hraw]
  exact ⟨sk.trans hkicks, si.trans him, ss, sf⟩

/-- Samples below half PPM_LIMIT that run their time end LOL while REFCLK_ETH is there (R89, R90, R552). -/
theorem lolSamples_clears {ppm : Nat} (h0 : d.flag (laneStatus k j) 0 = false) (href : d.pins.refEth = true)
    (h1 : d.flag (laneStatus k j) 1 = true) (hppm : 2 * ppm < 50 * atLeast1 (d.fld (laneLolCfg k j) 23 16))
    (hrun : 100 * d.fld (laneLolCfg k j) 7 0 < (d.laneDet k j).lolRun + n) :
    (d.lolSamples k j ppm n).kicks = d.kicks ∧ (d.lolSamples k j ppm n).flag (laneStatus k j) 1 = false ∧
      (d.lolSamples k j ppm n).flag (laneFlags k j) 3 = true := by
  unfold Dev.lolSamples
  extract_lets cfg x raw r d1
  have hraw : raw = false := by
    have hnear : 2 * ppm < 50 * atLeast1 (bits cfg 23 16) := hppm
    have hnot : ¬ 50 * atLeast1 (bits cfg 23 16) < ppm := by omega
    simp [raw, lolRaw, href, hnear, hnot]
  have hend : r = (0, true) := by
    refine (if_neg (by simp [h0])).trans (detRun_ends (by rw [hraw, h1]; decide) ?_)
    rw [hraw]
    exact hrun
  obtain ⟨hregs, him, hkicks⟩ := onDet_keeps d k j fun y => { y with lolRaw := raw, lolRun := r.1 }
  have hflag (i : Nat) : d1.flag (laneStatus k j) i = d.flag (laneStatus k j) i := congrArg (bit · i) (Dev.reg_congr hregs _)
  obtain ⟨sk, s1, sf⟩ :=
    lolClear_shows (detects_of hk (by rw [laneRole_congr him]; exact hr)) ((hflag 0).trans h0) ((hflag 1).trans h1)
  rw [if_neg (by simp [detects_of hk hr, Nat.pos_iff_ne_zero.mp hn]), if_neg (by simp [hend]), if_neg (by simp [hraw])]
  exact ⟨sk.trans hkicks, s1, sf⟩

end

theorem mateRole {m : Nat} (h : d.laneRole .ml m ≠ 0) : d.laneRole .ml m = 5 := by
  unfold Dev.laneRole at h ⊢
  simp only [ne_eq, ite_eq_right_iff, Nat.reduceEqDiff, imp_false, not_not] at h
  simp [h]

/-- What follows a loss on a mate lane drops it (R92). -/
theorem laneFollow_mate {m : Nat} (hm : m < 4) (hr : d.laneRole .ml m ≠ 0) (hb : mateBad d m) (sending stamped receiving : Bool) :
    (d.laneFollow .ml m sending stamped receiving).flag (laneStatus .ml m) 7 = true := (mateFollow_drops hm (mateRole hr) hb).1

end

end Sys2Proof.Safety

end


section

namespace Sys2Proof.Safety

open Sys2Proof.Machine

section

variable {k : LaneKind} {j : Nat} {d : Dev}

/-! ### Eye scans (R95, R96) -/

/-- A choice among the members of a list has what all of them have. -/
theorem foldl_choice {α β : Type} {P : β → Prop} {f : Option β → α → Option β} {z : β} {l : List α} (hz : P z)
    (h : ∀ b, (∀ y ∈ b, P y) → ∀ x ∈ l, ∀ y ∈ f b x, P y) : P ((l.foldl f none).getD z) := by
  have hall : ∀ y ∈ l.foldl f none, P y :=
    List.foldlRecOn (motive := fun b => ∀ y ∈ b, P y) l f (fun _ hy => by cases hy) h
  cases ho : l.foldl f none with
  | none => exact hz
  | some y => exact hall y ho

/-- The number of the worst eye is that of an eye, and its margins fit their fields. -/
theorem worstEye_le {ms : List (Nat × Nat)} (h : ∀ m ∈ ms, m.1 ≤ 63 ∧ m.2 ≤ 255) :
    (worstEye ms).1 ≤ ms.length - 1 ∧ (worstEye ms).2.1 ≤ 63 ∧ (worstEye ms).2.2 ≤ 255 := by
  refine foldl_choice (P := fun y : Nat × Nat × Nat => y.1 ≤ ms.length - 1 ∧ y.2.1 ≤ 63 ∧ y.2.2 ≤ 255) (by simp) fun b hb x hx => ?_
  obtain ⟨hmargin, hnumber⟩ := List.of_mem_zip hx
  have hpick : ∀ y ∈ some (x.2, x.1), y.1 ≤ ms.length - 1 ∧ y.2.1 ≤ 63 ∧ y.2.2 ≤ 255 := by
    rintro y ⟨⟩
    exact ⟨Nat.le_sub_one_of_lt (List.mem_range.mp hnumber), h x.1 hmargin⟩
  split
  · exact hpick
  · split
    · exact hpick
    · exact hb

/-- The result word of a scan and its fields (R109). -/
theorem eyeWord {seq n m v : Nat} (hseq : seq < 256) (hn : n < 4) (hm : m ≤ 63) (hv : v ≤ 255) (ok : Bool) :
    let w := seq * 2 ^ 24 + n * 2 ^ 22 + b2n ok * 2 ^ 21 + m * 2 ^ 14 + v
    w < 2 ^ 32 ∧ bits w 31 24 = seq ∧ bits w 23 22 = n ∧ bit w 21 = ok ∧ bits w 19 14 = m ∧ bits w 7 0 = v := by
  have hok : b2n ok ≤ 1 := by cases ok <;> decide
  have hbit : ∀ x, x / 2 ^ 21 % 2 = b2n ok → bit x 21 = ok := fun x hx => by
    rw [bit, hx]
    cases ok <;> rfl
  intro w
  simp only [bits]
  refine ⟨?_, ?_, ?_, hbit w ?_, ?_, ?_⟩ <;> simp only [w] <;> omega

theorem raiseIf_apart (d : Dev) (c : Bool) (r q : Reg) (b : Nat) (ho : obAddr q.addr = false) (h : r.addr ≠ q.addr) :
    (d.raiseIf c r b).reg q = d.reg q ∧ (d.raiseIf c r b).kicks = d.kicks := by
  unfold Dev.raiseIf
  split
  · exact ⟨Dev.raise_reg_ne _ _ _ _ ho h, by simp⟩
  · exact ⟨rfl, rfl⟩

theorem eyeDone_shows {cfg res : Reg} (hc : laneEyeCfg k j = some cfg) (he : laneEyeResult k j = some res) (hr : d.laneRole k j ≠ 0)
    (h31 : d.flag cfg 31 = true) (eyes : List EyeSweep) :
    let es := eyes.take (if k = .pb then 1 else 3)
    let w := worstEye (es.map (eyeMargins k (d.reg cfg)))
    let x := d.eyeDone k j eyes
    x.kicks = d.kicks ∧ x.fld res 31 24 = (d.fld res 31 24 + 1) % 256 ∧ x.fld res 23 22 = w.1 % 4 ∧
      x.flag res 21 = es.all (eyeValid k (d.reg cfg)) ∧ x.fld res 19 14 = w.2.1 ∧ x.fld res 7 0 = w.2.2 ∧
      x.flag (laneFlags k j) 9 = true ∧ (w.2.1 < d.fld cfg 15 8 ∨ w.2.2 < d.fld cfg 7 0 → x.flag (laneFlags k j) 10 = true) := by
  intro es w x
  obtain ⟨hw1, hw2, hw3⟩ : w.1 < 4 ∧ w.2.1 ≤ 63 ∧ w.2.2 ≤ 255 := by
    have hlen : es.length ≤ 3 := (List.length_take_le _ _).trans (by split <;> decide)
    obtain ⟨h1, h2, h3⟩ := worstEye_le (ms := es.map (eyeMargins k (d.reg cfg))) fun m hm => by
      obtain ⟨e, -, rfl⟩ := List.mem_map.mp hm
      exact ⟨Nat.min_le_left _ _, Nat.min_le_left _ _⟩
    rw [List.length_map] at h1
    exact ⟨by show (worstEye _).1 < 4; omega, h2, h3⟩
  have hx : x = ((d.setReg res ((d.fld res 31 24 + 1) % 256 * 2 ^ 24 + w.1 * 2 ^ 22 + b2n (es.all (eyeValid k (d.reg cfg))) * 2 ^ 21 +
      w.2.1 * 2 ^ 14 + w.2.2)).raise (laneFlags k j) 9).raiseIf (decide (w.2.1 < d.fld cfg 15 8 ∨ w.2.2 < d.fld cfg 7 0)) (laneFlags k j) 10 := by
    simp only [x, Dev.eyeDone, hc, he]
    rw [if_neg (by simp [hr, h31])]
    rfl
  clear_value x w
  have hapart : (laneFlags k j).addr ≠ res.addr := by
    rw [laneFlags_addr, laneEyeResult_addr he]
    exact laneAt_ne (by decide) (by decide) (by decide)
  have hob : obAddr res.addr = false := by
    rw [laneEyeResult_addr he]
    exact laneAt_ob k _ j
  obtain ⟨hlt, hseq, hnum, hok, hhor, hver⟩ := eyeWord (Nat.mod_lt (d.fld res 31 24 + 1) (by decide : 0 < 256)) hw1 hw2 hw3
    (es.all (eyeValid k (d.reg cfg)))
  have hreg : x.reg res = (d.fld res 31 24 + 1) % 256 * 2 ^ 24 + w.1 * 2 ^ 22 + b2n (es.all (eyeValid k (d.reg cfg))) * 2 ^ 21 +
      w.2.1 * 2 ^ 14 + w.2.2 := by
    rw [hx, (raiseIf_apart _ _ _ _ _ hob hapart).1, Dev.raise_reg_ne _ _ _ _ hob hapart, Dev.reg_setReg _ _ _ (Reg.reset_lt _), Nat.mod_eq_of_lt hlt]
  refine ⟨?_, ?_, ?_, ?_, ?_, ?_, ?_, fun hlow => ?_⟩
  · rw [hx, (raiseIf_apart _ _ _ _ _ hob hapart).2, Dev.raise_kicks, Dev.setReg_kicks]
  · rw [Dev.fld, hreg, hseq]
  · rw [Dev.fld, hreg, hnum, Nat.mod_eq_of_lt hw1]
  · rw [Dev.flag, hreg, hok]
  · rw [Dev.fld, hreg, hhor]
  · rw [Dev.fld, hreg, hver]
  · rw [hx]
    exact Dev.flag_raiseIf_up _ _ (Dev.flag_raise _ (laneFlags_ob k j) (by decide)) (laneFlags_ob k j) (by decide)
  · rw [hx, Dev.raiseIf, if_pos (by simpa using hlow)]
    exact Dev.flag_raise _ (laneFlags_ob k j) (by decide)

/-! ### The mate lanes (R93, R446) -/

theorem mateRejoin_waits {m : Nat} (hr : d.laneRole .ml m = 5) (h7 : d.flag (R .LX_ML_STATUS m) 7 = true)
    (h0 : d.fld (R .LX_ML_STATUS m) 1 0 = 0) (h6 : d.flag (R .LX_ML_STATUS m) 6 = true) (hready : d.mateReady m = true) :
    (d.mateRejoin m).kicks = d.kicks ∧ m ∈ (d.mateRejoin m).lx.rejoin := by
  unfold Dev.mateRejoin
  extract_lets s
  simp only [Dev.flag, Dev.fld] at h7 h0 h6
  by_cases hm : d.lx.rejoin.contains m = true
  · rw [if_neg (by simp [List.contains_iff_mem.mp hm])]
    exact ⟨rfl, List.contains_iff_mem.mp hm⟩
  · rw [if_pos ⟨hr, h7, h0, h6, hready, by simpa using hm⟩]
    exact ⟨rfl, List.mem_append_right _ (List.mem_singleton_self m)⟩

theorem markerLockLoss_shows {m : Nat} (hm : m < 4) (hr : d.laneRole .ml m = 5) (hmiss : d.markersMissing m = true) :
    (d.markerLockLoss m).kicks = d.kicks ∧ (d.markerLockLoss m).flag (laneStatus .ml m) 6 = false ∧
      (d.markerLockLoss m).flag (laneStatus .ml m) 7 = true := by
  unfold Dev.markerLockLoss
  rw [if_pos ⟨hr, hmiss⟩]
  generalize hx : (d.setFld (R .LX_ML_STATUS m) 6 6 0).markersLost m = x
  have hlock : x.flag (laneStatus .ml m) 6 = false := by
    rw [← hx, Dev.markersLost, Dev.flag, Dev.onLx_reg, Dev.onPx_reg, show R .LX_ML_STATUS m = laneStatus .ml m from rfl,
      Dev.reg_setFld _ _ _ _ _ (by decide) (by decide), bit_putBits_zero]
  have hkeep : x.kicks = d.kicks ∧ x.im = d.im := by rw [← hx]; exact ⟨rfl, rfl⟩
  obtain ⟨h7, h6⟩ := mateFollow_drops hm (by rw [laneRole_congr hkeep.2]; exact hr) (Or.inr hlock)
  exact ⟨(mateFollow_stands (j := m) x m).kicks.trans hkeep.1, h6.trans hlock, h7⟩

end

end Sys2Proof.Safety

end


section

namespace Sys2Proof.Safety

open Sys2Proof.Machine

/-! ### The bits of a lane (R85, R97) -/

theorem graySymbols_length (n : Nat) (l : List Bool) (h : l.length = 2 * n) : (graySymbols l).length = n := by
  induction n generalizing l with
  | zero =>
    rw [List.length_eq_zero_iff.mp h]
    rfl
  | succ n ih =>
    match l, h with
    | a :: b :: r, h => simpa [graySymbols] using ih r (by simpa [Nat.mul_add] using h)

theorem precode_length (p : Nat) (l : List Nat) : (precode p l).length = l.length := by
  induction l generalizing p with
  | nil => rfl
  | cons g l ih => simp [precode, ih]

theorem deprecode_length (p : Nat) (l : List Nat) : (deprecode p l).length = l.length := by
  induction l generalizing p with
  | nil => rfl
  | cons g l ih => simp [deprecode, ih]

theorem prbsBits_length (n : Nat) (taps : List Nat) (m x : Nat) : (prbsBits n taps x m).length = m := by
  induction m generalizing x with
  | zero => rfl
  | succ m ih => simp [prbsBits, ih]

theorem grayBits_length (g : Nat) : (grayBits g).length = 2 := by
  unfold grayBits
  split <;> rfl

section

variable {k : LaneKind} {j : Nat} (d : Dev)

theorem genSymbols_length (u n : Nat) : (d.genSymbols k j u n).length = n := by
  unfold Dev.genSymbols
  extract_lets p w
  split
  · extract_lets bs es
    have hes : es.length = w * n := by simp [es, bs, prbsBits_length]
    split
    next h => exact graySymbols_length n es (by rw [hes, show w = 2 from if_pos h])
    next h => rw [List.length_map, hes, show w = 1 from if_neg h, Nat.one_mul]
  · simp

theorem genLevels_length (u n : Nat) : (d.genLevels k j u n).length = n := by
  unfold Dev.genLevels
  extract_lets lv
  have hlv : lv.length = n := by
    unfold lv
    split
    · rw [List.length_drop, precode_length, genSymbols_length, Nat.add_sub_cancel_left]
    · exact genSymbols_length d u n
  split
  · rw [List.length_map, hlv]
  · exact hlv

/-- A receiver sees one level for each UI, looped or not. -/
theorem rxLevels_length (rx : List Nat) : (d.rxLevels k j rx).length = rx.length := by
  unfold Dev.rxLevels
  extract_lets src drives looped lv
  have hlv : lv.length = rx.length := by
    unfold lv
    split
    · exact genLevels_length d _ _
    · rfl
  split
  · rw [List.length_map, hlv]
  · exact hlv

theorem rxBits_length_le (prev : Nat) (lv : List Nat) : (d.rxBits k j prev lv).length ≤ 2 * lv.length := by
  unfold Dev.rxBits
  split
  · rw [List.length_flatMap]
    simp only [grayBits_length, List.map_const', List.sum_replicate, smul_eq_mul]
    split <;> simp [deprecode_length, Nat.mul_comm]
  · rw [List.length_map]
    omega

end

/-! ### The checker (R98) -/

section

variable {k : LaneKind} {j : Nat} {d : Dev}

theorem onChk_still (d : Dev) (k : LaneKind) (j : Nat) (f : PrbsChk → PrbsChk) :
    (d.onChk k j f).regs = d.regs ∧ (d.onChk k j f).kicks = d.kicks := by
  rw [Dev.onChk, Dev.onLx_regs, Dev.onLx_kicks]
  exact ⟨rfl, rfl⟩

theorem onChk_flag (d : Dev) (k : LaneKind) (j : Nat) (f : PrbsChk → PrbsChk) (r : Reg) (b : Nat) : (d.onChk k j f).flag r b = d.flag r b := by
  rw [Dev.flag, Dev.flag, Dev.reg_congr (onChk_still d k j f).1]

theorem chk_onChk (d : Dev) (k : LaneKind) (j : Nat) (f : PrbsChk → PrbsChk) : (d.onChk k j f).chk k j = f (d.chk k j) := by
  rw [Dev.chk, Dev.onChk, Dev.onLx_lx]
  simp only [Table.getD_put, if_true]
  rfl

theorem chk_congr {d d' : Dev} (h : d'.lx = d.lx) (k : LaneKind) (j : Nat) : d'.chk k j = d.chk k j := by rw [Dev.chk, Dev.chk, h]

/-- The counts of a checker lie beside its lane's status and flags. -/
theorem prbsCount_apart (d : Dev) (errs blocks : Nat) {r : Reg} {a : Nat} (hr : r.addr = laneAt k a j) (ha : a < 0x60) :
    (d.prbsCount k j errs blocks).reg r = d.reg r ∧ (d.prbsCount k j errs blocks).kicks = d.kicks ∧
      (d.prbsCount k j errs blocks).lx = d.lx := by
  unfold Dev.prbsCount
  split
  next e b he hb =>
    have hne (c : Nat) (hc : 0x60 ≤ c) (hc' : c < 0x4000) {q : Reg} (hq : q.addr = laneAt k c j) : q.addr ≠ r.addr := by
      rw [hq, hr]
      exact laneAt_ne (by omega) hc' (by omega)
    rw [Dev.reg_setReg_ne _ _ _ _ (hne 0x68 (by decide) (by decide) (lanePrbsBlocks_addr hb)),
      Dev.reg_setReg_ne _ _ _ _ (hne 0x64 (by decide) (by decide) (lanePrbsErr_addr he))]
    simp only [Dev.setReg_kicks, Dev.setReg_lx, and_self]
  next => exact ⟨rfl, rfl, rfl⟩

/-- An error counted. -/
theorem prbsCount_errs (d : Dev) (errs blocks : Nat) {er bl : Reg} (he : lanePrbsErr k j = some er) (hb : lanePrbsBlocks k j = some bl) :
    (d.prbsCount k j errs blocks).reg er = min (d.reg er + errs) 0xFFFFFFFF := by
  have hne : bl.addr ≠ er.addr := by
    rw [lanePrbsBlocks_addr hb, lanePrbsErr_addr he]
    exact laneAt_ne (by decide) (by decide) (by decide)
  simp only [Dev.prbsCount, he, hb]
  rw [Dev.reg_setReg_ne _ _ _ _ hne, Dev.reg_setReg _ _ _ (Reg.reset_lt _), Nat.mod_eq_of_lt]
  exact Nat.lt_of_le_of_lt (Nat.min_le_right _ _) (by decide)

theorem prbsLock_locks (d : Dev) (k : LaneKind) (j : Nat) :
    (d.prbsLock k j).flag (laneStatus k j) 5 = true ∧ (d.prbsLock k j).kicks = d.kicks := by
  rw [Dev.prbsLock, onChk_flag, (onChk_still _ _ _ _).2, Dev.setFld_kicks]
  exact ⟨Dev.flag_setFld _ _ _ (by decide), rfl⟩

/-- The 64th bit in a row locks the checker. -/
theorem prbsClean_locks {p : ChkPattern} {n : Nat} (h5 : d.flag (laneStatus k j) 5 = false) (hn : 64 ≤ (d.chk k j).run + n) :
    (d.prbsClean k j p n).flag (laneStatus k j) 5 = true ∧ (d.prbsClean k j p n).kicks = d.kicks := by
  unfold Dev.prbsClean
  extract_lets c locked d1 go
  have hlocked : locked = false := h5
  have hkicks : d1.kicks = d.kicks := (onChk_still _ _ _ _).2
  clear_value d1 locked
  have hgo (x : Dev) (pos m : Nat) : (go x pos m).flag (laneStatus k j) 5 = x.flag (laneStatus k j) 5 ∧ (go x pos m).kicks = x.kicks := by
    obtain ⟨hr, hk, -⟩ := prbsCount_apart x 0 ((pos + m) / 2 ^ 20 - pos / 2 ^ 20) (laneStatus_addr k j) (by decide)
    unfold go
    rw [onChk_flag, (onChk_still _ _ _ _).2, Dev.flag, hr, hk]
    exact ⟨rfl, rfl⟩
  clear_value go
  obtain ⟨hlock, hk⟩ := prbsLock_locks d1 k j
  rw [if_neg (by simp [hlocked]), if_pos hn, (hgo _ _ _).1, (hgo _ _ _).2]
  exact ⟨hlock, hk.trans hkicks⟩

/-- Fewer than 64 bits in a row leave it searching. -/
theorem prbsClean_seeks {p : ChkPattern} {n : Nat} (h5 : d.flag (laneStatus k j) 5 = false) (hn : (d.chk k j).run + n < 64) :
    (d.prbsClean k j p n).regs = d.regs ∧ (d.prbsClean k j p n).kicks = d.kicks := by
  unfold Dev.prbsClean
  extract_lets c locked d1 go seen
  have hlocked : locked = false := h5
  obtain ⟨hr1, hk1⟩ : d1.regs = d.regs ∧ d1.kicks = d.kicks := onChk_still d k j _
  obtain ⟨hr2, hk2⟩ := onChk_still d1 k j fun y => { y with run := c.run + n, ref := if p = .ssprq then seen else y.ref }
  rw [if_neg (by simp [hlocked]), if_neg (Nat.not_le.mpr hn)]
  exact ⟨hr2.trans hr1, hk2.trans hk1⟩

/-- A checker that lost its lock does not lock again with the next bit. -/
theorem prbsBit_seeks {p : ChkPattern} (b : Bool) (h5 : d.flag (laneStatus k j) 5 = false) (hrun : (d.chk k j).run = 0)
    (href : p = .ssprq → (d.chk k j).ref = 0) : (d.prbsBit k j p b).regs = d.regs ∧ (d.prbsBit k j p b).kicks = d.kicks := by
  unfold Dev.prbsBit
  extract_lets c locked good errs pos d1 x
  have hlocked : locked = false := h5
  have hx : p = .ssprq → ssprqPlace x = none := by
    rintro rfl
    have hx0 : x = ssprqSeen 0 b := congrArg (ssprqSeen · b) (href rfl)
    rw [ssprqPlace, if_pos]
    rw [hx0]
    cases b <;> decide
  clear_value x d1
  split
  · exact prbsClean_seeks h5 (by rw [hrun]; decide)
  · rw [if_neg (by simp [hlocked])]
    have hnone : (if p = .ssprq then ssprqPlace x else none) = none := by
      split
      next h => exact hx h
      next => rfl
    rw [hnone]
    exact onChk_still _ _ _ _

end

end Sys2Proof.Safety

end


section

namespace Sys2Proof.Safety

open Sys2Proof.Machine

section

variable {k : LaneKind} {j : Nat} {d : Dev}

theorem FrontKept.tf {d d' : Dev} (h : d.FrontKept d') (t : Nat) : d'.tf t = d.tf t := by
  have htf := congrArg RxState.tf h.rx
  exact congrArg (fun x : Table TfTree => x.getD t TfTree.rest) htf

/-- What a checker is once its lock is lost: it searches from the start, with PRBS_LOCK_LOST set (R98). -/
structure LockLost (k : LaneKind) (j : Nat) (p : ChkPattern) (d : Dev) : Prop where
  off : d.flag (laneStatus k j) 5 = false
  flag : d.flag (laneFlags k j) 8 = true
  run : (d.chk k j).run = 0
  ref : p = .ssprq → (d.chk k j).ref = 0

theorem prbsLoss_shows (d : Dev) (k : LaneKind) (j : Nat) : (d.prbsLoss k j).flag (laneStatus k j) 5 = false ∧
    (d.prbsLoss k j).flag (laneFlags k j) 8 = true ∧ ((d.prbsLoss k j).chk k j).run = 0 ∧ (d.prbsLoss k j).kicks = d.kicks ∧
    ∀ {r : Reg} {a : Nat}, r.addr = laneAt k a j → 0x60 ≤ a → a < 0x4000 → (d.prbsLoss k j).reg r = d.reg r := by
  rw [Dev.prbsLoss]
  generalize hx : (d.setFld (laneStatus k j) 5 5 0).onChk k j (fun c => { c with run := 0, pos := 0, errs := 0 }) = x
  have hst : x.flag (laneStatus k j) 5 = false := by
    rw [← hx, onChk_flag, Dev.flag, Dev.reg_setFld _ _ _ _ _ (by decide) (by decide), bit_putBits_zero]
  have hrun : (x.chk k j).run = 0 := by rw [← hx, chk_onChk]
  have hkicks : x.kicks = d.kicks := by rw [← hx, (onChk_still _ _ _ _).2, Dev.setFld_kicks]
  have hreg {r : Reg} {a : Nat} (hr : r.addr = laneAt k a j) (ha : 0x60 ≤ a) (ha' : a < 0x4000) : x.reg r = d.reg r := by
    rw [← hx, Dev.reg_congr (onChk_still _ _ _ _).1, Dev.reg_setFld_ne _ _ _ _ _ _]
    rw [laneStatus_addr, hr]
    exact laneAt_ne (by omega) (by decide) ha'
  clear hx
  refine ⟨?_, Dev.flag_raise _ (laneFlags_ob k j) (by decide), ?_, by rw [Dev.raise_kicks, hkicks], fun hr ha ha' => ?_⟩
  · rw [Dev.flag, Dev.raise_reg_ne _ _ _ _ (laneStatus_ob k j) (lane_apart k j)]
    exact hst
  · rw [chk_congr (Dev.raise_lx x _ _)]
    exact hrun
  · rw [Dev.raise_reg_ne _ _ _ _ (by rw [hr]; exact laneAt_ob k _ j) (by rw [laneFlags_addr, hr]; exact laneAt_ne (by omega) (by decide) ha')]
    exact hreg hr ha ha'

/-- The 16th error of a block: the lock is lost, and the error counted. -/
theorem prbsBit_loses {p : ChkPattern} {b : Bool} {er bl : Reg} (he : lanePrbsErr k j = some er) (hb : lanePrbsBlocks k j = some bl)
    (h5 : d.flag (laneStatus k j) 5 = true) (herrs : (d.chk k j).errs = 15) (hpos : (d.chk k j).pos % 1024 ≠ 0)
    (hbit : b ≠ p.next (d.chk k j).ref) : LockLost k j p (d.prbsBit k j p b) ∧ (d.prbsBit k j p b).kicks = d.kicks ∧
      (d.prbsBit k j p b).reg er = min (d.reg er + 1) 0xFFFFFFFF := by
  unfold Dev.prbsBit
  extract_lets c locked good errs pos d1 x
  have hlocked : locked = true := h5
  have hgood : good = false := by simp [good, c, hbit]
  have hfull : 16 ≤ errs := by simp [errs, c, herrs, hpos]
  have h1 : d1.kicks = d.kicks ∧ d1.reg er = min (d.reg er + 1) 0xFFFFFFFF := by
    obtain ⟨-, hk, -⟩ := prbsCount_apart (k := k) (j := j) d 1 (pos / 2 ^ 20 - c.pos / 2 ^ 20) (laneStatus_addr k j) (by decide)
    obtain ⟨hr1, hk1⟩ := onChk_still (d.prbsCount k j 1 (pos / 2 ^ 20 - c.pos / 2 ^ 20)) k j fun c =>
      { c with ref := p.go 1 c.ref, pos := pos, errs := errs }
    exact ⟨hk1.trans hk, (Dev.reg_congr hr1 er).trans (prbsCount_errs d _ _ he hb)⟩
  clear_value d1 x errs good locked
  obtain ⟨hk1, her1⟩ := h1
  obtain ⟨loff, lflag, lrun, lkicks, lreg⟩ := prbsLoss_shows d1 k j
  generalize hy : d1.prbsLoss k j = y at loff lflag lrun lkicks lreg
  obtain ⟨hr2, hk2⟩ := onChk_still y k j fun c => { c with ref := if p = .ssprq then 0 else c.ref }
  rw [if_neg (by simp [hgood]), if_pos hlocked, if_pos hfull]
  refine ⟨⟨by rw [onChk_flag, loff], by rw [onChk_flag, lflag], ?_, fun hp => ?_⟩, hk2.trans (lkicks.trans hk1), ?_⟩
  · rw [chk_onChk]
    exact lrun
  · rw [chk_onChk]
    exact if_pos hp
  · rw [Dev.reg_congr hr2, lreg (lanePrbsErr_addr he) (by decide) (by decide), her1]

/-- A lane with the levels that its remote loopback sends back (R101). -/
def withEcho (d : Dev) (k : LaneKind) (j : Nat) (rx : List Nat) : Dev :=
  if d.fld (laneCtl k j) 11 10 = 2 then d.onLx fun x => { x with echo := x.echo.set (laneKey k j) rx } else d

theorem withEcho_still (d : Dev) (k : LaneKind) (j : Nat) (rx : List Nat) : (withEcho d k j rx).regs = d.regs ∧
    (withEcho d k j rx).kicks = d.kicks ∧ (withEcho d k j rx).chk k j = d.chk k j := by
  unfold withEcho
  split <;> exact ⟨rfl, rfl, rfl⟩

section

variable {p : ChkPattern} (hk : k ≠ .pt) (hr : d.laneRole k j ≠ 0) (hon : d.rxOff k j = false) (hchk : d.flag (lanePrbsCtl k j) 5 = true)
  (hp : chkPattern (d.fld (lanePrbsCtl k j) 27 24) = some p)

include hk hr hon hchk hp

/-- Bits of the pattern alone reach the checker (R98). -/
theorem prbsRx_clean {same : Nat} (hs : same ≠ 0) :
    ∃ f, d.prbsRx k j same [] = ((withEcho d k j []).prbsClean k j p same).onChk k j f := by
  have hlv : d.rxLevels k j [] = [] := List.length_eq_zero_iff.mp (rxLevels_length d [])
  unfold Dev.prbsRx
  simp only [hp, hchk, hlv]
  rw [if_neg (by simp [hk, hr, hon])]
  simp only [Bool.not_true, Bool.false_eq_true, if_false, if_neg hs]
  have hbits : d.rxBits k j (none.getD 0) [] = [] := by simp [Dev.rxBits, deprecode]
  rw [hbits, List.foldl_nil]
  exact ⟨_, rfl⟩

/-- Levels reach the checker as their bits, where the level before them is known or not needed (R85, R98). -/
theorem prbsRx_bits (hprev : d.precodes k j 5 = true → (d.chk k j).prev ≠ none) (rx : List Nat) :
    ∃ f, d.prbsRx k j 0 rx =
      ((d.rxBits k j ((d.chk k j).prev.getD 0) (d.rxLevels k j rx)).foldl (fun d b => d.prbsBit k j p b) (withEcho d k j rx)).onChk k j f := by
  unfold Dev.prbsRx
  simp only [hp, hchk]
  rw [if_neg (by simp [hk, hr, hon])]
  simp only [Bool.not_true, Bool.false_eq_true, if_false, if_true]
  cases hq : (d.chk k j).prev with
  | none =>
    have hplain : d.precodes k j 5 = false := Bool.eq_false_iff.mpr fun h => hprev h hq
    cases d.rxLevels k j rx with
    | nil => exact ⟨_, rfl⟩
    | cons v vs =>
      simp only [hplain, Bool.false_eq_true, if_false]
      exact ⟨_, rfl⟩
  | some q => exact ⟨_, rfl⟩

end

/-- 64 bits of the pattern in a row lock a checker that searches (R98). -/
theorem prbsRx_locks {n : Nat} (hk : k ≠ .pt) (hr : d.laneRole k j ≠ 0) (hon : d.rxOff k j = false) (hchk : d.flag (lanePrbsCtl k j) 5 = true)
    (hp : (chkPattern (d.fld (lanePrbsCtl k j) 27 24)).isSome = true) (h5 : d.flag (laneStatus k j) 5 = false) (hn : 0 < n)
    (hrun : 64 ≤ (d.chk k j).run + n) : (d.prbsRx k j n []).kicks = d.kicks ∧ (d.prbsRx k j n []).flag (laneStatus k j) 5 = true := by
  obtain ⟨p, hp⟩ := Option.isSome_iff_exists.mp hp
  obtain ⟨er, ek, ec⟩ := withEcho_still d k j []
  obtain ⟨f, hf⟩ := prbsRx_clean hk hr hon hchk hp (Nat.pos_iff_ne_zero.mp hn)
  obtain ⟨hl, hlk⟩ := prbsClean_locks (d := withEcho d k j []) (p := p) (n := n)
    (by rw [Dev.flag, Dev.reg_congr er]; exact h5) (by rw [ec]; exact hrun)
  rw [hf, onChk_flag, (onChk_still _ _ _ _).2]
  exact ⟨hlk.trans ek, hl⟩

/-- LOL alone keeps the two bits of loss from reading 0. -/
theorem fld_ne_zero {r : Reg} (h : d.flag r 1 = true) : d.fld r 1 0 ≠ 0 := by
  simp only [Dev.flag, Dev.fld, bit, bits, beq_iff_eq] at h ⊢
  omega

/-- The bits of one level behind the 16th error of a block leave the checker without lock (R98). -/
theorem seeks_after {p : ChkPattern} (h : LockLost k j p d) (l : List Bool) (hl : l.length ≤ 1) :
    (l.foldl (fun d b => d.prbsBit k j p b) d).regs = d.regs ∧ (l.foldl (fun d b => d.prbsBit k j p b) d).kicks = d.kicks := by
  match l, hl with
  | [], _ => exact ⟨rfl, rfl⟩
  | [b], _ => exact prbsBit_seeks b h.off h.run h.ref

/-- The 16th error of a block, in the first bit of a level, takes the checker's lock (R98). -/
theorem prbsRx_loses {p : ChkPattern} {er bl : Reg} (he : lanePrbsErr k j = some er) (hb : lanePrbsBlocks k j = some bl)
    (hr : d.laneRole k j ≠ 0) (hon : d.rxOff k j = false) (hchk : d.flag (lanePrbsCtl k j) 5 = true)
    (hp : chkPattern (d.fld (lanePrbsCtl k j) 27 24) = some p) (h5 : d.flag (laneStatus k j) 5 = true) (herrs : (d.chk k j).errs = 15)
    (hpos : (d.chk k j).pos % 1024 ≠ 0) (hprev : d.precodes k j 5 = true → (d.chk k j).prev ≠ none) {v : Nat} {b : Bool}
    (hfirst : (d.rxBits k j ((d.chk k j).prev.getD 0) (d.rxLevels k j [v])).head? = some b) (hbit : b ≠ p.next (d.chk k j).ref) :
    (d.prbsRx k j 0 [v]).kicks = d.kicks ∧ (d.prbsRx k j 0 [v]).flag (laneStatus k j) 5 = false ∧
      (d.prbsRx k j 0 [v]).flag (laneFlags k j) 8 = true ∧ (d.prbsRx k j 0 [v]).reg er = min (d.reg er + 1) 0xFFFFFFFF := by
  have hk : k ≠ .pt := by
    rintro rfl
    cases he
  obtain ⟨er0, ek, ec⟩ := withEcho_still d k j [v]
  obtain ⟨f, hf⟩ := prbsRx_bits hk hr hon hchk hp hprev [v]
  have hlen := rxBits_length_le (k := k) (j := j) d ((d.chk k j).prev.getD 0) (d.rxLevels k j [v])
  rw [rxLevels_length] at hlen
  generalize hl : d.rxBits k j ((d.chk k j).prev.getD 0) (d.rxLevels k j [v]) = l at hfirst hlen hf
  match l, hfirst with
  | b' :: rest, hfirst =>
    obtain rfl : b' = b := Option.some.inj hfirst
    obtain ⟨hlost, hlk, hler⟩ := prbsBit_loses (d := withEcho d k j [v]) (p := p) (b := b') he hb
      (by rw [Dev.flag, Dev.reg_congr er0]; exact h5) (by rw [ec]; exact herrs) (by rw [ec]; exact hpos) (by rw [ec]; exact hbit)
    obtain ⟨sr, sk⟩ := seeks_after hlost rest (Nat.le_of_succ_le_succ hlen)
    rw [hf, List.foldl_cons, onChk_flag, onChk_flag, (onChk_still _ _ _ _).2, Dev.reg_congr (onChk_still _ _ _ _).1]
    simp only [Dev.flag, Dev.reg_congr sr]
    exact ⟨sk.trans (hlk.trans ek), hlost.off, hlost.flag, hler.trans (by rw [Dev.reg_congr er0])⟩

end

end Sys2Proof.Safety

open Sys2Proof Sys2Proof.Machine Sys2Proof.Safety

/-- Settles O23: each event's effect on its lane is computed on the device, and the step's end keeps the lane even where the port's new
state flushes queues. The order of eyes with equal margins in WORST_EYE is the model's choice (log entry 91), and so are the samples over which
a detector's time runs (log entry 90). -/
theorem laneEventsTakeEffect : Obligations.LaneEventsTakeEffect := by
  unfold Obligations.LaneEventsTakeEffect
  rintro s dt _ k j rfl hq hl hj hr
  refine ⟨fun h4 => ?unlock, fun h4 => ?relock, fun hk mv n sending stamped receiving hn =>
      ⟨fun h0 hmv hrun => ?los, fun h0 hon hmv hrun => ?losEnd⟩,
    fun hk ppm n hn h0 => ⟨fun h1 hppm hrun cut => ?lol, fun href h1 hppm hrun => ?lolEnd⟩, fun cfg res hc he h31 left right down up => ?eye,
    fun hk hon hchk hp h5 n hn hrun => ?lock, fun er bl p he hb hon hchk hp h5 herrs hpos hprev v b hfirst hbit => ?loss,
    ?rejoin, ?markers⟩
  case unlock =>
    obtain ⟨hkick, hst, hfl, hpt⟩ := pllUnlock_shows hr h4
    refine (answers_lane (f := fun d => d.pllUnlock k j) hq hl hj rfl hkick).imp fun d hd => ⟨?_, ?_, fun hk => ?_⟩
    · rw [Dev.flag, FrontKept.laneStatus hj hd]
      exact hst
    · exact FrontKept.laneFlag hj hd hfl
    · obtain ⟨hfault, htx⟩ := hpt hk
      rw [hd.lx, FrontKept.tf hd]
      exact ⟨hfault, htx⟩
  case relock =>
    obtain ⟨hkick, hst⟩ := pllRelock_shows hr h4
    refine (answers_lane (f := fun d => d.pllRelock k j) hq hl hj rfl hkick).imp fun d hd => ?_
    rw [Dev.flag, FrontKept.laneStatus hj hd]
    exact hst
  case los =>
    obtain ⟨hkick, him, hst, hfl⟩ := losSamples_sets hk hr hn h0 hmv hrun
    have hstand := laneFollow_stands hk hj ((s.dev.elapse dt).losSamples k j mv n) sending stamped receiving
    refine (answers_lane (f := fun d => (d.losSamples k j mv n).laneFollow k j sending stamped receiving) hq hl hj rfl
      (hstand.kicks.trans hkick)).imp fun d hd => ⟨?_, ?_, ?_⟩
    · rw [Dev.fld, FrontKept.laneStatus hj hd]
      exact hstand.signal.trans hst
    · exact FrontKept.laneFlag hj hd (hstand.flags hfl)
    · rintro rfl
      rw [Dev.flag, FrontKept.laneStatus hj hd]
      refine laneFollow_mate (by simpa [LaneKind.has] using hj) (by rw [laneRole_congr him]; exact hr) (Or.inl ?_) _ _ _
      rw [show Dev.fld _ (R .LX_ML_STATUS j) 1 0 = 3 from hst]
      decide
  case losEnd =>
    obtain ⟨hkick, h0', h1', hfl⟩ := losSamples_clears hk hr hn h0 hon hmv hrun
    have hstand := laneFollow_stands hk hj ((s.dev.elapse dt).losSamples k j mv n) sending stamped receiving
    refine (answers_lane (f := fun d => (d.losSamples k j mv n).laneFollow k j sending stamped receiving) hq hl hj rfl
      (hstand.kicks.trans hkick)).imp fun d hd => ⟨?_, ?_, ?_⟩
    · rw [Dev.flag, FrontKept.laneStatus hj hd]
      exact (hstand.bit (by decide)).trans h0'
    · rw [Dev.flag, FrontKept.laneStatus hj hd]
      exact (hstand.bit (by decide)).trans h1'
    · exact FrontKept.laneFlag hj hd (hstand.flags hfl)
  case lol =>
    obtain ⟨hkick, him, hst, hfl⟩ := lolSamples_sets hk hr hn h0 h1 hppm hrun
    have hstand := laneFollow_stands hk hj ((s.dev.elapse dt).lolSamples k j ppm n) cut.sending cut.stamped cut.receiving
    refine (answers_lane (f := fun d => (d.lolSamples k j ppm n).laneFollow k j cut.sending cut.stamped cut.receiving) hq hl hj rfl
      (hstand.kicks.trans hkick)).imp fun d hd => ⟨?_, ?_, ?_⟩
    · rw [Dev.flag, FrontKept.laneStatus hj hd]
      exact (hstand.bit (by decide)).trans hst
    · exact FrontKept.laneFlag hj hd (hstand.flags hfl)
    · rintro rfl
      rw [Dev.flag, FrontKept.laneStatus hj hd]
      exact laneFollow_mate (by simpa [LaneKind.has] using hj) (by rw [laneRole_congr him]; exact hr) (Or.inl (fld_ne_zero hst)) _ _ _
  case lolEnd =>
    obtain ⟨hkick, hst, hfl⟩ := lolSamples_clears hk hr hn h0 href h1 hppm hrun
    have hstand := laneFollow_stands hk hj ((s.dev.elapse dt).lolSamples k j ppm n) false false false
    refine (answers_lane (f := fun d => (d.lolSamples k j ppm n).laneFollow k j false false false) hq hl hj rfl
      (hstand.kicks.trans hkick)).imp fun d hd => ⟨?_, ?_⟩
    · rw [Dev.flag, FrontKept.laneStatus hj hd]
      exact (hstand.bit (by decide)).trans hst
    · exact FrontKept.laneFlag hj hd (hstand.flags hfl)
  case eye =>
    obtain ⟨hkick, hseq, hnum, hok, hhor, hver, hdone, hlow⟩ := eyeDone_shows hc he hr h31 (eyeSweeps left right down up)
    refine (answers_lane (f := fun d => d.eyeDone k j (eyeSweeps left right down up)) hq hl hj rfl hkick).imp fun d hd => ?_
    have hres := FrontKept.lane hj hd (laneEyeResult_addr he) (by decide) (by decide)
    simp only [Dev.fld, Dev.flag, hres]
    exact ⟨hseq, hnum, hok, hhor, hver, FrontKept.laneFlag hj hd hdone, fun h => FrontKept.laneFlag hj hd (hlow h)⟩
  case lock =>
    obtain ⟨hkick, hst⟩ := prbsRx_locks hk hr hon hchk hp h5 hn hrun
    refine (answers_lane (f := fun d => d.prbsRx k j n []) hq hl hj rfl hkick).imp fun d hd => ?_
    rw [Dev.flag, FrontKept.laneStatus hj hd]
    exact hst
  case loss =>
    obtain ⟨hkick, hst, hfl, herr⟩ := prbsRx_loses he hb hr hon hchk hp h5 herrs hpos hprev hfirst hbit
    refine (answers_lane (f := fun d => d.prbsRx k j 0 [v]) hq hl hj rfl hkick).imp fun d hd => ⟨?_, FrontKept.laneFlag hj hd hfl, ?_⟩
    · rw [Dev.flag, FrontKept.laneStatus hj hd]
      exact hst
    · rw [FrontKept.lane hj hd (lanePrbsErr_addr he) (by decide) (by decide)]
      exact herr
  case rejoin =>
    rintro rfl h7 hs0 h6 ⟨at_, hclean, hage⟩
    obtain ⟨hkick, hmem⟩ := mateRejoin_waits (mateRole hr) h7 hs0 h6 (by simp [Dev.mateReady, hclean, hage])
    refine (answers_lane (f := fun d => d.mateRejoin j) hq hl hj rfl hkick).imp fun d hd => ?_
    rw [hd.lx]
    exact hmem
  case markers =>
    rintro rfl hmiss
    obtain ⟨hkick, hlock, hdrop⟩ := markerLockLoss_shows (by simpa [LaneKind.has] using hj) (mateRole hr) hmiss
    refine (answers_lane (f := fun d => d.markerLockLoss j) hq hl hj rfl hkick).imp fun d hd => ?_
    simp only [Dev.flag, FrontKept.laneStatus hj hd]
    exact ⟨hlock, hdrop⟩

end


/-! The framer's upstream side (spec/04): what a burst leaves of the frame's counts and of the profiles. -/

section

namespace Sys2Proof.Safety

open Sys2Proof.Machine

/-! ### Keys (R351 to R354): a decryption touches no tree -/

/-- What the cipher engine does stays in it, in the copy to the mate and in observability. -/
abbrev KeyLeaves (d d' : Dev) : Prop := Leaves [.ce, .px, .ob] (fun _ => true) d d'

section

variable (d : Dev) (n : Nat)

theorem leaves_pxEvent (t : Nat) (r : CopyObj) : KeyLeaves d (d.pxEvent t r) := by
  unfold Dev.pxEvent
  extract_lets b
  exact Leaves.ite (Leaves.ite (leaves_onPx d _ (by decide)) ((leaves_onPx d _ (by decide)).trans (leaves_raise _ _ _ rfl))) (Leaves.refl d)

theorem leaves_onKey (f : KeySlot → KeySlot) : KeyLeaves d (d.onKey n f) := leaves_onCe d _ (by decide)

theorem leaves_setKeyState (st : KeyState) : KeyLeaves d (d.setKeyState n st) := by
  unfold Dev.setKeyState
  extract_lets pr was d1 d2
  have h1 : KeyLeaves d d1 := leaves_onCe d _ (by decide)
  have h2 : KeyLeaves d d2 := Leaves.ite (h1.trans (leaves_onCe d1 _ (by decide))) h1
  exact (h2.trans (Leaves.ite (Leaves.refl d2) (leaves_raiseRec d2 _ _ _ _ _ _ rfl (by decide)))).trans (leaves_pxEvent _ _ _)

theorem leaves_keyMemErr : KeyLeaves d (d.keyMemErr n) :=
  (((leaves_onCe d _ (by decide)).trans (leaves_setKeyState _ n .void)).trans
    (Leaves.ite (leaves_onCe _ _ (by decide)) (leaves_raise _ _ _ rfl))).trans (leaves_raiseRec _ _ _ _ _ _ _ rfl (by decide))

theorem leaves_keyUp (g idx bytes frame ecc : Nat) : KeyLeaves d (d.keyUp g idx bytes frame ecc).1 := by
  unfold Dev.keyUp
  extract_lets discard n d1
  have hdiscard (x : Dev) : KeyLeaves x (discard x).1 := by
    unfold discard
    dsimp only
    exact (leaves_raise x _ _ rfl).trans (leaves_count _ _)
  have h1 : KeyLeaves d d1 := Leaves.ite (leaves_onCe d _ (by decide)) (Leaves.ite (leaves_keyMemErr d n) (Leaves.refl d))
  clear_value d1 discard
  split
  · exact Leaves.refl d
  · split
    · exact hdiscard d
    · split
      · exact h1.trans (hdiscard d1)
      · exact h1.trans (hdiscard d1)
      · exact h1.trans ((leaves_onKey d1 n _).trans (leaves_onKey _ n _))

end

/-! ### What a burst leaves of the frame's counts -/

/-- A frame's number with its counts of bursts received and of bursts lost (R134). -/
def accTag (a : FrameAcc) : Nat × Nat × Nat := (a.frame, a.pmTree.getD 4 0, a.pmTree.getD 5 0)

/-- The frames of a tree under way with those counts, and the windows that wait to run on. -/
def burstTags (t : Nat) (d : Dev) : List (Nat × Nat × Nat) × List Nat := ((d.tf t).accs.map accTag, d.kicks)

/-- The same with the profiles. -/
def burstView (t : Nat) (d : Dev) : (List (Nat × Nat × Nat) × List Nat) × Table BProf := (burstTags t d, d.rx.profs)

section

variable {t : Nat} {d d' : Dev}

theorem burstView_congr (hr : d'.rx.sansCoop = d.rx.sansCoop) (hk : d'.kicks = d.kicks) : burstView t d' = burstView t d := by
  have htf : d'.rx.tf = d.rx.tf := by have h := congrArg RxState.tf hr; exact h
  have hprofs : d'.rx.profs = d.rx.profs := by have h := congrArg RxState.profs hr; exact h
  rw [burstView, burstTags, Dev.tf, htf, hprofs, hk]
  rfl

theorem burstView_leaves {ps : List Part} {reg : Nat → Bool} (h : Leaves ps reg d d') (hp : Part.rx ∉ ps) : burstView t d' = burstView t d :=
  burstView_congr (h.1.1.1 .rx hp) h.2

theorem burstView_onTf (d : Dev) (u : Nat) {f : TfTree → TfTree} (hf : ∀ x, (f x).accs.map accTag = x.accs.map accTag) :
    burstView t (d.onTf u f) = burstView t d := by
  have htf : ((d.onTf u f).tf t).accs.map accTag = (d.tf t).accs.map accTag := by
    simp only [Dev.tf, Dev.onTf, Dev.onRx_rx, Table.getD_put]
    split
    next h => rw [hf, h]
    next => rfl
  rw [burstView, burstTags, htf]
  rfl

theorem burstView_onAcc (d : Dev) (u frame : Nat) {f : FrameAcc → FrameAcc} (hf : ∀ a, accTag (f a) = accTag a) :
    burstView t (d.onAcc u frame f) = burstView t d :=
  burstView_onTf d u fun x => by
    rw [List.map_map]
    refine List.map_congr_left fun a _ => ?_
    rw [Function.comp_apply, apply_ite accTag, hf, ite_self]

theorem burstView_onTerm (d : Dev) (g : Nat) (f : Term → Term) : burstView t (d.onTerm g f) = burstView t d := rfl
theorem burstView_onRg (d : Dev) (u : Nat) (f : RgTree → RgTree) : burstView t (d.onRg u f) = burstView t d := rfl
theorem burstView_onGs (d : Dev) (u : Nat) (f : GsTree → GsTree) : burstView t (d.onGs u f) = burstView t d := rfl

theorem burstView_raise (d : Dev) (r : Reg) (b : Nat) : burstView t (d.raise r b) = burstView t d := burstView_congr (by simp) (by simp)
theorem burstView_count (d : Dev) (e : Nat) : burstView t (d.count e) = burstView t d := burstView_congr (by simp) (by simp)

theorem accTag_addTerm (a : FrameAcc) (slot i n : Nat) : accTag (a.addTerm slot i n) = accTag a := by
  unfold FrameAcc.addTerm
  extract_lets l
  split <;> rfl

/-- The tree counts behind those of bursts. -/
theorem accTag_addTree (a : FrameAcc) {i : Nat} (n : Nat) (hi : 6 ≤ i) : accTag (a.addTree i n) = accTag a := by
  simp [accTag, FrameAcc.addTree, List.getD_eq_getElem?_getD, show i ≠ 4 by omega, show i ≠ 5 by omega]

/-! ### Tracking and allocations (R123, R124, R166, R201) -/

theorem burstView_hwPush (d : Dev) (g kind value : Nat) : burstView t (d.hwPush g kind value).1 = burstView t d := by
  unfold Dev.hwPush
  extract_lets u bc seq d1
  split
  · exact burstView_count _ _
  · have h1 : burstView t d1 = burstView t d := rfl
    dsimp only
    split
    · exact h1
    · exact (burstView_onTerm d1 _ _).trans h1

theorem burstView_adjSend (d : Dev) (g : Nat) (delta : Int) (eqd : Nat) : burstView t (d.adjSend g delta eqd) = burstView t d := by
  unfold Dev.adjSend
  extract_lets p
  split <;> exact (burstView_onTerm _ _ _).trans (burstView_hwPush d g 1 eqd)

theorem burstView_track (d : Dev) (g : Nat) (off : Int) : burstView t (d.track g off) = burstView t d := by
  have hadjust : burstView t (d.adjust g off) = burstView t d := by
    unfold Dev.adjust
    extract_lets u x run d1 e
    have h1 : burstView t d1 = burstView t d := rfl
    clear_value d1
    split
    · exact (burstView_onTerm d1 _ _).trans h1
    · split
      · exact (burstView_adjSend d1 g _ _).trans h1
      · split
        · split
          · exact (burstView_raise d1 _ _).trans h1
          · exact (burstView_adjSend d1 g _ _).trans h1
        · exact h1
  unfold Dev.track
  split
  · exact hadjust
  · split
    · exact burstView_onTerm d _ _
    · extract_lets d1
      have h1 : burstView t d1 = burstView t d := rfl
      clear_value d1
      split
      · exact (burstView_onTerm _ _ _).trans ((burstView_hwPush d1 g 1 _).trans h1)
      · exact h1

theorem burstView_xgemDiscard (d : Dev) (u frame : Nat) : burstView t (d.xgemDiscard u frame) = burstView t d :=
  burstView_onAcc d u frame fun a => accTag_addTree a 1 (by decide)

theorem burstView_arrive (d : Dev) (u slot port : Nat) (bytes : List Byte) : burstView t (d.arrive u slot port bytes) = burstView t d := by
  unfold Dev.arrive Dev.seamIn
  extract_lets p d1
  have h1 : burstView t d1 = burstView t d := rfl
  clear_value d1
  split
  · exact (burstView_leaves (leaves_seamStall (ps := [.ob]) (reg := fun _ => true) d1 _ _ _) (by decide)).trans h1
  · exact h1

theorem burstView_xgem (d : Dev) (u frame slot : Nat) (x : XgemIn) : burstView t (d.xgem u frame slot x) = burstView t d := by
  unfold Dev.xgem
  split
  · rfl
  · split
    next p _ =>
      split
      · exact (burstView_raise _ _ _).trans (burstView_xgemDiscard d u frame)
      · split
        · exact burstView_xgemDiscard d u frame
        · have hkey := burstView_leaves (t := t) (leaves_keyUp d (512 * u + slot) x.key x.bytes.length frame x.ecc) (by decide)
          split
          next d0 pass heq =>
          rw [heq] at hkey
          split
          · exact (burstView_xgemDiscard d0 u frame).trans hkey
          · extract_lets d1 bytes
            have h1 : burstView t d1 = burstView t d0 :=
              burstView_onAcc d0 u frame fun a => (accTag_addTree _ 1 (by decide)).trans (accTag_addTerm a slot 8 1)
            clear_value d1
            split
            · refine (burstView_arrive _ u slot x.port bytes).trans (Eq.trans ?_ (h1.trans hkey))
              exact burstView_onTf d1 u fun _ => rfl
            · refine Eq.trans ?_ (h1.trans hkey)
              exact burstView_onTf d1 u fun _ => rfl
    next => exact (burstView_raise _ _ _).trans (burstView_xgemDiscard d u frame)

theorem burstView_report (d : Dev) (u id occ : Nat) (crcOk : Bool) (f : Nat) : burstView t (d.report u id occ crcOk f) = burstView t d := by
  unfold Dev.report
  split
  · exact burstView_raise _ _ _
  · split
    · rfl
    · exact burstView_onGs _ _ _

theorem burstView_implied (d : Dev) (u id w n f : Nat) : burstView t (d.implied u id w n f) = burstView t d := by
  unfold Dev.implied
  split
  · split
    · rfl
    · exact burstView_onGs _ _ _
  · rfl

theorem burstView_allocsIn (d : Dev) (u frame : Nat) (b : GBurst) (as : List AllocIn) : burstView t (d.allocsIn u frame b as) = burstView t d := by
  refine foldl_keeps (burstView t) _ (fun d a => ?_) as d
  extract_lets d1 d2
  have h1 : burstView t d1 = burstView t d := by
    unfold d1
    split
    · exact burstView_report d u _ _ _ _
    · exact burstView_implied d u _ _ _ _
  have h2 : burstView t d2 = burstView t d := (foldl_keeps (burstView t) _ (fun d x => burstView_xgem d u frame b.slot x) _ d1).trans h1
  split
  · exact (burstView_onAcc d2 u frame fun a => accTag_addTerm a _ _ _).trans h2
  · exact h2

end

end Sys2Proof.Safety

end


section

namespace Sys2Proof.Safety

open Sys2Proof.Machine

section

variable {d : Dev} {i : BurstIn} {b : GBurst} {o : Int × Nat} {a : FrameAcc}

/-- A data burst with power, lock and a delimiter that holds ends OK (R80, R81, R121). -/
theorem outcome_ok (hk : b.kind = .data) (hamp : 50 * d.fld (R .LX_PB_BURST_CFG i.tree) 7 0 ≤ i.amp)
    (hcdr : cdrQualifies b.cdrLimit 0 i.edges = true) (hdelim : d.delimit i.tree b (d.usCfg i.tree i.frame i.start) none i.cands = some o)
    (hheld : i.held = true) : d.outcome b i = (.ok, o.1) := by
  have hany (f : Option Int) : d.delimit i.tree b (d.usCfg i.tree i.frame i.start) f i.cands = some o := by
    rw [← hdelim]
    simp only [Dev.delimit, hk]
  rw [Dev.outcome, if_neg (Nat.not_lt.mpr hamp), if_neg (by simp [hcdr]), hany]
  simp [hheld]

/-- An OK data burst is counted among the bursts received (R134). -/
theorem accTag_countBurst (hk : b.kind = .data) (hlen : a.pmTree.length = 14) (hdr : Bool) :
    accTag (a.countBurst b i .ok hdr) = (a.frame, a.pmTree.getD 4 0 + 1, a.pmTree.getD 5 0) := by
  have hfirst : accTag (a.addTree 4 1) = (a.frame, a.pmTree.getD 4 0 + 1, a.pmTree.getD 5 0) := by
    simp [accTag, FrameAcc.addTree, List.getD_eq_getElem?_getD, hlen]
  unfold FrameAcc.countBurst
  extract_lets go a1 a2 a3
  have h2 : accTag a2 = accTag a1 := by
    unfold a2
    split
    · rw [accTag_addTree _ _ (by decide), accTag_addTree _ _ (by decide), accTag_addTree _ _ (by decide)]
    · rfl
  have h3 : accTag a3 = accTag a2 := accTag_addTerm _ _ _ _
  rw [if_neg (by simp [hk]), ← hfirst]
  split
  · rw [accTag_addTerm, accTag_addTerm, accTag_addTerm]
    exact h3.trans h2
  · exact h3.trans h2

theorem raiseIf_rx (d : Dev) (c : Bool) (r : Reg) (n : Nat) : (d.raiseIf c r n).rx = d.rx ∧ (d.raiseIf c r n).kicks = d.kicks := by
  unfold Dev.raiseIf
  split
  · exact ⟨by simp, by simp⟩
  · exact ⟨rfl, rfl⟩

/-- The account of a frame, changed, is among those under way. -/
theorem mem_burstTags_onAcc {t frame : Nat} {f : FrameAcc → FrameAcc} (ha : a ∈ (d.tf t).accs) (haf : a.frame = frame) :
    accTag (f a) ∈ (burstTags t (d.onAcc t frame f)).1 := by
  refine List.mem_map_of_mem ?_
  simp only [Dev.onAcc, Dev.tf, Dev.onTf, Dev.onRx_rx, Table.getD_put, if_true]
  exact List.mem_map.mpr ⟨a, ha, if_pos haf⟩

/-- A burst's profile handling leaves the counts of its frame. -/
theorem burstTags_profileBurst (d : Dev) (t g : Nat) (i : BurstIn) (e : BurstEnd) (ok carried : Bool) (off : Int) :
    burstTags t (d.profileBurst g i e ok carried off) = burstTags t d := by
  have hprof (x : Dev) (f : BProf → BProf) : burstTags t (x.onProf g f) = burstTags t x := rfl
  have hclear (x : Dev) : burstTags t (x.profClear g) = burstTags t x := rfl
  have hinvalid : burstTags t (d.invalidate g 1) = burstTags t d := by
    rw [Dev.invalidate, hclear]
    split
    · exact congrArg Prod.fst (burstView_count d _)
    · rfl
  unfold Dev.profileBurst
  split
  · split
    · exact hprof _ _
    · split
      · exact hinvalid
      · rfl
  · split
    · rfl
    · split
      · exact hprof _ _
      · exact hprof _ _

/-- What an OK burst's measurements are in a profile that it wrote back (R171). -/
def WrittenBack (p : BProf) (i : BurstIn) (off : Int) : Prop :=
  p.amp = i.amp ∧ p.dc = i.dc ∧ p.phase = i.phase % 64 ∧ p.taps = i.taps ∧ p.arr = off

theorem writeBack_writes {g : Nat} (i : BurstIn) (off : Int) (hv : (d.prof g).valid = true) : WrittenBack ((d.writeBack g i off).prof g) i off := by
  have hv' : (d.rx.profs.getD g BProf.rest).valid = true := hv
  simp [WrittenBack, Dev.prof, Dev.writeBack, Dev.onProf, Table.getD_put, hv']

/-- An OK data burst of an ACTIVE tree counts with its frame, and writes its values back to the profile in force. -/
theorem burst_ok (hb : d.findBurst i.tree i.frame i.start = some b) (hk : b.kind = .data) (hact : (d.tf i.tree).state = .active)
    (hlit : d.lit i.tree = true) (ha : a ∈ (d.tf i.tree).accs) (haf : a.frame = i.frame) (hlen : a.pmTree.length = 14)
    (hout : d.outcome b i = (.ok, o.1)) : (d.burst i).kicks = d.kicks ∧
      (i.frame, a.pmTree.getD 4 0 + 1, a.pmTree.getD 5 0) ∈ (burstTags i.tree (d.burst i)).1 ∧
      ∀ u, d.lx.pbSetup.get? i.tree = some u → u.burst.frame = i.frame → u.burst.start = i.start → u.profile.isSome = true →
        (d.prof (512 * i.tree + b.slot)).valid = true → WrittenBack ((d.burst i).prof (512 * i.tree + b.slot)) i o.1 := by
  obtain ⟨acc, hacc⟩ : ∃ acc, d.accOf i.tree i.frame = some acc :=
    Option.isSome_iff_exists.mp (List.find?_isSome.mpr ⟨a, ha, by simpa using haf⟩)
  generalize hx : d.burst i = x
  unfold Dev.burst at hx
  extract_lets t st mine carried at hx
  simp -zeta only [t, hb, hacc] at hx
  extract_lets resp g hdr deline ok ranged silent lost d1 d2 d2' d4 d5 d6 at hx
  have hst : st = .active := hact
  have hok : (d.outcome b i).1 = .ok := by rw [hout]
  rw [if_neg (by simp [hst, hlit, hk]), if_neg (by simp [hok])] at hx
  obtain ⟨hrx1, hkicks1⟩ : d1.rx = d.rx ∧ d1.kicks = d.kicks := by
    obtain ⟨hr, hk⟩ := raiseIf_rx (d.count (0x340 + 6 * i.tree + burstCode (d.outcome b i).1)) (mine.any PbSetup.late) (R .LX_PB_FLAGS i.tree) 11
    exact ⟨hr.trans (by simp), hk.trans (by simp)⟩
  obtain ⟨f, hf, h2⟩ : ∃ f, (∀ c, accTag (f c) = accTag (c.countBurst b i .ok hdr)) ∧ d2' = d1.onAcc t i.frame f := by
    refine ⟨_, fun c => ?_, (if_neg (by simp [hk])).trans (if_neg (by simp [silent, hst]))⟩
    exact congrArg (fun e => accTag (c.countBurst b i e hdr)) hok
  have htags : burstTags t d4 = burstTags t d2' :=
    (congrArg (burstTags t) (if_pos (by simp [hk]))).trans (burstTags_profileBurst d2' t g i _ ok carried _)
  have hprofs : d2'.rx.profs = d.rx.profs := by
    rw [h2, ← hrx1]
    rfl
  have hview : burstView t x = burstView t d4 := by
    have h5 : burstView t d5 = burstView t d4 := by
      unfold d5
      split
      · exact burstView_track d4 g _
      · rfl
    rw [← hx, ← h5]
    unfold d6
    split
    · exact burstView_allocsIn d5 _ _ _ _
    · rfl
  have hx4 : burstTags t x = burstTags t d2' := (congrArg Prod.fst hview).trans htags
  refine ⟨(congrArg Prod.snd hx4).trans ?_, ?_, fun u hu huf hus hup hv => ?_⟩
  · rw [h2]
    exact hkicks1
  · rw [hx4, h2, ← haf, ← accTag_countBurst hk hlen hdr (i := i), ← hf]
    refine mem_burstTags_onAcc ?_ rfl
    rw [Dev.tf, hrx1]
    exact ha
  · have hcarried : carried = true := by simp [carried, mine, t, hu, huf, hus, hup]
    have h4 : d4 = d2'.writeBack g i o.1 := by
      refine (if_pos (by simp [hk])).trans ?_
      rw [Dev.profileBurst, if_pos hcarried, if_pos (by simp [ok, hok]), hout]
    have hlast : x.rx.profs = d4.rx.profs := congrArg Prod.snd hview
    rw [Dev.prof, hlast, ← Dev.prof, h4]
    refine writeBack_writes i o.1 ?_
    rw [Dev.prof, hprofs]
    exact hv

end

end Sys2Proof.Safety

end


section

namespace Sys2Proof.Safety

open Sys2Proof.Machine

/-! ### The registers of a tree's framer and ranging engine -/

/-- They lie below the packet classifier, and the step's end reports in none of them. -/
theorem treeReg_low {t off : Nat} (ht : t < 64) (ho : off < 0x48000) :
    treeBase t + off < 0x1800000 ∧ reportAddr (treeBase t + off) = false := by
  have hb : treeBase t + off < 0x1800000 ∧ 0x1000000 ≤ treeBase t + off := by
    unfold treeBase
    omega
  have hm : (treeBase t + off) % 0x100000 < 0x80000 := by
    unfold treeBase
    omega
  generalize treeBase t + off = a at hb hm
  refine ⟨hb.1, ?_⟩
  simp only [reportAddr, obAddr, Bool.or_eq_false_iff, Bool.and_eq_false_iff, decide_eq_false_iff_not, beq_eq_false_iff_ne]
  omega

section

variable {d : Dev} {t : Nat}

/-! ### Ungranted energy (R82, R188) -/

/-- Energy that no granted data burst covers is strong where it passes the threshold for 32 bits. -/
theorem strongEnergy_of_clear {frame pos amp len : Nat} (hamp : 50 * d.fld (R .LX_PB_BURST_CFG t) 7 0 < amp) (hlen : 32 ≤ len)
    (h : ∀ m ∈ (d.gs t).sent, ∀ b ∈ m.bursts, b.kind = .data →
      (m.frame = frame → 32 * b.fin ≤ pos ∨ (pos : Int) + 32 ≤ b.a - 32) ∧
      (m.frame = frame + 1 → (pos : Int) + 32 ≤ d.frameBits t + b.a - 32)) : d.strongEnergy t frame pos amp len = true := by
  unfold Dev.strongEnergy
  extract_lets bursts clear
  have hmem (n : Nat) (b : GBurst) (hb : b ∈ bursts n) : ∃ m ∈ (d.gs t).sent, m.frame = n ∧ b ∈ m.bursts := by
    unfold bursts at hb
    cases hf : (d.gs t).sent.find? fun m => m.frame == n with
    | none => simp [hf] at hb
    | some m =>
      have hframe := List.find?_some hf
      exact ⟨m, List.mem_of_find?_eq_some hf, beq_iff_eq.mp hframe, by simpa [hf] using hb⟩
  have hclear (b : GBurst) (p : Int) (hb : b.kind = .data → 32 * (b.fin : Int) ≤ p ∨ p + 32 ≤ b.a - 32) : clear b p = true := by
    by_cases hk : b.kind = .data
    · simp [clear, hk, hb hk]
    · simp [clear, hk]
  rw [Bool.and_eq_true, Bool.and_eq_true, decide_eq_true_eq, List.all_eq_true, List.all_eq_true]
  refine ⟨⟨⟨hamp, hlen⟩, fun b hb => hclear b _ fun hk => ?_⟩, fun b hb => hclear b _ fun hk => ?_⟩
  · obtain ⟨m, hm, hframe, hbm⟩ := hmem _ b hb
    have := (h m hm b hbm hk).1 hframe
    omega
  · obtain ⟨m, hm, hframe, hbm⟩ := hmem _ b hb
    have := (h m hm b hbm hk).2 hframe
    omega

/-- Energy outside bursts and discovery windows shows its position. -/
theorem energy_shows {frame pos : Nat} (hs : (d.tf t).state ≠ .off) (hl : d.lit t = true)
    (hw : d.inDiscSpan t (frame * d.frameBits t + pos) = false) :
    (d.energy t frame pos).kicks = d.kicks ∧ (d.energy t frame pos).fld (R .RG_ROGUE_STATUS t) 20 0 = pos % 2 ^ 21 := by
  unfold Dev.energy
  extract_lets u name d1
  have h1 : d1.kicks = d.kicks ∧ d1.fld (R .RG_ROGUE_STATUS t) 20 0 = pos % 2 ^ 21 :=
    ⟨by simp [d1, Dev.countRx], Dev.fld_setFld _ _ _ _ _ (by decide) (by decide)⟩
  have hpm : (d1.pmTree t 12 1).kicks = d1.kicks ∧ (d1.pmTree t 12 1).regs = d1.regs := by
    unfold Dev.pmTree Dev.pmAdd
    split <;> exact ⟨rfl, rfl⟩
  clear_value d1
  rw [if_neg (by simp [hs, hl, hw, u])]
  split
  · exact h1
  · rw [Dev.fld, Dev.onRg, Dev.reg_congr (d := d1) (by rw [Dev.onRx_regs, hpm.2]), Dev.onRx_kicks, hpm.1]
    exact h1

theorem pxEnergy_still (d : Dev) (t : Nat) : (d.pxEnergy t).kicks = d.kicks ∧ (d.pxEnergy t).regs = d.regs := by
  unfold Dev.pxEnergy
  split <;> exact ⟨rfl, rfl⟩

theorem pxBurst_still (d : Dev) (i : BurstIn) : (d.pxBurst i).kicks = d.kicks ∧ (d.pxBurst i).rx = d.rx := by
  unfold Dev.pxBurst
  extract_lets st lim
  split <;> exact ⟨rfl, rfl⟩

/-! ### Reassembly (R124) -/

theorem reasmTimeout_discards {port : Nat} {p : OpenPkt} (hp : (d.tf t).openPkts.get? port = some p)
    (hage : max 1 (bits (d.usCfgNow t) 15 8) ≤ p.age) :
    (d.reasmTimeout t port).kicks = d.kicks ∧ ((d.reasmTimeout t port).tf t).openPkts.get? port = none := by
  unfold Dev.reasmTimeout
  rw [hp]
  dsimp only
  rw [if_pos (show atLeast1 (bits (d.usCfgNow t) 15 8) ≤ p.age from hage)]
  generalize hx : (d.onTf t fun y => { y with openPkts := y.openPkts.erase port }) = x
  have h : x.kicks = d.kicks ∧ (x.tf t).openPkts.get? port = none := by
    rw [← hx]
    exact ⟨rfl, by simp [Dev.tf, Dev.onTf]⟩
  unfold Dev.pmTree Dev.pmAdd
  split <;> exact h

/-! ### Performance history (R135) -/

/-- A closed bin enters the history of its kind. -/
def histTake (p : PmReach) (w : Bool × PmClosed) : PmReach :=
  if w.1 then { p with histDay := some w.2 } else { p with hist := (w.2 :: p.hist).take 32 }

/-- A reach whose closed bins have reached the history. -/
def histTaken (p : PmReach) : PmReach := p.waiting.foldl histTake { p with waiting := [] }

/-- PM_CLOSED sets for each of the trees. -/
theorem flag_foldl_tfFlags {l : List Nat} (hl : ∀ t ∈ l, t < 64) (ht : t < 64) {b : Nat} (hb : b < 32) (d : Dev)
    (h : t ∈ l ∨ d.flag (R .TF_FLAGS t) b = true) : (l.foldl (fun d t => d.raise (R .TF_FLAGS t) b) d).flag (R .TF_FLAGS t) b = true := by
  induction l generalizing d with
  | nil => exact h.resolve_left List.not_mem_nil
  | cons u l ih =>
    refine ih (fun t ht => hl t (List.mem_cons_of_mem _ ht)) _ ?_
    have ho : obAddr (R .TF_FLAGS t).addr = false := reportAddr_ob (treeReg_low (off := 4) ht (by decide)).2
    by_cases hu : u = t
    · subst hu
      exact Or.inr (Dev.flag_raise d ho hb)
    · refine h.imp (fun hm => (List.mem_cons.mp hm).resolve_left (Ne.symm hu)) fun hf => ?_
      rw [Dev.flag, Dev.raise_reg_ne _ _ _ _ ho]
      · exact hf
      · have := hl u List.mem_cons_self
        show treeBase u + 4 ≠ treeBase t + 4
        unfold treeBase
        omega

theorem pmHistoryWrite_shows {r : Nat} (hr : r < 8) (hw : (d.pm r).waiting ≠ []) :
    (d.pmHistoryWrite r).kicks = d.kicks ∧
      (d.pmHistoryWrite r).pm r = histTaken (d.pm r) ∧
      ∀ t < 64, t / 8 = r → d.treeExists t = true → (d.pmHistoryWrite r).flag (R .TF_FLAGS t) 5 = true := by
  unfold Dev.pmHistoryWrite
  extract_lets p d1 d2
  have h1 : d1.kicks = d.kicks ∧ d1.rx = d.rx ∧ d1.im = d.im := by
    unfold d1 Dev.resWrite
    split
    · split <;> exact ⟨rfl, rfl, rfl⟩
    · exact ⟨rfl, rfl, rfl⟩
  clear_value d1
  obtain ⟨hk1, hrx1, him1⟩ := h1
  have hpm : d2.pm r = histTaken p := by
    have hp1 : d1.pm r = p := by
      unfold p
      rw [Dev.pm, Dev.pm, hrx1]
    rw [← hp1]
    simp only [d2, Dev.pm, Dev.onPm, Dev.onRx_rx, Table.getD_put, if_true]
    rfl
  have h2 : d2.kicks = d.kicks ∧ d2.im = d.im := ⟨hk1, him1⟩
  clear_value d2
  obtain ⟨hk2, him2⟩ := h2
  have htrees : ∀ t ∈ (treesOf r).filter d2.treeExists, t < 64 := fun t ht => by
    obtain ⟨i, hi, rfl⟩ := List.mem_map.mp (List.mem_filter.mp ht).1
    have := List.mem_range.mp hi
    omega
  have hkeep (x : Dev) (l : List Nat) : (l.foldl (fun d t => d.raise (R .TF_FLAGS t) 5) x).kicks = x.kicks ∧
      (l.foldl (fun d t => d.raise (R .TF_FLAGS t) 5) x).rx = x.rx :=
    ⟨foldl_keeps (·.kicks) _ (fun x t => by simp) l x, foldl_keeps (·.rx) _ (fun x t => by simp) l x⟩
  rw [if_neg (by simpa [p] using hw), Dev.pm, (hkeep _ _).1, (hkeep _ _).2]
  refine ⟨hk2, hpm, fun t ht hreach hex => flag_foldl_tfFlags htrees ht (by decide) d2 (Or.inl ?_)⟩
  refine List.mem_filter.mpr ⟨List.mem_map.mpr ⟨t % 8, List.mem_range.mpr (by omega), by omega⟩, ?_⟩
  have hsame : d2.treeExists t = d.treeExists t := by simp only [Dev.treeExists, Dev.reachExists, him2]
  rw [hsame]
  exact hex

/-- The waiting bins go, and one that waits alone is the first of its kind. -/
theorem histTaken_shows (p : PmReach) : (histTaken p).waiting = [] ∧
    (∀ c, p.waiting = [(false, c)] → (histTaken p).hist = (c :: p.hist).take 32) ∧
    ∀ c, p.waiting = [(true, c)] → (histTaken p).histDay = some c := by
  refine ⟨foldl_keeps (·.waiting) histTake (fun q w => ?_) _ _, fun c hc => ?_, fun c hc => ?_⟩
  · unfold histTake
    split <;> rfl
  · rw [histTaken, hc]
    rfl
  · rw [histTaken, hc]
    rfl

theorem FrontKept.pm {d d' : Dev} (h : d.FrontKept d') (r : Nat) : d'.pm r = d.pm r := by
  have hpm := congrArg RxState.pm h.rx
  exact congrArg (fun x : Table PmReach => x.getD r PmReach.rest) hpm

theorem FrontKept.profs {d d' : Dev} (h : d.FrontKept d') : d'.rx.profs = d.rx.profs := by
  have hprofs := congrArg RxState.profs h.rx
  exact hprofs

end

end Sys2Proof.Safety

open Sys2Proof Sys2Proof.Machine Sys2Proof.Safety

/-- Settles O27: the counts of a burst's frame and the profile in force stand through the rest of the burst, and the step's end keeps the framing
whatever the distributing sets do. -/
theorem framingEventsTakeEffect : Obligations.FramingEventsTakeEffect := by
  unfold Obligations.FramingEventsTakeEffect
  rintro s dt _ rfl hq
  refine ⟨fun ha t ht hlit => ⟨?burst, ?energy⟩, fun ha t ht port hport p hp hage => ?reasm, fun ha r hr hw => ?pm, fun hq0 src t ho => ?pop⟩
  case burst =>
    rintro i b o a rfl hact hb hk hacc haf hlen hamp hcdr hdelim hheld
    obtain ⟨hkicks, hcount, hprof⟩ := burst_ok hb hk hact hlit hacc haf hlen (outcome_ok hk hamp hcdr hdelim hheld)
    obtain ⟨pk, prx⟩ := pxBurst_still ((s.dev.elapse dt).burst i) i
    refine (answers_event_front (can := fun d => d.alive && decide (i.tree < 64)) (f := fun d => (d.burst i).pxBurst i) rfl
      (by simp [ha, ht]) (pk.trans (hkicks.trans hq.1))).imp fun d hd => ⟨?_, ?_⟩
    · have htf : (d.tf i.tree).accs = (((s.dev.elapse dt).burst i).tf i.tree).accs := by
        rw [FrontKept.tf hd, Dev.tf, prx, ← Dev.tf]
      obtain ⟨x, hx, htag⟩ := List.mem_map.mp hcount
      simp only [accTag, Prod.mk.injEq] at htag
      exact ⟨x, by rw [htf]; exact hx, htag⟩
    · intro u hu huf hus hup hv
      have hp : d.prof (512 * i.tree + b.slot) = ((s.dev.elapse dt).burst i).prof (512 * i.tree + b.slot) := by
        rw [Dev.prof, FrontKept.profs hd, prx, ← Dev.prof]
      rw [hp]
      exact hprof u hu huf hus hup hv
  case energy =>
    intro frame pos amp len hs hamp hlen hclear hw
    have hstrong := strongEnergy_of_clear hamp hlen hclear
    obtain ⟨hkicks, hpos⟩ := energy_shows hs hlit hw
    obtain ⟨pk, pr⟩ := pxEnergy_still ((s.dev.elapse dt).energy t frame pos) t
    have hf : (if (s.dev.elapse dt).strongEnergy t frame pos amp len then ((s.dev.elapse dt).energy t frame pos).pxEnergy t else s.dev.elapse dt) =
        ((s.dev.elapse dt).energy t frame pos).pxEnergy t := if_pos hstrong
    refine (answers_event_front (can := fun d => d.alive && decide (t < 64))
      (f := fun d => if d.strongEnergy t frame pos amp len then (d.energy t frame pos).pxEnergy t else d) rfl (by simp [ha, ht])
      ((congrArg Dev.kicks hf).trans (pk.trans (hkicks.trans hq.1)))).imp fun d hd => ?_
    obtain ⟨hlow, hrep⟩ := treeReg_low (off := 0x4001C) ht (by decide)
    rw [Dev.fld, hd.reg (r := R .RG_ROGUE_STATUS t) hlow hrep, hf, Dev.reg_congr pr]
    exact hpos
  case reasm =>
    obtain ⟨hkicks, hgone⟩ := reasmTimeout_discards hp hage
    refine (answers_event_front (can := fun d => d.alive && decide (t < 64) && decide (port < 65536)) (f := fun d => d.reasmTimeout t port) rfl
      (by simp [ha, ht, hport]) (hkicks.trans hq.1)).imp fun d hd => ?_
    rw [FrontKept.tf hd]
    exact hgone
  case pm =>
    obtain ⟨hkicks, hpm, hflag⟩ := pmHistoryWrite_shows hr hw
    obtain ⟨hempty, hquarter, hday⟩ := histTaken_shows ((s.dev.elapse dt).pm r)
    refine (answers_event_front (can := fun d => d.alive && decide (r < 8)) (f := fun d => d.pmHistoryWrite r) rfl
      (by simp [ha, hr]) (hkicks.trans hq.1)).imp fun d hd => ?_
    rw [FrontKept.pm hd, hpm]
    refine ⟨hempty, hquarter, hday, fun t ht hreach hex => ?_⟩
    obtain ⟨hlow, hrep⟩ := treeReg_low (off := 4) ht (by decide)
    rw [Dev.flag, hd.reg (r := R .TF_FLAGS t) hlow hrep]
    exact hflag t ht hreach hex
  case pop =>
    refine (answers_write (ps := [.rx]) (reg := fun _ => false) (fun _ => 1) hq0 ho rfl (leaves_defectPop s.dev t (by decide))
      (lagApart_none (by decide) (by decide))).imp ?_
    rintro d ⟨hd, -⟩
    rw [FrontKept.tf hd.front]
    show (((s.dev).defectPop t).tf t).events = _
    simp [Dev.defectPop, Dev.tf, Dev.onTf]

end
